-- ==== Sys2Proof/Word.lean ====
section
/-! DEFINITION. The word types of the Graticule model and the sparse table type. -/

namespace Sys2Proof

/-- One byte. -/
abbrev Byte := BitVec 8

/-- A 64-bit word: a register, a record word or a payload. -/
abbrev Word := BitVec 64

/-- A meridian value, a count of 1 ns ticks (R28). -/
abbrev Time := BitVec 64

/-- A unit number (24 bits wherever it is stored; R50). -/
abbrev Uno := Nat

/-- A context number, 0 to 4,095 (R322). -/
abbrev Ctx := Nat

/-- A sparse table by key: keys strictly rising, no entry equal to the default (see `Tbl.wf`). -/
abbrev Tbl (α : Type) := List (Nat × α)

end Sys2Proof
end

