-- ==== Sys2Proof/Syntax.lean ====
section
/-! DEFINITION. The commands of the block: one constructor of `Instr` per row of the opcode table, and the
plain records that commands carry. A Quill constructor carries its engine (a post index, or 128 for the root
engine) and bits [23:0] of its instruction word (Table QE-2). -/

namespace Sys2Proof

/-- The path a register access takes: BAR0, or the packets of the port session (R297, R374). -/
inductive Path where
  | bar
  | port
deriving DecidableEq, Repr

/-- Which part of CMP_MERIDIAN a read names (R47). -/
inductive MerPart where
  | low
  | high
  | whole
deriving DecidableEq, Repr

/-- The session a judged command acts for, the queue it came from (`none`: the port) and its TAG (Table HO-2);
`notify` is FLAGS bit 2; `resLen` and `resAddr` are RES_LEN and RES_ADDR. -/
structure CmdCtx where
  session : Nat
  queue   : Option Nat
  tag     : Word
  notify  : Bool
  resLen  : Nat
  resAddr : Nat
deriving DecidableEq, Repr

/-- A cartouche record with the CTXID that travels beside it (R194). `firstT` keeps the full meridian
value; the stored form keeps its bits [59:0]. -/
structure Rec where
  cls     : Nat
  sat     : Bool
  spanSat : Bool
  lone    : Bool
  spanE   : Nat
  spanM   : Nat
  code    : Nat
  hash    : BitVec 32
  count   : Nat
  first   : Uno
  last    : Uno
  firstT  : BitVec 60
  dies    : BitVec 64
  ctx     : Ctx
deriving DecidableEq, Repr

/-- A flit that meets a router port or a boundary queue (Table FO-11, MARGIN). -/
structure Flit where
  src     : Uno
  dst     : Uno
  vc      : Nat
  payload : List Byte
  sentT   : Time
deriving DecidableEq, Repr

/-- One active lane's access of a load or store (R132). -/
structure Lane where
  addr  : Nat
  width : Nat
  data  : Word
deriving DecidableEq, Repr

/-- What a station comparator is offered (R135): an issue of a core of its cluster, a data access of one,
or a transfer of the cluster's DMA engines. -/
inductive ScmpEvent where
  | issue  (core : Nat) (tg : Nat) (addr : Nat)
  | access (core : Nat) (tg : Nat) (store : Bool) (lanes : List Lane)
  | dma    (store : Bool) (lane : Lane)
deriving DecidableEq, Repr

/-- Where a chain sequencer sits (Table BW-1). -/
inductive Holder where
  | tap     (core : Uno)
  | station (cluster : Uno)
  | post    (p : Nat)
deriving DecidableEq, Repr

/-- What a capture engine reads for one block (R163, R172): the raw bytes, or the reason there are none. -/
inductive BlockSource where
  | bytes  (raw : List Byte)
  | eccError
deriving DecidableEq, Repr

/-- A post's write-combining buffer entries that a drain left undrained (R187). -/
structure Undrained where
  post  : Nat
  lines : Nat
deriving DecidableEq, Repr

/-- An inkwell-region store of one instruction: the lowest active lane's offset in the region, its width in
bytes (0: an empty byte mask) and its data (R249). -/
structure InkStore where
  lane  : Nat
  off   : Nat
  width : Nat
  data  : Word
deriving DecidableEq, Repr

/-- What the AON sampler decodes of the one-wire line up to the end of a frame (R309): whole words, the half-bit measured
from the preamble in AON cycles, and whether the frame broke off inside a byte or a word (Table PT-6). On a scan port the
words come by LEDGER_WORD, and this operand is not read. -/
structure LineFrame where
  words   : List Word
  halfbit : Nat
  broken  : Bool
deriving DecidableEq, Repr

/-- The samples a post holds of one object of its bank at a snapshot time are state; the outcome of the
argument fetch of a taken command (R378 step 5) is the command's operand. -/
inductive ArgFetch where
  | ok (bytes : List Byte)
  | error
deriving DecidableEq, Repr

/-- What the taps read of the accelerator at a snapshot time (R227): pending-operation queue depths of objects, the
resident thread groups, the cores with memory requests outstanding, the clusters with a busy DMA engine, an armed
timer or a flit of the partition, and the contexts with a waiting submission entry or a latched doorbell. -/
structure AccelSample where
  queued : List (Uno × Nat)
  residents : List Uno
  busyCores : List Uno
  busyClusters : List Uno
  hostCtxs : List Ctx
deriving DecidableEq, Repr

/-- The commands: register accesses, events and operations, one per row of the opcode table. -/
inductive Instr where
  -- register access and start-up
  | registerWrite (p : Path) (addr : Nat) (w8 : Bool) (v : Word)
  | reservedSpaceAccess (p : Path) (addr : Nat) (ctx : Ctx)
  | cmpMeridianRead (p : Path) (part : MerPart)
  | postWindowAccess (p : Path) (post : Nat) (off : Nat) (w8 : Bool) (wr : Option Word)
  | postNoAnswer (p : Path) (post : Nat)
  | iwAccess (p : Path) (ap : Nat) (off : Nat) (w8 : Bool) (wr : Option Word) (answer : Option Word)
  | packagePowerOn
  | aonResetRelease
  | lifecycleDecide
  | bootSelfTest (okA okB : Bool)
  | bootSlotSelect (verifyA verifyB : Bool)
  | hbmReady (ctrl : Nat) (bad : BitVec 32)
  | hbmReadyTimeout (ctrl : Nat)
  | enumerationClose (dead : List Uno)
  | coreRelease
  | hubColdReset (c : CmdCtx) (undrained : List Undrained)
  | hubWarmReset (c : CmdCtx) (undrained : List Undrained)
  | postRestart (c : CmdCtx) (post : Nat) (undrained : Nat)
  | postRestartDone (post : Nat) (pass : Bool)
  | packageWarmReset
  | coreSleep (core : Uno)
  | coreWakeRequest (core : Uno)
  | creditRefill
  | epoch
  | meridianLoadFlit (die : Nat) (value : Time)
  | linkRetrain (near far : Nat) (failed : Bool)
  | pllUnlock (die : Nat)
  | pllRelock (die : Nat)
  | relockReport (die : Nat)
  | meridianWrap
  | latticeHaltPulse (chan : Nat) (die : Nat) (sentT : Time)
  | xtrigPulse (die : Nat)
  | postPower (c : CmdCtx) (post : Nat) (action : Nat)
  | postWakeDone (post : Nat) (pass : Bool)
  | updActivate (c : CmdCtx) (manual force : Bool)
  | heldRequestResume (i : Nat)
  | clampClr (p : Path) (post : Option Nat) (mask : BitVec 16)
  | groupCreate (c : CmdCtx) (slot : Uno) (arg : List Byte)
  -- Quill engine registers and probes
  | qlTake (p : Path) (e : Nat)
  | qlLoad (p : Path) (e : Nat)
  | qlStart (p : Path) (e : Nat)
  | qlStop (p : Path) (e : Nat)
  | qlContinue (p : Path) (e : Nat)
  | qlStep (p : Path) (e : Nat)
  | qlRelease (p : Path) (e : Nat)
  | qlKick (p : Path) (e : Nat)
  | engineRestoreDone (e : Nat)
  | engineMemoryWrite (p : Path) (e : Nat) (prog : Bool) (off : Nat) (w8 : Bool) (v : Word)
  | probeRequestServed (e : Nat) (tag : Nat) (answers : List (Uno × Word))
  | probeResponse (e : Nat) (tag : Nat)
  | probeTimeout (e : Nat) (tag : Nat)
  | waitComplete (e : Nat)
  | budgetExpiry (e : Nat)
  -- Quill instructions
  | qNop (e : Nat) (f : BitVec 24)
  | qEnd (e : Nat) (f : BitVec 24)
  | qSyncp (e : Nat) (f : BitVec 24)
  | qBr (e : Nat) (f : BitVec 24)
  | qBrz (e : Nat) (f : BitVec 24)
  | qBrnz (e : Nat) (f : BitVec 24)
  | qCall (e : Nat) (f : BitVec 24)
  | qRet (e : Nat) (f : BitVec 24)
  | qLoop (e : Nat) (f : BitVec 24)
  | qWaitev (e : Nat) (f : BitVec 24)
  | qSleep (e : Nat) (f : BitVec 24)
  | qBudget (e : Nat) (f : BitVec 24)
  | qYield (e : Nat) (f : BitVec 24)
  | qAdd (e : Nat) (f : BitVec 24)
  | qSub (e : Nat) (f : BitVec 24)
  | qAnd (e : Nat) (f : BitVec 24)
  | qOr (e : Nat) (f : BitVec 24)
  | qXor (e : Nat) (f : BitVec 24)
  | qShl (e : Nat) (f : BitVec 24)
  | qShr (e : Nat) (f : BitVec 24)
  | qSar (e : Nat) (f : BitVec 24)
  | qAddi (e : Nat) (f : BitVec 24)
  | qAndi (e : Nat) (f : BitVec 24)
  | qOri (e : Nat) (f : BitVec 24)
  | qLui (e : Nat) (f : BitVec 24)
  | qCmpeq (e : Nat) (f : BitVec 24)
  | qCmpltu (e : Nat) (f : BitVec 24)
  | qCmplt (e : Nat) (f : BitVec 24)
  | qPopc (e : Nat) (f : BitVec 24)
  | qCrc (e : Nat) (f : BitVec 24)
  | qMin (e : Nat) (f : BitVec 24)
  | qMax (e : Nat) (f : BitVec 24)
  | qMov (e : Nat) (f : BitVec 24)
  | qLd (e : Nat) (f : BitVec 24)
  | qSt (e : Nat) (f : BitVec 24)
  | qLdw (e : Nat) (f : BitVec 24)
  | qStw (e : Nat) (f : BitVec 24)
  | qPst (e : Nat) (f : BitVec 24)
  | qLdp (e : Nat) (f : BitVec 24)
  | qUread (e : Nat) (f : BitVec 24)
  | qUwrite (e : Nat) (f : BitVec 24)
  | qUwait (e : Nat) (f : BitVec 24)
  | qUdesc (e : Nat) (f : BitVec 24)
  | qUchild (e : Nat) (f : BitVec 24)
  | qUgroup (e : Nat) (f : BitVec 24)
  | qHalt (e : Nat) (f : BitVec 24)
  | qStep (e : Nat) (f : BitVec 24)
  | qResume (e : Nat) (f : BitVec 24)
  | qFreeze (e : Nat) (f : BitVec 24)
  | qThaw (e : Nat) (f : BitVec 24)
  | qCutq (e : Nat) (f : BitVec 24)
  | qFbegin (e : Nat) (f : BitVec 24)
  | qFseg (e : Nat) (f : BitVec 24)
  | qFend (e : Nat) (f : BitVec 24)
  | qFmark (e : Nat) (f : BitVec 24)
  | qReduce (e : Nat) (f : BitVec 24)
  | qMcast (e : Nat) (f : BitVec 24)
  | qInk (e : Nat) (f : BitVec 24)
  | qCart (e : Nat) (f : BitVec 24)
  | qRaise (e : Nat) (f : BitVec 24)
  | qWsnap (e : Nat) (f : BitVec 24)
  | qWscan (e : Nat) (f : BitVec 24)
  -- halt operations
  | haltCommand (c : CmdCtx) (scope : Uno) (mode : Nat) (param : Word)
  | stepCommand (c : CmdCtx) (scope : Uno) (param : Word)
  | resumeCommand (c : CmdCtx) (scope : Uno) (param : Word)
  | freezeCommand (c : CmdCtx) (scope : Uno) (param : Word)
  | thawCommand (c : CmdCtx) (scope : Uno) (param : Word)
  | hopMulticast (hop : Nat) (unit : Uno)
  | targetTimeMatch (core : Uno) (d : Nat)
  | classFreeze (hop : Nat) (unit : Uno)
  | classThaw (hop : Nat) (unit : Uno)
  | flitParked (router : Uno) (port : Nat) (flit : Flit)
  | boundaryHoldStart (hop : Nat) (router : Uno) (cluster : Uno)
  | coreSettled (core : Uno)
  | hopConfirmation (hop : Nat) (unit : Uno)
  | hopDeadline (hop : Nat)
  | stepStart (hop : Nat) (core : Uno)
  | stepEnd (core : Uno)
  | resumeRelease (hop : Nat) (stage : Nat) (d : Nat)
  | boundaryRelease (hop : Nat)
  -- break and watch
  | setLoad (c : CmdCtx) (slot : Nat) (arg : List Byte)
  | setArm (slot : Nat)
  | setDisarm (slot : Nat)
  | iacMatch (core : Uno) (n : Nat) (tg : Nat) (addr : Nat)
  | dacMatch (core : Uno) (n : Nat) (tg : Nat) (store : Bool) (lanes : List Lane)
  | scmpMatch (cluster : Uno) (n : Nat) (ev : ScmpEvent) (cyc : Nat)
  | counterEvent (core : Uno) (n : Nat) (amount : Nat)
  | stageSourceArrival (h : Holder) (chain : Nat) (src : Nat) (units : List Uno) (cyc : Nat)
  | chainWindowExpiry (h : Holder) (chain : Nat)
  | countWrite (p : Path) (core : Uno) (n : Nat) (v : Word)
  | fetchMatchDiscarded (core : Uno)
  -- folios
  | jobCreate (c : CmdCtx) (slot : Nat) (arg : List Byte)
  | jobStart (c : CmdCtx) (slot : Nat)
  | queuedPartStart (post : Nat)
  | captureBlock (job : Nat) (post : Nat) (seg : Nat) (src : BlockSource) (foreign : List Nat) (refEcc : Bool)
      (coded : Option (List Byte))
  | committedPointer (job : Nat) (post : Nat)
  | partEnd (job : Nat) (post : Nat)
  | jobDone (job : Nat)
  | folioExport (c : CmdCtx) (job : Nat) (render : Bool) (off : Nat) (len : Nat)
  | exportChunk (i : Nat) (eccBlocks : Nat) (damaged : Bool)
  | exportDone (i : Nat)
  | exportPauseTimeout (i : Nat)
  | pwrWarn (undrained : List Undrained)
  | pwrWarnDeassert
  -- cartouches and failover
  | cartoucheReport (reporter : Uno) (cls code : Nat) (detail : List Byte) (ctx : Ctx)
  | cartoucheArrival (router : Uno) (r : Rec)
  | closeTime (router : Uno) (i : Nat)
  | intakeArrival (r : Rec)
  | collectorWrite
  | cmpCaPop (p : Path) (v : BitVec 32)
  | faultnRelease (p : Path)
  | ctxLostClear (p : Path)
  | heartbeatFrame (atB : Bool)
  | mirrorFrame
  | heartbeatMiss (atB : Bool)
  | peerProbeAnswer
  | peerProbeTimeout
  | takeoverMulticast (unit : Uno)
  | postHeartbeat (post : Nat)
  | postHeartbeatArrival (post : Nat)
  | heartbeatAck (post : Nat)
  | postLost (post : Nat)
  | postMemoryError (post : Nat)
  | adopt (post : Nat) (undrained : Nat)
  | postRestored (post : Nat)
  | loneSurvey (post : Nat)
  -- synchronisation watch
  | snapshotTime (env : AccelSample)
  | snap (post : Nat) (queued : List (Uno × Nat))
  | joinComplete
  | policy (c : CmdCtx) (ctx : Ctx) (row : Nat) (cycleEn quiescentEn : Bool) (dl dm : Nat) (job : Nat)
  | policyHaltIssue (i : Nat)
  | deadlineSet (c : CmdCtx) (jobId : BitVec 32) (row : Nat) (obj : Uno) (target : Word) (t : Time)
  | deadlineClear (c : CmdCtx) (ctx : Ctx) (row : Nat) (jobId : BitVec 32)
  | deadlineMet (post : Nat) (i : Nat) (value : Word)
  | deadlineMissed (post : Nat) (i : Nat)
  | synchronisationWait (group : Uno) (obj : Option Uno) (objCtx : Ctx)
  | producerRegistration (obj : Uno) (group : Uno) (objCtx : Ctx)
  -- inkwells and trace
  | inkwellStore (group : Uno) (lanes : List InkStore)
  | stationDropReport (cluster : Uno)
  | funnelPacket (post : Nat)
  | lossPacket (post : Nat) (slot : Nat)
  | lineCommit (post : Nat) (slot : Nat)
  | streamCreate (c : CmdCtx) (slot : Nat) (arg : List Byte)
  | streamExport (c : CmdCtx) (slot : Nat) (post : Nat) (consume : Bool) (pages : Nat)
  | svpItFree (p : Path) (post : Nat) (count : Nat)
  | streamEnded (slot : Nat)
  | serialWord
  -- external ports and pins
  | portRead (f : LineFrame)
  | portWrite (f : LineFrame)
  | poll (f : LineFrame)
  | responseSlot
  | lineCollision
  | driverRelease
  | challenge (f : LineFrame)
  | respond (f : LineFrame) (sigOk : Bool)
  | portCommand (f : LineFrame)
  | portClose (f : LineFrame)
  | partialPacketStall
  | nonceExpiry
  | lockoutExpiry
  | idleClose
  | extest
  | samplePreload
  | idcode
  | clamp
  | highz
  | ledger
  | bypass
  | ledgerWord (shifts : Nat) (w : Word)
  | testLogicReset
  | trstN
  | dbgrstGlitch
  | dbgrstReset
  | dbgrstHigh
  | trigInAssertion
  | crossPulseEnd
  | cmpPtCfgWrite (p : Path) (v : Word)
  | guardIntervalEnd
  | ptClrLine (p : Path)
  | ptClrErr (p : Path)
  | cmpPtAprAck (n : Nat)
  -- access and sessions
  | openSession (c : CmdCtx)
  | closeSession (c : CmdCtx)
  | grant (c : CmdCtx) (arg : List Byte)
  | grantVerifyDone (sigOk : Bool)
  | grantLapse (session : Nat)
  | tokenLockoutExpiry (session : Nat)
  | attest (c : CmdCtx) (ctx : Ctx) (challenge : List Byte)
  | cert (c : CmdCtx)
  | acquire (c : CmdCtx) (kind slot : Nat)
  | release (c : CmdCtx) (kind slot : Nat)
  | partitionCreate (c : CmdCtx) (slot : Uno) (freezeSet : Nat) (lonePolicy : Nat) (arg : List Byte) (pointOk unwrapOk : Bool)
  | partitionDestroy (c : CmdCtx) (slot : Uno)
  | engineLoad (c : CmdCtx) (e : Nat) (image : List Byte)
  | opkey (c : CmdCtx) (arg : List Byte) (pointOk unwrapOk sigOk : Bool)
  -- lifecycle
  | uflashWrite (c : CmdCtx) (sector : Nat) (data : List Byte)
  | uflashRead (c : CmdCtx) (sector : Nat)
  | lifecycle (c : CmdCtx) (arg : List Byte) (pointOk unwrapOk : Bool)
  | wipeComplete
  -- host queues
  | hqDb (q : Nat) (prod : Nat)
  | dbErrClear (q : Nat)
  | commandTake (q : Nat) (arg : ArgFetch)
  | hqErHead (r : Nat) (head : Nat)
  | ringEnable (r : Nat)
  | barBind (slot : Nat) (scheck : BitVec 32)
  | unbind
  | msixSignal (r : Nat)
  | functionReset
  | busMasterDisable
  | busMasterEnable
  -- firmware update
  | updBegin (c : CmdCtx) (header : List Byte) (sigOk : Bool)
  | updData (c : CmdCtx) (off : Nat) (arg : List Byte)
  | updVerify (c : CmdCtx) (sigOk digestOk : Bool)
  | updConfirm (c : CmdCtx)
  | updAbort (c : CmdCtx)
  | builtInSelfTest (pass : Bool)
  | trialConfirmTimeout
  | linkTrainingEnd (near far : Nat) (delay : Nat)
  | undefinedOpcode (e : Nat) (w : BitVec 32)
deriving DecidableEq, Repr

end Sys2Proof
end

