-- ==== Sys2Proof/Decode.lean ====
section
/-! DEFINITION. Words. No row of spec/opcode_table.json gives bits: commands are events and operations, not words, so no
table word spells one. The 32-bit words of Quill programs (Table QE-2) do spell the commands that stand for instructions:
which command a word that an engine has fetched is, and back. -/

namespace Sys2Proof

/-- The command that a word spells by the table's bits. -/
def decodeTableWord (_nbits _w : Nat) : Option Instr := none

/-- The Quill opcodes (Tables QR-5 to QR-14) and the command of each on an engine. -/
def quillTable : List (Nat × (Nat → BitVec 24 → Instr)) :=
  [(0x00, .qNop), (0x01, .qEnd), (0x02, .qSyncp), (0x03, .qBr), (0x04, .qBrz), (0x05, .qBrnz),
   (0x06, .qCall), (0x07, .qRet), (0x08, .qLoop), (0x09, .qWaitev), (0x0A, .qSleep), (0x0B, .qBudget),
   (0x0C, .qYield), (0x20, .qAdd), (0x21, .qSub), (0x22, .qAnd), (0x23, .qOr), (0x24, .qXor),
   (0x25, .qShl), (0x26, .qShr), (0x27, .qSar), (0x28, .qAddi), (0x29, .qAndi), (0x2A, .qOri),
   (0x2B, .qLui), (0x2C, .qCmpeq), (0x2D, .qCmpltu), (0x2E, .qCmplt), (0x2F, .qPopc), (0x30, .qCrc),
   (0x31, .qMin), (0x32, .qMax), (0x33, .qMov), (0x40, .qLd), (0x41, .qSt), (0x42, .qLdw),
   (0x43, .qStw), (0x44, .qPst), (0x45, .qLdp), (0x50, .qUread), (0x51, .qUwrite), (0x52, .qUwait),
   (0x53, .qUdesc), (0x54, .qUchild), (0x55, .qUgroup), (0x70, .qHalt), (0x71, .qStep), (0x72, .qResume),
   (0x73, .qFreeze), (0x74, .qThaw), (0x75, .qCutq), (0x80, .qFbegin), (0x81, .qFseg), (0x82, .qFend),
   (0x83, .qFmark), (0x90, .qReduce), (0x91, .qMcast), (0xA0, .qInk), (0xA1, .qCart), (0xA2, .qRaise),
   (0xB0, .qWsnap), (0xB1, .qWscan)]

/-- A Quill word: its opcode in bits [31:24], the other fields below (Table QE-2). -/
def quillWordOf (op : Nat) (f : BitVec 24) : BitVec 32 := BitVec.ofNat 32 (op * 2 ^ 24 + f.toNat)

/-- The command for a word that engine `e` has fetched; `none` where no table gives its opcode, which is the command
UNDEFINED_OPCODE of that word. -/
def quillDecode (e : Nat) (w : BitVec 32) : Option Instr :=
  (quillTable.lookup (w >>> 24).toNat).map (fun c => c e (w.setWidth 24))

/-- The engine and the word of a command that stands for a Quill instruction. -/
def quillWord : Instr → Option (Nat × BitVec 32)
  | .qNop e f => some (e, quillWordOf 0x00 f)
  | .qEnd e f => some (e, quillWordOf 0x01 f)
  | .qSyncp e f => some (e, quillWordOf 0x02 f)
  | .qBr e f => some (e, quillWordOf 0x03 f)
  | .qBrz e f => some (e, quillWordOf 0x04 f)
  | .qBrnz e f => some (e, quillWordOf 0x05 f)
  | .qCall e f => some (e, quillWordOf 0x06 f)
  | .qRet e f => some (e, quillWordOf 0x07 f)
  | .qLoop e f => some (e, quillWordOf 0x08 f)
  | .qWaitev e f => some (e, quillWordOf 0x09 f)
  | .qSleep e f => some (e, quillWordOf 0x0A f)
  | .qBudget e f => some (e, quillWordOf 0x0B f)
  | .qYield e f => some (e, quillWordOf 0x0C f)
  | .qAdd e f => some (e, quillWordOf 0x20 f)
  | .qSub e f => some (e, quillWordOf 0x21 f)
  | .qAnd e f => some (e, quillWordOf 0x22 f)
  | .qOr e f => some (e, quillWordOf 0x23 f)
  | .qXor e f => some (e, quillWordOf 0x24 f)
  | .qShl e f => some (e, quillWordOf 0x25 f)
  | .qShr e f => some (e, quillWordOf 0x26 f)
  | .qSar e f => some (e, quillWordOf 0x27 f)
  | .qAddi e f => some (e, quillWordOf 0x28 f)
  | .qAndi e f => some (e, quillWordOf 0x29 f)
  | .qOri e f => some (e, quillWordOf 0x2A f)
  | .qLui e f => some (e, quillWordOf 0x2B f)
  | .qCmpeq e f => some (e, quillWordOf 0x2C f)
  | .qCmpltu e f => some (e, quillWordOf 0x2D f)
  | .qCmplt e f => some (e, quillWordOf 0x2E f)
  | .qPopc e f => some (e, quillWordOf 0x2F f)
  | .qCrc e f => some (e, quillWordOf 0x30 f)
  | .qMin e f => some (e, quillWordOf 0x31 f)
  | .qMax e f => some (e, quillWordOf 0x32 f)
  | .qMov e f => some (e, quillWordOf 0x33 f)
  | .qLd e f => some (e, quillWordOf 0x40 f)
  | .qSt e f => some (e, quillWordOf 0x41 f)
  | .qLdw e f => some (e, quillWordOf 0x42 f)
  | .qStw e f => some (e, quillWordOf 0x43 f)
  | .qPst e f => some (e, quillWordOf 0x44 f)
  | .qLdp e f => some (e, quillWordOf 0x45 f)
  | .qUread e f => some (e, quillWordOf 0x50 f)
  | .qUwrite e f => some (e, quillWordOf 0x51 f)
  | .qUwait e f => some (e, quillWordOf 0x52 f)
  | .qUdesc e f => some (e, quillWordOf 0x53 f)
  | .qUchild e f => some (e, quillWordOf 0x54 f)
  | .qUgroup e f => some (e, quillWordOf 0x55 f)
  | .qHalt e f => some (e, quillWordOf 0x70 f)
  | .qStep e f => some (e, quillWordOf 0x71 f)
  | .qResume e f => some (e, quillWordOf 0x72 f)
  | .qFreeze e f => some (e, quillWordOf 0x73 f)
  | .qThaw e f => some (e, quillWordOf 0x74 f)
  | .qCutq e f => some (e, quillWordOf 0x75 f)
  | .qFbegin e f => some (e, quillWordOf 0x80 f)
  | .qFseg e f => some (e, quillWordOf 0x81 f)
  | .qFend e f => some (e, quillWordOf 0x82 f)
  | .qFmark e f => some (e, quillWordOf 0x83 f)
  | .qReduce e f => some (e, quillWordOf 0x90 f)
  | .qMcast e f => some (e, quillWordOf 0x91 f)
  | .qInk e f => some (e, quillWordOf 0xA0 f)
  | .qCart e f => some (e, quillWordOf 0xA1 f)
  | .qRaise e f => some (e, quillWordOf 0xA2 f)
  | .qWsnap e f => some (e, quillWordOf 0xB0 f)
  | .qWscan e f => some (e, quillWordOf 0xB1 f)
  | .undefinedOpcode e w => some (e, w)
  | _ => none

end Sys2Proof
end

