-- ==== Sys2Proof/Config.lean ====
section
/-! DEFINITION. What the spec leaves open, as constants without a body: nothing can evaluate one. Each is applied
to the state's count of drawn values, or to the operands that it depends on. -/

namespace Sys2Proof.Config

/-- The n-th 128 bits that the Compass's CTR_DRBG draws: session nonces, SCHECK and signature keys (R176, R199, R329). -/
opaque drbg128 : Nat → BitVec 128

/-- The n-th 256 bits that the Compass's CTR_DRBG draws: challenge nonces, folio keys, maker sealing keys
(R176, R313, R348). -/
opaque drbg256 : Nat → BitVec 256

/-- The public key bytes of a key pair made at transition n (R337, R349): 32 bytes. -/
opaque publicKey : Nat → List Byte

/-- KEY_ID of a wrapped key record: bytes 0 to 7 of a SHA-384 digest over a key this model never unwraps (R338). -/
opaque keyId : List Byte → Word

/-- The RFC 3394 wrapping of a folio key for a context's sealing key (R176). -/
opaque wrapKey : Word → BitVec 256 → BitVec 320

/-- The AES-256-GCM tag of a sealed block: folio key, IV, additional data and coded bytes (R176). -/
opaque gcmTag : BitVec 256 → List Byte → List Byte → List Byte → BitVec 128

/-- The AES-256-GCM ciphertext of a block's coded bytes under a folio key and an IV (R176). -/
opaque cipher : BitVec 256 → List Byte → List Byte → List Byte

/-- SHA-384 over an enumeration of parts or a header (R167, R170). -/
opaque sha384 : List Byte → BitVec 384

/-- An Ed25519 signature made by the device attestation key (R342): 64 bytes. -/
opaque attestSign : List Byte → List Byte

/-- The boot ROM version (Table UT-7), fixed by the part. -/
opaque bootRom : BitVec 32

/-- The context that the accelerator's memory map assigns the page of an HBM channel's offset to, at a meridian value
(R323): the map belongs to the accelerator and changes as it runs. -/
opaque pageCtx : Nat → Nat → Nat → Nat

/-- The n-th word that a port-session or BAR0 access reads from a memory of the accelerator, whose contents lie outside
the boundary of the hub (R1). -/
opaque accelWord : Nat → BitVec 64

/-- The UNO at the far end of a router's port, where R420 does not give it: port 18 of a cluster router, and every port of a
spine or data-crossbar router; 0 beyond the router's ports. The wiring is the part's. -/
opaque portFar : Nat → Nat → BitVec 24

/-- Which of the codes that leave a HOP's status OK a core takes for FREEZE or THAW `hop` that took effect at it in time:
Table CH-2 names none (R103, R115). -/
opaque freezeCode : Nat → Nat → Nat

/-- The open requests without a response of an unsettled core as its ports hold them: network and port, and the flit
(R119, R169). The network's contents belong to the accelerator. -/
opaque openRequests : Nat → List (Nat × (Nat × Nat × Nat × List Byte × Nat))

/-- Which half's L2 slices hold the stored bytes at an offset of a post's region, mod 2 (R181): the address map of the
L2 belongs to the accelerator. -/
opaque l2Half : Nat → Nat → Nat

/-- How long each repair of a record position takes, of n at one start-up; R358 states only that it is at most 120 µs. -/
opaque repairTime : Nat → Nat

end Sys2Proof.Config
end

