-- ==== Sys2Proof/Machine/State.lean ====
section
/-! DEFINITION. The state of Graticule as plain data, in groups by chapter, and its value right after reset.
Each group is sparse where the spec counts thousands of parts: a part that a table does not list is in the
state that the structure's defaults give. -/

namespace Sys2Proof.Machine

/-- Why the whole machine would stop. No command of the spec stops the hub as a whole. -/
inductive Fault where
  /-- Raised by no command: the spec gives every event an effect (safe). -/
  | hubStopped
deriving DecidableEq, Repr

/-- Why a command has no meaning. -/
inductive Refusal where
  /-- Raised only by an arm of `exec` whose command has no meaning yet; none is left (safe). -/
  | notModelled (mnemonic : String)
deriving DecidableEq, Repr

/-- The family members (Table SC-1). -/
inductive Member where
  | za0400
  | za1600
  | za6400
deriving DecidableEq, Repr

/-- The lifecycle states (R346), with LOCKDOWN as a condition of its own in `Lifecycle`. -/
inductive Lc where
  | blank
  | test
  | production
  | endOfLife
deriving DecidableEq, Repr

/-! ### Topology, time and start-up (chapter 01) -/

/-- Package-wide power, boot and meridian state (R28, R38, R44, R47). -/
structure Pkg where
  member     : Member := .za6400
  /-- Power is applied and AON reset has been released (start-up step 1). -/
  powered    : Bool := false
  aonUp      : Bool := false
  meridian   : Time := 0
  latchBar   : BitVec 32 := 0
  latchPort  : BitVec 32 := 0
  bootStep   : Nat := 0
  /-- Start-up runs again after a hub-warm reset and skips step 8 (R39). -/
  warmRerun  : Bool := false
  fwRecovery : Bool := false
  degraded   : Bool := false
  activeB    : Bool := false
  standbyOk  : Bool := false
  postsLost  : Nat := 0
  diesHeld   : Nat := 0
  releaseT   : Time := 0
  /-- The cores are held in reset until start-up step 8. -/
  coresHeld  : Bool := true
  /-- DBGRST_N holds the package warm reset asserted (R309). -/
  warmHeld   : Bool := false
  /-- Both Compasses are lost: start-up found them dead (Table TP-11), or a post is in lone survey (R220). -/
  bothDead   : Bool := false
  /-- HBM controllers whose bad-channel map, or time-out, start-up step 5 has taken. -/
  hbmDone    : List Nat := []
  healthA    : Nat := 1
  healthB    : Nat := 1
  fencedA    : Bool := false
  fencedB    : Bool := false
  pwrWarn    : Bool := false
  busMaster  : Bool := true
deriving DecidableEq, Repr

/-- One meridian copy relative to the master (R28, R29, R31): `skew` is copy minus master in ticks. -/
structure Copy where
  valid : Bool := false
  skew  : Int := 0
  oob   : Bool := false
deriving DecidableEq, Repr

/-- The AON strip of one die (R28 to R33). -/
structure Die where
  copy        : Copy := {}
  pending     : Option Time := none
  pllLocked   : Bool := true
  relockWait  : Bool := false
  episode     : Bool := false
  /-- The load flit that answers a relock report names this epoch (R33). -/
  reloadAt    : Option Time := none
deriving DecidableEq, Repr

/-- One link direction of the control network, between two dies or out of a CNET router (R25, R27, R32): the credits of
its two meters, and for a link between dies its training. -/
structure Link where
  urg        : Nat := 64
  reqRsp     : Nat := 32
  retraining : Bool := false
  down       : Bool := false
  delay      : Nat := 0
deriving DecidableEq, Repr

/-- One survey post's power, heartbeat and lone-survey state (R42, R43, R216 to R223). `health` is a code of
Table UT-3: before its first wake a post is WAKING. -/
structure Post where
  health      : Nat := 8
  users       : List Nat := []
  adopting    : Bool := false
  adoptWanted : Bool := false
  /-- A restart is under way while the sibling keeps the adopted half (R219). -/
  restored    : Bool := false
  /-- The restarted post has re-homed and waits for its half (R219). -/
  rehomed     : Bool := false
  hbT         : Time := 0
  hbOut       : Bool := false
  ackDue      : Bool := false
  ackT        : Time := 0
  /-- Meridian time of the last heartbeat acknowledgement (SVP_LS_STAT.ACK_AGE); `none` until one has come. -/
  lastAck     : Option Time := none
  lone        : Bool := false
  loneFolios  : Nat := 0
  loneLog     : List Rec := []
  memError    : Bool := false
  /-- Start-up found the post dead (POST_DEAD, not POST_LOST, names it). -/
  startDead   : Bool := false
  /-- The post is among those that CMP_BOOT.POSTS_LOST counts. -/
  counted     : Bool := false
deriving DecidableEq, Repr

/-! ### Units and software groups (chapter 02) -/

/-- A software-group slot in use (R57 to R59): members are first UNO and count. -/
structure Group where
  members   : List (Uno × Nat)
  ctx       : Ctx
  level     : Nat
  partition : Bool
  freezeSet : Nat
  /-- A partition's lone-survey policy, as PARTITION_CREATE gave it (R221, R395). -/
  lonePolicy : Nat := 0
deriving DecidableEq, Repr

/-- One clamp-log entry (Table UT-10). -/
structure Clamp where
  written : Word
  stored  : Word
  t       : Time
  off     : BitVec 32
  ctx     : Ctx
  session : Nat
  unbound : Bool
  /-- The session that wrote it has closed: no later session in its slot wrote the entry (R69). -/
  orphan  : Bool := false
deriving DecidableEq, Repr

/-- One 16-entry clamp log (R68). -/
structure ClampLog where
  entries : Tbl (Option Clamp) := []
  lost    : Nat := 0
deriving DecidableEq, Repr

/-- The Legend's own fields (R60, R61). -/
structure Legend where
  gen      : BitVec 32 := 0
  changeT  : Time := 0
  enumT    : Time := 0
  bootrom  : BitVec 32 := 0
  fwActive : BitVec 32 := 0
  slot     : Nat := 0
  secver   : Nat := 0
  ucode    : BitVec 32 := 0
deriving DecidableEq, Repr

/-! ### Quill engines (chapters 03 and 10) -/

/-- Engine states with the codes of QL_STATUS.STATE (Table QE-10). -/
inductive EState where
  | resident
  | taken
  | loaded
  | running
  | waiting
  | stopped
  | faulted
  | ended
  | empty
  | restoring
deriving DecidableEq, Repr

/-- What a held tag's operation is (R81, R283). -/
inductive TagOp where
  | uread
  | uwrite (v : Word)
  | udesc (addr : Nat)
  | uchild (n : Nat)
  | ugroup
  | fbegin
  | fseg
  | reduce (t : Nat)
  | mcast (v : Word)
  | cart (addr : Nat)
deriving DecidableEq, Repr

/-- One held probe tag: the operation, its unit address, its order of issue, and its answer once served and
once delivered. `answer` is what the tap put on DBG-RSP; `result` what the tag slot holds (status, data). -/
structure Tag where
  op     : TagOp
  unit   : Uno
  space  : Nat
  off    : Nat
  width  : Nat
  seq    : Nat
  /-- Meridian time of issue, from which R82 counts 8 µs. -/
  issued : Time := 0
  /-- The data-memory record that UGROUP or FBEGIN read at issue. -/
  arg    : List Byte := []
  /-- The units that a REDUCE or MCAST goes to, fixed at issue (R290). -/
  units  : List Uno := []
  /-- The bytes that a served UDESC or CART writes to data memory as it completes. -/
  bytes  : List Byte := []
  /-- An FSEG has passed its checks and waits for its segment. -/
  begun  : Bool := false
  answer : Option (Nat × Word) := none
  result : Option (Nat × Word) := none
deriving DecidableEq, Repr

/-- One Quill engine (Table QE-1, Tables QE-9 to QE-24). -/
structure Engine where
  state    : EState := .restoring
  regs     : Tbl Word := []
  pc       : Nat := 0
  pmem     : Tbl (BitVec 32) := []
  dmem     : List Host.Cell := []
  stack    : List Nat := []
  tags     : Tbl (Option Tag) := []
  tagSeq   : Nat := 0
  budget   : Word := 0
  events   : BitVec 16 := 0
  evmask   : BitVec 16 := 0
  cause    : Nat := 0
  fpc      : Nat := 0
  faultT   : Time := 0
  cmdStatus : Nat := 0
  stopReason : Nat := 0
  stepBlocked : Bool := false
  wfail    : Bool := false
  mbox     : Word := 0
  owner    : Option Nat := none
  hdr      : Tbl (BitVec 32) := []
  /-- LOAD has passed, and the header words that it judged: the limits in force (R74, R89). -/
  loaded   : Bool := false
  force    : Tbl (BitVec 32) := []
  /-- A host write has touched a memory since the last successful LOAD (R90). -/
  dirty    : Bool := false
  /-- The fetch window: the word that executes, the word after it that a wait has fetched, and a program store that
  lands at the end of the next cycle (R278). -/
  fetch    : BitVec 32 := 0
  next     : BitVec 32 := 0
  pst      : Option (Nat × BitVec 32) := none
  /-- The end of the SLEEP that waits (R279). -/
  sleepEnd : Option Time := none
  /-- The FEND that waits has begun this job's end, and the status that it returns once the job has ended (R289). -/
  fendJob  : Option Nat := none
  fendDone : Option Nat := none
deriving DecidableEq, Repr

/-! ### Halt operations (chapter 04) -/

/-- The five kinds of halt operation (R92). -/
inductive HopKind where
  | halt
  | step
  | resume
  | freeze
  | thaw
deriving DecidableEq, Repr

/-- How a HOP travels (Table CH-12 MODE). -/
inductive HopMode where
  | contour
  | urgent
  | lattice
deriving DecidableEq, Repr

/-- Who stands behind a HOP and what its completion sets off. -/
inductive HopOrigin where
  | command (session : Nat) (tag : Word) (queue : Option Nat)
  | engine (e : Nat)
  | chain (post : Nat) (place : Nat)
  | policy (ctx : Ctx) (row : Nat) (folio : Bool)
  | lone (post : Nat) (ctx : Ctx)
deriving DecidableEq, Repr

/-- What a HOP has come to at one core: its result code (Table CH-2; 15: none yet), S − T, the order of the
confirmations, and how far it is: 0 to come, 1 stepping, 2 stopped and not settled, 3 confirmed to the issuer,
4 taken by the issuer. -/
structure HopCore where
  code  : Nat := 15
  delta : Nat := 0
  order : Nat := 0
  phase : Nat := 0
  /-- The code that the core took, where the deadline found its confirmation not yet taken (R119). -/
  own   : Option Nat := none
deriving DecidableEq, Repr

/-- One accepted HOP (R92 to R95, R119 to R121). `cores` are the cores in scope at acceptance, `insts` the class
instances that it acts on (class times 2^24 plus unit; class 6: the HALT hold of an object) and `iwait` those that
it has not acted on yet. `sent` are the link directions that its flits have crossed, `heard` the units that hold it. `halves` holds the status and DONE time of each post's half. -/
structure Hop where
  id        : BitVec 16
  kind      : HopKind
  mode      : HopMode
  platform  : Bool
  scope     : Uno
  cores     : List Uno
  insts     : List Nat
  iwait     : List Nat
  ctx       : Ctx
  lead      : Nat
  deadline  : Nat
  steps     : Nat
  classes   : Nat
  t         : Time
  origin    : HopOrigin
  codes     : Tbl HopCore := []
  confirms  : Nat := 0
  /-- 1 PENDING, 2 OK, 3 LATE, 4 DEADLINE, 5 PARTIAL (Table CH-12); 0: its issuer's state was cleared (R123). -/
  status    : Nat := 1
  doneT     : Time := 0
  halves    : Tbl (Option (Nat × Time)) := []
  sent      : List Nat := []
  heard     : List Uno := []
deriving DecidableEq, Repr

/-- A timed operation in a core tap's queue (R122): the HOP's serial number, its target time, and whether that time
had passed when the request arrived. -/
structure TimedOp where
  hop  : Nat
  kind : HopKind
  t    : Time
  late : Bool := false
deriving DecidableEq, Repr

/-- What a core does (R98, R116). -/
inductive CoreRun where
  | running
  | stopped
  | stepping (hop : Nat)
deriving DecidableEq, Repr

/-- One core tap's halt state (R97 to R122, R163). -/
structure Core where
  run      : CoreRun := .running
  settled  : Bool := true
  asleep   : Bool := false
  sleepT   : Time := 0
  wakeHeld : Bool := false
  holdP    : Bool := false
  holdC    : Bool := false
  halted   : Bool := false
  s        : Time := 0
  queue    : List TimedOp := []
  absorbed : List TimedOp := []
  /-- The HALTs that took effect since the core last ran (R106). -/
  stops    : List Nat := []
  /-- The cut record of R163: result code, S and T of the last operation that took effect. -/
  cutCode  : Nat := 8
  cutS     : Time := BitVec.allOnes 64
  cutT     : Time := 0
  lmask    : BitVec 16 := 0
  /-- A PRECISE chain has stopped the core ahead of its HOP: the key of the chain's action place (R140). -/
  precise  : Option Nat := none
  fmd      : BitVec 32 := 0
deriving DecidableEq, Repr

/-- The two hold bits of a class instance, or of a synchronisation object's HALT hold (R114, R96). -/
structure Hold where
  platform : Bool := false
  context  : Bool := false
  halted   : Bool := false
deriving DecidableEq, Repr

/-- One router port toward a unit: its margin buffer and what waits in place (R106, R107). -/
structure RPort where
  margin  : List Flit := []
  inPlace : List Flit := []
deriving DecidableEq, Repr

/-- One boundary queue (R110). -/
structure Boundary where
  holding : Bool := false
  hop     : Nat := 0
  flits   : List Flit := []
deriving DecidableEq, Repr

/-- A post's ring of 16 HOP records (R125): slot to (HOP serial, adopted, order of writing). -/
structure HopRing where
  recs       : Tbl (Option (Nat × Bool)) := []
  order      : List Nat := []
  newest     : Nat := 0
  unrecorded : Nat := 0
deriving DecidableEq, Repr

/-! ### Break and watch (chapter 05) -/

/-- A comparator: LO, HI, VALUE, MASK and CTL as Tables BW-12 to BW-14 lay them out; the element it is a copy of and
the set slot that owns it. -/
structure Cmp where
  lo    : BitVec 48 := 0
  hi    : BitVec 48 := 0
  value : Word := 0
  mask  : Word := 0
  ctl   : Word := 0
  elem  : Nat := 0
  owner : Option Nat := none
deriving DecidableEq, Repr

/-- An event counter (Tables BW-15, BW-16). -/
structure Cnt where
  ctl    : BitVec 32 := 0
  count  : BitVec 48 := 0
  thresh : BitVec 48 := 1
  elem   : Nat := 0
  owner  : Option Nat := none
deriving DecidableEq, Repr

/-- A chain sequencer (Tables BW-17 to BW-19): its element index, the time at which its last stage was met (R136),
and the action scope of its last halting fire (R142). -/
structure Chain where
  stages     : List Word := []
  act        : Word := 0
  fires      : Nat := 0
  state      : Nat := 0
  stage      : Nat := 0
  suppressed : Nat := 0
  /-- When the last stage was met: the ns, and the cycle of the chain's clock within it (R136). -/
  metT       : Option (Time × Nat) := none
  actScope   : Uno := 0
  elem       : Nat := 0
  owner      : Option Nat := none
deriving DecidableEq, Repr

/-- One element of a trigger set record (Table BW-3). -/
structure Elem where
  kind    : Nat
  place   : Uno
  payload : List Word
deriving DecidableEq, Repr

/-- A trigger-set slot in use (R128, R147). `state`: 1 loading, 2 armed, 5 unloading. -/
structure TrigSet where
  scope    : Uno
  ctx      : Ctx
  ctxAny   : Bool
  platform : Bool
  job      : Option Nat
  lead     : Nat
  deadline : Nat
  elems    : List Elem
  owner    : Nat
  lane     : Option Nat
  state    : Nat
  tArm     : Time
  reason   : Nat := 0
  jobStarted : Bool := false
deriving DecidableEq, Repr

/-- One reserved action place of a post (R139). -/
structure Place where
  set      : Nat
  elem     : Nat
  hop      : Option Nat := none
  deferred : List Uno := []
deriving DecidableEq, Repr

/-- A set's share of one half (Table BW-23). -/
structure SetHalf where
  fires : Nat := 0
  last  : Time := 0
  who   : Uno := 0
deriving DecidableEq, Repr

/-! ### Folios (chapter 06) -/

/-- Dump-job states (R159, R160, R166). -/
inductive JobState where
  | created
  | capturing
  | ending
  | complete
  | incomplete
deriving DecidableEq, Repr

/-- A segment-table entry (Table FO-8). -/
structure Seg where
  uno        : Uno
  space      : Nat
  part       : Nat
  captured   : Bool := false
  skipped    : Bool := false
  partialSeg : Bool := false
  live       : Bool := false
  delta      : Bool := false
  off        : Nat
  len        : Nat
  firstBlock : Nat := 0
  blocks     : Nat := 0
  /-- Raw bytes captured so far, and whether capture has been asked for by FSEG. -/
  done       : Nat := 0
  wanted     : Bool := false
deriving DecidableEq, Repr

/-- A stored block (Table FO-10): what it decodes to, its coded bytes, the bytes stored (sealed or not) and CHECK. -/
structure Block where
  coding : Nat
  sealing : Bool
  seg    : Nat
  num    : Nat
  raw    : List Byte
  coded  : List Byte
  data   : List Byte
  check  : BitVec 128
  /-- Its read-back met an uncorrectable error: copies are delivered marked (R182). -/
  marked : Bool := false
  /-- The die's L2 holds its lines: a legacy write that allocated (R181). -/
  cached : Bool := false
deriving DecidableEq, Repr

/-- One part of a folio in a post's region (R152, R157, Table FO-9, Table FO-27). -/
structure Part where
  post      : Nat
  /-- Codes of SVP_FO_PART.STATE. -/
  state     : Nat := 1
  lead      : Bool
  adopted   : Bool := false
  incomplete : Bool := false
  unchecked : Bool := false
  start64k  : Nat
  res64k    : Nat
  /-- Bytes of the part up to the committed pointer (R179). -/
  committed : Nat := 0
  blocks    : List Block := []
  bytes     : Nat := 0
  raw       : Nat := 0
  zero      : Nat := 0
  stroke    : Nat := 0
  rawCoded  : Nat := 0
  same      : Nat := 0
  denied    : Nat := 0
  srcEcc    : Nat := 0
  notHalted : Nat := 0
  demoted   : Nat := 0
  /-- Entries of the post's write-combining buffer that hold data of the part (R180, Table FO-30). -/
  wcb       : Nat := 0
  digest    : BitVec 384 := 0
deriving DecidableEq, Repr

/-- A dump job (R152 to R173). -/
structure Job where
  state    : JobState
  owner    : Nat
  /-- The engine whose program created it by FBEGIN (R288). -/
  engine   : Option Nat
  ctx      : Ctx
  platform : Bool
  sealMode : Nat
  delta    : Bool
  residue  : Bool
  margin   : Bool
  cartouches : Bool
  legacy   : Bool
  hint     : Nat
  marksMax : Nat
  marks    : List (Time × Word) := []
  marksUsed : Nat := 0
  refJob   : Option Nat
  scope    : Uno
  entries  : Nat
  serial   : BitVec 32
  segs     : List Seg
  /-- The raw bytes of a special segment once capture has reached it, by segment (R169). -/
  specials : Tbl (Option (List Byte)) := []
  planned  : Nat
  parts    : List Part
  beginT   : Time
  endT     : Time := 0
  cutT     : Time := 0
  hop      : BitVec 16 := 0
  key      : Option (BitVec 256) := none
  keyId    : Word := 0
  wrapped  : BitVec 320 := 0
  eccBlocks : Nat := 0
  lone     : Bool := false
  trimmed  : Bool := false
  lossFlag : Bool := false
  /-- The lead post, and the units it reserves for a folio that has no part (R152, R171). -/
  leadPost : Nat := 0
  leadRes  : Nat := 0
  /-- A START_CAPTURE or policy start skips the HALTED check (R160). -/
  skipHalt : Bool := false
  /-- The HOP whose completion started it (R160). -/
  startHop : Option Nat := none
  /-- The folio ended before FEND (R185). -/
  cutShort : Bool := false
  /-- Every planned segment is to be captured: host-started, or FEND has begun (R161, R289). -/
  fendBegun : Bool := false
  /-- Order of start among the jobs of the package (R160). -/
  queued   : Nat := 0
  total    : Nat := 0
deriving DecidableEq, Repr

/-- A loss-map entry (Table FO-23). -/
structure Loss where
  serial : BitVec 32
  post   : Nat
  reason : Nat
  lines  : Nat
  block  : Nat
deriving DecidableEq, Repr

/-- A running export of a folio or of trace pages (R183, R265, R316). `job = none` is a trace export. -/
structure Export where
  job     : Option Nat
  stream  : Nat
  post    : Nat
  consume : Bool
  render  : Bool
  toPort  : Bool
  session : Nat
  tag     : Word
  queue   : Option Nat
  off     : Nat
  len     : Nat
  moved   : Nat := 0
  status  : Nat := 0
  paused  : Option Time := none
deriving DecidableEq, Repr

/-- Folio state outside the jobs (R165, R178, R187). -/
structure Folios where
  jobs     : Tbl (Option Job) := []
  serial   : BitVec 32 := 1
  started  : Nat := 0
  loss     : List Loss := []
  overflow : Nat := 0
  exports  : List Export := []
  /-- Reserve of each die in bytes after the last enumeration (UT-5 0x0600). -/
  reserve  : Tbl Nat := []
  /-- RESERVE_EFF of CMP_FO_CFG, in 64 MB units. -/
  reserveEff : Nat := 32
deriving DecidableEq, Repr

/-! ### Cartouches and failover (chapter 07) -/

/-- A hashing point (R201): up to 4 records that wait, and its STORM accumulator. -/
structure HashPoint where
  held : List Rec := []
  acc  : Option Rec := none
deriving DecidableEq, Repr

/-- A merge-table entry of a CNET router (R203). -/
structure Merge where
  r     : Rec
  close : Time
deriving DecidableEq, Repr

/-- A collector ring entry (R205, R206). -/
structure RingRec where
  seq  : BitVec 32
  r    : Rec
  isOpen : Bool
deriving DecidableEq, Repr

/-- The cartouche path, the collector and the Compass pair (R194 to R225). -/
structure Cart where
  points   : Tbl HashPoint := []
  tables   : Tbl (List Merge) := []
  /-- Records that have left a router, each with the router that sent it: they wait, at most 4 from one router, in the
  staging queue of the port at the far end (R202). -/
  wire     : List (Uno × Rec) := []
  intake   : List Rec := []
  intakeAcc : Option Rec := none
  ring     : List RingRec := []
  head     : BitVec 32 := 0
  tail     : BitVec 32 := 0
  lost     : Tbl Bool := []
  faultn   : Bool := false
  intakeStorms : Nat := 0
  ringStorms : Nat := 0
  sigKeys  : Tbl (BitVec 128) := []
deriving DecidableEq, Repr

/-- A heartbeat frame (R213): its sender's role, that sender's frame count, and the sequence number of the last mirror
frame that the sender has received. -/
structure Frame where
  active : Bool := false
  count  : Nat := 0
  mirror : Nat := 0
deriving DecidableEq, Repr

/-- The heartbeat between the Compasses (R213 to R215). -/
structure Pair where
  missA    : Nat := 0
  missB    : Nat := 0
  probeA   : Bool := false
  probeB   : Bool := false
  /-- Heartbeats travel on DBG-REQ (R214). -/
  onReq    : Bool := false
  /-- Heartbeat frames that each Compass has sent. -/
  sentA    : Nat := 0
  sentB    : Nat := 0
  /-- The last heartbeat frame that each Compass has taken. -/
  seenA    : Option Frame := none
  seenB    : Option Frame := none
  /-- Mirror frames that the active Compass has sent: the sequence number of the last that the standby has received. -/
  mirrored : Nat := 0
  takeovers : Nat := 0
  linkFaults : Nat := 0
  takeoverT : Time := 0
  /-- Units that TAKEOVER has reached, once one has been sent (R215). -/
  routed   : Tbl Bool := []
deriving DecidableEq, Repr

/-! ### Synchronisation watch and deadlines (chapter 08) -/

/-- A synchronisation object (R226, R227, R240): its value, the context that the accelerator has assigned it to, and
its registered producers. -/
structure SyncObj where
  value     : Word := 0
  ctx       : Ctx := 0
  producers : List Uno := []
deriving DecidableEq, Repr

/-- A core tap's wait entry for one thread group (R226, R227). -/
structure Waiter where
  obj      : Option Uno := none
  gen      : BitVec 32 := 0
  producer : Bool := false
  remote   : Bool := false
deriving DecidableEq, Repr

/-- A snapshot object entry (Table SW-2), with the producers that the bank sampled (R227). -/
structure SnapEntry where
  uno       : Uno
  flags     : Nat
  waiters   : Nat
  producers : Nat
  ctx       : Ctx
  prods     : List Uno := []
deriving DecidableEq, Repr

/-- What a post holds of its half's snapshots (R229 to R232): the samples being gathered, and the last complete
snapshot. An object that a list leaves out sampled nothing; a thread group that it leaves out neither waits nor has
PRODUCER or REMOTE set. -/
structure Watcher where
  /-- A scheduled snapshot being sampled or resolved, and one that WSNAP asked for: their T_snap. -/
  sampling : Option Time := none
  unsched  : Option Time := none
  newEntries : List SnapEntry := []
  /-- What the core taps sampled for each thread group: object, wait generation, PRODUCER and REMOTE (R227). -/
  newGroups : List (Uno × Waiter) := []
  /-- What the bank sampled for an unscheduled snapshot once its T_snap came (R230). -/
  early    : Option (List SnapEntry) := none
  /-- The half's share of the snapshot being joined is missing or was not sent. -/
  bad      : Bool := false
  entries  : List SnapEntry := []
  snapT    : Option Time := none
  lastT    : Time := 0
  snaps    : BitVec 16 := 0
  incomplete : Nat := 0
deriving DecidableEq, Repr

/-- A policy row (R242). -/
structure Policy where
  set       : Bool := false
  cycleEn   : Bool := false
  quiescEn  : Bool := false
  dl        : Nat := 0
  dm        : Nat := 0
  job       : Option Nat := none
  started   : Bool := false
deriving DecidableEq, Repr

/-- A context's deadlock record (R237, R238). `state`: 0 NONE, 1 SUSPECT, 2 DECLARED. `sCycle` and `sQuiet` are the
kinds of finding in the last snapshot judged; `objects` and `groups` those of the declaration. -/
structure Deadlock where
  state   : Nat := 0
  sCycle  : Bool := false
  sQuiet  : Bool := false
  quiescent : Bool := false
  part    : Uno := 0
  objects : List SnapEntry := []
  groups  : List (Uno × BitVec 32) := []
  t       : Time := 0
deriving DecidableEq, Repr

/-- A deadline comparator (R240; Tables SW-18, SW-19). `state`: 0 FREE, 1 ARMED, 2 MET, 3 MISSED. -/
structure Deadline where
  state   : Nat := 0
  jobId   : BitVec 32 := 0
  row     : Nat := 0
  ctx     : Ctx := 0
  obj     : Nat := 0
  target  : Word := 0
  t       : Time := 0
  doneT   : Time := 0
  session : Nat := 0
  platform : Bool := false
  /-- The result waits for a post to serve the half (R241). -/
  owed    : Bool := false
deriving DecidableEq, Repr

/-- A policy HALT that waits for a place (R243). -/
structure PolHalt where
  ctx    : Ctx
  row    : Nat
  issuer : Nat
  folio  : Bool
deriving DecidableEq, Repr

/-- The watch as a whole. `joining` is the T_snap of the snapshot being joined, `env` what the taps read of the
accelerator then, `barred` the contexts that R236 leaves unjudged; `prevWaits` and `prevQueued` are the wait
generations and the objects with QUEUED of the snapshot joined before. -/
structure Watch where
  objs      : Tbl SyncObj := []
  waiters   : Tbl Waiter := []
  watchers  : Tbl Watcher := []
  policies  : Tbl Policy := []
  records   : Tbl Deadlock := []
  deadlines : Tbl Deadline := []
  halts     : List PolHalt := []
  joining   : Option Time := none
  env       : AccelSample := ⟨[], [], [], [], []⟩
  barred    : List Ctx := []
  prevWaits : List (Uno × BitVec 32) := []
  prevQueued : List Uno := []
  skipped   : Nat := 0
  declared  : Nat := 0
  joinNs    : Nat := 0
  snapT     : Time := 0
deriving DecidableEq, Repr

/-! ### Inkwells and trace (chapter 09) -/

/-- Packet types with the codes of Table IT-3. -/
inductive PktType where
  | mark
  | data
  | chainMark
  | engine
deriving DecidableEq, Repr

/-- A packet on its way to a stream part (R250 to R254). `old`: stamped before the last meridian wrap (R258). -/
structure Packet where
  type  : PktType
  t     : Time
  old   : Bool := false
  ctx   : Ctx
  uno   : Uno
  chan  : Nat
  size  : Nat
  data  : Word
deriving DecidableEq, Repr

/-- Dropped packets that a station has yet to report (R253): count, channels, and reasons as bits of
Table IT-4. -/
structure Drops where
  count   : Nat := 0
  chans   : BitVec 32 := 0
  reasons : BitVec 8 := 0
deriving DecidableEq, Repr

/-- A packet queue with the drops counted at it: a station's, or a core tap's, whose drops its station reports (R252, R253). -/
structure StationQ where
  queue : List Packet := []
  drops : Drops := {}
  lastReport : Option Time := none
deriving DecidableEq, Repr

/-- A trace stream (R260, R266). -/
structure Stream where
  overwrite : Bool
  anyCtx    : Bool
  serial    : Bool
  scope     : Uno
  ctx       : Ctx
  pages     : Nat
  channels  : BitVec 32
  owner     : Nat
  isCut     : Bool := false
  ending    : Nat := 0
deriving DecidableEq, Repr

/-- One part of a stream (R255 to R264; Tables IT-12 to IT-15). `state` has the codes of SVP_IT_PART.STATE. `words`
are the words placed in the page being written, `wrOff` the committed bytes of it, and `image` the pages in HBM. -/
structure TPart where
  state    : Nat := 0
  base     : Time := 0
  startT   : Time := 0
  image    : Tbl (List Word) := []
  words    : List Word := []
  wrPage   : Nat := 0
  wrOff    : Nat := 0
  unread   : Nat := 0
  wrPseq   : BitVec 28 := 0
  lossCount : Nat := 0
  reasons  : BitVec 8 := 0
  upper    : Bool := false
  unknown  : Bool := false
  lossT    : Option Time := none
  packets  : Nat := 0
  lost     : Nat := 0
deriving DecidableEq, Repr

/-- The serial output of the active Compass (R267): the queue's words, each with the mark that a TIME packet starts
at it; the base that the queue's last TIME packet sets; the word on the line or sent last, with the times at which its
frame starts and ends; whether that word is the first of a 16-byte packet; and the TIME packet sent last. -/
structure Serial where
  slot   : Option Nat := none
  queue  : List (Bool × Word) := []
  lost   : Nat := 0
  sinceTime : Nat := 0
  owedLoss : Nat := 0
  base   : Time := 0
  sent   : Option Word := none
  startT : Time := 0
  freeT  : Time := 0
  mid    : Bool := false
  lastTime : List Word := []
deriving DecidableEq, Repr

/-- Trace state as a whole. -/
structure Trace where
  taps     : Tbl StationQ := []
  stations : Tbl StationQ := []
  funnels  : Tbl (List Packet) := []
  streams  : Tbl (Option Stream) := []
  parts    : Tbl TPart := []
  serial   : Serial := {}
  areaEff  : Nat := 16
deriving DecidableEq, Repr

/-! ### External ports and pins (chapter 11) -/

/-- A live challenge (R313). -/
structure Challenge where
  nonce : BitVec 256
  key   : Nat
  level : Nat
  ctx   : Ctx
  endT  : Time
deriving DecidableEq, Repr

/-- A response packet (R298): TYPE, SEQ, STATUS and payload. -/
structure Resp where
  type    : Nat
  seq     : BitVec 8
  status  : Nat
  payload : List Word
deriving DecidableEq, Repr

/-- A pin's guard interval (R319): the function that takes the pin at its end. -/
structure Guard where
  on   : Bool := false
  next : Nat := 0
deriving DecidableEq, Repr

/-- The debug port and the pins (R295 to R321). -/
structure Port where
  sessionFresh : Bool := true
  seq       : BitVec 8 := 0
  lastCrc   : BitVec 32 := 0
  lastReqT  : Time := 0
  response  : Option Resp := none
  taken     : Bool := true
  /-- A response that is offered in place of the stored one and is not kept for retries (R299). -/
  order     : Option Resp := none
  /-- The words on their way out are an event's. -/
  outEvent  : Bool := false
  /-- Words of the response still to be taken by Ledger passes. -/
  outWords  : List Word := []
  events    : List (List Word) := []
  inWords   : List Word := []
  partialT  : Time := 0
  hunting   : Bool := false
  chall     : Option Challenge := none
  fails     : Nat := 0
  lockEnd   : Option Time := none
  nextLock  : Nat := 1
  ir        : Nat := 2
  /-- What the last Capture-IR loaded, and what the last Capture-DR of a Ledger pass loaded: TDO shifts it out (R305,
  R306). -/
  irOut     : Option Nat := none
  drOut     : Option Word := none
  boundary  : BitVec 6 := 0b100000
  bscan     : Bool := false
  pollOpen  : Bool := false
  driving   : Bool := false
  lineLow   : Option Time := none
  halfbit   : Nat := 0
  stalls    : Nat := 0
  framing   : Nat := 0
  crcErr    : Nat := 0
  auth      : Nat := 0
  glitches  : Nat := 0
  collisions : Nat := 0
  resets    : Nat := 0
  guardDrops : Nat := 0
  tiCount   : BitVec 16 := 0
  func      : Nat := 0
  guardOut  : Guard := {}
  guardIn   : Bool := false
  /-- FAULT_N passes through a guard (R319, Table PT-12). -/
  guardFault : Bool := false
  cross     : Option Time := none
  trigIn    : Bool := true
  faultExt  : Bool := false
  aperture  : List (List Byte) := []
  aprFirst  : Nat := 0
  aprBase   : Nat := 0
  aprDone   : Bool := false
  staging   : List Host.Cell := []
deriving DecidableEq, Repr

/-! ### Sessions, contexts and keys (chapter 12) -/

/-- A tenant-context grant of a session (R330 to R333): from a token, and from a port challenge. -/
structure CtxGrant where
  ctx    : Ctx
  level  : Nat
  seq    : BitVec 32
  expiry : Time
  portLevel : Nat := 0
deriving DecidableEq, Repr

/-- A grant of platform rights or of a maker level: by token with its SEQ (R330), and by a port challenge (R313). -/
structure KeyGrant where
  on     : Bool := false
  seq    : BitVec 32 := 0
  expiry : Time := 0
  viaPort : Bool := false
deriving DecidableEq, Repr

/-- An open session (R312, R329 to R334, R391). `holds` lists (kind, slot, count). -/
structure Session where
  isPort  : Bool
  ring    : Nat
  nonce   : BitVec 128
  scheck  : BitVec 32
  openT   : Time
  /-- KEY 1, 3, 4 and 5 of Table AC-4. -/
  operator : KeyGrant := {}
  provision : KeyGrant := {}
  makerTest : KeyGrant := {}
  analysis : KeyGrant := {}
  tenants : List CtxGrant := []
  fails   : Nat := 0
  lockEnd : Option Time := none
  nextLock : Nat := 1
  holds   : List (Nat × Nat × Nat) := []
deriving DecidableEq, Repr

/-- A bound context's registration (R336 to R340). -/
structure Registration where
  part     : Uno
  regGen   : BitVec 32
  grantPub : List Byte
  sealing  : Bool
  keyId    : Word
deriving DecidableEq, Repr

/-- A token in the authorisation unit (R331). -/
structure Verify where
  c      : CmdCtx
  level  : Nat
  key    : Nat
  ctx    : Ctx
  seq    : BitVec 32
  expiry : Time
  regGen : BitVec 32
deriving DecidableEq, Repr

/-- The authorisation unit (R329 to R345). -/
structure Auth where
  sessions : Tbl (Option Session) := []
  regs     : Tbl (Option Registration) := []
  regGen   : BitVec 32 := 0
  fails    : Nat := 0
  verify   : List Verify := []
  devApub  : List Byte := []
  devXpub  : List Byte := []
  opPub    : List Byte := []
  opKid    : Word := 0
  opKeys   : Bool := false
  mkKid    : Word := 0
  mkEph    : List Byte := []
  mkWrap   : List Byte := []
deriving DecidableEq, Repr

/-! ### Lifecycle and flash (chapter 13) -/

/-- A 16-byte step record of one copy (R354, R356). -/
inductive StepRec where
  | erased
  | corrupt
  | valid (tag src dst slot : Nat) (t : Time)
deriving DecidableEq, Repr

/-- One physical flash sector's metadata row and whether its data holds a programmed bit (R352, R367). -/
structure Sector where
  count   : Nat := 0
  retired : Bool := false
  inUse   : Bool := false
  link    : Nat := 0
  programmed : Bool := false
deriving DecidableEq, Repr

/-- The lifecycle flash of both dies and the lifecycle controller (R346 to R370). `copies` is keyed by copy
(A0 to A2, then B0 to B2) times 192 plus step record index. `sectors` is keyed by die times 64 plus physical
sector. -/
structure Lifecycle where
  copies    : Tbl StepRec := []
  sectors   : Tbl Sector := []
  user      : Tbl (List Byte) := []
  certChain : List Byte := []
  devKeys   : Bool := false
  /-- The public halves of the device keys of sector 4 (R349). -/
  devApub   : List Byte := []
  devXpub   : List Byte := []
  opGen     : Nat := 0
  opSector  : Nat := 6
  opRecPub  : List Byte := []
  opRecKid  : Word := 0
  opValid   : Bool := false
  decided   : Bool := false
  state     : Lc := .blank
  lockdown  : Bool := false
  pending   : Bool := false
  /-- A transition is running from acceptance until its hub-cold reset; the next enumeration announces it. -/
  running   : Bool := false
  slot      : Nat := 255
  step      : Nat := 0
  /-- The meridian at which the repairs of the last start-up end (R358). -/
  repairT   : Time := 0
deriving DecidableEq, Repr

/-! ### Host interface and objects (chapter 14) -/

/-- An event entry (Table HO-5), PHASE aside. -/
structure Event where
  type    : Nat
  status  : Nat
  session : Nat
  queue   : Nat
  object  : BitVec 32
  value   : Word
  data    : Word
  t       : Time
deriving DecidableEq, Repr

/-- One event ring (R382 to R386). `entries` are those written and not yet consumed, oldest first. -/
structure Ring where
  enabled  : Bool := false
  base     : Word := 0
  sizeLog2 : Nat := 6
  tail     : Nat := 0
  head     : Nat := 0
  phase    : Bool := true
  reserved : Nat := 0
  entries  : List (Bool × Event) := []
  held     : List Event := []
  lost     : Nat := 0
  lostDue  : Bool := false
  unsignalled : Nat := 0
  oldestT  : Time := 0
  signalled : Nat := 0
  notify   : Bool := false
deriving DecidableEq, Repr

/-- One command queue (R376). `mem` holds the bytes of its page's 32 entries. -/
structure CQ where
  mem    : List Host.Cell := []
  prod   : Nat := 0
  head   : Nat := 0
  dbErr  : Bool := false
deriving DecidableEq, Repr

/-- A command taken and not complete (R378). -/
structure InFlight where
  c      : CmdCtx
  ring   : Nat
  opcode : Nat
  inline : List Byte
  arg    : List Byte
  object : Option (Nat × Nat) := none
deriving DecidableEq, Repr

/-- Reference counts of a counted object beyond the holds of sessions (R391). -/
structure Refs where
  live  : Bool := false
  hub   : Nat := 0
  kept  : Nat := 0
  dying : Bool := false
  creator : Nat := 0
deriving DecidableEq, Repr

/-- The PCIe function, the queues, the rings and the shared objects (R371 to R399). -/
structure HostIf where
  queues   : Tbl CQ := []
  rings    : Tbl Ring := []
  inflight : List InFlight := []
  nextQ    : Nat := 0
  waiting  : List Instr := []
  bound    : Option Nat := none
  resets   : BitVec 16 := 0
  refs     : Tbl Refs := []
  cartEvent : Bool := false
  cartHead : BitVec 32 := 0
  msixTable : Tbl Word := []
  msixPending : BitVec 32 := 0
  faultnSig : Nat := 0
  /-- What the last register or window read returned, and the last result record written by DMA. -/
  readData : Word := 0
  result   : List Byte := []
deriving DecidableEq, Repr

/-! ### Firmware update (chapter 15) -/

/-- A slot record of the update state (Table UP-2). `state` has the codes of Table UP-3. -/
structure Slot where
  state   : Nat := 0
  key     : Nat := 0
  secver  : Nat := 0
  version : BitVec 32 := 0
  len     : Nat := 0
  ucode   : BitVec 32 := 0
deriving DecidableEq, Repr

/-- The update state and the update registers (R403 to R419). -/
structure Update where
  slotA    : Slot := {}
  slotB    : Slot := {}
  manual   : Bool := false
  tries    : Nat := 0
  gen      : Nat := 0
  rollback : Nat := 0
  owner    : Option Nat := none
  length   : Nat := 0
  received : Nat := 0
  lastStatus : Nat := 0
  booted   : Nat := 0
  confirmWait : Option Time := none
  fallback : Bool := false
  reverted : Bool := false
  trial    : Bool := false
  trialT   : Time := 0
  /-- Whether the own-die copy of a DOWNLOADED slot verified at step 4; the controller judges it after step 7 (R409). -/
  pendOk   : Option Bool := none
  postsLostBefore : Nat := 0
deriving DecidableEq, Repr

/-! ### The whole machine -/

/-- The state of the block. `regs` holds the stored fields of configuration registers by BAR0 offset (the port
session's own selectors at 2^32 above); an unlisted register holds its reset value. `drawn` counts the
free values drawn. -/
structure State where
  pkg     : Pkg
  dies    : Tbl Die
  copies  : Tbl (Option Copy)
  links   : Tbl Link
  posts   : Tbl Post
  held    : Tbl Bool
  unobs   : Tbl Bool
  groups  : Tbl (Option Group)
  clamps  : Tbl ClampLog
  reports : Tbl (Option Time)
  legend  : Legend
  regs    : Tbl Word
  engines : Tbl Engine
  hops    : Tbl (Option Hop)
  hopNext : Nat
  hopSeq  : Tbl Nat
  cores   : Tbl Core
  insts   : Tbl Hold
  rports  : Tbl RPort
  bounds  : Tbl Boundary
  rings   : Tbl HopRing
  cmps    : Tbl Cmp
  cnts    : Tbl Cnt
  chains  : Tbl Chain
  sets    : Tbl (Option TrigSet)
  places  : Tbl (Option Place)
  halves  : Tbl SetHalf
  /-- Dies that an XTRIG lattice pulse is on its way to (R21, R138). -/
  xtrig   : List Nat
  folios  : Folios
  cart    : Cart
  pair    : Pair
  watch   : Watch
  trace   : Trace
  port    : Port
  auth    : Auth
  life    : Lifecycle
  host    : HostIf
  upd     : Update
  /-- The model's own count of free values drawn (not the spec's). -/
  drawn   : Nat
  pending : List Instr
deriving DecidableEq, Repr

/-- The machine before power is applied: every register at the reset value the spec gives, flash as shipped
(blank), the queue empty (R38, Table TP-7). PACKAGE_POWER_ON starts it. -/
def State.reset : State where
  pkg     := {}
  dies    := []
  copies  := []
  links   := []
  posts   := []
  held    := []
  unobs   := []
  groups  := []
  clamps  := []
  reports := []
  legend  := {}
  regs    := []
  engines := []
  hops    := []
  hopNext := 0
  hopSeq  := []
  cores   := []
  insts   := []
  rports  := []
  bounds  := []
  rings   := []
  cmps    := []
  cnts    := []
  chains  := []
  sets    := []
  places  := []
  halves  := []
  xtrig   := []
  folios  := {}
  cart    := {}
  pair    := {}
  watch   := {}
  trace   := {}
  port    := {}
  auth    := {}
  life    := {}
  host    := {}
  upd     := {}
  drawn   := 0
  pending := []

end Sys2Proof.Machine
end

