-- ==== Sys2Proof/Machine/Ops.lean ====
section
/-! DEFINITION. The operations every meaning shares: sparse tables, byte memories, byte order, CRC-32C,
SipHash-2-4, bit fields and saturating counts. -/

namespace Sys2Proof.Machine

/-- What a command answers. -/
abbrev Out := Host.Outcome State Fault Refusal

/-! ### Sparse tables -/

/-- The entry at key `k`, or the default `d` of an unlisted key. -/
def Tbl.get {α : Type} (d : α) : Tbl α → Nat → α
  | [], _ => d
  | (k', v) :: r, k => if k' = k then v else Tbl.get d r k

/-- The table with key `k` removed. -/
def Tbl.drop {α : Type} : Tbl α → Nat → Tbl α
  | [], _ => []
  | (k', v) :: r, k => if k' = k then Tbl.drop r k else (k', v) :: Tbl.drop r k

/-- The table with key `k` at `v`, its keys rising. -/
def Tbl.put {α : Type} : Tbl α → Nat → α → Tbl α
  | [], k, v => [(k, v)]
  | (k', v') :: r, k, v =>
    if k < k' then (k, v) :: (k', v') :: r
    else if k = k' then (k, v) :: r
    else (k', v') :: Tbl.put r k v

/-- The table with key `k` at `v`: an entry equal to the default is not listed. -/
def Tbl.set {α : Type} [DecidableEq α] (d : α) (t : Tbl α) (k : Nat) (v : α) : Tbl α :=
  if v = d then Tbl.drop t k else Tbl.put t k v

/-- Keys strictly rise and lie above `lo`, and no entry equals the default. -/
def Tbl.wfFrom {α : Type} [DecidableEq α] (d : α) : Option Nat → Tbl α → Bool
  | _, [] => true
  | lo, (k, v) :: r => (match lo with | none => true | some l => decide (l < k)) && decide (v ≠ d) && Tbl.wfFrom d (some k) r

/-- The canonical form of a sparse table. -/
def Tbl.wf {α : Type} [DecidableEq α] (d : α) (t : Tbl α) : Bool := Tbl.wfFrom d none t

/-- Every listed value changed by `f`; entries that become the default are no longer listed. -/
def Tbl.mapVals {α : Type} [DecidableEq α] (d : α) (f : Nat → α → α) : Tbl α → Tbl α
  | [] => []
  | (k, v) :: r => if f k v = d then Tbl.mapVals d f r else (k, f k v) :: Tbl.mapVals d f r

/-- The keys that hold a value, lowest first. -/
def Tbl.keysSome {α : Type} (t : Tbl (Option α)) : List Nat :=
  (t.filter (fun e => e.2.isSome)).map (·.1)

/-- The first `n` naturals at and above `a`. -/
def rangeFrom (a : Nat) : Nat → List Nat
  | 0 => []
  | n + 1 => a :: rangeFrom (a + 1) n

/-- The lowest number below `n` that satisfies `p`. -/
def firstBelow (p : Nat → Bool) (n : Nat) : Option Nat := (rangeFrom 0 n).find? p

/-! ### Byte memories -/

/-- What an unlisted byte of a hub memory reads as (assumption 4). -/
def Memory.blank : Byte := 0

/-- One byte of a memory. -/
def Memory.read (m : List Host.Cell) (a : Nat) : Byte := Tbl.get Memory.blank m a

/-- A memory with one byte written. -/
def Memory.write (m : List Host.Cell) (a : Nat) (b : Byte) : List Host.Cell := Tbl.set Memory.blank m a b

/-- The canonical form of a memory. -/
def Memory.wf (m : List Host.Cell) : Bool := Tbl.wf Memory.blank m

/-- `n` bytes from address `a`. -/
def Memory.readBytes (m : List Host.Cell) (a n : Nat) : List Byte := (rangeFrom a n).map (Memory.read m)

/-- A memory with the bytes `bs` written from address `a`. -/
def Memory.writeBytes : List Host.Cell → Nat → List Byte → List Host.Cell
  | m, _, [] => m
  | m, a, b :: bs => Memory.writeBytes (Memory.write m a b) (a + 1) bs

/-! ### Byte order (R8: little-endian) -/

/-- The number that bytes spell, lowest first. -/
def leNat : List Byte → Nat
  | [] => 0
  | b :: bs => b.toNat + 256 * leNat bs

/-- The low `n` bytes of a number, lowest first. -/
def leBytes : Nat → Nat → List Byte
  | 0, _ => []
  | n + 1, v => BitVec.ofNat 8 v :: leBytes n (v / 256)

/-- `n` bytes of a record from offset `off`; bytes past its end read 0. -/
def slice (bs : List Byte) (off n : Nat) : List Byte :=
  let t := (bs.drop off).take n
  t ++ List.replicate (n - t.length) 0

/-- The little-endian field of `n` bytes at offset `off`. -/
def fieldAt (bs : List Byte) (off n : Nat) : Nat := leNat (slice bs off n)

/-- The number in bits [lo + n − 1 : lo] of `v`. -/
def bitsOf (v lo n : Nat) : Nat := v / 2 ^ lo % 2 ^ n

/-- Bit `i` of `v`. -/
def bitAt (v i : Nat) : Bool := bitsOf v i 1 == 1

/-- 1 for true (R280). -/
def bitNat (b : Bool) : Nat := if b then 1 else 0

/-- `n` numbers of `k` bytes each. -/
def numbersOf (k : Nat) : Nat → List Byte → List Nat
  | 0, _ => []
  | n + 1, bs => leNat (bs.take k) :: numbersOf k n (bs.drop k)

/-- A count that stops at `top`. -/
def satAdd (top a b : Nat) : Nat := min top (a + b)

/-- The 16-bit count that saturates. -/
def sat16 (a : Nat) : Nat := satAdd 65535 a 1

/-- The 32-bit count that saturates. -/
def sat32 (a b : Nat) : Nat := satAdd 4294967295 a b

/-- A number modulo 2^64 as a word. -/
def word (n : Nat) : Word := BitVec.ofNat 64 n

/-- The four bytes that a name spells as a little-endian word. -/
def magic (a b c d : Char) : Nat := a.toNat + 256 * b.toNat + 65536 * c.toNat + 16777216 * d.toNat

/-! ### CRC-32C (Castagnoli, reflected) -/

/-- One bit of the reflected division by 0x82F6_3B78. -/
def crcBit (c : BitVec 32) : BitVec 32 :=
  if c.getLsbD 0 then (c >>> 1) ^^^ 0x82F63B78 else c >>> 1

/-- `n` bits. -/
def crcBits : Nat → BitVec 32 → BitVec 32
  | 0, c => c
  | n + 1, c => crcBits n (crcBit c)

/-- One byte into a running remainder, with no inversion (R280, CRC). -/
def crcByte (c : BitVec 32) (b : Byte) : BitVec 32 := crcBits 8 (c ^^^ b.setWidth 32)

/-- Several bytes into a running remainder. -/
def crcUpdate (c : BitVec 32) (bs : List Byte) : BitVec 32 := bs.foldl crcByte c

/-- CRC-32C of a byte string: all ones at first, inverted at the end. -/
def crc32c (bs : List Byte) : BitVec 32 := ~~~ crcUpdate (BitVec.allOnes 32) bs

/-! ### SipHash-2-4 (R197) -/

/-- The four state words of SipHash. -/
structure Sip where
  a : Word
  b : Word
  c : Word
  d : Word
deriving DecidableEq, Repr

/-- One SipRound. -/
def sipRound (v : Sip) : Sip :=
  let a1 := v.a + v.b
  let b1 := v.b.rotateLeft 13 ^^^ a1
  let a2 := a1.rotateLeft 32
  let c1 := v.c + v.d
  let d1 := v.d.rotateLeft 16 ^^^ c1
  let a3 := a2 + d1
  let d2 := d1.rotateLeft 21 ^^^ a3
  let c2 := c1 + b1
  let b2 := b1.rotateLeft 17 ^^^ c2
  let c3 := c2.rotateLeft 32
  ⟨a3, b2, c3, d2⟩

/-- One 64-bit word of the message. -/
def sipWord (v : Sip) (m : Word) : Sip :=
  let w := sipRound (sipRound ⟨v.a, v.b, v.c, v.d ^^^ m⟩)
  ⟨w.a ^^^ m, w.b, w.c, w.d⟩

/-- The message's whole 8-byte words, `n` of them. -/
def sipWords : Nat → Sip → List Byte → Sip
  | 0, v, _ => v
  | n + 1, v, bs => sipWords n (sipWord v (word (leNat (bs.take 8)))) (bs.drop 8)

/-- SipHash-2-4 of a message under a 128-bit key. -/
def sipHash24 (key : BitVec 128) (bs : List Byte) : Word :=
  let k0 : Word := key.setWidth 64
  let k1 : Word := (key >>> 64).setWidth 64
  let v0 : Sip := ⟨k0 ^^^ 0x736f6d6570736575, k1 ^^^ 0x646f72616e646f6d, k0 ^^^ 0x6c7967656e657261,
    k1 ^^^ 0x7465646279746573⟩
  let n := bs.length / 8
  let v1 := sipWords n v0 bs
  let last := word (leNat (bs.drop (8 * n)) + 2 ^ 56 * (bs.length % 256))
  let v2 := sipWord v1 last
  let v3 := sipRound (sipRound (sipRound (sipRound ⟨v2.a, v2.b, v2.c ^^^ 0xff, v2.d⟩)))
  v3.a ^^^ v3.b ^^^ v3.c ^^^ v3.d

/-! ### Time -/

/-- The present meridian value (R28). -/
def State.now (s : State) : Nat := s.pkg.meridian.toNat

/-- The state with one more free value drawn. -/
def State.draw (s : State) : State := { s with drawn := s.drawn + 1 }

end Sys2Proof.Machine
end

