-- ==== Sys2Proof/Machine/Operands.lean ====
section
/-! DEFINITION. Units as operands (chapter 02): kinds, parents, scope, presence, contexts, descriptors and the
spaces a unit address reaches. A unit is found by formula; only what the formulas cannot know is state. -/

namespace Sys2Proof.Machine

/-! ### Numbers (Tables SC-1, UT-1) -/

/-- Dies the member carries (Table SC-1). -/
def Member.dies : Member → Nat
  | .za0400 => 4
  | .za1600 => 16
  | .za6400 => 64

/-- The grid's side (R14, Table UT-6). -/
def Member.grid : Member → Nat
  | .za0400 => 2
  | .za1600 => 4
  | .za6400 => 8

/-- Posts the member carries: two per die (R15). -/
def Member.posts (m : Member) : Nat := 2 * m.dies

/-- The part number of CMP_ID (Table HO-11). -/
def Member.part : Member → Nat
  | .za0400 => 0x0400
  | .za1600 => 0x1600
  | .za6400 => 0x6400

/-- The die of Compass B (Table SC-1). -/
def Member.dieB (m : Member) : Nat := m.dies - 1

/-- Kinds of unit (Table UT-1). `none`: a hole or a reserved value. -/
inductive Kind where
  | none
  | package
  | die
  | half
  | cluster
  | core
  | tg
  | hostIf
  | seam
  | hbm
  | chan
  | bank
  | cnet
  | xbar
  | obj
  | group
deriving DecidableEq, Repr

/-- The kind code of a descriptor (Table UT-1). -/
def Kind.code : Kind → Nat
  | .none => 0x00
  | .package => 0x01
  | .die => 0x02
  | .half => 0x03
  | .cluster => 0x04
  | .core => 0x05
  | .tg => 0x06
  | .hostIf => 0x10
  | .seam => 0x11
  | .hbm => 0x12
  | .chan => 0x13
  | .bank => 0x14
  | .cnet => 0x15
  | .xbar => 0x16
  | .obj => 0x17
  | .group => 0x20

/-- `k` when the condition holds, a hole otherwise. -/
def Kind.when (c : Bool) (k : Kind) : Kind := if c then k else .none

/-- The kind of a UNO on a member (Table UT-1, R3, R51). Group slots count whether or not they are live. -/
def kindOf (m : Member) (u : Uno) : Kind :=
  if u = 0 then .package
  else if u < 0x100 then .none
  else if u < 0x200 then .when (decide (u - 0x100 < m.dies)) .die
  else if u < 0x1000 then .when (decide (u - 0x200 < m.posts)) .half
  else if u < 0x3000 then .when (decide ((u - 0x1000) % 64 < 40 ∧ (u - 0x1000) / 64 < m.posts)) .cluster
  else if u = 0x3000 then .hostIf
  else if u < 0x3100 then .none
  else if u < 0x3200 then .when (decide (u - 0x3100 < m.dies)) .seam
  else if u < 0x3300 then .when (decide (u - 0x3200 < m.posts)) .hbm
  else if u < 0x4000 then .when (decide (u - 0x3300 < m.posts)) .bank
  else if u < 0x8000 then .when (decide ((u - 0x4000) / 32 < m.posts)) .chan
  else if u < 0x10000 then
    if (u - 0x8000) / 128 < m.posts then
      if (u - 0x8000) % 128 < 44 then .cnet
      else .when (decide (64 ≤ (u - 0x8000) % 128 ∧ (u - 0x8000) % 128 < 96)) .xbar
    else .none
  else if u < 0x30000 then
    .when (decide ((u - 0x10000) / 16 % 64 < 40 ∧ (u - 0x10000) / 1024 < m.posts)) .core
  else if u < 0x400000 then .none
  else if u < 0xC00000 then
    .when (decide ((u - 0x400000) / 1024 % 64 < 40 ∧ (u - 0x400000) / 65536 < m.posts)) .tg
  else if u < 0xC20000 then .when (decide ((u - 0xC00000) / 1024 < m.posts)) .obj
  else if u < 0xF00000 then .none
  else if u < 0xF01000 then .group
  else .none

/-- The parent of a physical unit (Table UT-1); groups and the package have parent 0. -/
def parentOf (m : Member) (u : Uno) : Uno :=
  match kindOf m u with
  | .none => 0
  | .package => 0
  | .die => 0
  | .half => 0x100 + (u - 0x200) / 2
  | .cluster => 0x200 + (u - 0x1000) / 64
  | .core => 0x1000 + (u - 0x10000) / 16
  | .tg => 0x10000 + (u - 0x400000) / 64
  | .hostIf => 0
  | .seam => 0x100 + (u - 0x3100)
  | .hbm => 0x100 + (u - 0x3200) / 2
  | .chan => 0x3200 + (u - 0x4000) / 32
  | .bank => 0x200 + (u - 0x3300)
  | .cnet => 0x200 + (u - 0x8000) / 128
  | .xbar => 0x200 + (u - 0x8000) / 128
  | .obj => 0x3300 + (u - 0xC00000) / 1024
  | .group => 0

/-- A unit and its ancestors, nearest first; at most `n` of them. -/
def ancestorsN (m : Member) : Nat → Uno → List Uno
  | 0, _ => []
  | n + 1, u => if u = 0 then [0] else u :: ancestorsN m n (parentOf m u)

/-- A physical unit and its ancestors up to the package (R48: attached units through their parents). -/
def ancestors (m : Member) (u : Uno) : List Uno :=
  match kindOf m u with
  | .none => []
  | .group => [u]
  | _ => ancestorsN m 6 u

/-- The post whose half owns a unit (R15; R67: platform units of a die belong to half 0, an HBM stack t to
half t; assumption 12). `none`: the Compass. -/
def postOf (m : Member) (u : Uno) : Option Nat :=
  match kindOf m u with
  | .half => some (u - 0x200)
  | .cluster => some ((u - 0x1000) / 64)
  | .core => some ((u - 0x10000) / 1024)
  | .tg => some ((u - 0x400000) / 65536)
  | .die => some (2 * (u - 0x100))
  | .seam => some (2 * (u - 0x3100))
  | .hbm => some (u - 0x3200)
  | .chan => some ((u - 0x4000) / 32)
  | .bank => some (u - 0x3300)
  | .cnet => some ((u - 0x8000) / 128)
  | .xbar => some ((u - 0x8000) / 128)
  | .obj => some ((u - 0xC00000) / 1024)
  | _ => none

/-- The die of a unit that belongs to one die. -/
def dieOf (m : Member) (u : Uno) : Option Nat :=
  match kindOf m u with
  | .hostIf => some 0
  | _ => (postOf m u).map (· / 2)

/-- The core that holds a unit, for a core or a thread group. -/
def coreOf (m : Member) (u : Uno) : Option Uno :=
  match kindOf m u with
  | .core => some u
  | .tg => some (parentOf m u)
  | _ => none

/-- The cluster that holds a unit, for clusters, cores and thread groups. -/
def clusterOf (m : Member) (u : Uno) : Option Uno :=
  match kindOf m u with
  | .cluster => some u
  | .core => some (parentOf m u)
  | .tg => some (parentOf m (parentOf m u))
  | _ => none

/-- The UNO of core k of cluster c of post p. -/
def coreUno (p c k : Nat) : Uno := 0x10000 + 16 * (64 * p + c) + k

/-- The UNO of cluster c of post p. -/
def clusterUno (p c : Nat) : Uno := 0x1000 + 64 * p + c

/-- The UNO of post p's half. -/
def halfUno (p : Nat) : Uno := 0x200 + p

/-- The UNO of synchronisation object i of post p. -/
def objUno (p i : Nat) : Uno := 0xC00000 + 1024 * p + i

/-- A Compass die's UNO (R197). -/
def State.compassDie (s : State) : Uno := 0x100 + (if s.pkg.activeB then s.pkg.member.dieB else 0)

/-- Grid distance of two dies (R22). -/
def hops (m : Member) (a b : Nat) : Nat :=
  let g := m.grid
  let dx := if a % g ≤ b % g then b % g - a % g else a % g - b % g
  let dy := if a / g ≤ b / g then b / g - a / g else a / g - b / g
  dx + dy

/-! ### Records of state by unit -/

/-- Die d's AON strip. -/
def State.die (s : State) (d : Nat) : Die := Tbl.get {} s.dies d
/-- Post p. -/
def State.post (s : State) (p : Nat) : Post := Tbl.get {} s.posts p
/-- Core tap of a core. -/
def State.core (s : State) (u : Uno) : Core := Tbl.get {} s.cores u
/-- A class instance or object hold (R114), keyed by class and unit. -/
def State.inst (s : State) (cls : Nat) (u : Uno) : Hold := Tbl.get {} s.insts (cls * 0x1000000 + u)
/-- The software group in a slot, if live. -/
def State.group (s : State) (u : Uno) : Option Group := Tbl.get none s.groups u
/-- Engine e: a post index, or 128 for the root. -/
def State.engine (s : State) (e : Nat) : Engine := Tbl.get {} s.engines e

/-- The engine of the standby Compass: EMPTY until it takes over (R73). -/
def standbyEngine : Nat := 129

def State.setDie (s : State) (d : Nat) (v : Die) : State := { s with dies := Tbl.set {} s.dies d v }
def State.setPost (s : State) (p : Nat) (v : Post) : State := { s with posts := Tbl.set {} s.posts p v }
def State.setCore (s : State) (u : Uno) (v : Core) : State := { s with cores := Tbl.set {} s.cores u v }
def State.setInst (s : State) (cls : Nat) (u : Uno) (v : Hold) : State :=
  { s with insts := Tbl.set {} s.insts (cls * 0x1000000 + u) v }
def State.setEngine (s : State) (e : Nat) (v : Engine) : State := { s with engines := Tbl.set {} s.engines e v }

/-! ### Presence and scope (R46, R48, R51) -/

/-- A unit is held when it, or a physical ancestor, is listed as held in reset or mapped out (R46, R51). -/
def State.isHeld (s : State) (u : Uno) : Bool :=
  (ancestors s.pkg.member u).any (fun a => Tbl.get false s.held a)

/-- A unit whose own tap is dead (Table TP-11). -/
def State.isUnobs (s : State) (u : Uno) : Bool := Tbl.get false s.unobs u

/-- A unit that exists: carried by the member, and for a software group live. -/
def State.exists (s : State) (u : Uno) : Bool :=
  match kindOf s.pkg.member u with
  | .none => false
  | .group => (s.group u).isSome
  | _ => true

/-- A unit that an operation may name: neither a hole, held nor unobservable (R51). -/
def State.present (s : State) (u : Uno) : Bool := s.exists u && !s.isHeld u && !s.isUnobs u

/-- A member range of a group holds a UNO. -/
def memberHas (e : Uno × Nat) (u : Uno) : Bool := decide (e.1 ≤ u ∧ u < e.1 + e.2)

/-- `as` (a unit with its ancestors) meets the expansion of a group, through at most `n` levels. -/
def groupHas (s : State) : Nat → Uno → List Uno → Bool
  | 0, _, _ => false
  | n + 1, g, as =>
    match s.group g with
    | none => false
    | some r =>
      r.members.any (fun e =>
        as.any (fun a => memberHas e a) ||
        (s.groups.any (fun q => memberHas e q.1 && q.2.isSome && groupHas s n q.1 as)))

/-- `u` lies in the scope of `v` (R48). -/
def State.inScope (s : State) (v u : Uno) : Bool :=
  let as := ancestors s.pkg.member u
  match kindOf s.pkg.member v with
  | .group => u == v || groupHas s 17 v as
  | _ => as.contains v

/-- Present cores of a cluster, lowest first. -/
def State.clusterCores (s : State) (cl : Uno) : List Uno :=
  (rangeFrom (0x10000 + 16 * (cl - 0x1000)) 16).filter (fun u => s.present u)

/-- The clusters of a half, lowest first. -/
def halfClusters (p : Nat) : List Uno := rangeFrom (clusterUno p 0) 40

/-- The clusters below a physical unit, whether held or not. -/
def physClusters (m : Member) (v : Uno) : List Uno :=
  match kindOf m v with
  | .package => (rangeFrom 0 m.posts).flatMap halfClusters
  | .die => halfClusters (2 * (v - 0x100)) ++ halfClusters (2 * (v - 0x100) + 1)
  | .half => halfClusters (v - 0x200)
  | .cluster => [v]
  | _ => []

/-- The physical units that a group expands to, nested groups through `n` levels. -/
def expand (s : State) : Nat → Uno → List Uno
  | 0, _ => []
  | n + 1, v =>
    match kindOf s.pkg.member v with
    | .group =>
      match s.group v with
      | none => []
      | some r => (r.members.flatMap (fun e => (rangeFrom e.1 e.2).flatMap (expand s n))).eraseDups
    | .none => []
    | _ => [v]

/-- The present clusters that lie whole in a scope, each once, in rising order of discovery (R48, R49). -/
def State.clustersIn (s : State) (v : Uno) : List Uno :=
  (((expand s 17 v).flatMap (physClusters s.pkg.member)).filter (fun c => s.present c)).eraseDups

/-- The present cores in a scope, each once. -/
def State.coresIn (s : State) (v : Uno) : List Uno :=
  ((expand s 17 v).flatMap (fun u =>
    match kindOf s.pkg.member u with
    | .core => if s.present u then [u] else []
    | _ => ((physClusters s.pkg.member u).filter (fun c => s.present c)).flatMap s.clusterCores)).eraseDups

/-- The synchronisation objects in a scope that their banks serve, each once. -/
def State.objsIn (s : State) (v : Uno) : List Uno :=
  ((expand s 17 v).flatMap (fun u =>
    let bankOf (p : Nat) : List Uno := if s.present (0x3300 + p) then rangeFrom (objUno p 0) 1024 else []
    match kindOf s.pkg.member u with
    | .obj => if s.present (parentOf s.pkg.member u) then [u] else []
    | .bank => bankOf (u - 0x3300)
    | .half => bankOf (u - 0x200)
    | .die => bankOf (2 * (u - 0x100)) ++ bankOf (2 * (u - 0x100) + 1)
    | .package => (rangeFrom 0 s.pkg.member.posts).flatMap bankOf
    | _ => [])).eraseDups

/-- Some unit of a list of kinds lies in a scope; for groups through their expansion. -/
def State.scopeKinds (s : State) (v : Uno) : List Kind :=
  (expand s 17 v).map (kindOf s.pkg.member)

/-- The posts whose halves a scope touches, lowest first. -/
def State.postsIn (s : State) (v : Uno) : List Nat :=
  (rangeFrom 0 s.pkg.member.posts).filter (fun p =>
    (expand s 17 v).any (fun u =>
      match kindOf s.pkg.member u with
      | .package => true
      | .die => decide (u - 0x100 = p / 2)
      | _ => postOf s.pkg.member u == some p))

/-- The dies that a scope touches. -/
def State.diesIn (s : State) (v : Uno) : List Nat := ((s.postsIn v).map (· / 2)).eraseDups

/-! ### Contexts (R323, R421) -/

/-- The partition that holds a cluster (R58 step 8: at most one). -/
def State.partitionOf (s : State) (cl : Uno) : Option (Uno × Group) :=
  (s.groups.filterMap (fun e => match e.2 with
    | some g => if g.partition && s.inScope e.1 cl then some (e.1, g) else none
    | none => none)).head?

/-- The partition of a context. -/
def State.partOfCtx (s : State) (c : Ctx) : Option (Uno × Group) :=
  (s.groups.filterMap (fun e => match e.2 with
    | some g => if g.partition && g.ctx == c then some (e.1, g) else none
    | none => none)).head?

/-- The synchronisation object at a UNO. -/
def State.syncObj (s : State) (u : Uno) : SyncObj := Tbl.get {} s.watch.objs u

/-- The context of a unit (R323). A group answers the context it carries. -/
def State.ctxOf (s : State) (u : Uno) : Ctx :=
  match kindOf s.pkg.member u with
  | .obj => (s.syncObj u).ctx
  | .group => ((s.group u).map (·.ctx)).getD 0
  | _ =>
    match clusterOf s.pkg.member u with
    | some cl => ((s.partitionOf cl).map (·.2.ctx)).getD 0
    | none => 0

/-- The contexts of a scope: those of its clusters, cores, objects named by themselves and platform units. -/
def State.ctxsIn (s : State) (v : Uno) : List Ctx :=
  ((expand s 17 v).flatMap (fun u =>
    match kindOf s.pkg.member u with
    | .package | .die | .half => (physClusters s.pkg.member u).filter (fun c => s.present c) |>.map s.ctxOf
    | _ => [s.ctxOf u])).eraseDups

/-- A physical unit named by itself lies within a context (R421). -/
def State.unitWithin (s : State) (c : Ctx) (u : Uno) : Bool :=
  match kindOf s.pkg.member u with
  | .package | .die | .half =>
    ((physClusters s.pkg.member u).filter (fun cl => s.present cl)).all (fun cl => s.ctxOf cl == c)
  | .cluster | .core | .tg | .obj => s.ctxOf u == c
  | .chan => true
  | _ => false

/-- A scope lies within one context (R421). -/
def State.scopeWithin (s : State) (c : Ctx) (v : Uno) : Bool := (expand s 17 v).all (s.unitWithin c)

/-! ### Posts (R37, R42, R53) -/

/-- A post that is powered and running: OK. -/
def State.postRuns (s : State) (p : Nat) : Bool := (s.post p).health == 1

/-- The post that serves half p: itself, or the sibling that has adopted it (R217). -/
def State.server (s : State) (p : Nat) : Option Nat :=
  if s.postRuns p then some p
  else if ((s.post p).health == 5 || (s.post p).restored) && s.postRuns (p ^^^ 1) && (s.post (p ^^^ 1)).adopting
    then some (p ^^^ 1) else none

/-- Half p's post is gated, waking or restarting: units of the half carry only the bits that stations and taps serve
(R55), whether or not the sibling serves the half meanwhile. -/
def State.halfMuted (s : State) (p : Nat) : Bool :=
  (s.post p).health == 7 || (s.post p).health == 8 || (s.post p).health == 9

/-- Half p's post is gated, waking or restarting and no sibling serves the half: a request that needs the post waits
(R43). -/
def State.postAsleep (s : State) (p : Nat) : Bool :=
  (s.server p).isNone && s.halfMuted p

/-- Both posts of the die are dead or lost (R218). -/
def State.dieUnserved (s : State) (d : Nat) : Bool :=
  (s.post (2 * d)).health == 6 && (s.post (2 * d + 1)).health == 6

/-! ### Capabilities (R54, R55, Table UT-4) -/

/-- CAP of a unit by itself, children aside. -/
def Kind.cap : Kind → Nat
  | .core => 0x0FFF
  | .tg => 0x0370
  | .chan => 0x0070
  | .hbm | .cnet | .xbar | .seam => 0x0030
  | .hostIf => 0x0038
  | .bank | .obj => 0x107D
  | _ => 0

/-- The bits a unit of a half keeps while its post does not run (R55: bits 0 to 5, 7, 10 and 11). -/
def gatedMask : Nat := 0x0CBF

/-- The half that a unit lies in (R48): none for a die, a seam bridge, an HBM controller or a channel, which belong to the
die or the package. -/
def halfOf (m : Member) (u : Uno) : Option Nat :=
  match kindOf m u with
  | .die | .seam | .hbm | .chan => none
  | _ => postOf m u

/-- CAP of a present physical unit, its children included (Table UT-4). `asRun`: as though every post ran. -/
def State.capPhys (s : State) (asRun : Bool) (u : Uno) : Nat :=
  let m := s.pkg.member
  let keep (p : Nat) (c : Nat) : Nat := if !asRun && s.halfMuted p then c &&& gatedMask else c
  let cl (c : Uno) : Nat := if (s.clusterCores c).isEmpty then 0 else 0x0FFF
  let half (p : Nat) : Nat :=
    if s.isHeld (halfUno p) then 0
    else keep p (((halfClusters p).filter (fun c => s.present c)).foldl (fun a c => a ||| cl c) 0 |||
      (if s.present (0x3300 + p) then 0x107D else 0))
  if !s.present u then 0
  else match kindOf m u with
    | .package => (rangeFrom 0 m.posts).foldl (fun a p => a ||| half p) 0
    | .die => half (2 * (u - 0x100)) ||| half (2 * (u - 0x100) + 1)
    | .half => half (u - 0x200)
    | .cluster => keep ((postOf m u).getD 0) (cl u)
    | k => match halfOf m u with
      | some p => keep p k.cap
      | none => k.cap

/-- CAP of a scope: the OR of its units' (R54). -/
def State.capIn (s : State) (asRun : Bool) (v : Uno) : Nat :=
  ((expand s 17 v).filter (fun u => s.present u)).foldl (fun a u => a ||| s.capPhys asRun u) 0

/-- The scope holds a unit that carries capability bit `i` (R48). -/
def State.capable (s : State) (v : Uno) (i : Nat) : Bool := bitAt (s.capIn false v) i

/-- As `capable`, counting every post as running (R55, last sentence). -/
def State.capableRun (s : State) (v : Uno) (i : Nat) : Bool := bitAt (s.capIn true v) i

/-! ### Sizes and spaces (R56, R79, Table QE-3, Table FO-3) -/

/-- STATE_SIZE of a present physical unit (R56). -/
def State.stateSizePhys (s : State) (u : Uno) : Nat :=
  let m := s.pkg.member
  let cl (c : Uno) : Nat := if s.present c then 786432 * (s.clusterCores c).length else 0
  let half (p : Nat) : Nat :=
    if s.isHeld (halfUno p) then 0 else ((halfClusters p).map cl).sum + 67108864
  if !s.present u then 0
  else match kindOf m u with
    | .package => ((rangeFrom 0 m.posts).map half).sum
    | .die => half (2 * (u - 0x100)) + half (2 * (u - 0x100) + 1)
    | .half => half (u - 0x200)
    | .cluster => cl u
    | .core => 786432
    | .tg => 4096
    | _ => 0

/-- STATE_SIZE of a unit; of a group, each unit of the union once (Table UT-2). -/
def State.stateSize (s : State) (u : Uno) : Nat :=
  match kindOf s.pkg.member u with
  | .group =>
    let us := expand s 17 u
    ((us.filter (fun x => !(us.any (fun y => y != x && (ancestors s.pkg.member x).contains y)))).map
      s.stateSizePhys).sum
  | _ => s.stateSizePhys u

/-- Bytes of an HBM channel: 48 GB per stack over 32 channels (Tables SC-1, SC-2). -/
def chanBytes : Nat := 1610612736

/-- Channels of a die that are not mapped out. -/
def State.dieChannels (s : State) (d : Nat) : Nat :=
  ((rangeFrom (0x4000 + 64 * d) 64).filter (fun u => !Tbl.get false s.held u)).length

/-- Reserve bytes of die d since the last enumeration (R178). -/
def State.reserveBytes (s : State) (d : Nat) : Nat := Tbl.get 0 s.folios.reserve d

/-- The base of a die's folio reserve, which ends at the top of the die's HBM address space (R179). -/
def State.reserveBase (s : State) (d : Nat) : Nat := s.dieChannels d * chanBytes - s.reserveBytes d

/-- The router of a cluster (Table UT-1). -/
def clusterRouter (cl : Uno) : Uno := 0x8000 + 128 * ((cl - 0x1000) / 64) + (cl - 0x1000) % 64

/-- The size of a unit's space, `none` when it has no such space (Table QE-3). A CONFIG space ends with the last register of
its map: Table BW-11 for a core and a cluster, the port table of R420 for a router. Of the other attached units the spec
gives no registers: 64 KB, as far as the window's aperture reaches (assumption 13). -/
def State.spaceSize (s : State) (u : Uno) (space : Nat) : Option Nat :=
  match space, kindOf s.pkg.member u with
  | 0, .package | 0, .die | 0, .half | 0, .cluster | 0, .core | 0, .tg => some (s.stateSizePhys u)
  | 1, .core => some 0x22C
  | 1, .cluster => some 0x2C0
  | 1, .cnet | 1, .xbar => some 0x100
  | 1, .hostIf | 1, .seam | 1, .hbm | 1, .bank => some 0x10000
  | 2, .core => some 524288
  | 2, .chan => some chanBytes
  | 2, .obj => some 8
  | _, _ => none

/-! ### Health and descriptors (R52, R53, Tables UT-2, UT-3) -/

/-- What a member's code counts for in its group (R53). -/
def healthUp (h : Nat) : Nat := if h = 4 ∨ h = 5 ∨ h = 7 ∨ h = 8 ∨ h = 9 then 2 else h

/-- The worse of two codes, ABSENT aside. -/
def worse (a b : Nat) : Nat := max a b

/-- HEALTH of a physical unit or a group (Table UT-3): the worst code among the members, a held member counting as
DEGRADED whatever its post or its tap is (R53). -/
def State.healthOf (s : State) (u : Uno) : Nat :=
  let m := s.pkg.member
  if !s.exists u then 0
  else if s.isHeld u then 4
  else if s.isUnobs u then 3
  else
    let h1 := if s.held.any (fun e => e.2 && e.1 != u && s.inScope u e.1) then 2 else 1
    let h2 := if s.unobs.any (fun e => e.2 && e.1 != u && s.inScope u e.1 && !s.isHeld e.1) then 3 else 1
    let h3 := (rangeFrom 0 m.posts).foldl (fun a p =>
      if s.inScope u (halfUno p) && halfUno p != u && !s.isHeld (halfUno p) then worse a (healthUp (s.post p).health) else a) 1
    let low := worse h1 (worse h2 h3)
    match kindOf m u with
    | .half => let h := (s.post (u - 0x200)).health; if h = 1 then low else h
    | _ => low

/-- Depth of a unit (Table UT-2). -/
def State.depthOf (s : State) (u : Uno) : Nat :=
  match kindOf s.pkg.member u with
  | .group => ((s.group u).map (·.level)).getD 0
  | _ => (ancestors s.pkg.member u).length - 1

/-- Every core in scope is halted; with no core in scope, every object in scope is held under a HALT hold. -/
def State.haltedUnit (s : State) (u : Uno) : Bool :=
  let cs := match kindOf s.pkg.member u with
    | .tg => [parentOf s.pkg.member u]
    | _ => s.coresIn u
  if cs.isEmpty then
    let os := s.objsIn u
    !os.isEmpty && os.all (fun o => (s.inst 6 o).halted)
  else cs.all (fun c => (s.core c).halted)

/-- A class instance is held by either bit (R114). -/
def Hold.any (h : Hold) : Bool := h.platform || h.context

/-- Freeze classes applied to an instance that acts on a unit in scope (Table UT-2, FREEZE). -/
def State.freezeByte (s : State) (u : Uno) : Nat :=
  let m := s.pkg.member
  let cores := match kindOf m u with
    | .tg => [parentOf m u]
    | _ => s.coresIn u
  let cls := (cores.map (parentOf m)).eraseDups
  let parts := (cls.map (fun c => ((s.partitionOf c).map (·.1)).getD 0)).eraseDups
  let hit (i : Nat) (us : List Uno) : Nat := if us.any (fun x => (s.inst i x).any) then 2 ^ i else 0
  let objs := match kindOf m u with
    | .obj => [u]
    | .bank => rangeFrom (objUno (u - 0x3300) 0) 1024
    | _ => (s.insts.filterMap (fun e =>
        if e.1 / 0x1000000 = 4 then
          let o := e.1 % 0x1000000
          if s.inScope u o || parts.contains (((s.partOfCtx (s.ctxOf o)).map (·.1)).getD 0) && !cores.isEmpty
          then some o else none
        else none))
  let hostq := if kindOf m u = .hostIf then
      (s.insts.filterMap (fun e => if e.1 / 0x1000000 = 1 then some (e.1 % 0x1000000) else none)) else parts
  hit 0 cls + hit 1 hostq + hit 2 parts + hit 3 parts + hit 4 objs + hit 5 cores

/-- The present children of a physical unit in UNO order, or the distinct member units of a group in member order (R48,
R52, R283). -/
def State.childList (s : State) (u : Uno) : List Uno :=
  let m := s.pkg.member
  let count (a n : Nat) : List Uno := (rangeFrom a n).filter (fun x => s.exists x && !s.isHeld x)
  match kindOf m u with
  | .package => count 0x100 m.dies
  | .die => count (0x200 + 2 * (u - 0x100)) 2
  | .half => count (0x1000 + 64 * (u - 0x200)) 40
  | .cluster => count (0x10000 + 16 * (u - 0x1000)) 16
  | .core => count (0x400000 + 64 * (u - 0x10000)) 64
  | .hbm => count (0x4000 + 32 * (u - 0x3200)) 32
  | .bank => count (0xC00000 + 1024 * (u - 0x3300)) 1024
  | .group =>
    match s.group u with
    | none => []
    | some g => (g.members.flatMap (fun e => (rangeFrom e.1 e.2).filter (fun x => s.exists x && !s.isHeld x))).eraseDups
  | _ => []

/-- First child and number of present children (Table UT-2). -/
def State.childrenOf (s : State) (u : Uno) : Uno × Nat := ((s.childList u).headD 0, (s.childList u).length)

/-- The 32-byte descriptor of a UNO (Table UT-2). -/
def State.descriptor (s : State) (u : Uno) : List Byte :=
  let m := s.pkg.member
  if !s.exists u then List.replicate 32 0
  else if s.isHeld u then
    leBytes 1 (kindOf m u).code ++ leBytes 1 4 ++ leBytes 1 0 ++ leBytes 1 (s.depthOf u) ++
      leBytes 3 (parentOf m u) ++ List.replicate 25 0
  else
    let g := s.group u
    let fz := s.freezeByte u
    let part := (g.map (·.partition)).getD false
    let flags := bitNat (s.haltedUnit u) + 2 * bitNat (decide (fz ≠ 0)) + 4 * bitNat part
    let ch := s.childrenOf u
    leBytes 1 (kindOf m u).code ++ leBytes 1 (s.healthOf u) ++ leBytes 1 flags ++ leBytes 1 (s.depthOf u) ++
      leBytes 3 (parentOf m u) ++ leBytes 1 0 ++ leBytes 3 ch.1 ++ leBytes 1 fz ++ leBytes 3 ch.2 ++
      leBytes 1 (if part then (g.map (·.freezeSet)).getD 0 else 0) ++
      leBytes 8 (if s.isUnobs u then 0 else s.capIn false u) ++ leBytes 8 (s.stateSize u)

end Sys2Proof.Machine
end

