-- ==== Sys2Proof/Machine/Links.lean ====
section
/-! DEFINITION. Link directions of the control network and their credit meters (R22, R25 to R27, R32, R202): the links
between dies, the link by which a CNET router sends toward the rest of its half, and the flits that cross them. -/

namespace Sys2Proof.Machine

/-! ### Link directions -/

/-- The key of a link direction between dies; the link that a router sends on has the router's UNO as its key. -/
def linkKey (near far : Nat) : Nat := near * 64 + far

/-- The link direction at a key. -/
def State.meter (s : State) (k : Nat) : Link := Tbl.get {} s.links k

def State.setMeter (s : State) (k : Nat) (v : Link) : State := { s with links := Tbl.set {} s.links k v }

def State.link (s : State) (near far : Nat) : Link := s.meter (linkKey near far)

def State.setLink (s : State) (near far : Nat) (v : Link) : State := s.setMeter (linkKey near far) v

/-- The link directions between dies next to each other on the grid. -/
def allLinks (m : Member) : List (Nat × Nat) :=
  (rangeFrom 0 m.dies).flatMap (fun a => ((rangeFrom 0 m.dies).filter (fun b => hops m a b == 1)).map (fun b => (a, b)))

/-- The next die from `a` to `b`, along x first. -/
def nextDie (m : Member) (a b : Nat) : Nat :=
  let g := m.grid
  if a % g < b % g then a + 1 else if b % g < a % g then a - 1
  else if a / g < b / g then a + g else if b / g < a / g then a - g else a

/-- The link directions that a signal crosses from die `a` to die `b`; at most `n`. -/
def routeLinks (m : Member) : Nat → Nat → Nat → List (Nat × Nat)
  | 0, _, _ => []
  | n + 1, a, b => if a = b then [] else (a, nextDie m a b) :: routeLinks m n (nextDie m a b) b

/-- The keys of the link directions from die `a` to die `b`, along x first: at most 14 hops (R22). -/
def crossing (m : Member) (a b : Nat) : List Nat := (routeLinks m 14 a b).map (fun e => linkKey e.1 e.2)

/-- The link directions of a multicast from die `a` to every die, each once. -/
def treeLinks (m : Member) (a : Nat) : List Nat := ((rangeFrom 0 m.dies).flatMap (crossing m a)).eraseDups

/-! ### Credits (R25, R27) -/

/-- `n` flits leave on every link of a list: each spends a credit of the link's URG meter. `none`: a meter holds fewer, so
the flits wait (R25). -/
def State.sendUrg (n : Nat) : List Nat → State → Option State
  | [], s => some s
  | k :: ks, s =>
    let x := s.meter k
    if n ≤ x.urg then State.sendUrg n ks (s.setMeter k { x with urg := x.urg - n }) else none

/-- `n` flits leave on a link: each spends a credit of its REQ-RSP meter (R25). -/
def State.sendReq (s : State) (n k : Nat) : Option State :=
  let x := s.meter k
  if n ≤ x.reqRsp then some (s.setMeter k { x with reqRsp := x.reqRsp - n }) else none

/-- A cartouche record starts on a link: its URG meter holds at least 12 credits, and 4 are reserved for its flits, so
that 8 are left for halt, step, resume, release and heartbeat flits (R27). -/
def State.sendRec (s : State) (k : Nat) : Option State :=
  if 12 ≤ (s.meter k).urg then s.sendUrg 4 [k] else none

/-- The die of the active Compass. -/
def State.homeDie (s : State) : Nat := s.compassDie - 0x100

end Sys2Proof.Machine
end

