-- ==== Sys2Proof/Machine/Flags.lean ====
section
/-! DEFINITION. The codes that commands, events and records carry: statuses, cartouche classes, event types, object
kinds, health and close reasons. -/

namespace Sys2Proof.Machine

/-! ### Command statuses (Tables QR-2, HO-4, UP-9) -/

def Status.ok : Nat := 0x00
def Status.unitAbsent : Nat := 0x01
def Status.notCapable : Nat := 0x02
def Status.unitDenied : Nat := 0x03
def Status.lockdown : Nat := 0x04
def Status.haltParam : Nat := 0x05
def Status.notHalted : Nat := 0x06
def Status.heldByPlatform : Nat := 0x07
def Status.captureBusy : Nat := 0x08
def Status.hopBusy : Nat := 0x09
def Status.slotBusy : Nat := 0x0A
def Status.groupSize : Nat := 0x0B
def Status.groupCycle : Nat := 0x0C
def Status.groupDepth : Nat := 0x0D
def Status.partitionShape : Nat := 0x0E
def Status.refLimit : Nat := 0x0F
def Status.pwrWarn : Nat := 0x10
def Status.planFormat : Nat := 0x11
def Status.planScope : Nat := 0x12
def Status.sealMode : Nat := 0x13
def Status.planSize : Nat := 0x14
def Status.refInvalid : Nat := 0x15
def Status.postGated : Nat := 0x16
def Status.engineBusy : Nat := 0x17
def Status.reserveFull : Nat := 0x18
def Status.jobState : Nat := 0x19
def Status.marksExceeded : Nat := 0x1A
def Status.segRange : Nat := 0x1B
def Status.segDone : Nat := 0x1C
def Status.incomplete : Nat := 0x1D
def Status.raiseFull : Nat := 0x1E
def Status.postLost : Nat := 0x1F
def Status.zero : Nat := 0x20
def Status.wrongState : Nat := 0x21
def Status.cmdFormat : Nat := 0x22
def Status.sessionInvalid : Nat := 0x23
def Status.sessionFull : Nat := 0x24
def Status.argFault : Nat := 0x25
def Status.argSize : Nat := 0x26
def Status.holdFull : Nat := 0x27
def Status.notHeld : Nat := 0x28
def Status.hubReset : Nat := 0x29
def Status.postBusy : Nat := 0x2A
def Status.latticeFull : Nat := 0x2B
def Status.setFormat : Nat := 0x2C
def Status.setScope : Nat := 0x2D
def Status.setConflict : Nat := 0x2E
def Status.bwTapFull : Nat := 0x2F
def Status.bwStationFull : Nat := 0x30
def Status.bwCombinerFull : Nat := 0x31
def Status.actionFull : Nat := 0x32
def Status.exportBusy : Nat := 0x33
def Status.exportRange : Nat := 0x34
def Status.folioDamaged : Nat := 0x35
def Status.destGone : Nat := 0x36
def Status.streamFormat : Nat := 0x37
def Status.streamFull : Nat := 0x38
def Status.traceSpace : Nat := 0x39
def Status.serialScope : Nat := 0x3A
def Status.serialBusy : Nat := 0x3B
def Status.noPartition : Nat := 0x3C
def Status.swParam : Nat := 0x3D
def Status.swScope : Nat := 0x3E
def Status.deadlinePast : Nat := 0x3F
def Status.deadlineDup : Nat := 0x40
def Status.deadlineFull : Nat := 0x41
def Status.deadlineUnknown : Nat := 0x42
def Status.lockedOut : Nat := 0x43
def Status.grantFormat : Nat := 0x44
def Status.keyAbsent : Nat := 0x45
def Status.grantNonce : Nat := 0x46
def Status.ctxUnbound : Nat := 0x47
def Status.grantReplay : Nat := 0x48
def Status.grantExpired : Nat := 0x49
def Status.grantTerm : Nat := 0x4A
def Status.grantSignature : Nat := 0x4B
def Status.ctxLimit : Nat := 0x4C
def Status.keyFormat : Nat := 0x4D
def Status.ctxReserved : Nat := 0x4E
def Status.lifecycleState : Nat := 0x4F
def Status.lcBusy : Nat := 0x50
def Status.deviceMismatch : Nat := 0x51
def Status.testLimit : Nat := 0x52
def Status.flashWorn : Nat := 0x53
def Status.imageFormat : Nat := 0x54
def Status.imageTarget : Nat := 0x55
def Status.imageSize : Nat := 0x56
def Status.tagDemand : Nat := 0x57
def Status.depthDemand : Nat := 0x58
def Status.imageCrc : Nat := 0x59
def Status.notPartition : Nat := 0x5A
def Status.updOffset : Nat := 0x5B
def Status.updSignature : Nat := 0x5C
def Status.updDigest : Nat := 0x5D
def Status.rollback : Nat := 0x5E
def Status.rollbackExhausted : Nat := 0x5F
def Status.updIncomplete : Nat := 0x60
def Status.updBootrom : Nat := 0x61
def Status.updBusy : Nat := 0x62

/-! ### Cartouche classes (Table CA-2) -/

def Class.coreExc : Nat := 0x01
def Class.memEcc : Nat := 0x02
def Class.net : Nat := 0x03
def Class.syncDeadlock : Nat := 0x04
def Class.deadlineMiss : Nat := 0x05
def Class.haltLate : Nat := 0x06
def Class.configClamp : Nat := 0x07
def Class.seqFault : Nat := 0x08
def Class.port : Nat := 0x09
def Class.lifecycle : Nat := 0x0A
def Class.update : Nat := 0x0B
def Class.folio : Nat := 0x0C
def Class.hubFailover : Nat := 0x0D
def Class.storm : Nat := 0x0E
def Class.powerThermal : Nat := 0x0F

/-! ### Event types (Table HO-6) -/

def EventType.completion : Nat := 0x01
def EventType.hopDone : Nat := 0x02
def EventType.jobDone : Nat := 0x03
def EventType.exportDone : Nat := 0x04
def EventType.setUnloaded : Nat := 0x05
def EventType.streamEnded : Nat := 0x06
def EventType.deadline : Nat := 0x07
def EventType.raise : Nat := 0x09
def EventType.cartouche : Nat := 0x0A
def EventType.sessionClosed : Nat := 0x0B
def EventType.lost : Nat := 0x0C
def EventType.objectDied : Nat := 0x0D

/-! ### Object kinds (Table HO-7) -/

def ObjKind.session : Nat := 1
def ObjKind.job : Nat := 2
def ObjKind.set : Nat := 3
def ObjKind.stream : Nat := 4
def ObjKind.group : Nat := 5
def ObjKind.context : Nat := 6
def ObjKind.hop : Nat := 7
def ObjKind.engine : Nat := 8

/-! ### Health codes (Table UT-3) -/

def Health.absent : Nat := 0
def Health.ok : Nat := 1
def Health.degraded : Nat := 2
def Health.unobservable : Nat := 3
def Health.held : Nat := 4
def Health.adopted : Nat := 5
def Health.lost : Nat := 6
def Health.gated : Nat := 7
def Health.waking : Nat := 8
def Health.restarting : Nat := 9

/-! ### Session close reasons (Table UP-8) -/

def Reason.close : Nat := 1
def Reason.idle : Nat := 2
def Reason.trst : Nat := 3
def Reason.fwActivate : Nat := 4
def Reason.fwTrial : Nat := 5
def Reason.hubWarmReset : Nat := 6
def Reason.hubColdReset : Nat := 7
def Reason.takeover : Nat := 8
def Reason.lifecycle : Nat := 9
def Reason.functionReset : Nat := 10

end Sys2Proof.Machine
end

