-- ==== Sys2Proof/Machine/Access.lean ====
section
/-! DEFINITION. What a session may do (chapter 12): platform rights, maker levels and the level on a context. An
actor is a session slot, or `none` for BAR0 while no session is bound (R374). -/

namespace Sys2Proof.Machine

/-- The port session's slot (R297). -/
def portSlot : Nat := 255

/-- The session in a slot, if open. -/
def State.session (s : State) (slot : Nat) : Option Session := Tbl.get none s.auth.sessions slot

def State.setSession (s : State) (slot : Nat) (v : Option Session) : State :=
  { s with auth := { s.auth with sessions := Tbl.set none s.auth.sessions slot v } }

/-- The session that a path's accesses act for: the bound one, or the port session (R297, R374). -/
def State.actor (s : State) : Path → Option Nat
  | .bar => s.host.bound
  | .port => if (s.session portSlot).isSome then some portSlot else none

/-- The path is BAR0 and both Compasses are lost: reads return all-ones and writes are dropped (Table HO-9). -/
def State.barGone (s : State) (p : Path) : Bool := p == .bar && s.pkg.bothDead

/-- What a write by a path does, dropped where BAR0 is gone. -/
def State.onBar (s : State) (p : Path) (t : State) : State := if s.barGone p then s else t

/-- A grant by key stands: given by token and not lapsed, or by a port challenge until the session closes (R332, R333). -/
def KeyGrant.live (g : KeyGrant) (now : Nat) : Bool := g.viaPort || (g.on && decide (now < g.expiry.toNat))

/-- The lifecycle state is BLANK or TEST, where every session opens unrestricted (Table AC-8). -/
def State.openState (s : State) : Bool := !s.life.lockdown && (s.life.state == .blank || s.life.state == .test)

/-- The session stands at a maker level (R330). -/
def State.isMaker (s : State) (who : Option Nat) : Bool :=
  match who.bind s.session with
  | none => false
  | some x => x.provision.live s.now || x.makerTest.live s.now || x.analysis.live s.now

/-- The session stands at the maker analysis level. -/
def State.isAnalysis (s : State) (who : Option Nat) : Bool :=
  match who.bind s.session with
  | none => false
  | some x => x.analysis.live s.now

/-- Every-context matching is allowed: BLANK, TEST, or a maker analysis session in END_OF_LIFE (Tables IT-7, BW-9). -/
def State.anyCtxOk (s : State) (who : Option Nat) : Bool :=
  s.openState || (s.life.state == .endOfLife && s.isAnalysis who)

/-- The session holds platform rights (R324, R330, Table AC-8). -/
def State.hasPlatform (s : State) (who : Option Nat) : Bool :=
  s.openState || s.isMaker who ||
    (match who.bind s.session with
     | none => false
     | some x => x.operator.live s.now)

/-- The level that a session's own grants give on a tenant context: 0 NONE, 1 OBSERVE, 2 FULL. -/
def Session.tenantLevel (x : Session) (now : Nat) (c : Ctx) : Nat :=
  (x.tenants.filter (fun g => g.ctx == c)).foldl (fun a g =>
    max a (max (if now < g.expiry.toNat then g.level else 0) g.portLevel)) 0

/-- The level an actor holds on a context: 0 NONE, 1 OBSERVE, 2 FULL (R322, R324). -/
def State.levelOn (s : State) (who : Option Nat) (c : Ctx) : Nat :=
  if s.isMaker who then 2
  else if s.openState && c != 0xFFF then 2
  else if c == 0 && s.hasPlatform who then 2
  else match who.bind s.session with
    | none => 0
    | some x => if c == 0 || c == 0xFFF then 0 else x.tenantLevel s.now c

/-- The actor holds EVICT on a tenant context (R324). -/
def State.evictOn (s : State) (who : Option Nat) (c : Ctx) : Bool :=
  s.hasPlatform who && c != 0 && c != 0xFFF

/-- OBSERVE, FULL or EVICT: the actor may see records of the context (R209, R391). -/
def State.observes (s : State) (who : Option Nat) (c : Ctx) : Bool :=
  decide (1 ≤ s.levelOn who c) || s.evictOn who c

/-- The actor may read or write a space of a unit of context `c` (Table AC-2). -/
def State.mayProbe (s : State) (who : Option Nat) (c : Ctx) (space : Nat) (write : Bool) : Bool :=
  let l := s.levelOn who c
  if space = 1 && !write then s.observes who c else decide (l = 2)

/-- The actor holds at least `l` on every context of a scope. -/
def State.levelIn (s : State) (who : Option Nat) (l : Nat) (v : Uno) : Bool :=
  (s.ctxsIn v).all (fun c => decide (l ≤ s.levelOn who c))

/-- LEVEL as AUTH_SESS and CMP_PT_STAT encode it (Table PT-15). -/
def State.levelCode (s : State) (slot : Nat) : Nat :=
  match s.session slot with
  | none => 0
  | some x =>
    if x.analysis.live s.now then 5
    else if x.makerTest.live s.now then 4
    else if x.provision.live s.now then 3
    else if s.hasPlatform (some slot) then 2
    else if x.tenants.any (fun g => decide (s.now < g.expiry.toNat ∧ 0 < g.level) || decide (0 < g.portLevel)) then 1
    else 0

/-- Tenant contexts a session holds now. -/
def Session.held (x : Session) (now : Nat) : Nat :=
  (x.tenants.filter (fun g => decide (now < g.expiry.toNat ∧ 0 < g.level) || decide (0 < g.portLevel))).length

/-- The registration of a context, if bound (R336). -/
def State.reg (s : State) (c : Ctx) : Option Registration := Tbl.get none s.auth.regs c

/-- The context a report is hashed and carried under (R199): an unbound tenant context counts as 0. -/
def State.boundCtx (s : State) (c : Ctx) : Ctx :=
  if c == 0 || c == 0xFFF || (s.reg c).isSome then c else 0

end Sys2Proof.Machine
end

