-- ==== Sys2Proof/Machine/Report.lean ====
section
/-! DEFINITION. Cartouche records (chapter 07): spans, merging, storms, hashing points, the lone log, and the reports
that other chapters raise. -/

namespace Sys2Proof.Machine

/-! ### Spans (R195) -/

/-- The largest span that the encoding holds. -/
def spanTop : Nat := 33285996544

/-- The span that SPAN_E and SPAN_M encode. -/
def spanOf (e m : Nat) : Nat := if e = 0 then m else (16 + m) * 2 ^ (e - 1)

/-- SPAN_E, SPAN_M and SPAN_SAT of a true span: the largest encodable value that does not exceed it. -/
def encodeSpan (n : Nat) : Nat × Nat × Bool :=
  if n < 16 then (0, n, false)
  else if spanTop < n then (31, 15, true)
  else
    let e := Nat.log2 n - 3
    (e, n / 2 ^ (e - 1) - 16, false)

/-- The span of a record. -/
def recSpan (r : Rec) : Nat := spanOf r.spanE r.spanM

/-- The decoded LAST_T of a record, over the 60 stored bits of FIRST_T. -/
def recLast (r : Rec) : Nat := r.firstT.toNat + recSpan r

/-! ### Merging (R200, R204, Table CA-4) -/

/-- Equal signature and CTXID (R200). -/
def sameSignature (a b : Rec) : Bool :=
  a.cls == b.cls && a.code == b.code && a.hash == b.hash && a.ctx == b.ctx

/-- The first, last, span, count, DIES and flag fields of a merge of `b` into `a`. -/
def mergeRec (a b : Rec) : Rec :=
  let firstA := decide (a.firstT.toNat < b.firstT.toNat ∨ (a.firstT = b.firstT ∧ a.first ≤ b.first))
  let ft := if firstA then a.firstT else b.firstT
  let lastA := decide (recLast b < recLast a ∨ (recLast a = recLast b ∧ b.last ≤ a.last))
  let sp := encodeSpan ((if lastA then recLast a else recLast b) - ft.toNat)
  { a with
    sat := a.sat || b.sat || decide (65535 < a.count + b.count)
    spanSat := a.spanSat || b.spanSat || sp.2.2
    lone := a.lone || b.lone
    spanE := sp.1
    spanM := sp.2.1
    count := min 65535 (a.count + b.count)
    first := if firstA then a.first else b.first
    last := if lastA then a.last else b.last
    firstT := ft
    dies := a.dies ||| b.dies }

/-! ### Storms (R208) -/

/-- What a folded record adds to the fold summary. -/
def foldSummary (r : Rec) : BitVec 32 :=
  BitVec.ofNat 32 (2 ^ r.cls) |||
  (if r.ctx ≠ 0 ∧ r.ctx ≠ 0xFFF then 0x10000 else 0) |||
  (if r.cls = Class.storm then r.hash &&& 0x1FFFE else 0)

/-- A record folded into a STORM accumulator of a code. -/
def foldRec (code : Nat) (acc : Option Rec) (r : Rec) : Rec :=
  let base : Rec := { r with cls := Class.storm, code := code, hash := foldSummary r, ctx := 0 }
  match acc with
  | none => base
  | some a => { mergeRec a base with hash := a.hash ||| foldSummary r }

/-- The lost bit of a context set (R208). -/
def State.markLost (s : State) (c : Ctx) : State :=
  { s with cart := { s.cart with lost := Tbl.set false s.cart.lost c true } }

/-! ### Records in words (Table CA-1) -/

/-- The four 8-byte words of a record. -/
def recWords (r : Rec) : List Nat :=
  let flags := bitNat r.sat + 2 * bitNat r.spanSat + 4 * bitNat r.lone
  [r.cls + 256 * (r.spanE * 8 + flags) + 65536 * r.code + 2 ^ 32 * r.hash.toNat,
   r.count + 2 ^ 16 * r.first + 2 ^ 40 * r.last,
   r.firstT.toNat + 2 ^ 60 * r.spanM,
   r.dies.toNat]

/-- The 32 bytes of a record. -/
def recBytes (r : Rec) : List Byte := (recWords r).flatMap (leBytes 8)

/-! ### Hashing points (R197, R201) -/

/-- The lone log of post p takes a record (R222). -/
def State.loneWrite (s : State) (p : Nat) (r : Rec) : State :=
  let q := s.post p
  let r := { r with lone := true }
  if q.loneLog.any (sameSignature r) then
    s.setPost p { q with loneLog := q.loneLog.map (fun e => if sameSignature e r then mergeRec e r else e) }
  else if q.loneLog.length < 63 then s.setPost p { q with loneLog := q.loneLog ++ [r] }
  else
    let acc := q.loneLog[63]?
    (s.setPost p { q with loneLog := q.loneLog.take 63 ++ [foldRec 4 acc r] }).markLost r.ctx

/-- The hashing point of a report: a cluster, a router, a half, a die, or 0 for the active Compass (R197, R217).
`none`: the post that would hash it does not run. Before start-up step 7 has ended no post runs, and the active Compass
hashes what start-up itself reports. -/
def State.hashPoint (s : State) (reporter : Uno) (cls code : Nat) : Option Nat :=
  let m := s.pkg.member
  match kindOf m reporter with
  | .cluster => some reporter
  | .core => some (parentOf m reporter)
  | .tg => some (parentOf m (parentOf m reporter))
  | .cnet | .xbar => some reporter
  | .die => if cls = Class.net ∨ (cls = Class.powerThermal ∧ code ≠ 2) then some reporter else some 0
  | .package | .hostIf | .group | .none => some 0
  | _ => match postOf m reporter with
    | some p => match s.server p with
      | some q => some (halfUno q)
      | none => if s.pkg.bootStep < 7 then some 0 else none
    | none => some 0

/-- The die whose bit DIES takes (R201). -/
def State.reportDie (s : State) (reporter : Uno) (point : Nat) : Nat :=
  match dieOf s.pkg.member reporter with
  | some d => d
  | none => match dieOf s.pkg.member point with
    | some d => d
    | none => s.compassDie - 0x100

/-- A new record of one report (R197, R201). -/
def State.formRec (s : State) (reporter : Uno) (point : Nat) (cls code : Nat) (detail : List Byte) (ctx : Ctx) : Rec :=
  let c := s.boundCtx ctx
  let h := sipHash24 (Tbl.get 0 s.cart.sigKeys c) (leBytes 1 cls ++ leBytes 2 code ++ detail)
  { cls := cls, sat := false, spanSat := false, lone := false, spanE := 0, spanM := 0, code := code,
    hash := h.setWidth 32, count := 1, first := reporter, last := reporter,
    firstT := s.pkg.meridian.setWidth 60, dies := BitVec.ofNat 64 (2 ^ s.reportDie reporter point), ctx := c }

/-- The hashing point at a unit. -/
def State.point (s : State) (k : Nat) : HashPoint := Tbl.get {} s.cart.points k

def State.setPoint (s : State) (k : Nat) (v : HashPoint) : State :=
  { s with cart := { s.cart with points := Tbl.set {} s.cart.points k v } }

/-- A hashing point takes a record: merged, held, or folded into its STORM accumulator of code SOURCE (R201). -/
def State.pointTake (s : State) (k : Nat) (r : Rec) : State :=
  let hp := s.point k
  if hp.held.any (sameSignature r) then
    s.setPoint k { hp with held := hp.held.map (fun e => if sameSignature e r then mergeRec e r else e) }
  else if hp.held.length < 4 then s.setPoint k { hp with held := hp.held ++ [r] }
  else (s.setPoint k { hp with acc := some (foldRec 1 hp.acc r) }).markLost r.ctx

/-- One record leaves a hashing point; the accumulator takes the freed place (R201). -/
def HashPoint.leave (hp : HashPoint) (r : Rec) : HashPoint :=
  if hp.held.contains r then
    match hp.acc with
    | none => { hp with held := hp.held.erase r }
    | some a => { held := hp.held.erase r ++ [a], acc := none }
  else hp

/-- An event line set in an engine's PENDING. -/
def State.engineEvent (s : State) (e bit : Nat) : State :=
  let g := s.engine e
  s.setEngine e { g with events := g.events ||| BitVec.ofNat 16 (2 ^ bit) }

/-- Event CART in the engine of the half that a reporter belongs to, by the post that serves it (Table QE-5). -/
def State.cartEngine (s : State) (reporter : Uno) : State :=
  match (postOf s.pkg.member reporter).bind s.server with
  | some q => s.engineEvent q 4
  | none => s

/-- A report passes to its hashing point (R197, R201). The post-level reports of a post in lone survey go to its
lone log (R222). A point that is not running takes none. -/
def State.report (s : State) (reporter : Uno) (cls code : Nat) (detail : List Byte) (ctx : Ctx) : State :=
  match s.hashPoint reporter cls code with
  | none => s
  | some k =>
    let r := s.formRec reporter k cls code detail ctx
    let t := s.cartEngine reporter
    match kindOf s.pkg.member k with
    | .half => if (s.post (k - 0x200)).lone then t.loneWrite (k - 0x200) r else t.pointTake k r
    | _ => t.pointTake k r

/-- A report that the active Compass hashes for a unit (R197, last item). -/
def State.reportHub (s : State) (reporter : Uno) (cls code : Nat) (detail : List Byte) (ctx : Ctx) : State :=
  s.pointTake 0 (s.formRec reporter 0 cls code detail ctx)

/-- HUB_FAILOVER reports: detail is the UNO lost, restored or dead (Table CA-2). -/
def State.failover (s : State) (reporter : Uno) (code : Nat) (lost : Uno) : State :=
  s.report reporter Class.hubFailover code (leBytes 3 lost) 0

/-- HALT_LATE reports: detail is the HOP ID and the code (R120). -/
def State.haltLate (s : State) (reporter : Uno) (code : Nat) (hopId : BitVec 16) (ctx : Ctx) : State :=
  s.report reporter Class.haltLate code (leBytes 2 hopId.toNat ++ leBytes 2 code) ctx

/-- FOLIO reports: detail is SERIAL (R189). -/
def State.folioReport (s : State) (post : Nat) (code : Nat) (serial : BitVec 32) (ctx : Ctx) : State :=
  s.report (halfUno post) Class.folio code (leBytes 4 serial.toNat) ctx

/-- NET reports: detail is the reporter (Table CA-2). -/
def State.netReport (s : State) (reporter : Uno) (code : Nat) : State :=
  s.report reporter Class.net code (leBytes 3 reporter) 0

/-- LIFECYCLE reports: detail is the step record index (Table CA-2). -/
def State.lifeReport (s : State) (code index : Nat) : State :=
  s.reportHub s.compassDie Class.lifecycle code (leBytes 2 index) 0

/-! ### Configuration checking (R11, R66 to R69) -/

/-- The context and session a register access is made for, and the log that takes its clamps: a post, or `none`
for the Compass. -/
structure Writer where
  who  : Option Nat
  ctx  : Ctx
  log  : Option Nat
  off  : Nat
deriving DecidableEq, Repr

/-- The key of a clamp log: post p at p, the Compass at 128 (R68). -/
def logKey : Option Nat → Nat
  | some p => p
  | none => 128

def State.clampLog (s : State) (k : Nat) : ClampLog := Tbl.get {} s.clamps k

/-- The first place of a clamp log that holds no valid entry (R68). -/
def ClampLog.freeAt (l : ClampLog) : Option Nat := firstBelow (fun i => (Tbl.get none l.entries i).isNone) 16

/-- The log that takes a clamp: the Compass's, or that of the post that serves the register's half, which for an adopted
half is the sibling (R67, Table CA-7). `none`: no post serves it, and nothing is clamped, logged or reported (R43, R67). -/
def State.clampOwner (s : State) (w : Writer) : Option Nat :=
  match w.log with
  | none => some (logKey none)
  | some p => s.server p

/-- One clamp: logged by the register's owner and reported (R66, R67, R68). -/
def State.clampOne (s : State) (w : Writer) (lsb written stored : Nat) : State :=
  match s.clampOwner w with
  | none => s
  | some k =>
  let l := s.clampLog k
  let e : Clamp := { written := word written, stored := word stored, t := s.pkg.meridian,
                     off := BitVec.ofNat 32 (w.off % 2 ^ 26 + 2 ^ 26 * lsb), ctx := w.ctx,
                     session := w.who.getD 0, unbound := w.who.isNone }
  let l' : ClampLog := match l.freeAt with
    | some i => { l with entries := Tbl.set none l.entries i (some e) }
    | none => { l with lost := sat16 l.lost }
  let s1 := { s with clamps := Tbl.set {} s.clamps k l' }
  let reporter := match w.log with
    | some p => halfUno p
    | none => s.compassDie
  s1.report reporter Class.configClamp 1 (leBytes 4 w.off ++ leBytes 1 lsb) w.ctx

/-- The rate-limited RESERVED_SPACE report: at most one per session and second (R11, R66). All unbound accesses
count as one source (R374). R66 hashes a field's lsb, and reserved space has no field: the model hashes 0 there
(DESIGN CHOICE, assumption 149). -/
def State.reservedReport (s : State) (w : Writer) : State :=
  let k := w.who.getD 256
  let due := match Tbl.get none s.reports k with
    | none => true
    | some t => decide (t.toNat + 1000000000 ≤ s.now)
  if due then
    let reporter := match w.log with
      | some p => halfUno p
      | none => s.compassDie
    ({ s with reports := Tbl.set none s.reports k (some s.pkg.meridian) }).report reporter Class.configClamp 2
      (leBytes 4 w.off ++ leBytes 1 0) w.ctx
  else s

end Sys2Proof.Machine
end

