-- ==== Sys2Proof/Machine/Rings.lean ====
section
/-! DEFINITION. Event rings, completions and reference counts (chapter 14, R382 to R393). -/

namespace Sys2Proof

/-- The actor of a command (R379). -/
def CmdCtx.who (c : CmdCtx) : Option Nat := some c.session

/-- RES_LEN suits an export of `n` bytes: a host destination holds them; the port's is its aperture (R378, assumption 20). -/
def CmdCtx.holds (c : CmdCtx) (n : Nat) : Bool := c.queue.isNone || decide (n ≤ c.resLen)

end Sys2Proof

namespace Sys2Proof.Machine

/-! ### Events -/

/-- The four words of an event entry with its PHASE; SESSION reads 0xFF for a session that has closed (Table HO-5). -/
def eventWords (phase : Bool) (e : Event) : List Word :=
  [word (e.type + 128 * bitNat phase + 2 ^ 8 * e.status + 2 ^ 16 * min e.session 255 + 2 ^ 24 * e.queue +
     2 ^ 32 * e.object.toNat), e.value, e.data, e.t]

/-- OBJECT: a kind and a slot (Table HO-5). -/
def objectWord (kind slot : Nat) : BitVec 32 := BitVec.ofNat 32 (kind * 2 ^ 28 + slot)

/-- OBJECT of an event that no session causes: context 0, the platform's (assumption 152). -/
def hubObject : BitVec 32 := objectWord ObjKind.context 0

/-- A command that names no object of Table HO-7, and a refusal: its COMPLETION carries the session (assumption 152), as
KIND 0 is never written. -/
def noObject : BitVec 32 := 0

def State.ring (s : State) (r : Nat) : Ring := Tbl.get {} s.host.rings r

def State.setRing (s : State) (r : Nat) (v : Ring) : State :=
  { s with host := { s.host with rings := Tbl.set {} s.host.rings r v } }

/-- Entries of a ring (Table HO-16). -/
def Ring.size (r : Ring) : Nat := 2 ^ r.sizeLog2

/-- Entries written and not consumed. -/
def Ring.used (r : Ring) : Nat := (r.tail + r.size - r.head) % r.size

/-- Free places (R383). -/
def Ring.free (r : Ring) : Nat := r.size - 1 - r.used

/-- An entry written at TAIL with the present PHASE (R382). -/
def Ring.push (r : Ring) (e : Event) (now : Time) : Ring :=
  { r with
    entries := r.entries ++ [(r.phase, e)]
    tail := (r.tail + 1) % r.size
    phase := if r.tail + 1 = r.size then !r.phase else r.phase
    unsignalled := r.unsignalled + 1
    oldestT := if r.unsignalled = 0 then now else r.oldestT }

/-- Events can be written to a ring: it is enabled and the function is bus master (R397). -/
def State.ringOpen (s : State) (r : Ring) : Bool := r.enabled && s.pkg.busMaster

/-- An event that holds no reserved place: written, held, or dropped and counted (R384). -/
def State.pushEvent (s : State) (r : Nat) (e : Event) : State :=
  let g := s.ring r
  if s.ringOpen g && decide (g.reserved < g.free) && g.held.isEmpty && !g.lostDue then
    s.setRing r (g.push e s.pkg.meridian)
  else if g.held.length < 64 then s.setRing r { g with held := g.held ++ [e] }
  else s.setRing r { g with lost := sat32 g.lost 1, lostDue := true }

/-- An event dropped and counted in a ring's LOST (R382, R384). -/
def State.dropEvent (s : State) (r : Nat) : State :=
  let g := s.ring r
  s.setRing r { g with lost := sat32 g.lost 1, lostDue := true }

/-- Places have freed: the LOST event first, then held events, at most `n` writes (R384). -/
def State.drainRing (r : Nat) : Nat → State → State
  | 0, s => s
  | n + 1, s =>
    let g := s.ring r
    if s.ringOpen g && decide (g.reserved < g.free) then
      if g.lostDue then
        let e : Event := { type := EventType.lost, status := 0, session := 0xFF, queue := 0xFF,
                           object := hubObject, value := word g.lost, data := 0, t := s.pkg.meridian }
        State.drainRing r n (s.setRing r ({ g with lostDue := false }.push e s.pkg.meridian))
      else match g.held with
        | [] => s
        | e :: es => State.drainRing r n (s.setRing r ({ g with held := es }.push e s.pkg.meridian))
    else s

/-- An event for a session: its home ring, an EVENT packet of the port session, or ring 0 when the session has
closed (R298, R382). With both Compasses lost nothing writes it (Table CH-6). -/
def State.emit (s : State) (slot : Nat) (e : Event) : State :=
  if s.pkg.bothDead then s
  else match s.session slot with
  | some x =>
    if x.isPort then { s with port := { s.port with events := s.port.events ++ [eventWords false e] } }
    else s.pushEvent x.ring e
  | none => if (s.ring 0).enabled then s.pushEvent 0 e else s.dropEvent 0

/-- An event entry formed now. -/
def State.event (s : State) (type status slot queue : Nat) (object : BitVec 32) (value data : Word) : Event :=
  { type := type, status := status, session := slot, queue := queue, object := object, value := value,
    data := data, t := s.pkg.meridian }

/-- Ring 0 holds a CARTOUCHE event that host software has not consumed (R385). -/
def State.cartWaiting (s : State) : Bool :=
  let g := s.ring 0
  g.entries.any (fun e => e.2.type == EventType.cartouche) || g.held.any (fun e => e.type == EventType.cartouche)

/-- The collector's CARTOUCHE event, when none stays unconsumed (R385). -/
def State.cartEventNow (s : State) : State :=
  if s.cartWaiting then s
  else
    let e := s.event EventType.cartouche 0 0xFF 0xFF hubObject (word s.cart.head.toNat)
      (word (s.cart.head - s.cart.tail).toNat)
    { s.pushEvent 0 e with host := { (s.pushEvent 0 e).host with cartHead := s.cart.head } }

/-! ### Completions (R378, R379, R384) -/

/-- The place of a command in the in-flight table. -/
def State.inflightOf (s : State) (c : CmdCtx) : Option InFlight := s.host.inflight.find? (fun i => i.c == c)

/-- A completion event enters a ring by its reserved place. -/
def State.pushReserved (s : State) (r : Nat) (notify : Bool) (e : Event) : State :=
  let g := s.ring r
  let g := { g with reserved := g.reserved - 1, notify := g.notify || notify }
  if s.ringOpen g then s.setRing r (g.push e s.pkg.meridian)
  else s.setRing r { g with held := g.held ++ [e] }

/-- A command completes with exactly one COMPLETION: in the home ring on its reserved place, or as the port's
response (R298, R379), whose STATUS is HUB_RESET where a hub reset met the request (Tables PT-5, PT-13). `slot` is the
session concerned. -/
def State.completeFor (s : State) (c : CmdCtx) (slot status : Nat) (object : BitVec 32) (data : Word) : State :=
  let o := if object = noObject then objectWord ObjKind.session slot else object
  let e := s.event EventType.completion status slot (c.queue.getD 0xFF) o c.tag data
  let found := s.inflightOf c
  let s1 := { s with host := { s.host with inflight := s.host.inflight.eraseP (fun i => i.c == c) } }
  match c.queue with
  | none =>
    { s1 with port := { s1.port with
        response := some { type := 0x86, seq := s1.port.seq, status := if status = Status.hubReset then 9 else 0,
                           payload := eventWords false e },
        taken := false } }
  | some _ =>
    match found with
    | some i => s1.pushReserved i.ring c.notify e
    | none => s1.emit slot e

/-- A completion for the command's own session. -/
def State.complete (s : State) (c : CmdCtx) (status : Nat) (object : BitVec 32) (data : Word) : State :=
  s.completeFor c c.session status object data

/-- A result record goes to its destination: host memory by DMA, or the staging area of the port (R377, R378). -/
def State.give (s : State) (c : CmdCtx) (bs : List Byte) : State :=
  match c.queue with
  | some _ => { s with host := { s.host with result := bs } }
  | none => { s with port := { s.port with
      staging := Memory.writeBytes s.port.staging (c.resAddr % 32768) (bs.take (32768 - c.resAddr % 32768)) } }

/-- A refusal: its status, and no change but the completion (R12, R379). -/
def State.refuse (s : State) (c : CmdCtx) (status : Nat) : State := s.complete c status noObject 0

/-- The first check that fails, in order: a list of (holds, status) (R12). -/
def firstFail : List (Bool × Nat) → Option Nat
  | [] => none
  | (ok, st) :: r => if ok then firstFail r else some st

/-- A command whose checks stand in order: refused with the first that fails, else it takes effect. SESSION names
an open session (R378 step 2). With both Compasses lost no command is served. -/
def State.judgedAny (s : State) (c : CmdCtx) (checks : List (Bool × Nat)) (act : State → State) : State :=
  if s.pkg.bothDead then s
  else match firstFail (((s.session c.session).isSome, Status.sessionInvalid) :: checks) with
  | some st => s.refuse c st
  | none => act s

/-- As `judgedAny`, for the commands that firmware recovery refuses with WRONG_STATE (R409). -/
def State.judged (s : State) (c : CmdCtx) (checks : List (Bool × Nat)) (act : State → State) : State :=
  s.judgedAny c ((!s.pkg.fwRecovery, Status.wrongState) :: checks) act

/-! ### Reference counts (R390 to R393) -/

/-- Slots of a kind (Table HO-7). -/
def kindSlots (kind : Nat) : Nat :=
  if kind = ObjKind.session then 256 else if kind = ObjKind.job then 64 else if kind = ObjKind.set then 1024
  else if kind = ObjKind.stream then 512 else if kind = ObjKind.group then 4096 else if kind = ObjKind.context then 4096
  else 65536

/-- KIND is of Table HO-7 and the slot in its range. -/
def kindSlotOk (kind slot : Nat) : Bool := decide (1 ≤ kind ∧ kind ≤ 8 ∧ slot < kindSlots kind)

/-- The key of a counted object. -/
def refKey (kind slot : Nat) : Nat := kind * 65536 + slot

def State.refs (s : State) (kind slot : Nat) : Refs := Tbl.get {} s.host.refs (refKey kind slot)

def State.setRefs (s : State) (kind slot : Nat) (v : Refs) : State :=
  { s with host := { s.host with refs := Tbl.set {} s.host.refs (refKey kind slot) v } }

/-- Holds of one session on an object. -/
def Session.holdOf (x : Session) (kind slot : Nat) : Nat :=
  ((x.holds.filter (fun h => h.1 == kind && h.2.1 == slot)).map (·.2.2)).sum

/-- Holds of every session on an object. -/
def State.holdsOn (s : State) (kind slot : Nat) : Nat :=
  (s.auth.sessions.map (fun e => match e.2 with
    | some x => x.holdOf kind slot
    | none => 0)).sum

/-- An object's reference count (R391). -/
def State.refCount (s : State) (kind slot : Nat) : Nat :=
  let r := s.refs kind slot
  s.holdsOn kind slot + r.hub + r.kept

/-- The counts at which an acquire is refused: jobs and streams keep references in reserve (R392). -/
def refTop (kind : Nat) : Nat :=
  if kind = ObjKind.job then 65533 else if kind = ObjKind.stream then 65534 else 65535

/-- An acquire by a session or the hub would not carry the count past its limit (R392). -/
def State.canRef (s : State) (kind slot : Nat) : Bool := decide (s.refCount kind slot < refTop kind)

/-- An object is live and has not begun to die (R391, R393). -/
def State.refLive (s : State) (kind slot : Nat) : Bool := (s.refs kind slot).live && !(s.refs kind slot).dying

/-- One more hub reference. -/
def State.hubRef (s : State) (kind slot : Nat) : State :=
  let r := s.refs kind slot
  s.setRefs kind slot { r with hub := r.hub + 1 }

/-- One hub reference fewer. -/
def State.hubUnref (s : State) (kind slot : Nat) : State :=
  let r := s.refs kind slot
  s.setRefs kind slot { r with hub := r.hub - 1 }

/-- A hold added to a session's list. -/
def addHold (kind slot : Nat) : List (Nat × Nat × Nat) → List (Nat × Nat × Nat)
  | [] => [(kind, slot, 1)]
  | (k, n, c) :: r => if k = kind ∧ n = slot then (k, n, c + 1) :: r else (k, n, c) :: addHold kind slot r

/-- One hold dropped from a session's list; an entry that falls to none leaves it. -/
def dropHold (kind slot : Nat) : List (Nat × Nat × Nat) → List (Nat × Nat × Nat)
  | [] => []
  | (k, n, c) :: r =>
    if k = kind ∧ n = slot then (if c ≤ 1 then r else (k, n, c - 1) :: r) else (k, n, c) :: dropHold kind slot r

/-- A session's hold on an object, one more. -/
def State.addHoldOf (s : State) (sess kind slot : Nat) : State :=
  match s.session sess with
  | none => s
  | some x => s.setSession sess (some { x with holds := addHold kind slot x.holds })

/-- A session's hold on an object, one fewer. -/
def State.dropHoldOf (s : State) (sess kind slot : Nat) : State :=
  match s.session sess with
  | none => s
  | some x => s.setSession sess (some { x with holds := dropHold kind slot x.holds })

/-- The session could take a hold on this object: it has one, or holds fewer than 64 objects (R391). -/
def State.holdRoom (s : State) (sess kind slot : Nat) : Bool :=
  match s.session sess with
  | none => false
  | some x => decide (0 < x.holdOf kind slot) || decide (x.holds.length < 64)

/-- GEN goes to the next even value: a Legend change (R61). -/
def State.bumpGen (s : State) : State :=
  { s with legend := { s.legend with gen := s.legend.gen + 2, changeT := s.pkg.meridian } }

/-- A new counted object with its creator's first reference (R391): a slot comes into use (R61, Table UT-5). -/
def State.newRef (s : State) (sess kind slot : Nat) : State :=
  ((s.setRefs kind slot { live := true, creator := sess }).addHoldOf sess kind slot).bumpGen

/-- What the Legend shows of halts and freezes: the cores that are HALTED, the class instances and objects that are held. -/
def State.flagView (s : State) : List Nat × List (Nat × Bool) :=
  ((s.cores.filter (fun e => e.2.halted)).map (·.1),
   (s.insts.filter (fun e => e.2.any || e.2.halted)).map (fun e => (e.1, e.2.halted)))

/-- `t` after `s`: a change of HALTED, FROZEN or FREEZE bytes advances GEN (R61). -/
def State.flaggedFrom (s t : State) : State := if t.flagView = s.flagView then t else t.bumpGen

/-- A post's health changes (R53, R61). -/
def State.setHealth (s : State) (p h : Nat) : State := (s.setPost p { s.post p with health := h }).bumpGen

end Sys2Proof.Machine
end

