-- ==== Sys2Proof/Machine/RegMap.lean ====
section
/-! DEFINITION. The register map (Table HO-1 and the register tables of every chapter): for each register its offset,
its width and the fields that are not RO, with type, reset value and range. RO fields are views of the state. -/

namespace Sys2Proof.Machine

/-- Register field types (Table SC-5) other than RO; no register has a W1S field. -/
inductive FieldType where
  | rw
  | rwc
  | w1c
  | wo
  | rsv
deriving DecidableEq, Repr

/-- A field: least significant bit, width, type, reset value, least and greatest legal value. -/
structure RegField where
  lsb   : Nat
  width : Nat
  type  : FieldType
  reset : Nat
  low   : Nat
  high  : Nat
deriving DecidableEq, Repr

/-- A register: offset in its block, bytes, and fields from the most significant down. -/
structure RegRow where
  off    : Nat
  bytes  : Nat
  fields : List RegField
deriving DecidableEq, Repr

/-- Table TP-12. -/
def RegMap.cmpMeridian : RegRow := ⟨0x10100, 8, []⟩

/-- Table TP-13. -/
def RegMap.cmpBoot : RegRow := ⟨0x10108, 4, [
  ⟨28, 4, .rsv, 0x0, 0x0, 0xF⟩,
  ⟨16, 3, .rsv, 0x0, 0x0, 0x7⟩]⟩

/-- Table TP-15. -/
def RegMap.cmpReleaseT : RegRow := ⟨0x10120, 8, []⟩

/-- Table UT-8. -/
def RegMap.cmpLegendSel : RegRow := ⟨0x10130, 4, [
  ⟨24, 8, .rsv, 0x0, 0x0, 0xFF⟩,
  ⟨0, 24, .rw, 0x0, 0x0, 0xFFFFFF⟩]⟩

/-- Table UT-11. -/
def RegMap.cmpClampStat : RegRow := ⟨0x10400, 4, [
  ⟨16, 16, .w1c, 0x0, 0x0, 0xFFFF⟩]⟩

/-- Table UT-12. -/
def RegMap.cmpClampClr : RegRow := ⟨0x10408, 4, [
  ⟨16, 16, .rsv, 0x0, 0x0, 0xFFFF⟩,
  ⟨0, 16, .wo, 0x0, 0x0, 0xFFFF⟩]⟩

/-- Table CH-8. -/
def RegMap.cmpChDefaults : RegRow := ⟨0x10500, 8, [
  ⟨54, 10, .rsv, 0x0, 0x0, 0x3FF⟩,
  ⟨48, 6, .rw, 0x3F, 0x0, 0x3F⟩,
  ⟨46, 2, .rsv, 0x0, 0x0, 0x3⟩,
  ⟨32, 14, .rwc, 0xA, 0x1, 0x2710⟩,
  ⟨20, 12, .rsv, 0x0, 0x0, 0xFFF⟩,
  ⟨0, 20, .rwc, 0xA0, 0x80, 0xF4240⟩]⟩

/-- Table FO-20. -/
def RegMap.cmpFoCfg : RegRow := ⟨0x10600, 8, [
  ⟨40, 24, .rsv, 0x0, 0x0, 0xFFFFFF⟩,
  ⟨32, 8, .rwc, 0x8, 0x0, 0x20⟩,
  ⟨18, 14, .rsv, 0x0, 0x0, 0x3FFF⟩,
  ⟨17, 1, .rw, 0x1, 0x0, 0x1⟩,
  ⟨16, 1, .rsv, 0x0, 0x0, 0x1⟩,
  ⟨0, 8, .rwc, 0x20, 0x14, 0x80⟩]⟩

/-- Table FO-21. -/
def RegMap.cmpFoLossStat : RegRow := ⟨0x10608, 4, [
  ⟨16, 16, .w1c, 0x0, 0x0, 0xFFFF⟩,
  ⟨7, 9, .rsv, 0x0, 0x0, 0x1FF⟩]⟩

/-- Table FO-22. -/
def RegMap.cmpFoLossClr : RegRow := ⟨0x1060C, 4, [
  ⟨1, 31, .rsv, 0x0, 0x0, 0x7FFFFFFF⟩,
  ⟨0, 1, .wo, 0x0, 0x0, 0x1⟩]⟩

/-- Table CA-9. -/
def RegMap.cmpCaCfg : RegRow := ⟨0x10C00, 8, [
  ⟨32, 32, .rsv, 0x0, 0x0, 0xFFFFFFFF⟩,
  ⟨17, 15, .rw, 0x1200, 0x0, 0x7FFF⟩,
  ⟨10, 7, .rsv, 0x0, 0x0, 0x7F⟩,
  ⟨0, 10, .rwc, 0x4, 0x1, 0x3E8⟩]⟩

/-- Table CA-10. -/
def RegMap.cmpCaStat : RegRow := ⟨0x10C08, 8, [
  ⟨31, 1, .w1c, 0x0, 0x0, 0x1⟩,
  ⟨30, 1, .w1c, 0x0, 0x0, 0x1⟩,
  ⟨13, 16, .rsv, 0x0, 0x0, 0xFFFF⟩]⟩

/-- Table CA-11. -/
def RegMap.cmpCaHead : RegRow := ⟨0x10C10, 4, []⟩

/-- Table CA-11. -/
def RegMap.cmpCaTail : RegRow := ⟨0x10C14, 4, []⟩

/-- Table CA-11. -/
def RegMap.cmpCaPop : RegRow := ⟨0x10C18, 4, [
  ⟨0, 32, .wo, 0x0, 0x0, 0xFFFFFFFF⟩]⟩

/-- Table CA-11. -/
def RegMap.cmpCaSel : RegRow := ⟨0x10C1C, 4, [
  ⟨0, 32, .rw, 0x0, 0x0, 0xFFFFFFFF⟩]⟩

/-- Table CA-12. -/
def RegMap.cmpCaMeta : RegRow := ⟨0x10C20, 8, [
  ⟨12, 16, .rsv, 0x0, 0x0, 0xFFFF⟩]⟩

/-- Table CA-14. -/
def RegMap.cmpHbStat : RegRow := ⟨0x10C50, 4, [
  ⟨12, 4, .rsv, 0x0, 0x0, 0xF⟩,
  ⟨4, 4, .rsv, 0x0, 0x0, 0xF⟩,
  ⟨1, 1, .rsv, 0x0, 0x0, 0x1⟩]⟩

/-- Table CA-15. -/
def RegMap.cmpHbT : RegRow := ⟨0x10C58, 8, []⟩

/-- Table SW-7. -/
def RegMap.cmpSwCfg : RegRow := ⟨0x10E00, 8, [
  ⟨20, 44, .rsv, 0x0, 0x0, 0xFFFFFFFFFFF⟩,
  ⟨0, 20, .rwc, 0x3E8, 0xA, 0xF4240⟩]⟩

/-- Table SW-8. -/
def RegMap.cmpSwSel : RegRow := ⟨0x10E08, 4, [
  ⟨13, 19, .rsv, 0x0, 0x0, 0x7FFFF⟩,
  ⟨12, 1, .rw, 0x0, 0x0, 0x1⟩,
  ⟨0, 12, .rw, 0x0, 0x0, 0xFFF⟩]⟩

/-- Table SW-9. -/
def RegMap.cmpSwPol : RegRow := ⟨0x10E10, 8, [
  ⟨40, 24, .rsv, 0x0, 0x0, 0xFFFFFF⟩,
  ⟨12, 20, .rsv, 0x0, 0x0, 0xFFFFF⟩,
  ⟨3, 5, .rsv, 0x0, 0x0, 0x1F⟩]⟩

/-- Table SW-10. -/
def RegMap.cmpSwDlrec : RegRow := ⟨0x10E18, 8, [
  ⟨56, 4, .rsv, 0x0, 0x0, 0xF⟩]⟩

/-- Table SW-11. -/
def RegMap.cmpSwDlt : RegRow := ⟨0x10E20, 8, []⟩

/-- Table SW-13. -/
def RegMap.cmpSwStat : RegRow := ⟨0x10F40, 8, []⟩

/-- Table SW-14. -/
def RegMap.cmpSwSnapT : RegRow := ⟨0x10F48, 8, []⟩

/-- Table IT-8. -/
def RegMap.cmpItCfg : RegRow := ⟨0x11000, 8, [
  ⟨56, 8, .rsv, 0x0, 0x0, 0xFF⟩,
  ⟨48, 8, .rwc, 0x4, 0x2, 0xFF⟩,
  ⟨41, 7, .rsv, 0x0, 0x0, 0x7F⟩,
  ⟨9, 23, .rsv, 0x0, 0x0, 0x7FFFFF⟩,
  ⟨0, 9, .rwc, 0x10, 0x4, 0x100⟩]⟩

/-- Table IT-9. -/
def RegMap.cmpItSerial : RegRow := ⟨0x11008, 8, [
  ⟨25, 6, .rsv, 0x0, 0x0, 0x3F⟩,
  ⟨7, 9, .rsv, 0x0, 0x0, 0x1FF⟩]⟩

/-- Table PT-14. -/
def RegMap.cmpPtCfg : RegRow := ⟨0x11200, 8, [
  ⟨48, 16, .rwc, 0x3C, 0x1, 0xE10⟩,
  ⟨40, 8, .rwc, 0xA, 0x1, 0xFF⟩,
  ⟨35, 5, .rsv, 0x0, 0x0, 0x1F⟩,
  ⟨32, 3, .rwc, 0x0, 0x0, 0x5⟩,
  ⟨27, 5, .rsv, 0x0, 0x0, 0x1F⟩,
  ⟨26, 1, .rw, 0x0, 0x0, 0x1⟩,
  ⟨24, 2, .rw, 0x0, 0x0, 0x3⟩,
  ⟨16, 8, .rwc, 0x4, 0x2, 0xFF⟩,
  ⟨3, 13, .rsv, 0x0, 0x0, 0x1FFF⟩,
  ⟨2, 1, .rw, 0x0, 0x0, 0x1⟩,
  ⟨1, 1, .rsv, 0x0, 0x0, 0x1⟩,
  ⟨0, 1, .rw, 0x0, 0x0, 0x1⟩]⟩

/-- Table PT-15. -/
def RegMap.cmpPtStat : RegRow := ⟨0x11208, 8, [
  ⟨27, 5, .rsv, 0x0, 0x0, 0x1F⟩]⟩

/-- Table PT-16. -/
def RegMap.cmpPtErr : RegRow := ⟨0x11210, 8, []⟩

/-- Table PT-17. -/
def RegMap.cmpPtLine : RegRow := ⟨0x11218, 8, []⟩

/-- Table PT-18. -/
def RegMap.cmpPtClr : RegRow := ⟨0x11220, 4, [
  ⟨2, 30, .rsv, 0x0, 0x0, 0x3FFFFFFF⟩,
  ⟨1, 1, .wo, 0x0, 0x0, 0x1⟩,
  ⟨0, 1, .wo, 0x0, 0x0, 0x1⟩]⟩

/-- Table PT-19. -/
def RegMap.cmpPtPin : RegRow := ⟨0x11224, 4, [
  ⟨8, 8, .rsv, 0x0, 0x0, 0xFF⟩,
  ⟨3, 1, .rsv, 0x0, 0x0, 0x1⟩]⟩

/-- Table PT-20. -/
def RegMap.cmpPtApr : RegRow := ⟨0x11228, 8, []⟩

/-- Table PT-21. -/
def RegMap.cmpPtAprAck : RegRow := ⟨0x11230, 4, [
  ⟨5, 27, .rsv, 0x0, 0x0, 0x7FFFFFF⟩,
  ⟨0, 5, .wo, 0x0, 0x0, 0x1F⟩]⟩

/-- Table HO-11. -/
def RegMap.cmpId : RegRow := ⟨0x10000, 8, [
  ⟨16, 16, .rsv, 0x0, 0x0, 0xFFFF⟩]⟩

/-- Table HO-13. -/
def RegMap.hqCtrl : RegRow := ⟨0x20000, 4, [
  ⟨1, 31, .rsv, 0x0, 0x0, 0x7FFFFFFF⟩,
  ⟨0, 1, .rw, 0x0, 0x0, 0x1⟩]⟩

/-- Table HO-14. -/
def RegMap.hqStat : RegRow := ⟨0x20008, 8, [
  ⟨39, 9, .rsv, 0x0, 0x0, 0x1FF⟩,
  ⟨16, 16, .rsv, 0x0, 0x0, 0xFFFF⟩]⟩

/-- Table HO-20. -/
def RegMap.hqBarBind : RegRow := ⟨0x20010, 8, [
  ⟨32, 32, .wo, 0x0, 0x0, 0xFFFFFFFF⟩,
  ⟨24, 8, .rsv, 0x0, 0x0, 0xFF⟩,
  ⟨10, 6, .rsv, 0x0, 0x0, 0x3F⟩,
  ⟨9, 1, .wo, 0x0, 0x0, 0x1⟩,
  ⟨0, 8, .wo, 0x0, 0x0, 0xFF⟩]⟩

/-- Table LC-10. -/
def RegMap.lcuState : RegRow := ⟨0x40000, 8, [
  ⟨48, 16, .rsv, 0x0, 0x0, 0xFFFF⟩,
  ⟨30, 2, .rsv, 0x0, 0x0, 0x3⟩,
  ⟨21, 3, .rsv, 0x0, 0x0, 0x7⟩,
  ⟨12, 4, .rsv, 0x0, 0x0, 0xF⟩,
  ⟨3, 3, .rsv, 0x0, 0x0, 0x7⟩]⟩

/-- Table LC-11. -/
def RegMap.lcuSectSel : RegRow := ⟨0x40008, 4, [
  ⟨7, 25, .rsv, 0x0, 0x0, 0x1FFFFFF⟩,
  ⟨6, 1, .rw, 0x0, 0x0, 0x1⟩,
  ⟨0, 6, .rw, 0x0, 0x0, 0x3F⟩]⟩

/-- Table LC-12. -/
def RegMap.lcuSect : RegRow := ⟨0x40010, 8, [
  ⟨32, 32, .rsv, 0x0, 0x0, 0xFFFFFFFF⟩,
  ⟨14, 6, .rsv, 0x0, 0x0, 0x3F⟩]⟩

/-- Table LC-13. -/
def RegMap.lcuSpare : RegRow := ⟨0x40018, 4, [
  ⟨16, 16, .rsv, 0x0, 0x0, 0xFFFF⟩]⟩

/-- Table UP-12. -/
def RegMap.lcuUpdStat : RegRow := ⟨0x40200, 8, [
  ⟨23, 33, .rsv, 0x0, 0x0, 0x1FFFFFFFF⟩,
  ⟨19, 1, .rsv, 0x0, 0x0, 0x1⟩,
  ⟨14, 2, .rsv, 0x0, 0x0, 0x3⟩,
  ⟨9, 3, .rsv, 0x0, 0x0, 0x7⟩,
  ⟨6, 2, .rsv, 0x0, 0x0, 0x3⟩]⟩

/-- Table UP-13. -/
def RegMap.lcuUpdProg : RegRow := ⟨0x40208, 8, []⟩

/-- Table UP-14. -/
def RegMap.lcuUpdCfg : RegRow := ⟨0x40210, 8, [
  ⟨12, 52, .rsv, 0x0, 0x0, 0xFFFFFFFFFFFFF⟩,
  ⟨0, 12, .rwc, 0x258, 0xA, 0xE10⟩]⟩

/-- Table UP-15. -/
def RegMap.lcuUpdOwner : RegRow := ⟨0x40218, 4, [
  ⟨8, 23, .rsv, 0x0, 0x0, 0x7FFFFF⟩]⟩

/-- Table AC-9. -/
def RegMap.authCfg : RegRow := ⟨0x50000, 8, [
  ⟨14, 50, .rsv, 0x0, 0x0, 0x3FFFFFFFFFFFF⟩,
  ⟨0, 14, .rwc, 0x3C, 0x1, 0x2760⟩]⟩

/-- Table AC-10. -/
def RegMap.authStat : RegRow := ⟨0x50008, 8, [
  ⟨45, 3, .rsv, 0x0, 0x0, 0x7⟩]⟩

/-- Table AC-11. -/
def RegMap.authSessSel : RegRow := ⟨0x50010, 4, [
  ⟨8, 24, .rsv, 0x0, 0x0, 0xFFFFFF⟩,
  ⟨0, 8, .rw, 0x0, 0x0, 0xFF⟩]⟩

/-- Table AC-11. -/
def RegMap.authCtxSel : RegRow := ⟨0x50014, 4, [
  ⟨12, 20, .rsv, 0x0, 0x0, 0xFFFFF⟩,
  ⟨0, 12, .rw, 0x0, 0x0, 0xFFF⟩]⟩

/-- Table AC-12. -/
def RegMap.authSess : RegRow := ⟨0x50018, 8, [
  ⟨32, 32, .rsv, 0x0, 0x0, 0xFFFFFFFF⟩,
  ⟨27, 2, .rsv, 0x0, 0x0, 0x3⟩,
  ⟨21, 3, .rsv, 0x0, 0x0, 0x7⟩,
  ⟨0, 8, .rsv, 0x0, 0x0, 0xFF⟩]⟩

/-- Table AC-14. -/
def RegMap.authCtx : RegRow := ⟨0x50208, 8, [
  ⟨56, 6, .rsv, 0x0, 0x0, 0x3F⟩]⟩

/-- Table UT-11. -/
def RegMap.svpClampStat : RegRow := ⟨0x8200, 4, [
  ⟨16, 16, .w1c, 0x0, 0x0, 0xFFFF⟩]⟩

/-- Table UT-12. -/
def RegMap.svpClampClr : RegRow := ⟨0x8208, 4, [
  ⟨16, 16, .rsv, 0x0, 0x0, 0xFFFF⟩,
  ⟨0, 16, .wo, 0x0, 0x0, 0xFFFF⟩]⟩

/-- Table CH-9. -/
def RegMap.svpChDefaults : RegRow := ⟨0x100, 8, [
  ⟨46, 18, .rsv, 0x0, 0x0, 0x3FFFF⟩,
  ⟨32, 14, .rwc, 0xA, 0x1, 0x2710⟩,
  ⟨20, 12, .rsv, 0x0, 0x0, 0xFFF⟩,
  ⟨0, 20, .rwc, 0xA0, 0x80, 0xF4240⟩]⟩

/-- Table CH-10. -/
def RegMap.svpHopSel : RegRow := ⟨0x108, 4, [
  ⟨20, 12, .rsv, 0x0, 0x0, 0xFFF⟩,
  ⟨4, 12, .rsv, 0x0, 0x0, 0xFFF⟩,
  ⟨0, 4, .rw, 0x0, 0x0, 0xF⟩]⟩

/-- Table CH-11. -/
def RegMap.svpHopRing : RegRow := ⟨0x10C, 4, [
  ⟨16, 16, .w1c, 0x0, 0x0, 0xFFFF⟩]⟩

/-- Table CH-12. -/
def RegMap.svpHopId : RegRow := ⟨0x110, 4, []⟩

/-- Table CH-13. -/
def RegMap.svpHopScope : RegRow := ⟨0x118, 8, [
  ⟨44, 20, .rsv, 0x0, 0x0, 0xFFFFF⟩,
  ⟨24, 7, .rsv, 0x0, 0x0, 0x7F⟩]⟩

/-- Table CH-14. -/
def RegMap.svpHopT : RegRow := ⟨0x120, 8, []⟩

/-- Table CH-15. -/
def RegMap.svpHopDone : RegRow := ⟨0x128, 8, []⟩

/-- Table CH-16. -/
def RegMap.svpHopCount : RegRow := ⟨0x130, 8, []⟩

/-- Table CH-17. -/
def RegMap.svpHopSpread : RegRow := ⟨0x138, 8, [
  ⟨56, 8, .rsv, 0x0, 0x0, 0xFF⟩]⟩

/-- Table CH-18. -/
def RegMap.svpHopMargin : RegRow := ⟨0x140, 8, [
  ⟨48, 16, .rsv, 0x0, 0x0, 0xFFFF⟩]⟩

/-- Table CH-20. -/
def RegMap.svpHopParam : RegRow := ⟨0x198, 8, [
  ⟨46, 2, .rsv, 0x0, 0x0, 0x3⟩,
  ⟨20, 6, .rsv, 0x0, 0x0, 0x3F⟩]⟩

/-- Table FO-24. -/
def RegMap.svpFoSel : RegRow := ⟨0x400, 4, [
  ⟨6, 26, .rsv, 0x0, 0x0, 0x3FFFFFF⟩,
  ⟨0, 6, .rw, 0x0, 0x0, 0x3F⟩]⟩

/-- Table FO-25. -/
def RegMap.svpFoRegion : RegRow := ⟨0x408, 8, []⟩

/-- Table FO-26. -/
def RegMap.svpFoFree : RegRow := ⟨0x410, 8, [
  ⟨40, 24, .rsv, 0x0, 0x0, 0xFFFFFF⟩]⟩

/-- Table FO-27. -/
def RegMap.svpFoPart : RegRow := ⟨0x418, 8, [
  ⟨24, 8, .rsv, 0x0, 0x0, 0xFF⟩,
  ⟨12, 6, .rsv, 0x0, 0x0, 0x3F⟩]⟩

/-- Table FO-28. -/
def RegMap.svpFoRaw : RegRow := ⟨0x420, 8, []⟩

/-- Table FO-28. -/
def RegMap.svpFoStored : RegRow := ⟨0x428, 8, []⟩

/-- Table FO-29. -/
def RegMap.svpFoBlk0 : RegRow := ⟨0x430, 8, []⟩

/-- Table FO-29. -/
def RegMap.svpFoBlk1 : RegRow := ⟨0x438, 8, []⟩

/-- Table FO-29. -/
def RegMap.svpFoBlk2 : RegRow := ⟨0x440, 8, []⟩

/-- Table FO-30. -/
def RegMap.svpFoWcb : RegRow := ⟨0x448, 8, [
  ⟨8, 24, .rsv, 0x0, 0x0, 0xFFFFFF⟩]⟩

/-- Table CA-18. -/
def RegMap.svpLsStat : RegRow := ⟨0x510, 8, [
  ⟨56, 8, .rsv, 0x0, 0x0, 0xFF⟩,
  ⟨36, 4, .rsv, 0x0, 0x0, 0xF⟩]⟩

/-- Table BW-22. -/
def RegMap.bwSetSel : RegRow := ⟨0xC300, 4, [
  ⟨10, 22, .rsv, 0x0, 0x0, 0x3FFFFF⟩,
  ⟨0, 10, .rw, 0x0, 0x0, 0x3FF⟩]⟩

/-- Table BW-23. -/
def RegMap.bwSetStat : RegRow := ⟨0xC308, 8, []⟩

/-- Table BW-23. -/
def RegMap.bwSetLast : RegRow := ⟨0xC310, 8, []⟩

/-- Table BW-23. -/
def RegMap.bwSetWho : RegRow := ⟨0xC318, 4, [
  ⟨24, 8, .rsv, 0x0, 0x0, 0xFF⟩]⟩

/-- Table BW-24. -/
def RegMap.bwRes : RegRow := ⟨0xC320, 8, [
  ⟨44, 20, .rsv, 0x0, 0x0, 0xFFFFF⟩]⟩

/-- Table SW-15. -/
def RegMap.svpSwStat : RegRow := ⟨0x30000, 8, [
  ⟨40, 8, .rsv, 0x0, 0x0, 0xFF⟩,
  ⟨2, 14, .rsv, 0x0, 0x0, 0x3FFF⟩]⟩

/-- Table SW-16. -/
def RegMap.svpSwSnapT : RegRow := ⟨0x30008, 8, []⟩

/-- Table SW-17. -/
def RegMap.svpSwDsel : RegRow := ⟨0x30010, 4, [
  ⟨6, 26, .rsv, 0x0, 0x0, 0x3FFFFFF⟩,
  ⟨0, 6, .rw, 0x0, 0x0, 0x3F⟩]⟩

/-- Table SW-18. -/
def RegMap.svpSwDrec0 : RegRow := ⟨0x30018, 8, [
  ⟨24, 5, .rsv, 0x0, 0x0, 0x1F⟩,
  ⟨10, 2, .rsv, 0x0, 0x0, 0x3⟩]⟩

/-- Table IT-10. -/
def RegMap.svpItStat : RegRow := ⟨0x30100, 8, [
  ⟨22, 9, .rsv, 0x0, 0x0, 0x1FF⟩,
  ⟨9, 7, .rsv, 0x0, 0x0, 0x7F⟩]⟩

/-- Table IT-11. -/
def RegMap.svpItSel : RegRow := ⟨0x30108, 4, [
  ⟨16, 16, .rw, 0x0, 0x0, 0xFFFF⟩,
  ⟨9, 7, .rsv, 0x0, 0x0, 0x7F⟩,
  ⟨0, 9, .rw, 0x0, 0x0, 0x1FF⟩]⟩

/-- Table IT-12. -/
def RegMap.svpItPart : RegRow := ⟨0x30110, 8, [
  ⟨44, 4, .rsv, 0x0, 0x0, 0xF⟩,
  ⟨27, 5, .rsv, 0x0, 0x0, 0x1F⟩,
  ⟨3, 21, .rsv, 0x0, 0x0, 0x1FFFFF⟩]⟩

/-- Table IT-13. -/
def RegMap.svpItPtr : RegRow := ⟨0x30118, 8, [
  ⟨45, 3, .rsv, 0x0, 0x0, 0x7⟩]⟩

/-- Table IT-14. -/
def RegMap.svpItPseq : RegRow := ⟨0x30120, 8, [
  ⟨60, 4, .rsv, 0x0, 0x0, 0xF⟩,
  ⟨28, 4, .rsv, 0x0, 0x0, 0xF⟩]⟩

/-- Table IT-15. -/
def RegMap.svpItCnt : RegRow := ⟨0x30128, 8, []⟩

/-- Table IT-16. -/
def RegMap.svpItFree : RegRow := ⟨0x30130, 4, [
  ⟨16, 16, .rsv, 0x0, 0x0, 0xFFFF⟩,
  ⟨0, 16, .wo, 0x0, 0x0, 0xFFFF⟩]⟩

/-- Table QE-9. -/
def RegMap.qlCtrl : RegRow := ⟨0x0, 4, [
  ⟨8, 24, .rsv, 0x0, 0x0, 0xFFFFFF⟩,
  ⟨7, 1, .wo, 0x0, 0x0, 0x1⟩,
  ⟨6, 1, .wo, 0x0, 0x0, 0x1⟩,
  ⟨5, 1, .wo, 0x0, 0x0, 0x1⟩,
  ⟨4, 1, .wo, 0x0, 0x0, 0x1⟩,
  ⟨3, 1, .wo, 0x0, 0x0, 0x1⟩,
  ⟨2, 1, .wo, 0x0, 0x0, 0x1⟩,
  ⟨1, 1, .wo, 0x0, 0x0, 0x1⟩,
  ⟨0, 1, .wo, 0x0, 0x0, 0x1⟩]⟩

/-- Table QE-10. -/
def RegMap.qlStatus : RegRow := ⟨0x4, 4, [
  ⟨9, 7, .rsv, 0x0, 0x0, 0x7F⟩,
  ⟨4, 4, .rsv, 0x0, 0x0, 0xF⟩]⟩

/-- Table QE-12. -/
def RegMap.qlPc : RegRow := ⟨0x8, 4, [
  ⟨14, 18, .rsv, 0x0, 0x0, 0x3FFFF⟩]⟩

/-- Table QE-13. -/
def RegMap.qlFault : RegRow := ⟨0xC, 4, [
  ⟨30, 2, .rsv, 0x0, 0x0, 0x3⟩,
  ⟨8, 8, .rsv, 0x0, 0x0, 0xFF⟩]⟩

/-- Table QE-14. -/
def RegMap.qlFaultT : RegRow := ⟨0x10, 8, []⟩

/-- Table QE-15. -/
def RegMap.qlBudget : RegRow := ⟨0x18, 8, []⟩

/-- Table QE-16. -/
def RegMap.qlEvent : RegRow := ⟨0x20, 4, [
  ⟨12, 20, .rsv, 0x0, 0x0, 0xFFFFF⟩,
  ⟨0, 12, .w1c, 0x0, 0x0, 0xFFF⟩]⟩

/-- Table QE-17. -/
def RegMap.qlEvmask : RegRow := ⟨0x24, 4, [
  ⟨12, 20, .rsv, 0x0, 0x0, 0xFFFFF⟩,
  ⟨0, 12, .rw, 0x0, 0x0, 0xFFF⟩]⟩

/-- Table QE-18. -/
def RegMap.qlTags : RegRow := ⟨0x28, 4, [
  ⟨31, 1, .w1c, 0x0, 0x0, 0x1⟩,
  ⟨25, 6, .rsv, 0x0, 0x0, 0x3F⟩,
  ⟨9, 7, .rsv, 0x0, 0x0, 0x7F⟩]⟩

/-- Table QE-19. -/
def RegMap.qlSp : RegRow := ⟨0x2C, 4, [
  ⟨5, 27, .rsv, 0x0, 0x0, 0x7FFFFFF⟩]⟩

/-- Table QE-20. -/
def RegMap.qlMbox : RegRow := ⟨0x30, 8, [
  ⟨0, 64, .rw, 0x0, 0x0, 0xFFFFFFFFFFFFFFFF⟩]⟩

/-- Table QE-21. -/
def RegMap.qlOwner : RegRow := ⟨0x38, 4, [
  ⟨28, 3, .rsv, 0x0, 0x0, 0x7⟩,
  ⟨8, 8, .rsv, 0x0, 0x0, 0xFF⟩]⟩

/-- Table HO-15. -/
def RegMap.hqErBase : RegRow := ⟨0x0, 8, [
  ⟨12, 52, .rw, 0x0, 0x0, 0xFFFFFFFFFFFFF⟩,
  ⟨0, 12, .rsv, 0x0, 0x0, 0xFFF⟩]⟩

/-- Table HO-16. -/
def RegMap.hqErCfg : RegRow := ⟨0x8, 8, [
  ⟨48, 16, .rwc, 0x1, 0x1, 0x1000⟩,
  ⟨32, 16, .rwc, 0x0, 0x0, 0x3E8⟩,
  ⟨21, 11, .rsv, 0x0, 0x0, 0x7FF⟩,
  ⟨9, 7, .rsv, 0x0, 0x0, 0x7F⟩,
  ⟨8, 1, .rw, 0x0, 0x0, 0x1⟩,
  ⟨5, 3, .rsv, 0x0, 0x0, 0x7⟩,
  ⟨0, 5, .rwc, 0x6, 0x6, 0x10⟩]⟩

/-- Table HO-17. -/
def RegMap.hqErHead : RegRow := ⟨0x10, 4, [
  ⟨16, 16, .rsv, 0x0, 0x0, 0xFFFF⟩,
  ⟨0, 16, .rwc, 0x0, 0x0, 0xFFFF⟩]⟩

/-- Table HO-17. -/
def RegMap.hqErTail : RegRow := ⟨0x14, 4, [
  ⟨16, 15, .rsv, 0x0, 0x0, 0x7FFF⟩]⟩

/-- Table HO-18. -/
def RegMap.hqErStat : RegRow := ⟨0x18, 8, [
  ⟨32, 32, .w1c, 0x0, 0x0, 0xFFFFFFFF⟩,
  ⟨15, 17, .rsv, 0x0, 0x0, 0x1FFFF⟩,
  ⟨7, 1, .rsv, 0x0, 0x0, 0x1⟩]⟩

/-- Table HO-19. -/
def RegMap.hqDb : RegRow := ⟨0xF00, 4, [
  ⟨6, 26, .rsv, 0x0, 0x0, 0x3FFFFFF⟩,
  ⟨0, 6, .wo, 0x0, 0x0, 0x3F⟩]⟩

/-- Table HO-19. -/
def RegMap.hqQhead : RegRow := ⟨0xF04, 4, [
  ⟨6, 26, .rsv, 0x0, 0x0, 0x3FFFFFF⟩]⟩

/-- Table HO-19. -/
def RegMap.hqQstat : RegRow := ⟨0xF08, 4, [
  ⟨31, 1, .w1c, 0x0, 0x0, 0x1⟩,
  ⟨6, 25, .rsv, 0x0, 0x0, 0x1FFFFFF⟩]⟩

/-- Table CA-16. -/
def RegMap.svpLsPol0 : RegRow := ⟨0x500, 8, [
  ⟨62, 2, .rwc, 0x0, 0x0, 0x2⟩,
  ⟨60, 2, .rwc, 0x0, 0x0, 0x2⟩,
  ⟨58, 2, .rwc, 0x0, 0x0, 0x2⟩,
  ⟨56, 2, .rwc, 0x0, 0x0, 0x2⟩,
  ⟨54, 2, .rwc, 0x0, 0x0, 0x2⟩,
  ⟨52, 2, .rwc, 0x0, 0x0, 0x2⟩,
  ⟨50, 2, .rwc, 0x0, 0x0, 0x2⟩,
  ⟨48, 2, .rwc, 0x0, 0x0, 0x2⟩,
  ⟨46, 2, .rwc, 0x0, 0x0, 0x2⟩,
  ⟨44, 2, .rwc, 0x0, 0x0, 0x2⟩,
  ⟨42, 2, .rwc, 0x0, 0x0, 0x2⟩,
  ⟨40, 2, .rwc, 0x0, 0x0, 0x2⟩,
  ⟨38, 2, .rwc, 0x0, 0x0, 0x2⟩,
  ⟨36, 2, .rwc, 0x0, 0x0, 0x2⟩,
  ⟨34, 2, .rwc, 0x0, 0x0, 0x2⟩,
  ⟨32, 2, .rwc, 0x0, 0x0, 0x2⟩,
  ⟨30, 2, .rwc, 0x0, 0x0, 0x2⟩,
  ⟨28, 2, .rwc, 0x0, 0x0, 0x2⟩,
  ⟨26, 2, .rwc, 0x0, 0x0, 0x2⟩,
  ⟨24, 2, .rwc, 0x0, 0x0, 0x2⟩,
  ⟨22, 2, .rwc, 0x0, 0x0, 0x2⟩,
  ⟨20, 2, .rwc, 0x0, 0x0, 0x2⟩,
  ⟨18, 2, .rwc, 0x0, 0x0, 0x2⟩,
  ⟨16, 2, .rwc, 0x0, 0x0, 0x2⟩,
  ⟨14, 2, .rwc, 0x0, 0x0, 0x2⟩,
  ⟨12, 2, .rwc, 0x0, 0x0, 0x2⟩,
  ⟨10, 2, .rwc, 0x0, 0x0, 0x2⟩,
  ⟨8, 2, .rwc, 0x0, 0x0, 0x2⟩,
  ⟨6, 2, .rwc, 0x0, 0x0, 0x2⟩,
  ⟨4, 2, .rwc, 0x0, 0x0, 0x2⟩,
  ⟨2, 2, .rwc, 0x0, 0x0, 0x2⟩,
  ⟨0, 2, .rwc, 0x0, 0x0, 0x2⟩]⟩

/-- Table CA-17. -/
def RegMap.svpLsPol1 : RegRow := ⟨0x508, 4, [
  ⟨16, 16, .rsv, 0x0, 0x0, 0x0⟩,
  ⟨14, 2, .rwc, 0x0, 0x0, 0x2⟩,
  ⟨12, 2, .rwc, 0x0, 0x0, 0x2⟩,
  ⟨10, 2, .rwc, 0x0, 0x0, 0x2⟩,
  ⟨8, 2, .rwc, 0x0, 0x0, 0x2⟩,
  ⟨6, 2, .rwc, 0x0, 0x0, 0x2⟩,
  ⟨4, 2, .rwc, 0x0, 0x0, 0x2⟩,
  ⟨2, 2, .rwc, 0x0, 0x0, 0x2⟩,
  ⟨0, 2, .rwc, 0x0, 0x0, 0x2⟩]⟩

/-- Table HO-12, n = 0; the others at + 4n. -/
def RegMap.cmpAutowake : RegRow := ⟨0x10140, 4, [
  ⟨0, 32, .rw, 0xFFFFFFFF, 0x0, 0xFFFFFFFF⟩]⟩

/-- Table TP-14, n = 0; the others at + 4n. -/
def RegMap.cmpPoston : RegRow := ⟨0x10110, 4, []⟩

/-- Table HO-21, a = 0; the others at + 8a. -/
def RegMap.cmpIwSel : RegRow := ⟨0x11400, 8, [
  ⟨50, 6, .rsv, 0x0, 0x0, 0x3F⟩,
  ⟨48, 2, .rwc, 0x1, 0x0, 0x2⟩,
  ⟨24, 24, .rw, 0x0, 0x0, 0xFFFFFF⟩,
  ⟨0, 24, .rw, 0x0, 0x0, 0xFFFFFF⟩]⟩

/-- Table CA-13, i = 0; the others at + 8i. -/
def RegMap.cmpCaRec : RegRow := ⟨0x10C28, 8, []⟩

/-- Table SW-12, i = 0; the others at + 4i. -/
def RegMap.cmpSwDlobj : RegRow := ⟨0x10E40, 4, [
  ⟨24, 8, .rsv, 0x0, 0x0, 0xFF⟩]⟩

/-- Table QE-23, n = 0; the others at + 8n. -/
def RegMap.qlQ : RegRow := ⟨0x100, 8, [
  ⟨0, 64, .rw, 0x0, 0x0, 0xFFFFFFFFFFFFFFFF⟩]⟩

/-- Table QE-24, first word; the others at + 4n. -/
def RegMap.qlHdr : RegRow := ⟨0x200, 4, [
  ⟨0, 32, .rw, 0x0, 0x0, 0xFFFFFFFF⟩]⟩

/-- The global registers, in the order of their chapters. -/
def RegMap.globalRows : List RegRow :=
  [RegMap.cmpMeridian, RegMap.cmpBoot, RegMap.cmpReleaseT, RegMap.cmpLegendSel, RegMap.cmpClampStat, RegMap.cmpClampClr, RegMap.cmpChDefaults, RegMap.cmpFoCfg, RegMap.cmpFoLossStat, RegMap.cmpFoLossClr, RegMap.cmpCaCfg, RegMap.cmpCaStat] ++
  [RegMap.cmpCaHead, RegMap.cmpCaTail, RegMap.cmpCaPop, RegMap.cmpCaSel, RegMap.cmpCaMeta, RegMap.cmpHbStat, RegMap.cmpHbT, RegMap.cmpSwCfg, RegMap.cmpSwSel, RegMap.cmpSwPol, RegMap.cmpSwDlrec, RegMap.cmpSwDlt] ++
  [RegMap.cmpSwStat, RegMap.cmpSwSnapT, RegMap.cmpItCfg, RegMap.cmpItSerial, RegMap.cmpPtCfg, RegMap.cmpPtStat, RegMap.cmpPtErr, RegMap.cmpPtLine, RegMap.cmpPtClr, RegMap.cmpPtPin, RegMap.cmpPtApr, RegMap.cmpPtAprAck] ++
  [RegMap.cmpId, RegMap.hqCtrl, RegMap.hqStat, RegMap.hqBarBind, RegMap.lcuState, RegMap.lcuSectSel, RegMap.lcuSect, RegMap.lcuSpare, RegMap.lcuUpdStat, RegMap.lcuUpdProg, RegMap.lcuUpdCfg, RegMap.lcuUpdOwner] ++
  [RegMap.authCfg, RegMap.authStat, RegMap.authSessSel, RegMap.authCtxSel, RegMap.authSess, RegMap.authCtx]

/-- The post registers, in the order of their chapters. -/
def RegMap.postRows : List RegRow :=
  [RegMap.svpClampStat, RegMap.svpClampClr, RegMap.svpChDefaults, RegMap.svpHopSel, RegMap.svpHopRing, RegMap.svpHopId, RegMap.svpHopScope, RegMap.svpHopT, RegMap.svpHopDone, RegMap.svpHopCount, RegMap.svpHopSpread, RegMap.svpHopMargin] ++
  [RegMap.svpHopParam, RegMap.svpFoSel, RegMap.svpFoRegion, RegMap.svpFoFree, RegMap.svpFoPart, RegMap.svpFoRaw, RegMap.svpFoStored, RegMap.svpFoBlk0, RegMap.svpFoBlk1, RegMap.svpFoBlk2, RegMap.svpFoWcb, RegMap.svpLsStat] ++
  [RegMap.bwSetSel, RegMap.bwSetStat, RegMap.bwSetLast, RegMap.bwSetWho, RegMap.bwRes, RegMap.svpSwStat, RegMap.svpSwSnapT, RegMap.svpSwDsel, RegMap.svpSwDrec0, RegMap.svpItStat, RegMap.svpItSel, RegMap.svpItPart] ++
  [RegMap.svpItPtr, RegMap.svpItPseq, RegMap.svpItCnt, RegMap.svpItFree, RegMap.svpLsPol0, RegMap.svpLsPol1]

/-- The engine registers, in the order of their chapters. -/
def RegMap.engineRows : List RegRow :=
  [RegMap.qlCtrl, RegMap.qlStatus, RegMap.qlPc, RegMap.qlFault, RegMap.qlFaultT, RegMap.qlBudget, RegMap.qlEvent, RegMap.qlEvmask, RegMap.qlTags, RegMap.qlSp, RegMap.qlMbox, RegMap.qlOwner]

/-- The ring registers, in the order of their chapters. -/
def RegMap.ringRows : List RegRow :=
  [RegMap.hqErBase, RegMap.hqErCfg, RegMap.hqErHead, RegMap.hqErTail, RegMap.hqErStat]

/-- The queue registers, in the order of their chapters. -/
def RegMap.queueRows : List RegRow :=
  [RegMap.hqDb, RegMap.hqQhead, RegMap.hqQstat]

end Sys2Proof.Machine
end

