-- ==== Sys2Proof/Machine/Registers.lean ====
section
/-! DEFINITION. Stored register fields: where a register's value is kept, its value after reset, one field of it, and
what a write stores (R9, R10, R64). `regs` keeps, per register, the exclusive or of the stored value and the reset
value, so that a register at reset is not listed. -/

namespace Sys2Proof.Machine

/-- A register's word after reset (R10). -/
def RegRow.resetWord (r : RegRow) : Nat := (r.fields.map (fun f => f.reset * 2 ^ f.lsb)).sum

/-- BAR0 offset of post p's window (Table HO-1). -/
def postWindow (p : Nat) : Nat := 0x1000000 + p * 0x40000

/-- The key of a port session's own selector. -/
def portKey (path : Path) (off : Nat) : Nat := if path = .port then 2 ^ 32 + off else off

/-- The stored word of a register at a key. -/
def State.regWord (s : State) (r : RegRow) (key : Nat) : Nat := Nat.xor (Tbl.get 0 s.regs key).toNat r.resetWord

def State.setRegWord (s : State) (r : RegRow) (key v : Nat) : State :=
  { s with regs := Tbl.set 0 s.regs key (word (Nat.xor v r.resetWord)) }

/-- `w` bits from bit `lo` of a stored register. -/
def State.regBits (s : State) (r : RegRow) (key lo w : Nat) : Nat := bitsOf (s.regWord r key) lo w

/-- A word with `w` bits from `lo` replaced. -/
def putBits (old lo w v : Nat) : Nat := old - bitsOf old lo w * 2 ^ lo + v % 2 ^ w * 2 ^ lo

/-- The value that a write stores in a field: as written, clamped to the nearest legal value, or 0 (Table SC-5). -/
def RegField.stored (f : RegField) (v : Nat) : Nat :=
  match f.type with
  | .rw => v
  | .rwc => if v < f.low then f.low else if f.high < v then f.high else v
  | _ => 0

/-- The field keeps what is written to it. -/
def RegField.keeps (f : RegField) : Bool := f.type == .rw || f.type == .rwc

/-- The field reports a clamp for this written value (R9, R64). -/
def RegField.clamps (f : RegField) (v : Nat) : Bool :=
  match f.type with
  | .rwc => decide (v < f.low ∨ f.high < v)
  | .rsv => decide (v ≠ 0)
  | _ => false

/-- The bits [lo, lo + n) of a register that an access writes. -/
def RegField.covered (f : RegField) (lo n : Nat) : Bool := decide (lo < f.lsb + f.width ∧ f.lsb < lo + n)

/-- The value written to a field by an access that covers bits [lo, lo + n) with `v`; bits it does not cover keep
the stored value (assumption 14). -/
def RegField.written (f : RegField) (old lo n v : Nat) : Nat :=
  let w := putBits old lo n v
  bitsOf w f.lsb f.width

/-- One register written over bits [lo, lo + n): every field stored as its type says; each clamp logged and reported
(R9, R64, R66). -/
def State.writeFields (s : State) (w : Writer) (r : RegRow) (key lo n v : Nat) : State :=
  let old := s.regWord r key
  let hit := r.fields.filter (fun f => f.covered lo n)
  let new := hit.foldl (fun a f => if f.keeps then putBits a f.lsb f.width (f.stored (f.written old lo n v)) else a) old
  hit.foldl (fun t f =>
    let x := f.written old lo n v
    if f.clamps x then t.clampOne w f.lsb x (f.stored x) else t) (s.setRegWord r key new)

/-! ### Settings that other rules use -/

/-- LEAD_NS of an issuer: post p, or the Compass (R93). -/
def State.defLead (s : State) : Option Nat → Nat
  | some p => s.regBits RegMap.svpChDefaults (postWindow p + 0x100) 0 20
  | none => s.regBits RegMap.cmpChDefaults 0x10500 0 20

/-- DEADLINE_US of an issuer. -/
def State.defDeadline (s : State) : Option Nat → Nat
  | some p => s.regBits RegMap.svpChDefaults (postWindow p + 0x100) 32 14
  | none => s.regBits RegMap.cmpChDefaults 0x10500 32 14

/-- FREEZE of CMP_CH_DEFAULTS: the freeze set of units in no partition (R113). -/
def State.defFreeze (s : State) : Nat := s.regBits RegMap.cmpChDefaults 0x10500 48 6

/-- The merge window W in ns (R203). -/
def State.mergeWindow (s : State) : Nat := 1000 * s.regBits RegMap.cmpCaCfg 0x10C00 0 10

/-- Class c is selected by FAULTN_MASK (R207). -/
def State.faultnClass (s : State) (c : Nat) : Bool := bitAt (s.regWord RegMap.cmpCaCfg 0x10C00) (16 + c)

/-- TO_FUNC: the function that software selects for TRIG_OUT (R318). -/
def State.toFunc (s : State) : Nat := s.regBits RegMap.cmpPtCfg 0x11200 24 2

/-- The auto-wake bit of post p (R42). -/
def State.autoWake (s : State) (p : Nat) : Bool :=
  bitAt (s.regWord RegMap.cmpAutowake (0x10140 + 4 * (p / 32))) (p % 32)

/-- The lone-survey policy of cluster c of post p: 0 HALT_FOLIO, 1 HALT, 2 RUN (R221). -/
def State.lonePolicy (s : State) (p c : Nat) : Nat :=
  if c < 32 then s.regBits RegMap.svpLsPol0 (postWindow p + 0x500) (2 * c) 2
  else s.regBits RegMap.svpLsPol1 (postWindow p + 0x508) (2 * c - 64) 2

/-- The lone-survey policy of a cluster written by the Compass (R221, R395). -/
def State.setLonePolicy (s : State) (p c v : Nat) : State :=
  if c < 32 then
    let k := postWindow p + 0x500
    s.setRegWord RegMap.svpLsPol0 k (putBits (s.regWord RegMap.svpLsPol0 k) (2 * c) 2 v)
  else
    let k := postWindow p + 0x508
    s.setRegWord RegMap.svpLsPol1 k (putBits (s.regWord RegMap.svpLsPol1 k) (2 * c - 64) 2 v)

end Sys2Proof.Machine
end

