-- ==== Sys2Proof/Machine/HaltOps.lean ====
section
/-! DEFINITION. Halt operations (chapter 04): meridian copies, the check and acceptance of a request (R92 to R95),
what a core tap does with it (R97 to R122), class instances (R112 to R115) and a HOP's status (R121). -/

namespace Sys2Proof.Machine

/-! ### Meridian copies (R28 to R33) -/

/-- The copy of a tap, station or post: its own when it differs from its die's, the master for the Compass. -/
def State.copy (s : State) (u : Uno) : Copy :=
  match Tbl.get none s.copies u with
  | some c => c
  | none => match dieOf s.pkg.member u with
    | some d => (s.die d).copy
    | none => { valid := true }

/-- What a valid copy reads now. -/
def State.copyNow (s : State) (u : Uno) : Option Nat :=
  if (s.copy u).valid then some ((s.now : Int) + (s.copy u).skew).toNat else none

/-- What an issuer reads at acceptance: its copy, or the master through the active Compass (R97). -/
def State.issuerNow (s : State) : Option Nat → Option Nat
  | none => some s.now
  | some p =>
    match s.copyNow (halfUno p) with
    | some t => some t
    | none => if (s.post p).lone || s.pkg.bothDead then none else some s.now

/-! ### Requests (R93 to R95, R285) -/

/-- A halt request: the parameter word is that of R285. `who` is the session behind it; `hold` a hold class given by
a set or a policy, whose access was judged when it was set (R94). -/
structure HopReq where
  kind  : HopKind
  imm   : Bool
  scope : Uno
  param : Nat
  who   : Option Nat
  hold  : Option Bool

def HopReq.steps (q : HopReq) : Nat := bitsOf q.param 48 16
def HopReq.deadline (q : HopReq) : Nat := bitsOf q.param 32 14
def HopReq.classes (q : HopReq) : Nat := bitsOf q.param 26 6
def HopReq.lead (q : HopReq) : Nat := bitsOf q.param 0 20

/-- The capability bit of a kind (R95 step 3). -/
def HopKind.capBit : HopKind → Nat
  | .halt => 0
  | .step => 1
  | .resume => 2
  | .freeze => 3
  | .thaw => 3

/-- KIND as Table CH-12 codes it. -/
def HopKind.code : HopKind → Nat
  | .halt => 1
  | .step => 2
  | .resume => 3
  | .freeze => 4
  | .thaw => 5

/-- The order of operations with equal target times (R122). -/
def HopKind.rank : HopKind → Nat
  | .halt => 0
  | .freeze => 1
  | .thaw => 2
  | .step => 3
  | .resume => 4

/-- Every field of the parameter word is legal (Table CH-1, R285). -/
def HopReq.legal (q : HopReq) : Bool :=
  bitsOf q.param 46 2 == 0 && bitsOf q.param 20 6 == 0 &&
  (q.lead == 0 || (decide (128 ≤ q.lead ∧ q.lead ≤ 1000000) && !q.imm)) &&
  decide (q.deadline ≤ 10000) &&
  (match q.kind with
   | .step => decide (q.steps ≠ 0 ∧ q.classes = 0)
   | .resume => decide (q.steps = 0 ∧ q.classes = 0)
   | .freeze | .thaw => decide (q.steps = 0 ∧ q.classes ≠ 0)
   | .halt => decide (q.steps = 0))

/-! ### Class instances (R112, R113) -/

/-- The key of a class instance. -/
def instKey (cls : Nat) (u : Uno) : Nat := cls * 0x1000000 + u

/-- The objects bound to a context. -/
def State.objsOf (s : State) (c : Ctx) : List Uno :=
  if c = 0 then ((rangeFrom 0 s.pkg.member.posts).flatMap (fun p => rangeFrom (objUno p 0) 1024)).filter
    (fun o => s.ctxOf o == 0)
  else (s.watch.objs.filter (fun e => e.2.ctx == c)).map (·.1)

/-- The instances that act on a core: its inkwell instance, its cluster's DMA engines, and the host queues, timers,
watchdogs and objects of its partition (Table UT-2, R112). -/
def State.coreInsts (s : State) (classes : Nat) (u : Uno) : List Nat :=
  let cl := parentOf s.pkg.member u
  let part := ((s.partitionOf cl).map (·.1)).getD 0
  (if bitAt classes 0 then [instKey 0 cl] else []) ++ (if bitAt classes 1 then [instKey 1 part] else []) ++
  (if bitAt classes 2 then [instKey 2 part] else []) ++ (if bitAt classes 3 then [instKey 3 part] else []) ++
  (if bitAt classes 4 then (s.objsOf (s.ctxOf cl)).map (instKey 4) else []) ++
  (if bitAt classes 5 then [instKey 5 u] else [])

/-- The instances of units beside the cores, each under the classes of its own context: the objects in scope, and the
host-interface block, which serves context 0 (R112, R113). -/
def State.unitInsts (s : State) (classes : Ctx → Nat) (v : Uno) : List Nat :=
  ((s.objsIn v).filter (fun o => bitAt (classes (s.ctxOf o)) 4)).map (instKey 4) ++
  (if bitAt (classes 0) 1 && (expand s 17 v).contains 0x3000 then [instKey 1 0] else [])

/-- The freeze classes that a HALT applies to what a context's partition holds: FREEZE_SEL, else the partition's freeze
set, else the FREEZE field of CMP_CH_DEFAULTS (R113). -/
def State.freezeSel (s : State) (sel : Nat) (c : Ctx) : Nat :=
  if sel ≠ 0 then sel else if c = 0 then s.defFreeze else ((s.partOfCtx c).map (·.2.freezeSet)).getD s.defFreeze

/-- The freeze classes that a HALT applies at a core (R113). -/
def State.haltClasses (s : State) (sel : Nat) (u : Uno) : Nat :=
  if sel ≠ 0 then sel
  else ((s.partitionOf (parentOf s.pkg.member u)).map (·.2.freezeSet)).getD s.defFreeze

/-- Every class instance that a HOP acts on, each once (R112 to R117). Class 6 is the HALT hold of an object (R96). -/
def State.hopInsts (s : State) (q : HopReq) : List Nat :=
  let cores := s.coresIn q.scope
  match q.kind with
  | .step => []
  | .halt => (cores.flatMap (fun u => s.coreInsts (s.haltClasses q.classes u) u) ++
      s.unitInsts (s.freezeSel q.classes) q.scope ++ (s.objsIn q.scope).map (instKey 6)).eraseDups
  | .resume => (cores.flatMap (s.coreInsts 0x3F) ++ s.unitInsts (fun _ => 0x3F) q.scope ++
      (s.objsIn q.scope).map (instKey 6)).eraseDups
  | .freeze | .thaw => (cores.flatMap (s.coreInsts q.classes) ++ s.unitInsts (fun _ => q.classes) q.scope).eraseDups

/-! ### Contexts, access and the checks (R94, R95) -/

/-- The objects that a scope names itself, or by their bank: also those that no partition owns add their context. -/
def State.objsNamed (s : State) (v : Uno) : List Uno :=
  (expand s 17 v).flatMap (fun u => match kindOf s.pkg.member u with
    | .obj => [u]
    | .bank => rangeFrom (objUno (u - 0x3300) 0) 1024
    | _ => [])

/-- The host queues of context 0 are among a request's class instances: those of the host-interface block (R95 step 4). -/
def State.hopHost (s : State) (q : HopReq) : Bool :=
  (match q.kind with
   | .step => false
   | .resume => true
   | .halt => bitAt (s.freezeSel q.classes 0) 1
   | .freeze | .thaw => bitAt q.classes 1) && (expand s 17 q.scope).contains 0x3000

/-- Contexts in scope: of each core, object and class instance that the HOP acts on; an object that no partition owns
counts where the scope names it or its bank. 0 when there is none (R95 step 4; assumption 16). -/
def State.hopCtxs (s : State) (q : HopReq) : List Ctx :=
  let objs : List Ctx := (s.watch.objs.filter (fun (e : Nat × SyncObj) => s.inScope q.scope e.1 && e.2.ctx != 0)).map
    (fun (e : Nat × SyncObj) => e.2.ctx)
  let cs : List Ctx := (s.coresIn q.scope).map s.ctxOf ++ objs ++ (s.objsNamed q.scope).map s.ctxOf ++
    (if s.hopHost q then [0] else [])
  if cs.isEmpty then [0] else cs.eraseDups

/-- The session holds the access of Table CH-7 on one context. -/
def State.mayHop (s : State) (who : Option Nat) (k : HopKind) (c : Ctx) : Bool :=
  (s.life.state != .endOfLife || s.isAnalysis who) &&
  (s.levelOn who c == 2 || (k != .step && s.evictOn who c))

/-- Hold class PLATFORM: BLANK, TEST or a maker level, or a session that acts with platform rights on some context in
scope; one that holds FULL on every tenant context in scope acts at FULL, class CONTEXT (R94, R324, Table CH-7). -/
def State.holdClass (s : State) (q : HopReq) : Bool :=
  q.hold.getD (s.openState || s.isMaker q.who ||
    (s.hasPlatform q.who && (s.hopCtxs q).any (fun c => c == 0 || s.levelOn q.who c != 2)))

/-- Two scopes share a physical unit. -/
def State.overlap (s : State) (a b : Uno) : Bool :=
  (expand s 17 a).any (fun x => (expand s 17 b).any (fun y =>
    (ancestors s.pkg.member x).contains y || (ancestors s.pkg.member y).contains x))

/-- A running dump job captures a unit in scope: one of its scope, or for a lone folio, whose scope is the half, one of its
context's clusters (R95 step 8, R160). -/
def State.captures (s : State) (v : Uno) : Bool :=
  s.folios.jobs.any (fun e => match e.2 with
    | some j => (j.state == .capturing || j.state == .ending) &&
        (if j.lone then (j.segs.take j.planned).any (fun g => s.overlap v g.uno) else s.overlap v j.scope)
    | none => false)

/-- The issuer's byte of a HOP ID (R92). -/
def issuerByte : Option Nat → Nat
  | some p => p
  | none => 0x80

/-- A HOP holds an action place, which counts in its stead (R139). -/
def Hop.placed (h : Hop) : Bool :=
  match h.origin with
  | .chain _ _ => true
  | _ => false

/-- The post in whose name chains of half p issue: the one that serves it, or its own (R139, Table BW-10). -/
def State.chainIssuer (s : State) (p : Nat) : Nat := (s.server p).getD p

/-- The action places that post q holds: those of its own half, and of one that it has adopted (R139, Table BW-10). -/
def State.placesOf (s : State) (q : Nat) : Nat :=
  (s.places.filter (fun e => s.chainIssuer (e.1 / 16) == q && e.2.isSome)).length

/-- HOPs of an issuer that are not complete, each reserved action place of a post counting as one (R92, R139). -/
def State.hopsPending (s : State) (issuer : Option Nat) : Nat :=
  (s.hops.filter (fun e => match e.2 with
    | some h => h.status == 1 && h.id.toNat / 256 == issuerByte issuer && !h.placed
    | none => false)).length +
  (match issuer with
   | some p => s.placesOf p
   | none => 0)

/-- The checks of R95 in order. -/
def State.hopCheck (s : State) (issuer : Option Nat) (q : HopReq) : Option Nat :=
  firstFail [
    (s.present q.scope, Status.unitAbsent),
    (!s.life.lockdown, Status.lockdown),
    (s.capable q.scope q.kind.capBit && (!q.imm || s.capable q.scope 10), Status.notCapable),
    (q.hold.isSome || (s.hopCtxs q).all (s.mayHop q.who q.kind), Status.unitDenied),
    (q.legal, Status.haltParam),
    (q.kind != .step || s.haltedUnit q.scope, Status.notHalted),
    (q.kind != .step || s.holdClass q || (s.coresIn q.scope).all (fun u => !(s.core u).holdP),
      Status.heldByPlatform),
    ((q.kind != .step && q.kind != .resume) || !s.captures q.scope, Status.captureBusy),
    (decide (s.hopsPending issuer < 16), Status.hopBusy)]

/-! ### Acceptance (R92, R97) -/

/-- The HOP of a serial number. -/
def State.hop (s : State) (n : Nat) : Option Hop := Tbl.get none s.hops n

def State.setHop (s : State) (n : Nat) (h : Hop) : State := { s with hops := Tbl.set none s.hops n (some h) }

/-- A request that waits until its issuer can read its copy or the master, or, in lone survey, until a Compass is active
(R97, Table CH-7; assumption 156). -/
def State.hopWaits (s : State) (issuer : Option Nat) (k : HopKind) : Bool :=
  k != .halt && ((s.issuerNow issuer).isNone || (k != .freeze && (issuer.map (fun p => (s.post p).lone)).getD false))

/-- Does an immediate halt replace this request: a HALT of an issuer that can read no meridian (R97). -/
def State.hopImm (s : State) (issuer : Option Nat) (q : HopReq) : Bool :=
  q.imm || (q.kind == .halt && (s.issuerNow issuer).isNone)

/-- An accepted HOP: its ID, target time and defaults (R92, R93, R97). The T of an immediate halt whose issuer can read
neither its copy nor the master is the master's count, which the spec does not say (DESIGN CHOICE, assumption 157). -/
def State.newHop (s : State) (issuer : Option Nat) (q : HopReq) (mode : HopMode) (origin : HopOrigin) : Hop :=
  let b := issuerByte issuer
  let lead := if mode = .contour then (if q.lead = 0 then s.defLead issuer else q.lead) else 0
  let insts := s.hopInsts q
  { id := BitVec.ofNat 16 (b * 256 + Tbl.get 0 s.hopSeq b)
    kind := q.kind
    mode := mode
    platform := s.holdClass q
    scope := q.scope
    cores := s.coresIn q.scope
    insts := insts
    iwait := insts
    ctx := match s.hopCtxs q with
      | [c] => c
      | _ => 0
    lead := lead
    deadline := if q.deadline = 0 then s.defDeadline issuer else q.deadline
    steps := q.steps
    classes := q.classes
    t := word ((s.issuerNow issuer).getD s.now + lead)
    origin := origin }

/-- A request that has passed its checks: the HOP stands under the next serial number (R92). The issuer's sequence
number wraps from 255 to 0. -/
def State.acceptHop (s : State) (issuer : Option Nat) (q : HopReq) (mode : HopMode) (origin : HopOrigin) :
    State × Nat :=
  let h := s.newHop issuer q mode origin
  let b := issuerByte issuer
  let n := s.hopNext
  ({ s.setHop n h with hopNext := n + 1, hopSeq := Tbl.set 0 s.hopSeq b ((Tbl.get 0 s.hopSeq b + 1) % 256) }, n)

/-- A request judged and accepted, or its refusal. -/
def State.issueHop (s : State) (issuer : Option Nat) (q : HopReq) (origin : HopOrigin) : State × Except Nat Nat :=
  match s.hopCheck issuer q with
  | some st => (s, .error st)
  | none =>
    let r := s.acceptHop issuer q (if s.hopImm issuer q then .urgent else .contour) origin
    (r.1, .ok r.2)

/-! ### Result codes and records (R103, R121, R125) -/

/-- Codes that Table CH-2 counts as CONFIRMED. -/
def codeConfirmed (c : Nat) : Bool := decide (c ≤ 7) || c == 9 || c == 10 || c == 13

/-- Codes counted in LATE: LATE, SKEWED, UNTIMED and UNCHECKED. -/
def codeLate (c : Nat) : Bool := c == 2 || c == 3 || c == 4 || c == 7

/-- Codes that make a HOP PARTIAL (R121). -/
def codePartial (c : Nat) : Bool := c == 9 || c == 10 || c == 11 || c == 12

/-- What a HOP has come to at a core. -/
def Hop.at (h : Hop) (u : Uno) : HopCore := Tbl.get {} h.codes u

def Hop.put (h : Hop) (u : Uno) (v : HopCore) : Hop := { h with codes := Tbl.set {} h.codes u v }

/-- The status of some of a HOP's cores (R121). -/
def Hop.statusOf (h : Hop) (us : List Uno) : Nat :=
  if us.any (fun u => (h.at u).code == 8 || decide ((h.at u).phase < 3)) then 4
  else if us.any (fun u => codePartial (h.at u).code) then 5
  else if us.any (fun u => codeLate (h.at u).code) then 3
  else 2

/-- The cores of post p's half in a HOP's scope. -/
def hopHalf (m : Member) (h : Hop) (p : Nat) : List Uno := h.cores.filter (fun u => postOf m u == some p)

/-- A core takes its result code: S − T (or start − T_r) for MAX_DELTA, and phase 3 when it confirms at once, 2 when
it has yet to settle. -/
def State.hopCode (s : State) (n : Nat) (u : Uno) (code phase : Nat) (delta : Nat) : State :=
  match s.hop n with
  | none => s
  | some h =>
    let h1 := h.put u { code := code, delta := delta, order := h.confirms, phase := phase }
    s.setHop n { h1 with confirms := h.confirms + 1 }

/-- Post p's ring of HOP records. -/
def State.hopRing (s : State) (p : Nat) : HopRing := Tbl.get {} s.rings p

def State.setHopRing (s : State) (p : Nat) (v : HopRing) : State := { s with rings := Tbl.set {} s.rings p v }

/-- A record is PENDING: its half has no status yet. -/
def State.recPending (s : State) (p : Nat) (r : Option (Nat × Bool)) : Bool :=
  match r with
  | none => false
  | some (n, adopted) => match s.hop n with
    | none => false
    | some h => (Tbl.get none h.halves (if adopted then p ^^^ 1 else p)).isNone && h.status == 1

/-- The post whose ring takes a half's record, and whether it is the sibling's (R125, Table CH-6). -/
def State.recordPost (s : State) (p : Nat) : Option (Nat × Bool) :=
  (s.server p).map (fun q => (q, q != p))

/-- The HOP reaches a half for the first time: a record is written, over the oldest completed one when the ring is
full of records; with 16 PENDING, UNRECORDED counts it (R125). -/
def State.writeRecord (s : State) (p n : Nat) : State :=
  match s.recordPost p with
  | none => s
  | some (q, adopted) =>
    let g := s.hopRing q
    if g.recs.any (fun e => e.2 == some (n, adopted)) then s
    else
      let slot := match firstBelow (fun i => (Tbl.get none g.recs i).isNone) 16 with
        | some i => some i
        | none => g.order.find? (fun i => !s.recPending q (Tbl.get none g.recs i))
      match slot with
      | none => s.setHopRing q { g with unrecorded := sat16 g.unrecorded }
      | some i => s.setHopRing q { g with recs := Tbl.set none g.recs i (some (n, adopted)),
                                          order := g.order.erase i ++ [i], newest := i }

/-! ### Core taps (R97 to R122) -/

/-- Pending operations in order of target time, and of kind at equal times (R122). -/
def insertOp (o : TimedOp) : List TimedOp → List TimedOp
  | [] => [o]
  | x :: r => if o.t.toNat < x.t.toNat ∨ (o.t = x.t ∧ o.kind.rank < x.kind.rank) then o :: x :: r else x :: insertOp o r

/-- A HALT's hold bit added at a core (R114). -/
def Core.hold (c : Core) (platform : Bool) : Core :=
  if platform then { c with holdP := true } else { c with holdC := true }

/-- Hold bits that a RESUME or THAW of a class leaves (R114). -/
def Core.unhold (c : Core) (platform : Bool) : Core :=
  if platform then { c with holdP := false, holdC := false } else { c with holdC := false }

/-- HALT n takes effect at a core: its hold bit, and its part in what the routers of its scope do (R106, R114). -/
def Core.halt (c : Core) (n : Nat) (platform : Bool) : Core :=
  { c.hold platform with stops := c.stops.filter (· != n) ++ [n] }

/-- No hold bit is set. -/
def Core.free (c : Core) : Bool := !c.holdP && !c.holdC

/-- What a core tap has queued: an earlier or equal-time HALT with no STEP or RESUME between it and a HALT at `t`, before
which operations of an earlier time and HALTs of its own apply (R122). -/
def haltCovers (q : List TimedOp) (t : Time) : Bool :=
  let before := q.filter (fun o => decide (o.t.toNat < t.toNat) || (o.t == t && o.kind == .halt))
  match (before.filter (fun o => o.kind != .freeze && o.kind != .thaw)).getLast? with
  | none => false
  | some o => o.kind == .halt

/-- The result code of a core that stops or starts by its copy, at or past the target time. -/
def State.timedCode (s : State) (u : Uno) (onTime : Nat) : Nat :=
  if (s.copy u).oob then 3 else onTime

/-- S − T of a stop under HOP n (Table CH-17); an invalid copy's S counts nothing. -/
def State.sinceT (s : State) (n : Nat) (sAt : Time) : Nat :=
  match s.hop n with
  | none => 0
  | some h => if sAt = BitVec.allOnes 64 then 0 else sAt.toNat - h.t.toNat

/-- A core stops now under HOP `n` at stop meridian `sAt` with a result code; a STEP that it runs ends there, and the
STEP takes STOPPED (R97, R116, Table CH-5). The cut record keeps the operation (R163). -/
def State.stopCore (s : State) (n : Nat) (u : Uno) (sAt : Time) (code : Nat) : State :=
  match s.hop n with
  | none => s
  | some h =>
    let c := s.core u
    match c.run with
    | .stopped =>
      let c' := c.halt n h.platform
      (s.setCore u { c' with cutCode := 1, cutT := h.t }).hopCode n u 1 (if c.settled then 3 else 2) 0
    | r =>
      let s1 := match r with
        | .stepping k => s.hopCode k u 0 2 (s.sinceT k sAt)
        | _ => s
      let c' := c.halt n h.platform
      (s1.setCore u { c' with run := .stopped, settled := false, s := sAt, cutCode := code, cutS := sAt, cutT := h.t }).hopCode
        n u code 2 (s.sinceT n sAt)

/-- A result that needs no action of the core: confirmed at once. -/
def State.confirmCore (s : State) (n : Nat) (u : Uno) (code : Nat) : State := s.hopCode n u code 3 0

/-- The latest pending operation that is not a HALT. -/
def latestOther (q : List TimedOp) : Option TimedOp := (q.filter (fun o => o.kind != .halt)).getLast?

/-- A HALT enters a core tap's queue (Table CH-5). -/
def State.queueHalt (s : State) (u : Uno) (o : TimedOp) : State :=
  let c := s.core u
  if haltCovers c.queue o.t then s.setCore u { c with absorbed := insertOp o c.absorbed }
  else if c.queue.length < 4 then s.setCore u { c with queue := insertOp o c.queue }
  else match latestOther c.queue with
    | some x => (s.setCore u { c with queue := insertOp o (c.queue.erase x) }).hopCode x.hop u 11 3 0
    | none =>
      let later := c.queue.filter (fun x => decide (o.t.toNat < x.t.toNat))
      s.setCore u { c with queue := insertOp o (c.queue.filter (fun x => decide (x.t.toNat ≤ o.t.toNat))),
                           absorbed := later.foldl (fun a x => insertOp x a) c.absorbed }

/-- A HALT_LATE report of a core tap on a HOP, under the context of the HOP's scope (R120). -/
def State.hopLate (s : State) (n : Nat) (u : Uno) (code : Nat) : State :=
  match s.hop n with
  | none => s
  | some h => s.haltLate u code h.id h.ctx

/-- A HALT_LATE report of the issuer on a core, which the half's post passes on as its half (R119, R120; assumption 158). -/
def State.postLate (s : State) (n : Nat) (u : Uno) (code : Nat) : State :=
  match s.hop n with
  | none => s
  | some h => s.haltLate (((postOf s.pkg.member u).map halfUno).getD u) code h.id h.ctx

/-- That report, of a core that the HOP itself stops (R100, R101). -/
def State.hopLateIf (s : State) (b : Bool) (n : Nat) (u : Uno) (code : Nat) : State :=
  if b then s.hopLate n u code else s

/-- The code of a stop: UNCHECKED for a lone-survey policy (R221), and for a chain's halt while both Compasses are lost
(Tables CH-2 and BW-10). -/
def State.loneCode (s : State) (h : Hop) (code : Nat) : Nat :=
  match h.origin with
  | .lone _ _ => 7
  | .chain _ _ => if s.pkg.bothDead then 7 else code
  | _ => code

/-- The HOP is that of the PRECISE chain that has stopped the core (R140). -/
def Core.preciseFor (c : Core) (h : Hop) : Bool :=
  match h.origin with
  | .chain p pl => c.precise == some (p * 16 + pl)
  | _ => false

/-- A HALT request reaches a core tap (R97, R100 to R105, R122). A core that a PRECISE chain has stopped takes
IMMEDIATE under the chain's HOP (R140). A copy out of bound or invalid gives SKEWED or UNTIMED with COPY_SKEW under both
modes (R101, R105); of a stop that is late and out of bound the code is SKEWED and both are reported (DESIGN CHOICE,
assumption 155). -/
def State.tapHalt (s : State) (n : Nat) (h : Hop) (u : Uno) : State :=
  let c := s.core u
  let stops := c.run != .stopped
  if c.preciseFor h then
    let c' := c.halt n h.platform
    let code := s.loneCode h 6
    (s.setCore u { c' with precise := none, cutCode := code, cutS := c.s, cutT := h.t }).hopCode n u code
      (if c.settled then 3 else 2) 0
  else if c.asleep then
    let c' := c.halt n h.platform
    ((s.setCore u { c' with run := .stopped, settled := true, s := c.sleepT, cutCode := 5, cutS := c.sleepT,
                            cutT := h.t })).confirmCore n u 5
  else match s.copyNow u with
    | none => (s.stopCore n u (BitVec.allOnes 64) (s.loneCode h 4)).hopLateIf stops n u 2
    | some t =>
      if h.mode != .contour then
        (s.stopCore n u (word t) (s.loneCode h (s.timedCode u 6))).hopLateIf (stops && (s.copy u).oob) n u 2
      else if h.t.toNat ≤ t + 2 then
        ((s.stopCore n u (word t) (s.loneCode h (s.timedCode u 2))).hopLateIf stops n u 1).hopLateIf
          (stops && (s.copy u).oob) n u 2
      else s.queueHalt u { hop := n, kind := .halt, t := h.t }

/-- A STEP, RESUME, FREEZE or THAW request reaches a core tap: queued, or TAP_FULL (R115 to R117, R122). It is late when
its target time has passed. -/
def State.tapTimed (s : State) (n : Nat) (h : Hop) (u : Uno) : State :=
  let c := s.core u
  if c.queue.length < 4 then
    let late := match s.copyNow u with
      | some t => decide (h.t.toNat < t)
      | none => false
    s.setCore u { c with queue := insertOp { hop := n, kind := h.kind, t := h.t, late := late } c.queue }
  else (s.confirmCore n u 12).hopLate n u 5

/-- A HOP request reaches a core tap in its scope; one that it holds already changes nothing. -/
def State.tapReceive (s : State) (n : Nat) (u : Uno) : State :=
  match s.hop n with
  | none => s
  | some h =>
    if !h.cores.contains u || (h.at u).phase != 0 ||
        (s.core u).queue.any (fun o => o.hop == n) || (s.core u).absorbed.any (fun o => o.hop == n) then s
    else match h.kind with
      | .halt => s.tapHalt n h u
      | .step | .resume | .freeze | .thaw => s.tapTimed n h u

/-- The code of a core at which a FREEZE or THAW has taken effect in time: Table CH-2 names none for it. R121 makes the
HOP OK, so it is one of the codes that leave it so; which one is a free value (assumption 159). -/
def appliedCode (n : Nat) (u : Uno) : Nat := ([0, 1, 6, 13] : List Nat).getD (Config.freezeCode n u % 4) 0

/-- A core tap takes a FREEZE or THAW at its turn: the operation leaves the queue, the run state stays (R115, R122). -/
def State.tapApplies (s : State) (n : Nat) (u : Uno) : State :=
  let c := s.core u
  match c.queue.head? with
  | none => s
  | some o =>
    if o.hop != n then s
    else
      let code := match s.copyNow u with
        | none => 4
        | some _ => s.timedCode u (if o.late then 2 else appliedCode n u)
      (s.setCore u { c with queue := c.queue.drop 1 }).confirmCore n u code

/-- The queue of a core tap without a HOP's operation. -/
def Core.unqueue (c : Core) (n : Nat) : Core :=
  { c with queue := c.queue.filter (fun o => o.hop != n), absorbed := c.absorbed.filter (fun o => o.hop != n) }

/-! ### Instances (R113 to R115) -/

/-- A hold bit set on an instance. -/
def Hold.put (h : Hold) (platform : Bool) : Hold :=
  if platform then { h with platform := true } else { h with context := true }

/-- Hold bits that a release of a class leaves (R114). -/
def Hold.drop (h : Hold) (platform : Bool) : Hold :=
  if platform then { h with platform := false, context := false } else { h with context := false }

/-- The unit whose tap or station acts on an instance: a cluster, a bank, or the host-interface block (Table CH-3). -/
def actingUnit (m : Member) (key : Nat) (cluster : Uno) : Uno :=
  let u := key % 0x1000000
  match key / 0x1000000 with
  | 0 => u
  | 1 => 0x3000
  | 4 | 6 => parentOf m u
  | 5 => parentOf m u
  | _ => cluster

/-- The instances of a HOP that a unit's tap or station has still to act on. Timers and watchdogs of a partition answer any of
its stations in scope. -/
def State.actedBy (s : State) (h : Hop) (u : Uno) : List Nat :=
  h.iwait.filter (fun k => actingUnit s.pkg.member k u == u &&
    (k / 0x1000000 != 2 && k / 0x1000000 != 3 || kindOf s.pkg.member u == .cluster))

/-- A unit's taps freeze their instances of a HOP: the hold bit of its class set on each (R113, R114). -/
def State.freezeAt (s : State) (n : Nat) (u : Uno) : State :=
  match s.hop n with
  | none => s
  | some h =>
    let ks := s.actedBy h u
    let s1 := ks.foldl (fun t k => t.setInst (k / 0x1000000) (k % 0x1000000)
      ((t.inst (k / 0x1000000) (k % 0x1000000)).put h.platform)) s
    (s.flaggedFrom s1).setHop n { h with iwait := h.iwait.filter (fun k => !ks.contains k) }

/-- A unit's taps release instances of a HOP: the bits of its class cleared (R114, R115, R117). -/
def State.releaseAt (s : State) (n : Nat) (ks : List Nat) : State :=
  match s.hop n with
  | none => s
  | some h =>
    let s1 := ks.foldl (fun t k => t.setInst (k / 0x1000000) (k % 0x1000000)
      ((t.inst (k / 0x1000000) (k % 0x1000000)).drop h.platform)) s
    (s.flaggedFrom s1).setHop n { h with iwait := h.iwait.filter (fun k => !ks.contains k) }

/-! ### Routers (R106, R107, R420) -/

/-- A router port's buffers, keyed by router and PORT. -/
def State.rport (s : State) (router port : Nat) : RPort := Tbl.get {} s.rports (router * 256 + port)

def State.setRport (s : State) (router port : Nat) (v : RPort) : State :=
  { s with rports := Tbl.set {} s.rports (router * 256 + port) v }

/-- The router ports that deliver to a core: port k of its cluster's router, on both networks (R420). -/
def corePorts (m : Member) (u : Uno) : List (Nat × Nat) :=
  let cl := parentOf m u
  let router := clusterRouter cl
  [(router, (u - 0x10000) % 16), (router, 128 + (u - 0x10000) % 16)]

/-- The ports by which a cluster's router delivers to the DMA engines and the station beside a core (R420). -/
def unitPorts (m : Member) (u : Uno) : List (Nat × Nat) :=
  match corePorts m u with
  | (router, _) :: _ => [(router, 16), (router, 17), (router, 144), (router, 145)]
  | [] => []

/-- A port's buffers without the flits for a core. -/
def RPort.without (m : Member) (u : Uno) (r : RPort) : RPort :=
  { margin := r.margin.filter (fun f => coreOf m f.dst != some u)
    inPlace := r.inPlace.filter (fun f => coreOf m f.dst != some u) }

/-- The in-scope routers deliver the parked and in-place flits of a core in their original order: those of its own ports
and its cluster's, and what waits for it upstream (R107, R116, R117). -/
def State.deliverParked (s : State) (u : Uno) : State :=
  let own := (corePorts s.pkg.member u ++ unitPorts s.pkg.member u).map (fun e => e.1 * 256 + e.2)
  { s with rports := Tbl.mapVals {} (fun k r => if own.contains k then {} else r.without s.pkg.member u) s.rports }

/-- The clusters whose traffic passes a router: those of its own half; a cluster router carries its own cluster's. -/
def routerClusters (u : Uno) : List Uno :=
  let p := (u - 0x8000) / 128
  let k := (u - 0x8000) % 128
  if k < 40 then [clusterUno p k] else halfClusters p

/-- A boundary queue: its router and destination cluster (R110). -/
def boundKey (router cluster : Nat) : Nat := router * 0x10000 + cluster

def State.bound (s : State) (k : Nat) : Boundary := Tbl.get {} s.bounds k

def State.setBound (s : State) (k : Nat) (v : Boundary) : State := { s with bounds := Tbl.set {} s.bounds k v }

end Sys2Proof.Machine
end

