-- ==== Sys2Proof/Machine/TraceOps.lean ====
section
/-! DEFINITION. The trace path (chapter 09): station queues and drops, funnels, stream parts with their pages, TIME,
LOSS, WRAP and PAD packets, and the serial copy. -/

namespace Sys2Proof.Machine

/-! ### Stations and funnels (R252, R253, Table IT-4) -/

def Loss.queue : BitVec 8 := 1
def Loss.full : BitVec 8 := 2
def Loss.frozen : BitVec 8 := 4
def Loss.gated : BitVec 8 := 8
def Loss.late : BitVec 8 := 16
def Loss.untimed : BitVec 8 := 32
def Loss.wrap : BitVec 8 := 64

/-- The station of a cluster. -/
def State.station (s : State) (cl : Uno) : StationQ := Tbl.get {} s.trace.stations cl

def State.setStation (s : State) (cl : Uno) (v : StationQ) : State :=
  { s with trace := { s.trace with stations := Tbl.set {} s.trace.stations cl v } }

/-- The packet queue of a core's tap. -/
def State.tapQ (s : State) (core : Uno) : StationQ := Tbl.get {} s.trace.taps core

def State.setTapQ (s : State) (core : Uno) (v : StationQ) : State :=
  { s with trace := { s.trace with taps := Tbl.set {} s.trace.taps core v } }

/-- Drops counted together (R253). -/
def Drops.add (a b : Drops) : Drops :=
  { count := sat32 a.count b.count, chans := a.chans ||| b.chans, reasons := a.reasons ||| b.reasons }

/-- One packet dropped, counted with its channel and the reason. -/
def StationQ.drop (q : StationQ) (chan : Nat) (why : BitVec 8) : StationQ :=
  { q with drops := q.drops.add { count := 1, chans := BitVec.ofNat 32 (2 ^ chan), reasons := why } }

/-- A packet dropped at a station. -/
def State.stationDrop (s : State) (cl : Uno) (chan : Nat) (why : BitVec 8) : State :=
  s.setStation cl ((s.station cl).drop chan why)

/-- A packet reaches a station: queued, or dropped and counted (R43, R252). -/
def State.stationPush (s : State) (cl : Uno) (k : Packet) : State :=
  let q := s.station cl
  let p := (postOf s.pkg.member cl).getD 0
  if (s.server p).isNone then s.stationDrop cl k.chan Loss.gated
  else if q.queue.length < 32 then s.setStation cl { q with queue := q.queue ++ [k] }
  else s.stationDrop cl k.chan Loss.queue

/-- A packet enters the queue of a core's tap, which holds 4; with the queue full the tap drops and counts it (Table IT-1). -/
def State.tapPush (s : State) (core : Uno) (k : Packet) : State :=
  let q := s.tapQ core
  s.setTapQ core (if q.queue.length < 4 then { q with queue := q.queue ++ [k] } else q.drop k.chan Loss.queue)

/-- The tap queues move on to their stations, core by core, within the nanoseconds of Table IT-1. -/
def State.drainTaps (s : State) : State :=
  s.trace.taps.foldl (fun t (e : Nat × StationQ) =>
    e.2.queue.foldl (fun r k => r.stationPush (parentOf s.pkg.member e.1) k) (t.setTapQ e.1 { t.tapQ e.1 with queue := [] })) s

/-- The drops that a station has yet to report: its own and those of its cluster's taps (R253). -/
def State.stationDrops (s : State) (cl : Uno) : Drops :=
  (s.clusterCores cl).foldl (fun d u => d.add (s.tapQ u).drops) (s.station cl).drops

/-- A station's report leaves: its counts and its taps' start again (R253). -/
def State.clearDrops (s : State) (cl : Uno) : State :=
  (s.clusterCores cl).foldl (fun t u => t.setTapQ u { t.tapQ u with drops := {} })
    (s.setStation cl { s.station cl with drops := {}, lastReport := some s.pkg.meridian })

/-- The input queue of the funnel that post p serves. -/
def State.funnel (s : State) (p : Nat) : List Packet := Tbl.get [] s.trace.funnels p

def State.setFunnel (s : State) (p : Nat) (v : List Packet) : State :=
  { s with trace := { s.trace with funnels := Tbl.set [] s.trace.funnels p v } }

/-! ### Streams and parts (R259) -/

def State.stream (s : State) (slot : Nat) : Option Stream := Tbl.get none s.trace.streams slot

def State.setStream (s : State) (slot : Nat) (v : Option Stream) : State :=
  { s with trace := { s.trace with streams := Tbl.set none s.trace.streams slot v } }

/-- The key of the part of stream `slot` in the area of post p. -/
def partKey (p slot : Nat) : Nat := p * 512 + slot

def State.tpart (s : State) (p slot : Nat) : TPart := Tbl.get {} s.trace.parts (partKey p slot)

def State.setTpart (s : State) (p slot : Nat) (v : TPart) : State :=
  { s with trace := { s.trace with parts := Tbl.set {} s.trace.parts (partKey p slot) v } }

/-- A part takes packets: feeding, or full in STOP mode. -/
def TPart.live (t : TPart) : Bool := t.state == 2 || t.state == 3

/-- A stream takes the packet (R259). -/
def State.takes (s : State) (x : Stream) (k : Packet) : Bool :=
  (x.anyCtx || x.ctx == k.ctx) && s.inScope x.scope k.uno && x.channels.getLsbD k.chan

/-- The stream slots with a live part in post p's area that take the packet. -/
def State.takers (s : State) (p : Nat) (k : Packet) : List Nat :=
  (s.trace.streams.filter (fun e => match e.2 with
    | some x => (s.tpart p e.1).live && s.takes x k
    | none => false)).map (·.1)

/-- A count added to a part's loss counter (R253, R257). -/
def TPart.lose (t : TPart) (n : Nat) (why : BitVec 8) (upper : Bool) (now : Time) : TPart :=
  { t with lossCount := sat32 t.lossCount n, reasons := t.reasons ||| why, upper := t.upper || upper,
           lossT := some (t.lossT.getD now) }

/-- A packet lost at or below a part, counted exactly (R253). -/
def State.partLose (s : State) (p slot : Nat) (why : BitVec 8) : State :=
  s.setTpart p slot ((s.tpart p slot).lose 1 why false s.pkg.meridian)

/-- A packet enters the funnel of the post that serves half p; with the queue full each part that it matches counts
it (R252, R253). -/
def State.funnelPush (s : State) (p : Nat) (k : Packet) : State :=
  match s.server p with
  | none => s
  | some q =>
    let f := s.funnel q
    if f.length < 256 then s.setFunnel q (f ++ [k])
    else (s.takers p k).foldl (fun t i => t.partLose p i Loss.queue) s

/-! ### Packet words (Tables IT-2, IT-3) -/

def PktType.code : PktType → Nat
  | .mark => 2
  | .data => 3
  | .chainMark => 4
  | .engine => 5

/-- The 16-bit two's complement of a signed difference. -/
def delta16 (d : Int) : Nat := (d % 65536).toNat

/-- The header and payload words of a packet at a DELTA. -/
def Packet.words (k : Packet) (d : Int) : List Word :=
  word (k.type.code + 16 * k.size + 128 * k.chan + 4096 * k.uno + 2 ^ 36 * k.ctx + 2 ^ 48 * delta16 d) ::
    (if k.size = 0 then [] else [k.data])

/-- A TIME packet of half p at a new base (Table IT-3). -/
def timeWords (p : Nat) (pseq : BitVec 28) (base : Time) : List Word :=
  [word (1 + 4096 * halfUno p + 2 ^ 36 * pseq.toNat), base]

/-- A LOSS packet (Table IT-3). -/
def lossWords (p : Nat) (ctx : Ctx) (d : Int) (count : Nat) (upper unknown : Bool) (reasons : BitVec 8) : List Word :=
  [word (6 + 16 * reasons.toNat + 4096 * halfUno p + 2 ^ 36 * ctx + 2 ^ 48 * delta16 d),
   word (count + 2 ^ 32 * bitNat upper + 2 ^ 33 * bitNat unknown)]

/-- A WRAP packet. -/
def wrapWords (p : Nat) : List Word := [word (7 + 4096 * halfUno p), 0]

/-! ### The serial copy (R267) -/

/-- Words of one packet enter the serial queue. -/
def Serial.put (q : Serial) (isTime : Bool) (ws : List Word) : Serial :=
  { q with queue := q.queue ++ (match ws with
             | [] => []
             | w :: r => (isTime, w) :: r.map (fun x => (false, x)))
           sinceTime := if isTime then 0 else q.sinceTime + ws.length
           base := if isTime then ws.getD 1 0 else q.base }

/-- `n` packets that the serial copy loses: counted, and owed to its next LOSS packet (R267). -/
def Serial.lose (q : Serial) (n : Nat) : Serial := { q with lost := sat32 q.lost n, owedLoss := sat32 q.owedLoss n }

/-- The DELTA of a LOSS packet of the serial output at the base that stands there; one too far off to encode takes the
largest (assumption 171). -/
def Serial.delta (q : Serial) (now : Time) : Int := min 32767 ((now.toNat : Int) - q.base.toNat)

/-- A packet of the part is copied: after 256 words without a TIME packet one is inserted; a LOSS packet that is owed
goes first; a packet that does not fit with what goes before it is dropped from the serial copy alone (R267). -/
def Serial.copy (q : Serial) (p : Nat) (pseq : BitVec 28) (base : Time) (ctx : Ctx) (now : Time) (isTime : Bool)
    (ws : List Word) : Serial :=
  let q1 := if !isTime && decide (256 ≤ q.sinceTime) then q.put true (timeWords p pseq base) else q
  let q2 := if 0 < q1.owedLoss
    then { q1.put false (lossWords p ctx (q1.delta now) q1.owedLoss false false Loss.queue) with owedLoss := 0 } else q1
  if q2.queue.length + ws.length ≤ 64 then q2.put isTime ws else q.lose 1

/-- The serial copy of a part's packet, for the stream that holds the serial output. While TO_FUNC is not SERIAL the
serial output drops it (R318). -/
def State.serialCopy (s : State) (slot p : Nat) (x : Stream) (t : TPart) (isTime : Bool) (ws : List Word) : State :=
  if s.trace.serial.slot = some slot then
    let q := s.trace.serial
    let q1 := if s.toFunc = 2 then q.copy p t.wrPseq t.base (if x.anyCtx then 0 else x.ctx) s.pkg.meridian isTime ws
      else q.lose 1
    { s with trace := { s.trace with serial := q1 } }
  else s

/-- The serial output of a new active Compass: the queue is lost, and a TIME packet at the present base of the meridian and
then a LOSS packet with UNKNOWN set resume the output; the next copied packet brings the part's own base again (Table
IT-6, assumption 171). -/
def Serial.resume (q : Serial) (p : Nat) (pseq : BitVec 28) (ctx : Ctx) (now : Time) : Serial :=
  let q0 : Serial := { q with queue := [], mid := false, sent := none, freeT := now, lost := sat32 q.lost q.queue.length }
  let q1 := q0.put true (timeWords p pseq now)
  { q1.put false (lossWords p ctx 0 q.owedLoss false true Loss.queue) with sinceTime := 256, owedLoss := 0 }

/-- A guard cuts the word on the line: it counts lost with the rest of its packet, and the output restarts with 80 idle
bit periods and a TIME packet, the one it sent last (R267, Table PT-12). -/
def Serial.cut (q : Serial) (now : Time) : Serial :=
  if now.toNat < q.freeT.toNat then
    let rest := if q.mid then q.queue.drop 1 else q.queue
    let time := match q.lastTime with
      | [] => []
      | w :: r => (true, w) :: r.map (fun x => (false, x))
    let q1 := { q.lose 1 with sent := none, mid := false, freeT := now }
    if time.length + rest.length ≤ 64 then { q1 with queue := time ++ rest }
    else { q1.lose rest.length with queue := [], sinceTime := 256 }
  else q

/-- A frame bit of a word: a start bit of 0, the 64 data bits from bit 0, a stop bit of 1 (R267). -/
def frameBit (w : Word) (i : Nat) : Bool := if i = 0 then false else if i ≤ 64 then w.getLsbD (i - 1) else true

/-- The level that the serial output gives the line, whose bits last `period` ns; it idles at 1 (R267). -/
def Serial.level (q : Serial) (period : Nat) (now : Nat) : Bool :=
  match q.sent with
  | some w => if now < q.freeT.toNat then frameBit w ((now - q.startT.toNat) / period) else true
  | none => true

/-- The serial bit period in ns: SERIAL_DIV AON cycles of 10 ns (R267, Table SC-4). -/
def State.bitPeriod (s : State) : Nat := 10 * s.regBits RegMap.cmpItCfg 0x11000 48 8

/-- The serial output sends the word at the front of its queue: a word once the frame before it has ended, a TIME packet
once the line has been idle for 80 bit periods (R267). -/
def Serial.send (q : Serial) (period : Nat) (now : Time) : Serial :=
  match q.queue with
  | [] => q
  | (isTime, w) :: r =>
    let due := q.freeT.toNat + (if isTime then 80 * period else 0)
    if now.toNat < due then q
    else { q with
      queue := r
      sent := some w
      startT := now
      freeT := word (now.toNat + 66 * period)
      mid := !q.mid && ([1, 3, 6, 7].contains (w.toNat % 16) || (w.toNat % 16 == 5 && bitsOf w.toNat 4 3 != 0))
      lastTime := if isTime then w :: (r.take 1).map (·.2) else q.lastTime }

/-! ### Pages (R263, R264) -/

/-- Words a page holds. -/
def pageWords : Nat := 512

/-- The page image in HBM with the first `n` bytes of the page being written committed: whole 32-word lines, a partly
filled one filled with zero bytes (R263). -/
def TPart.commit (t : TPart) (n : Nat) : TPart :=
  let lines := (n + 255) / 256 * 32
  let placed := t.words.take (n / 8)
  let old := Tbl.get [] t.image t.wrPage
  { t with wrOff := n
           image := Tbl.set [] t.image t.wrPage (placed ++ List.replicate (lines - placed.length) 0 ++ old.drop lines) }

/-- Words placed in the page being written; full lines are written at once. -/
def TPart.place (t : TPart) (ws : List Word) : TPart :=
  let t1 := { t with words := t.words ++ ws }
  let full := t1.words.length * 8 / 256 * 256
  if t1.wrOff < full then t1.commit full else t1

/-- One packet placed, counted and copied to the serial output; a PAD is not counted. -/
def State.place (s : State) (p slot : Nat) (x : Stream) (isTime pad : Bool) (ws : List Word) : State :=
  let t := (s.tpart p slot).place ws
  let t := if pad then t else { t with packets := sat32 t.packets 1 }
  (s.setTpart p slot t).serialCopy slot p x t isTime ws

/-- The part's next page started with its TIME packet: over a released page, or in OVERWRITE over the oldest unread
one. `none`: every page is unread and the mode is STOP (R264). -/
def State.nextPage (s : State) (p slot : Nat) (x : Stream) (base : Time) : Option State :=
  let t := (s.tpart p slot).commit (8 * (s.tpart p slot).words.length)
  if t.unread < x.pages || x.overwrite then
    let t1 := { t with wrPage := (t.wrPage + 1) % x.pages, wrOff := 0, words := [], wrPseq := t.wrPseq + 1,
                       unread := min x.pages (t.unread + 1), base := base }
    some ((s.setTpart p slot t1).place p slot x true false (timeWords p t1.wrPseq base))
  else none

/-- The part's page has room for `n` words: it pads the last word of a page that a 16-byte packet would cross, and
starts a page where the present one is full (R263). The Bool says that a page was started. -/
def State.room (s : State) (p slot : Nat) (x : Stream) (n : Nat) (base : Time) : Option (State × Bool) :=
  let used := (s.tpart p slot).words.length
  if used + n ≤ pageWords then some (s, false)
  else
    let s1 := if used < pageWords then s.place p slot x false true [0] else s
    (s1.nextPage p slot x base).map (fun t => (t, true))

/-- Signed time since the part's base (R255). -/
def TPart.since (t : TPart) (at_ : Time) : Int := (at_.toNat : Int) - t.base.toNat

/-- A TIME packet that sets a new base inside a page (R255). -/
def State.rebase (s : State) (p slot : Nat) (x : Stream) (base : Time) : Option State :=
  match s.room p slot x 2 base with
  | none => none
  | some (s1, true) => some s1
  | some (s1, false) =>
    let t := { s1.tpart p slot with base := base }
    some ((s1.setTpart p slot t).place p slot x true false (timeWords p t.wrPseq base))

/-- The base brought so near that a packet of time `at_` can be written (R255). -/
def State.near (s : State) (p slot : Nat) (x : Stream) (at_ : Time) : Option State :=
  if 16383 < (s.tpart p slot).since at_ ∨ (s.tpart p slot).since at_ < -32768 then s.rebase p slot x at_ else some s

/-- The LOSS packet of a part whose loss counter is not zero, emitted now; it resets the counter (R257). -/
def State.lossPacket (s : State) (p slot : Nat) (x : Stream) : Option State :=
  let t := s.tpart p slot
  if t.lossCount = 0 ∧ !t.unknown then some s
  else
    let now := s.pkg.meridian
    match (s.room p slot x 2 now).bind (fun r => r.1.near p slot x now) with
    | none => none
    | some s1 =>
      match s1.room p slot x 2 now with
      | none => none
      | some (s2, _) =>
        let t1 := s2.tpart p slot
        let d := t1.since now
        let ws := lossWords p (if x.anyCtx then 0 else x.ctx) d t1.lossCount t1.upper t1.unknown t1.reasons
        let s3 := s2.setTpart p slot { t1 with lossCount := 0, upper := false, unknown := false, reasons := 0,
                                               lossT := none, lost := sat32 t1.lost t1.lossCount }
        some (s3.place p slot x false false ws)

/-- The part is full in STOP mode: state 3, and the packet counts FULL (R264). -/
def State.partFull (s : State) (p slot : Nat) : State :=
  (s.setTpart p slot { s.tpart p slot with state := 3 }).partLose p slot Loss.full

/-- One packet meets one stream part (R255 to R258, R263, R264). A packet that would need a page while every page is
unread counts FULL; what had been placed before it in the same step stays. -/
def State.partPut (s : State) (p slot : Nat) (x : Stream) (k : Packet) : State :=
  let t := s.tpart p slot
  if k.t.toNat < t.startT.toNat then s
  else if k.old then s.partLose p slot Loss.wrap
  else if t.state = 3 then s.partLose p slot Loss.full
  else if t.since k.t < -32768 then s.partLose p slot Loss.late
  else
    let n := if k.size = 0 then 1 else 2
    match s.lossPacket p slot x with
    | none => s.partFull p slot
    | some s1 =>
      if (s1.tpart p slot).since k.t < -32768 then s1.partLose p slot Loss.late
      else match s1.near p slot x k.t with
      | none => s1.partFull p slot
      | some s2 =>
        match s2.room p slot x n k.t with
        | none => s2.partFull p slot
        | some (s3, fresh) =>
          match if fresh then s3.lossPacket p slot x else some s3 with
          | none => s3.partFull p slot
          | some s4 =>
            s4.place p slot x false false (k.words ((s4.tpart p slot).since k.t))

/-- A part starts: page 0 with its TIME packet (R263). -/
def State.partStart (s : State) (p slot : Nat) (x : Stream) : State :=
  let now := s.pkg.meridian
  let s1 := s.setTpart p slot { state := 2, base := now, startT := now, unread := 1 }
  s1.place p slot x true false (timeWords p 0 now)

/-- The halves whose packets post q's funnel takes. -/
def State.funnelHalves (s : State) (q : Nat) : List Nat :=
  [q, q ^^^ 1].filter (fun p => s.server p == some q)

/-- The half whose parts a packet meets. -/
def State.packetHalf (s : State) (k : Packet) (q : Nat) : Nat := (postOf s.pkg.member k.uno).getD q

/-- One packet written into every part that takes it, in order of slot (R259). -/
def State.funnelWrite (s : State) (q : Nat) (k : Packet) : State :=
  let p := s.packetHalf k q
  (s.takers p k).foldl (fun t i => match t.stream i with
    | some x => t.partPut p i x k
    | none => t) s

/-- Up to `n` packets of a station leave for the funnel, each as two flits on its router's link; without credit they stay in
the station's queue (R25, R252). -/
def State.sendPackets (cl : Uno) (p : Nat) : Nat → State → State
  | 0, s => s
  | n + 1, s =>
    let st := s.station cl
    match st.queue, s.sendReq 2 (clusterRouter cl) with
    | k :: r, some s1 => State.sendPackets cl p n ((s1.setStation cl { st with queue := r }).funnelPush p k)
    | _, _ => s

/-- Station queues reach the funnel, cluster by cluster, as credit allows (R252). -/
def State.gather (s : State) (q : Nat) : State :=
  (s.funnelHalves q).foldl (fun t p => (halfClusters p).foldl (fun r cl => r.sendPackets cl p (r.station cl).queue.length) t) s

/-- Every packet of a funnel's input queue written (R258). -/
def State.flushFunnel (s : State) (q : Nat) : State :=
  (s.funnel q).foldl (fun t k => t.funnelWrite q k) (s.setFunnel q [])

/-- A post's trace area in its die's HBM: base and length in bytes. The two areas of a die lie directly below its folio
reserve, post 2d's first (R262). -/
def State.traceArea (s : State) (p : Nat) : Nat × Nat :=
  let n := s.trace.areaEff * 1048576
  (s.reserveBase (p / 2) - (2 - p % 2) * n, n)

/-- Unallocated pages of the trace area of post p (Table IT-10). -/
def State.freePages (s : State) (p : Nat) : Nat :=
  (s.traceArea p).2 / 4096 - (s.trace.streams.map (fun e => match e.2 with
    | some x => if (s.tpart p e.1).state ≠ 0 then x.pages else 0
    | none => 0)).sum

/-- Parts in the area of half p's post. -/
def State.partsOf (s : State) (p : Nat) : Nat :=
  (s.trace.streams.filter (fun e => e.2.isSome && (s.tpart p e.1).state != 0)).length

/-- The oldest `n` unread pages released; WR_PAGE stays (R264, R265). A part full in STOP mode resumes. -/
def TPart.release (t : TPart) (n : Nat) : TPart :=
  let k := min n (t.unread - 1)
  { t with unread := t.unread - k, state := if t.state = 3 ∧ 0 < k then 2 else t.state }

/-- RD_PAGE of a part (Table IT-13). -/
def TPart.rdPage (t : TPart) (pages : Nat) : Nat := if t.unread = 0 then t.wrPage else (t.wrPage + pages + 1 - t.unread) % pages

/-- RD_PSEQ of a part (Table IT-14). -/
def TPart.rdPseq (t : TPart) : BitVec 28 := if t.unread = 0 then t.wrPseq else t.wrPseq + 1 - BitVec.ofNat 28 t.unread

/-- A stream ends: its parts stop taking packets until STREAM_ENDED (R266). -/
def State.endStream (s : State) (slot reason : Nat) : State :=
  match s.stream slot with
  | none => s
  | some x =>
    if x.ending ≠ 0 then s
    else
      let s1 := s.setStream slot (some { x with ending := reason })
      let s2 := (rangeFrom 0 s.pkg.member.posts).foldl (fun t p =>
        if (t.tpart p slot).state = 0 then t else t.setTpart p slot { t.tpart p slot with state := 5 }) s1
      if s2.trace.serial.slot = some slot then
        { s2 with trace := { s2.trace with serial := { s2.trace.serial with slot := none } } } else s2

/-- A stream is cut: its parts take no packet and stay readable (R266). -/
def State.cutStream (s : State) (slot : Nat) : State :=
  match s.stream slot with
  | none => s
  | some x =>
    if x.isCut || x.ending != 0 then s
    else (rangeFrom 0 s.pkg.member.posts).foldl (fun t p =>
      if (t.tpart p slot).state = 0 then t else t.setTpart p slot { t.tpart p slot with state := 4 })
      (s.setStream slot (some { x with isCut := true }))

/-- The half of the part of a stream that a post's registers show: the post's own, else that of the half which it has adopted
(Tables IT-6, IT-10; assumption 168). -/
def State.partHalf (s : State) (p slot : Nat) : Nat :=
  if (s.tpart p slot).state = 0 ∧ s.server (p ^^^ 1) = some p then p ^^^ 1 else p

/-- A session's accesses may read a stream's pages (R265, Table IT-7). -/
def State.mayStream (s : State) (who : Option Nat) (x : Stream) : Bool :=
  if x.ctx == 0 || x.anyCtx then s.hasPlatform who else decide (1 ≤ s.levelOn who x.ctx)

/-- A part that a post takes over continues on the page after its highest PSEQ, with a LOSS packet of an unknown
number (Table IT-6): adoption and restart. Words not yet committed are lost. -/
def State.rescanPart (s : State) (p slot : Nat) : State :=
  match s.stream slot with
  | none => s
  | some x =>
    let t := s.tpart p slot
    if !t.live then s
    else
      let t0 := { t with words := t.words.take (t.wrOff / 8), unknown := true, lossT := none }
      let s1 := s.setTpart p slot t0
      match s1.nextPage p slot x s.pkg.meridian with
      | none => s1.setTpart p slot { t0 with state := 3 }
      | some s2 => (s2.lossPacket p slot x).getD s2

/-- Every part of half p rescanned. -/
def State.rescanParts (s : State) (p : Nat) : State :=
  (Tbl.keysSome s.trace.streams).foldl (fun t i => t.rescanPart p i) s

/-- Parts of half p that wait for their post start (R263). -/
def State.startWaiting (s : State) (p : Nat) : State :=
  (Tbl.keysSome s.trace.streams).foldl (fun t i =>
    if (t.tpart p i).state = 1 then (match t.stream i with
      | some x => t.partStart p i x
      | none => t) else t) s

/-- A Quill or chain packet of a unit of half p, stamped by the copy that stamps it; with an invalid copy each part
that would take it counts UNTIMED (R250, Table IT-4). -/
def State.ownPacket (s : State) (p : Nat) (stamp : Uno) (k : Packet) : State :=
  match s.copyNow stamp with
  | some t => s.funnelPush p { k with t := word t }
  | none => (s.takers p k).foldl (fun t i => t.partLose p i Loss.untimed) s

end Sys2Proof.Machine
end

