-- ==== Sys2Proof/Machine/PostOps.lean ====
section
/-! DEFINITION. Posts as they sleep and wake (R42, R43), and what every creation command has in common (R391). -/

namespace Sys2Proof.Machine

/-- A gated post's wake starts (R43). -/
def State.startWake (s : State) (p : Nat) : State :=
  if (s.post p).health = Health.gated then s.setHealth p Health.waking else s

/-- The first event that needs a gated post with its auto-wake bit set starts its wake (R42, R43). -/
def State.autoStart (s : State) (p : Nat) : State := if s.autoWake p then s.startWake p else s

/-- The post is gated and its auto-wake bit is clear: an operation that needs it is refused (R43). -/
def State.gatedFast (s : State) (p : Nat) : Bool := (s.post p).health == Health.gated && !s.autoWake p

/-- No post of these is gated with its auto-wake bit clear. -/
def State.noneGated (s : State) (ps : List Nat) : Bool := ps.all (fun p => !s.gatedFast p)

/-- No die of these posts is unserved (R218). -/
def State.noneUnserved (s : State) (ps : List Nat) : Bool := ps.all (fun p => !s.dieUnserved (p / 2))

/-- A creation command: its slot lies in the table (R380), and HOLD_FULL is judged before the checks of its own chapter
(R391). -/
def State.creates (s : State) (c : CmdCtx) (kind slot : Nat) (checks : List (Bool × Nat)) (act : State → State) : State :=
  s.judged c ([(kindSlotOk kind slot, Status.cmdFormat), (s.holdRoom c.session kind slot, Status.holdFull)] ++ checks) act

/-- The session addresses units of these halves (R42). -/
def State.usePosts (s : State) (sess : Nat) (ps : List Nat) : State :=
  ps.foldl (fun t p => if (t.post p).users.contains sess then t
    else t.setPost p { t.post p with users := (t.post p).users ++ [sess] }) s

/-- An actor addresses a unit: a session then uses the post of the unit's half until it closes (R42). -/
def State.addresses (s : State) (who : Option Nat) (u : Uno) : State :=
  match who, postOf s.pkg.member u with
  | some n, some p => s.usePosts n [p]
  | _, _ => s

end Sys2Proof.Machine
end

