-- ==== Sys2Proof/Machine/BreakOps.lean ====
section
/-! DEFINITION. Comparators, counters and chains (chapter 05): matching, counting, stages, fires and their actions,
action places, and the placing of a trigger set. -/

namespace Sys2Proof.Machine

/-! ### Copies (R127, R130) -/

/-- Comparator n of a core tap (IAC n: n, DAC n: 4 + n) or of a station (SCMP n: 8 + n). -/
def cmpKey (unit n : Nat) : Nat := unit * 16 + n

def State.cmp (s : State) (k : Nat) : Cmp := Tbl.get {} s.cmps k
def State.cnt (s : State) (k : Nat) : Cnt := Tbl.get {} s.cnts k
def State.chain (s : State) (k : Nat) : Chain := Tbl.get {} s.chains k
def State.trigSet (s : State) (slot : Nat) : Option TrigSet := Tbl.get none s.sets slot

def State.setCmp (s : State) (k : Nat) (v : Cmp) : State := { s with cmps := Tbl.set {} s.cmps k v }
def State.setCnt (s : State) (k : Nat) (v : Cnt) : State := { s with cnts := Tbl.set {} s.cnts k v }
def State.setChain (s : State) (k : Nat) (v : Chain) : State := { s with chains := Tbl.set {} s.chains k v }
def State.setTrigSet (s : State) (slot : Nat) (v : Option TrigSet) : State :=
  { s with sets := Tbl.set none s.sets slot v }

/-- The element kinds of Table BW-3. -/
def Elem.isHalt (a : Nat) : Bool := a == 1 || a == 2 || a == 5

/-! Fields of CTL words (Tables BW-14, BW-15). -/

def ctlEn (w : Nat) : Bool := bitAt w 0
def ctlInv (w : Nat) : Bool := bitAt w 1
def ctlTg (w : Nat) : Nat := bitsOf w 2 6
def ctlTgEn (w : Nat) : Bool := bitAt w 8
def ctlAny (w : Nat) : Bool := bitAt w 9
def ctlCtx (w : Nat) : Nat := bitsOf w 10 12
def ctlVal (w : Nat) : Bool := bitAt w 33
def ctlAccess (w : Nat) : Nat := bitsOf w 34 2
def ctlSource (w : Nat) : Nat := bitsOf w 36 2
def ctlCore (w : Nat) : Nat := bitsOf w 40 4
def cntEvsel (w : Nat) : Nat := bitsOf w 4 4
def cntSrc (w : Nat) : Nat := bitsOf w 2 2
def cntSat (w : Nat) : Bool := bitAt w 8

/-! Fields of STAGE and ACT words (Tables BW-17, BW-18). -/

def stageSrc (w : Nat) : Nat := bitsOf w 0 5
def stageCnt (w : Nat) : Nat := bitsOf w 8 5
def stageCntEn (w : Nat) : Bool := bitAt w 15
def stageWindow (w : Nat) : Nat := bitsOf w 16 24
def actAction (w : Nat) : Nat := bitsOf w 0 4
def actAscope (w : Nat) : Nat := bitsOf w 8 2
def actRearm (w : Nat) : Bool := bitAt w 10
def actPrecise (w : Nat) : Bool := bitAt w 11
def actStages (w : Nat) : Nat := bitsOf w 12 4
def actInk (w : Nat) : Nat := bitsOf w 45 5

/-! ### Matching (R131 to R135) -/

/-- The copy acts on execution of this core: armed, and qualified by context (R133). -/
def State.acts (s : State) (ctl : Nat) (unit : Uno) : Bool :=
  ctlEn ctl && (ctlAny ctl || ctlCtx ctl == s.ctxOf unit)

/-- The thread-group qualification (R133). -/
def tgOk (ctl tg : Nat) : Bool := !ctlTgEn ctl || ctlTg ctl == tg

/-- An instruction address lies in the range, bits [47:2] compared (R131). -/
def Cmp.issueHit (c : Cmp) (addr : Nat) : Bool :=
  let a := bitsOf addr 2 46
  let inside := decide (c.lo.toNat / 4 ≤ a ∧ a ≤ c.hi.toNat / 4)
  if ctlInv c.ctl.toNat then !inside else inside

/-- One lane's access meets the range and the value (R132). -/
def Cmp.laneHit (c : Cmp) (l : Lane) : Bool :=
  let overlap := decide (0 < l.width ∧ l.addr ≤ c.hi.toNat ∧ c.lo.toNat ≤ l.addr + l.width - 1)
  let inRange := if ctlInv c.ctl.toNat then !overlap else overlap
  let value := !ctlVal c.ctl.toNat ||
    (decide (l.width ≤ 8) && (word (l.data.toNat % 2 ^ (8 * l.width)) &&& c.mask) == (c.value &&& c.mask))
  inRange && value

/-- A data access matches: its kind is selected and some lane meets the range (R132). -/
def Cmp.accessHit (c : Cmp) (store : Bool) (ls : List Lane) : Bool :=
  bitAt (ctlAccess c.ctl.toNat) (bitNat store) && ls.any c.laneHit

/-- A core that is powered and out of reset: what it issued before a stop still completes (R98, R134). -/
def State.powered (s : State) (u : Uno) : Bool :=
  s.present u && kindOf s.pkg.member u == .core && !s.pkg.coresHeld && !s.pkg.warmHeld && !(s.core u).asleep

/-- A core whose run goes on in this cycle: it runs, or a PRECISE chain stops it at the boundary after this very cycle, to
which the cycle's other issues belong (R140). -/
def State.inCycle (s : State) (u : Uno) : Bool :=
  let c := s.core u
  c.run != .stopped || (c.precise.isSome && (match s.copyNow u with
    | some t => decide (t < c.s.toNat)
    | none => false))

/-- A core that executes: it issues instructions (R133). -/
def State.executes (s : State) (u : Uno) : Bool := s.powered u && s.inCycle u

/-- A core at which an access can match: it executes, or a load with value match that it issued before a stop is written
back (R98, R132). -/
def State.accesses (s : State) (u : Uno) (ctl : Nat) (store : Bool) : Bool :=
  s.powered u && (s.inCycle u || (ctlVal ctl && !store))

/-- A core at which an event counts: each is an issue or a cycle in which the core runs, but for a miss of a load that was
issued before (R98, R134). -/
def State.counts (s : State) (u : Uno) (evsel : Nat) : Bool := s.powered u && (s.inCycle u || evsel == 6)

/-! ### Counters (R134, R137) -/

/-- The greatest count. -/
def cntTop : Nat := 2 ^ 48 - 1

/-- A counter with events added: it stays at its greatest value and sets SAT (R134). -/
def Cnt.add (c : Cnt) (n : Nat) : Cnt :=
  let v := c.count.toNat + n
  if v ≤ cntTop then { c with count := BitVec.ofNat 48 v }
  else { c with count := BitVec.ofNat 48 cntTop, ctl := c.ctl ||| 0x100 }

/-- The counter matches as a stage source: COUNT first reaches THRESH, or it saturates (Table BW-5, R137). -/
def Cnt.crossed (old new : Cnt) : Bool :=
  decide (old.count.toNat < old.thresh.toNat ∧ old.thresh.toNat ≤ new.count.toNat) ||
  (cntSat new.ctl.toNat && !cntSat old.ctl.toNat)

/-! ### Chains (R136, R137) -/

/-- The chain watches for stage matches: armed or PENDING. -/
def Chain.watching (c : Chain) : Bool := c.state == 2 || c.state == 3

/-- The word of the chain's current stage. -/
def Chain.stageWord (c : Chain) : Nat := (c.stages.getD c.stage 0).toNat

/-- Counters of a set's element below a unit. -/
def State.cntCopies (s : State) (unit : Uno) (slot elem : Nat) : List Cnt :=
  (s.cnts.filter (fun e => e.2.owner == some slot && e.2.elem == elem && s.inScope unit (e.1 / 16))).map (·.2)

/-- The counter condition of a chain's current stage: the core's copy, the largest of the cluster, or the sum over the
half (Table BW-5). -/
def State.cntCond (s : State) (unit : Uno) (c : Chain) (slot : Nat) : Bool :=
  let w := c.stageWord
  if !stageCntEn w then true
  else
    let cs := s.cntCopies unit slot (stageCnt w)
    let thresh := ((cs.head?).map (fun x => x.thresh.toNat)).getD 0
    match kindOf s.pkg.member unit with
    | .half => !cs.isEmpty && decide (thresh ≤ (cs.map (fun x => x.count.toNat)).sum)
    | _ => cs.any (fun x => decide (x.thresh.toNat ≤ x.count.toNat))

/-- A chain returned to stage 0. -/
def Chain.restart (c : Chain) : Chain := { c with stage := 0, metT := none }

/-! ### Actions (R138 to R142) -/

def State.place? (s : State) (k : Nat) : Option Place := Tbl.get none s.places k
def State.setPlace (s : State) (k : Nat) (v : Option Place) : State := { s with places := Tbl.set none s.places k v }

/-- The key of the action place that an element of a set holds on post p. -/
def State.placeOf (s : State) (p slot elem : Nat) : Option Nat :=
  ((s.places.filter (fun e => match e.2 with
    | some x => e.1 / 16 == p && x.set == slot && x.elem == elem
    | none => false)).map (·.1)).head?

/-- The action scope of a fire on unit `u` (R138). The matched unit of an XTRIG or TRIG_IN stage is the half, and ASCOPE 1 or
2 with a matched half or cluster that holds no such unit takes the matched unit itself: the spec gives neither (DESIGN
CHOICE, assumption 162). -/
def State.actionScope (s : State) (x : TrigSet) (ascope : Nat) (u : Uno) : Uno :=
  if ascope = 0 then x.scope
  else if ascope = 1 then (clusterOf s.pkg.member u).getD u
  else (coreOf s.pkg.member u).getD u

/-- A halt request of a set (R93, R138). -/
def TrigSet.request (x : TrigSet) (imm : Bool) (scope : Uno) : HopReq :=
  { kind := .halt, imm := imm, scope := scope, param := (if imm then 0 else x.lead) + 2 ^ 32 * x.deadline, who := none,
    hold := some x.platform }

/-- The HOP mode of an action (Table BW-6). -/
def haltMode (action ascope : Nat) : HopMode :=
  if action = 2 then (if ascope = 0 then .lattice else .urgent) else .contour

/-- An action place issues its HOP (R139). -/
def State.issuePlaced (s : State) (key p : Nat) (x : TrigSet) (action ascope : Nat) (scope : Uno) : State :=
  let mode := haltMode action ascope
  let q := x.request (mode != .contour) scope
  let mode := if mode = .contour ∧ s.hopImm (some (s.chainIssuer p)) q then .urgent else mode
  let r := s.acceptHop (some (s.chainIssuer p)) q mode (.chain p (key % 16))
  match r.1.place? key with
  | some pl => r.1.setPlace key (some { pl with hop := some r.2 })
  | none => r.1

/-- A deferral list holds 16 entries (R139). -/
def Place.full (pl : Place) : Bool := decide (16 ≤ pl.deferred.length)

/-- A halting fire meets its action place: it issues, is absorbed, or its matched core or cluster joins the deferral list; a
full list makes the next HOP take the set's SCOPE, which covers the fire (R139). -/
def State.chainHalt (s : State) (p slot elem : Nat) (x : TrigSet) (action ascope : Nat) (u : Uno) : State :=
  match s.placeOf p slot elem with
  | none => s
  | some key =>
    match s.place? key with
    | none => s
    | some pl =>
      let scope := s.actionScope x ascope u
      match pl.hop.bind s.hop with
      | none => s.issuePlaced key p x action ascope scope
      | some h =>
        if s.inScope h.scope scope || pl.deferred.contains scope || pl.full then s
        else s.setPlace key (some { pl with deferred := pl.deferred ++ [scope] })

/-- An action place's HOP has completed: the place issues one HOP for the set's SCOPE when its list is full, or for the
lowest-numbered deferred unit (R139). -/
def State.placeFrees (s : State) (key : Nat) (action ascope : Nat) : State :=
  match s.place? key with
  | none => s
  | some pl =>
    match s.trigSet pl.set with
    | none => s.setPlace key (some { pl with hop := none })
    | some x =>
      let s1 := s.setPlace key (some { pl with hop := none })
      if pl.full then
        (s1.setPlace key (some { pl with hop := none, deferred := [] })).issuePlaced key (key / 16) x action ascope x.scope
      else match pl.deferred.min? with
        | none => s1
        | some u =>
          (s1.setPlace key (some { pl with hop := none, deferred := pl.deferred.erase u })).issuePlaced key (key / 16)
            x action ascope u

/-- Event CHAIN in every engine of the set's owner (R138, Table QE-5). -/
def State.chainEvent (s : State) (owner : Nat) : State :=
  (s.engines.filter (fun e => e.2.owner == some owner)).foldl (fun t e => t.engineEvent e.1 3) s

/-- INK_MARK: a CHAIN_MARK packet of the matched core, on the path of an inkwell store (R138, R250). With a matched cluster it
carries the cluster's number, with a matched half there is no station and no packet: the spec gives neither (DESIGN
CHOICE, assumption 163). -/
def State.inkMark (s : State) (x : TrigSet) (chan : Nat) (u : Uno) : State :=
  match clusterOf s.pkg.member u with
  | none => s
  | some cl =>
    match s.copyNow u with
    | none => s.stationDrop cl chan Loss.untimed
    | some t => s.stationPush cl { type := .chainMark, t := word t, ctx := x.ctx, uno := u, chan := chan, size := 0,
                                   data := 0 }

/-- A PRECISE stop of the matched core at the boundary after the issue, ahead of the HOP of an action place (R140). -/
def State.preciseStop (s : State) (u : Uno) (platform : Bool) (key : Nat) : State :=
  let c := s.core u
  let c' := c.hold platform
  let at_ : Time := match s.copyNow u with
    | some t => word (t + 1)
    | none => BitVec.allOnes 64
  s.setCore u { c' with run := .stopped, settled := false, precise := some key, s := at_ }

/-- Every copy of a one-shot element in the package in state SPENT (R142). -/
def State.spend (s : State) (slot elem : Nat) : State :=
  { s with chains := Tbl.mapVals {} (fun _ c =>
      if c.owner == some slot && c.elem == elem then { c with state := 4, stage := 0, metT := none } else c) s.chains }

/-- A chain copy fires on a matched unit in a cycle of its clock (R138 to R142). Under a STEP the halting actions and TRIG_OUT are suppressed
and the chain stays armed (R141). -/
def State.fire (s : State) (key : Nat) (u : Uno) (cyc : Nat) : State :=
  let c := s.chain key
  let p := (postOf s.pkg.member (key / 16)).getD 0
  match c.owner.bind (fun o => (s.trigSet o).map (fun x => (o, x))) with
  | none => s
  | some (slot, x) =>
    let a := c.act.toNat
    let action := actAction a
    let stepping := match (coreOf s.pkg.member u).map (fun v => (s.core v).run) with
      | some (.stepping _) => true
      | _ => false
    let suppress := stepping && (Elem.isHalt action || action == 3)
    let halting := Elem.isHalt action && !suppress
    let scope := s.actionScope x (actAscope a) u
    let hk := slot * 128 + p
    let hv := Tbl.get ({} : SetHalf) s.halves hk
    let s1 := ({ s with halves := Tbl.set {} s.halves hk { fires := sat32 hv.fires 1, last := s.pkg.meridian, who := u } }).setChain
      key { c with fires := sat32 c.fires 1, stage := 0, metT := some (s.pkg.meridian, cyc),
                   suppressed := if suppress then sat16 c.suppressed else c.suppressed,
                   state := if halting && actRearm a then 3 else c.state,
                   actScope := if halting then scope else c.actScope }
    if suppress then s1
    else
      let s2 := if actRearm a then s1 else s1.spend slot c.elem
      let s3 := if action = 4 then (s2.inkMark x (actInk a) u).chainEvent x.owner
        else if action = 6 then s2.chainEvent x.owner
        else if action = 3 then { s2 with xtrig := s2.xtrig ++ rangeFrom 0 s.pkg.member.dies }
        else s2
      if halting then
        let s4 := match s3.placeOf p slot c.elem with
          | some pk => if actPrecise a then s3.preciseStop u x.platform pk else s3
          | none => s3
        s4.chainHalt p slot c.elem x action (actAscope a) u
      else s3

/-- A stage source matches at one chain copy, in cycle `cyc` of the chain's clock within this ns: the stage is met, unless a
stage was met in the same cycle, and the chain advances or fires (R136). The Bool says that it fired. -/
def State.stageMatch (s : State) (key slot src : Nat) (u : Uno) (cyc : Nat) : State × Bool :=
  let c := s.chain key
  if c.owner == some slot && c.watching && stageSrc c.stageWord == src &&
      c.metT != some (s.pkg.meridian, cyc) && s.cntCond (key / 16) c slot then
    if c.stage + 1 = actStages c.act.toNat then (s.fire key u cyc, true)
    else (s.setChain key { c with stage := c.stage + 1, metT := some (s.pkg.meridian, cyc) }, false)
  else (s, false)

/-- A source of the core's own tap matches: its tap chains take it; a fire counts in CHAIN_FIRE counters, whose
crossings match in turn (Tables BW-4, BW-5). At most `n` rounds. -/
def State.tapSource : Nat → State → Uno → Nat → Nat → State
  | 0, s, _, _, _ => s
  | n + 1, s, core, slot, src =>
    (rangeFrom 0 2).foldl (fun t k =>
      let r := t.stageMatch (core * 16 + k) slot src core 0
      if r.2 then
        (rangeFrom 0 2).foldl (fun t j =>
          let ck := core * 16 + j
          let x := t.cnt ck
          if cntEvsel x.ctl.toNat == 9 && cntSrc x.ctl.toNat == k && t.acts x.ctl.toNat core then
            let y := x.add 1
            let t1 := t.setCnt ck y
            if Cnt.crossed x y then State.tapSource n t1 core (x.owner.getD 0) x.elem else t1
          else t) r.1
      else r.1) s

/-- A counter of a core adds events; a crossing matches as a stage source (R134, R137). -/
def State.countAt (s : State) (core j amount : Nat) : State :=
  let ck := core * 16 + j
  let x := s.cnt ck
  let y := x.add amount
  let s1 := s.setCnt ck y
  if Cnt.crossed x y then s1.tapSource 8 core (x.owner.getD 0) x.elem else s1

/-- A comparator of a core tap has matched: counters of EVSEL `ev` with this SRC add 1, and the tap chains of its set
take it (Table BW-4, R136). -/
def State.tapMatch (s : State) (core n ev local_ : Nat) : State :=
  let c := s.cmp (cmpKey core n)
  let s1 := (rangeFrom 0 2).foldl (fun t j =>
    let x := t.cnt (core * 16 + j)
    if cntEvsel x.ctl.toNat == ev && cntSrc x.ctl.toNat == local_ && t.acts x.ctl.toNat core then t.countAt core j 1
    else t) s
  s1.tapSource 8 core (c.owner.getD 0) c.elem

/-- A stage source reaches the chains of a station or a half. -/
def State.sourceAt (s : State) (holder : Uno) (slot src : Nat) (u : Uno) (n cyc : Nat) : State :=
  (rangeFrom 0 n).foldl (fun t k => (t.stageMatch (holder * 16 + k) slot src u cyc).1) s

/-- XTRIG or TRIG_IN reaches the combiners of a half, whatever their sets (Table BW-5). -/
def State.sourceAll (s : State) (p src : Nat) : State :=
  (rangeFrom 0 16).foldl (fun t k =>
    let key := halfUno p * 16 + k
    match (t.chain key).owner with
    | some slot => (t.stageMatch key slot src (halfUno p) 0).1
    | none => t) s

/-- Chains in state PENDING whose HOP has completed and whose action scope runs again are armed (R142). -/
def State.rearmChains (s : State) : State :=
  { s with chains := Tbl.mapVals {} (fun k c =>
      if c.state == 3 then
        let p := (postOf s.pkg.member (k / 16)).getD 0
        let busy := match ((c.owner.bind (fun o => s.placeOf p o c.elem)).bind s.place?).bind (·.hop) with
          | some _ => true
          | none => false
        if busy || (s.coresIn c.actScope).any (fun u => (s.core u).run == .stopped) then c else { c with state := 2 }
      else c) s.chains }

/-- A one-shot element whose copies are spent and whose HOPs have completed gives its places back (R142). -/
def State.releaseSpent (s : State) (slot elem : Nat) : State :=
  let mine : List Chain := (s.chains.filter (fun e => e.2.owner == some slot && e.2.elem == elem)).map (·.2)
  let keys := s.places.filter (fun e => match e.2 with
    | some x => x.set == slot && x.elem == elem
    | none => false)
  let idle := keys.all (fun e => match e.2 with
    | some x => x.hop.isNone && x.deferred.isEmpty
    | none => true)
  if mine.all (fun c => c.state == 4) && !mine.isEmpty && idle then keys.foldl (fun t e => t.setPlace e.1 none) s else s

/-! ### Trigger set records (R129, R146) -/

/-- A trigger set record's fields (Tables BW-2, BW-3). -/
def parseElem (r : List Byte) : Elem :=
  { kind := fieldAt r 0 1, place := fieldAt r 4 3, payload := (numbersOf 8 5 (slice r 8 40)).map word }

/-- The elements of a record, from offset 0x40. -/
def parseElems : Nat → List Byte → List Elem
  | 0, _ => []
  | n + 1, r => parseElem r :: parseElems n (r.drop 48)

def Elem.word (e : Elem) (i : Nat) : Nat := (e.payload.getD i 0).toNat

/-- Bits of a word that must be 0. -/
def zeroBits (w lo n : Nat) : Bool := bitsOf w lo n == 0

/-- A comparator CTL word of a record: reserved, SET, CTXID and CTXANY bits are 0; EN is ignored. -/
def ctlLegal (w : Nat) : Bool := zeroBits w 44 20 && zeroBits w 38 2 && zeroBits w 32 1 && zeroBits w 9 23

/-- A stage word (Table BW-17). -/
def stageLegal (w : Nat) : Bool := zeroBits w 40 24 && zeroBits w 13 2 && zeroBits w 5 3 && decide (stageSrc w ≤ 21)

/-- An ACT word: SET, LANE and reserved bits are 0 (Table BW-18). -/
def actLegal (w : Nat) : Bool :=
  zeroBits w 50 14 && zeroBits w 16 29 && zeroBits w 5 3 && decide (actAscope w ≤ 2) &&
  decide (1 ≤ actAction w ∧ actAction w ≤ 6) && decide (1 ≤ actStages w ∧ actStages w ≤ 4)

/-- Every encoded field of an element is legal (R146 step 3). -/
def Elem.legal (e : Elem) : Bool :=
  match e.kind with
  | 1 => decide (e.word 0 < 2 ^ 48 ∧ e.word 1 < 2 ^ 48 ∧ e.word 3 = 0 ∧ e.word 4 = 0) && ctlLegal (e.word 2) &&
      ctlSource (e.word 2) == 0 && ctlAccess (e.word 2) == 0 && !ctlVal (e.word 2) && ctlCore (e.word 2) == 0
  | 2 => decide (e.word 0 < 2 ^ 48 ∧ e.word 1 < 2 ^ 48) && ctlLegal (e.word 4) &&
      decide (ctlSource (e.word 4) ≤ 1) && ctlAccess (e.word 4) != 0 && ctlCore (e.word 4) == 0
  | 3 => decide (e.word 0 < 2 ^ 32 ∧ 1 ≤ e.word 1 ∧ e.word 1 < 2 ^ 48 ∧ e.word 2 = 0 ∧ e.word 3 = 0 ∧ e.word 4 = 0) &&
      zeroBits (e.word 0) 9 23 && zeroBits (e.word 0) 1 1 && decide (cntEvsel (e.word 0) ≤ 9) &&
      (cntEvsel (e.word 0) != 9 || decide (cntSrc (e.word 0) ≤ 1))
  | 4 => decide (e.word 0 < 2 ^ 48 ∧ e.word 1 < 2 ^ 48) && ctlLegal (e.word 4) &&
      decide (ctlSource (e.word 4) ≤ 2) &&
      (if ctlSource (e.word 4) = 0 then ctlAccess (e.word 4) == 0 && !ctlVal (e.word 4)
       else ctlAccess (e.word 4) != 0) &&
      (ctlSource (e.word 4) != 2 || ctlCore (e.word 4) == 0)
  | 5 | 6 | 7 => stageLegal (e.word 0) && stageLegal (e.word 1) && stageLegal (e.word 2) && stageLegal (e.word 3) &&
      actLegal (e.word 4)
  | _ => false

/-- Reserved bytes of an element entry. -/
def elemReserved (r : List Byte) : Bool := fieldAt r 1 3 == 0 && fieldAt r 7 1 == 0

/-- A trigger set record is legal (R146 step 3). -/
def setLegal (r : List Byte) : Bool :=
  let n := fieldAt r 6 1
  let entries := (rangeFrom 0 n).map (fun i => slice r (64 + 48 * i) 48)
  fieldAt r 0 4 == 0x53475254 && fieldAt r 4 2 == 1 && decide (1 ≤ n ∧ n ≤ 20) && r.length == 64 + 48 * n &&
  fieldAt r 7 1 == 0 && fieldAt r 0x0B 1 == 0 && decide (fieldAt r 0x0C 2 < 4096) && decide (fieldAt r 0x0E 2 ≤ 1) &&
  (decide (fieldAt r 0x10 2 < 64) || fieldAt r 0x10 2 == 0xFFFF) && fieldAt r 0x12 2 == 0 &&
  (fieldAt r 0x14 4 == 0 || decide (128 ≤ fieldAt r 0x14 4 ∧ fieldAt r 0x14 4 ≤ 1000000)) &&
  decide (fieldAt r 0x18 4 ≤ 10000) && (slice r 0x1C 32).all (fun b => b == 0) &&
  fieldAt r 0x3C 4 == (crc32c (slice r 0 60 ++ r.drop 64)).toNat &&
  entries.all elemReserved && entries.all (fun e => (parseElem e).legal)

/-- The set of a legal record, as it stands once accepted. -/
def setOf (owner : Nat) (platform : Bool) (r : List Byte) (tArm : Time) : TrigSet :=
  { scope := fieldAt r 8 3, ctx := fieldAt r 0x0C 2, ctxAny := bitAt (fieldAt r 0x0E 2) 0, platform := platform,
    job := if fieldAt r 0x10 2 = 0xFFFF then none else some (fieldAt r 0x10 2), lead := fieldAt r 0x14 4,
    deadline := fieldAt r 0x18 4, elems := parseElems (fieldAt r 6 1) (r.drop 64), owner := owner, lane := none,
    state := 1, tArm := tArm }

def Elem.isChain (e : Elem) : Bool := e.kind == 5 || e.kind == 6 || e.kind == 7

/-- The action of an element; 0 for one that is no chain. -/
def Elem.action (e : Elem) : Nat := if e.isChain then actAction (e.word 4) else 0

/-- The units of the holders in which an element is placed (R130). -/
def State.elemUnits (s : State) (e : Elem) : List Uno :=
  match e.kind with
  | 1 | 2 | 3 | 5 => s.coresIn e.place
  | 4 | 6 => s.clustersIn e.place
  | 7 => ((s.postsIn e.place).map halfUno).filter (fun h => s.inScope e.place h && s.present h)
  | _ => []

/-- The posts whose halves hold a copy of an element. -/
def State.elemPosts (s : State) (e : Elem) : List Nat := ((s.elemUnits e).filterMap (postOf s.pkg.member)).eraseDups

/-- Every PLACE lies within SCOPE: each of its holders' units does (R146 step 5). -/
def State.placesIn (s : State) (x : TrigSet) : Bool :=
  x.elems.all (fun e => (expand s 17 e.place).all (fun u => s.inScope x.scope u))

/-- The access that Table BW-9 requires for an element. -/
def State.elemAccess (s : State) (who : Option Nat) (ctx : Ctx) (e : Elem) : Bool :=
  let halts := e.isChain && Elem.isHalt e.action
  let pulses := e.isChain && (e.action == 3 ||
    (rangeFrom 0 4).any (fun i => decide (i < actStages (e.word 4)) && decide (20 ≤ stageSrc (e.word i))))
  (if ctx = 0 then s.hasPlatform who else decide ((if halts then 2 else 1) ≤ s.levelOn who ctx)) &&
  (!pulses || s.hasPlatform who)

/-- The element that a stage or counter condition names is of a kind that the chain's location can name, and has a
copy below every copy of the chain (Table BW-5). -/
def State.namedOk (s : State) (x : TrigSet) (e : Elem) (src : Nat) (cnt : Bool) : Bool :=
  match x.elems[src]? with
  | none => false
  | some f =>
    let us := s.elemUnits f
    (if cnt then f.kind == 3
     else match e.kind with
      | 5 => f.kind == 1 || f.kind == 2 || f.kind == 3
      | 6 => decide (f.kind ≤ 5)
      | _ => true) &&
    (s.elemUnits e).all (fun v => us.any (fun u => s.inScope v u))

/-- A chain agrees with the rest of the set (R146 step 8). -/
def State.chainOk (s : State) (x : TrigSet) (e : Elem) : Bool :=
  let a := e.word 4
  (rangeFrom 0 4).all (fun i =>
    let w := e.word i
    if actStages a ≤ i then w == 0
    else (i != 0 || stageWindow w == 0) &&
      (if 20 ≤ stageSrc w then e.kind == 7 else s.namedOk x e (stageSrc w) false) &&
      (!stageCntEn w || s.namedOk x e (stageCnt w) true)) &&
  (!actPrecise a || (e.kind == 5 && Elem.isHalt (actAction a))) &&
  (actAction a != 5 || (actAscope a == 0 && !actRearm a))

/-- The elements agree with one another (R146 step 8). -/
def State.setAgrees (s : State) (x : TrigSet) : Bool :=
  x.elems.all (fun e =>
    match e.kind with
    | 1 => decide (e.word 0 ≤ e.word 1)
    | 2 | 4 => decide (e.word 0 ≤ e.word 1)
    | 3 => true
    | _ => s.chainOk x e) &&
  (x.job.isSome == x.elems.any (fun e => e.action == 5))

/-! ### Resources (R127, R139, R146 steps 11 to 13) -/

/-- Holder resources of a kind: the table's numbers and the first index. -/
def kindRange : Nat → Nat × Nat
  | 1 => (0, 4)
  | 2 => (4, 4)
  | 3 => (0, 2)
  | 4 => (8, 8)
  | 5 => (0, 2)
  | 6 => (0, 4)
  | _ => (0, 16)

/-- Index n of a kind at a unit is free. -/
def State.slotFree (s : State) (kind : Nat) (u : Uno) (n : Nat) : Bool :=
  match kind with
  | 1 | 2 | 4 => (s.cmp (u * 16 + n)).owner.isNone
  | 3 => (s.cnt (u * 16 + n)).owner.isNone
  | _ => (s.chain (u * 16 + n)).owner.isNone

/-- The lowest free index of a kind at a unit. -/
def State.freeIndex (s : State) (kind : Nat) (u : Uno) : Option Nat :=
  let r := kindRange kind
  (rangeFrom r.1 r.2).find? (s.slotFree kind u)

/-- How many of a kind are free at a unit. -/
def State.freeCount (s : State) (kind : Nat) (u : Uno) : Nat :=
  let r := kindRange kind
  ((rangeFrom r.1 r.2).filter (s.slotFree kind u)).length

/-- Every holder has the free resources of one kind that the set's copies need. -/
def State.kindFits (s : State) (x : TrigSet) (kind : Nat) : Bool :=
  let units := (x.elems.filter (fun e => e.kind == kind)).flatMap s.elemUnits
  units.eraseDups.all (fun u => decide (units.count u ≤ s.freeCount kind u))

/-- Action places that the set needs on post q, for its own half and one that it has adopted (R139). -/
def State.placesNeeded (s : State) (x : TrigSet) (q : Nat) : Nat :=
  (((x.elems.filter (fun e => Elem.isHalt e.action)).flatMap s.elemPosts).filter (fun p => s.chainIssuer p == q)).length

/-- Free action places of post p. -/
def State.placesFree (s : State) (p : Nat) : Nat := 12 - s.placesOf p

/-- The set needs a lattice channel: HALT_IMMEDIATE with ASCOPE 0. -/
def TrigSet.needsLane (x : TrigSet) : Bool := x.elems.any (fun e => e.action == 2 && actAscope (e.word 4) == 0)

/-- The lowest lattice channel that no set holds (R23). -/
def State.freeLane (s : State) : Option Nat :=
  firstBelow (fun l => s.sets.all (fun e => match e.2 with
    | some x => x.lane != some l
    | none => true)) 16

/-! ### Placing and removing (R147) -/

/-- The SET, CTXID and CTXANY bits that Graticule fills in a CTL word. -/
def fillCtl (x : TrigSet) (slot w : Nat) : Nat :=
  w - bitsOf w 0 1 + slot * 2 ^ 22 + x.ctx * 2 ^ 10 + bitNat x.ctxAny * 2 ^ 9

/-- One copy of an element written into a holder. -/
def State.placeCopy (s : State) (x : TrigSet) (slot i : Nat) (e : Elem) (u : Uno) : State :=
  match s.freeIndex e.kind u with
  | none => s
  | some n =>
    let k := u * 16 + n
    match e.kind with
    | 1 => s.setCmp k { lo := BitVec.ofNat 48 (e.word 0 / 4 * 4), hi := BitVec.ofNat 48 (e.word 1 / 4 * 4),
                        ctl := word (fillCtl x slot (e.word 2)), elem := i, owner := some slot }
    | 2 => s.setCmp k { lo := BitVec.ofNat 48 (e.word 0), hi := BitVec.ofNat 48 (e.word 1),
                        value := word (e.word 2), mask := word (e.word 3),
                        ctl := word (fillCtl x slot (putBits (e.word 4) 36 2 1)), elem := i, owner := some slot }
    | 3 => s.setCnt k { ctl := BitVec.ofNat 32 (fillCtl x slot (putBits (e.word 0) 8 1 0)),
                        thresh := BitVec.ofNat 48 (e.word 1), elem := i, owner := some slot }
    | 4 => s.setCmp k { lo := BitVec.ofNat 48 (e.word 0), hi := BitVec.ofNat 48 (e.word 1),
                        value := word (e.word 2), mask := word (e.word 3),
                        ctl := word (fillCtl x slot (e.word 4)), elem := i, owner := some slot }
    | _ => s.setChain k { stages := e.payload.take 4,
                          act := word (putBits (e.word 4) 4 1 1 + slot * 2 ^ 54 + (x.lane.getD 0) * 2 ^ 50),
                          state := 1, elem := i, owner := some slot }

/-- The set's places reserved for one element (R139). -/
def State.reservePlaces (s : State) (slot i : Nat) (e : Elem) : State :=
  if Elem.isHalt e.action then
    (s.elemPosts e).foldl (fun t p =>
      match firstBelow (fun n => (t.place? (p * 16 + n)).isNone) 12 with
      | some n => t.setPlace (p * 16 + n) (some { set := slot, elem := i })
      | none => t) s
  else s

/-- Elements numbered by their index. -/
def numbered (es : List Elem) : List (Nat × Elem) := (rangeFrom 0 es.length).zip es

/-- The lattice channel bit of a set in the masks of the cores in its scope (R23). -/
def State.maskLane (s : State) (x : TrigSet) (on : Bool) : State :=
  match x.lane with
  | none => s
  | some l => (s.coresIn x.scope).foldl (fun t u =>
      let c := t.core u
      let b := BitVec.ofNat 16 (2 ^ l)
      t.setCore u { c with lmask := if on then c.lmask ||| b else c.lmask &&& ~~~b }) s

/-- Every copy and place of an accepted set written (R147). -/
def State.placeSet (s : State) (slot : Nat) (x : TrigSet) : State :=
  let s1 := s.setTrigSet slot (some x)
  let s2 := (numbered x.elems).foldl (fun t e =>
    ((s.elemUnits e.2).foldl (fun t u => t.placeCopy x slot e.1 e.2 u) t).reservePlaces slot e.1 e.2) s1
  s2.maskLane x true

/-- The EN bits of a set's comparators and counters, and the state of its chains, at arming (R147). -/
def State.armSet (s : State) (slot : Nat) (x : TrigSet) : State :=
  { s with
    cmps := Tbl.mapVals {} (fun _ c => if c.owner == some slot then { c with ctl := c.ctl ||| 1 } else c) s.cmps
    cnts := Tbl.mapVals {} (fun _ c => if c.owner == some slot then { c with ctl := c.ctl ||| 1 } else c) s.cnts
    chains := Tbl.mapVals {} (fun _ c => if c.owner == some slot then { c with state := 2 } else c) s.chains
    sets := Tbl.set none s.sets slot (some { x with state := 2 }) }

/-- Every copy, place, lattice bit and half record of a set removed (R147). -/
def State.removeSet (s : State) (slot : Nat) (x : TrigSet) : State :=
  let s1 := s.maskLane x false
  { s1 with
    cmps := s1.cmps.filter (fun e => e.2.owner != some slot)
    cnts := s1.cnts.filter (fun e => e.2.owner != some slot)
    chains := s1.chains.filter (fun e => e.2.owner != some slot)
    places := s1.places.filter (fun e => match e.2 with
      | some p => p.set != slot
      | none => true)
    halves := s1.halves.filter (fun e => e.1 / 128 != slot)
    sets := Tbl.set none s1.sets slot none }

/-- A set begins to unload for a reason (R147, R148). -/
def State.unloadSet (s : State) (slot reason : Nat) : State :=
  match s.trigSet slot with
  | none => s
  | some x => if x.state = 5 then s else s.setTrigSet slot (some { x with state := 5, reason := reason })

/-- Fires of a set summed over halves (Table HO-6). -/
def State.setFires (s : State) (slot : Nat) : Nat :=
  ((s.halves.filter (fun e => e.1 / 128 == slot)).map (fun e => e.2.fires)).sum

/-- Sets with a combiner copy on post p (R148). -/
def State.combinerSets (s : State) (p : Nat) : List Nat :=
  ((s.chains.filter (fun e => e.1 / 16 == halfUno p)).filterMap (fun e => e.2.owner)).eraseDups

/-- The engine whose resident program serves a post's half: that of the sibling that has adopted it, else its own
(Table CA-7); 128 is the root engine. -/
def State.servingEngine (s : State) (p : Nat) : Nat := if p = 128 then 128 else (s.server p).getD p

/-- The engine whose resident program serves a half is taken by a session (R70, R71). -/
def State.taken (s : State) (e : Nat) : Bool := (s.engine (s.servingEngine e)).owner.isSome

/-- A command waits in the in-flight table while posts wake (R43, R378). -/
def State.waitFor (s : State) (i : Instr) (ps : List Nat) : State :=
  let s1 := ps.foldl (fun t p => t.autoStart p) s
  { s1 with host := { s1.host with waiting := s1.host.waiting ++ [i] } }

/-! ### Writes of counters (R134, R150, Tables BW-15, BW-16) -/

/-- COUNT and THRESH of a counter are open to the session that loaded the set and to FULL on the set's context. -/
def State.mayCount (s : State) (who : Option Nat) (k : Nat) : Bool :=
  match (s.cnt k).owner.bind s.trigSet with
  | none => false
  | some x => (who == some x.owner) || s.levelOn who x.ctx == 2

/-- A write of `n` bits from bit `lo` of counter j's COUNT (`thresh` false: SAT clears) or THRESH (an RWC field from 1 up)
of core u; non-zero reserved bits are a clamp. The clamp's OFFSET is the register's in the unit's CONFIG space (DEDUCED,
assumption 153); the write itself gives a listening stage no match (DESIGN CHOICE, assumption 154). -/
def State.cntWrite (s : State) (who : Option Nat) (u : Uno) (j : Nat) (thresh : Bool) (lo n v : Nat) : State :=
  let k := cmpKey u j
  let c := s.cnt k
  let w : Writer := { who := who, ctx := s.ctxOf u, log := postOf s.pkg.member u,
                      off := 0x188 + 0x20 * j + (if thresh then 8 else 0) }
  let full := putBits (if thresh then c.thresh.toNat else c.count.toNat) lo n v
  let x := bitsOf full 0 48
  let top := bitsOf full 48 16
  let s1 := if thresh then s.setCnt k { c with thresh := BitVec.ofNat 48 (max 1 x) }
    else s.setCnt k { c with count := BitVec.ofNat 48 x, ctl := c.ctl &&& ~~~(0x100 : BitVec 32) }
  let s2 := if thresh && x == 0 then s1.clampOne w 0 0 1 else s1
  if top ≠ 0 then s2.clampOne w 48 top 0 else s2

end Sys2Proof.Machine
end

