-- ==== Sys2Proof/Machine/FolioOps.lean ====
section
/-! DEFINITION. Folios (chapter 06): plans and their expansion, worst cases and regions, the start of capture, coding
and storing of blocks, the Stroke decoder, the end of parts and jobs, the loss map and the folio stream. -/

namespace Sys2Proof.Machine

/-! ### Jobs -/

def State.job (s : State) (j : Nat) : Option Job := Tbl.get none s.folios.jobs j

def State.setJob (s : State) (j : Nat) (v : Option Job) : State :=
  { s with folios := { s.folios with jobs := Tbl.set none s.folios.jobs j v } }

/-- A job has ended: COMPLETE or INCOMPLETE. -/
def Job.ended (j : Job) : Bool := j.state == .complete || j.state == .incomplete

/-- A job captures (R160). -/
def Job.running (j : Job) : Bool := j.state == .capturing || j.state == .ending

/-! ### Plans (R153, R154) -/

/-- A plan entry (Table FO-2). -/
structure PlanEntry where
  uno   : Uno
  space : Nat
  off   : Nat
  len   : Nat
deriving DecidableEq, Repr

/-- LENGTH for "to the end of the space". -/
def lenAll : Nat := 2 ^ 64 - 1

/-- A folio plan (Table FO-1). -/
structure Plan where
  sealMode : Nat
  flags   : Nat
  hint    : Nat
  marks   : Nat
  ctx     : Ctx
  refJob  : Nat
  scope   : Uno
  entries : List PlanEntry
deriving DecidableEq, Repr

def planEntry (r : List Byte) : PlanEntry :=
  { uno := fieldAt r 0 3, space := fieldAt r 3 1, off := fieldAt r 8 8, len := fieldAt r 16 8 }

def planEntries : Nat → List Byte → List PlanEntry
  | 0, _ => []
  | n + 1, r => planEntry r :: planEntries n (r.drop 24)

def parsePlan (r : List Byte) : Plan :=
  { sealMode := fieldAt r 6 1, flags := fieldAt r 7 1, hint := fieldAt r 0x0A 1, marks := fieldAt r 0x0B 1,
    ctx := fieldAt r 0x0C 2, refJob := fieldAt r 0x0E 2, scope := fieldAt r 0x10 3,
    entries := planEntries (fieldAt r 8 2) (r.drop 64) }

def Plan.delta (p : Plan) : Bool := bitAt p.flags 0
def Plan.residue (p : Plan) : Bool := bitAt p.flags 1
def Plan.margin (p : Plan) : Bool := bitAt p.flags 2
def Plan.cartouches (p : Plan) : Bool := bitAt p.flags 3
def Plan.legacy (p : Plan) : Bool := bitAt p.flags 4

/-- Every field of a plan is legal (R158 step 4). -/
def State.planLegal (s : State) (r : List Byte) : Bool :=
  let p := parsePlan r
  let n := fieldAt r 8 2
  fieldAt r 0 4 == 0x4E4C5046 && fieldAt r 4 2 == 1 && decide (p.sealMode ≤ 4) && decide (p.flags < 32) &&
  decide (n ≤ 1024) && r.length == 64 + 24 * n && decide (p.hint ≤ 2) && (p.legacy || p.hint == 0) &&
  decide (p.ctx < 4096) && (p.delta == (p.refJob != 0xFFFF)) && (p.refJob == 0xFFFF || decide (p.refJob < 64)) &&
  (slice r 0x13 41).all (fun b => b == 0) && fieldAt r 0x3C 4 == (crc32c (slice r 0 60 ++ r.drop 64)).toNat &&
  (rangeFrom 0 n).all (fun i => fieldAt r (64 + 24 * i + 4) 4 == 0) &&
  p.entries.all (fun e => (e.space == 0 || e.space == 2) && e.off % 4096 == 0 &&
    (kindOf s.pkg.member e.uno != .group || (e.space == 0 && e.off == 0 && e.len == lenAll)))

/-- The halves that a die or package entry stands for, or the unit itself (R154). -/
def State.halvesOf (s : State) (u : Uno) : List Uno :=
  match kindOf s.pkg.member u with
  | .package => ((rangeFrom 0 s.pkg.member.posts).map halfUno).filter s.present
  | .die => [halfUno (2 * (u - 0x100)), halfUno (2 * (u - 0x100) + 1)].filter s.present
  | _ => [u]

/-- The member units of a group that give a segment, in member order: no repeat, none in the scope of another, none
without a STATE space (R49, R154). -/
def State.memberUnits (s : State) (g : Uno) : List Uno :=
  let us := (expand s 17 g).filter (fun u => s.present u)
  us.filter (fun u => (s.spaceSize u 0).isSome &&
    !(us.any (fun v => v != u && (ancestors s.pkg.member u).contains v)))

/-- The entries that an entry expands to (R154). -/
def State.expandEntry (s : State) (e : PlanEntry) : List PlanEntry :=
  match kindOf s.pkg.member e.uno with
  | .group => (s.memberUnits e.uno).flatMap (fun u => (s.halvesOf u).map (fun h => { e with uno := h }))
  | _ => (s.halvesOf e.uno).map (fun h => { e with uno := h })

/-- The post whose part holds a segment of a unit (R154). -/
def State.segPost (s : State) (u : Uno) : Nat := (postOf s.pkg.member u).getD 0

/-- The length of an entry's segment. -/
def State.entryLen (s : State) (e : PlanEntry) : Nat :=
  if e.len = lenAll then (s.spaceSize e.uno e.space).getD 0 - e.off else e.len

/-- The segment lies within its unit's space. -/
def State.entryFits (s : State) (e : PlanEntry) : Bool :=
  match s.spaceSize e.uno e.space with
  | none => false
  | some n => decide (e.off ≤ n) && (e.len == lenAll || decide (e.off + e.len ≤ n))

/-- The planned segments of a plan, `part` still the post. -/
def State.planSegs (s : State) (p : Plan) : List Seg :=
  (p.entries.flatMap s.expandEntry).map (fun e =>
    { uno := e.uno, space := e.space, part := s.segPost e.uno, off := e.off, len := s.entryLen e })

/-- The lead post of a folio without planned segments: that of the first present unit of its scope in UNO order
(R152). -/
def State.scopePost (s : State) (v : Uno) : Nat :=
  match ((expand s 17 v).filter (fun u => s.present u)).flatMap s.halvesOf |>.min? with
  | some u => s.segPost u
  | none => 0

/-- The posts that hold a part, lowest first (R152, R171). -/
def State.planPosts (s : State) (p : Plan) : List Nat :=
  let ps := ((s.planSegs p).map (·.part))
  if ps.isEmpty then (if p.cartouches || decide (0 < p.marks) then [s.scopePost p.scope] else [])
  else (rangeFrom 0 s.pkg.member.posts).filter (fun q => ps.contains q)

/-- The lead post (R152). -/
def State.planLead (s : State) (p : Plan) : Nat := (s.planPosts p).headD (s.scopePost p.scope)

/-- Cores of half q in a scope. -/
def State.halfCores (s : State) (q : Nat) (v : Uno) : List Uno :=
  (s.coresIn v).filter (fun u => postOf s.pkg.member u == some q)

/-- Clusters of half q in a scope. -/
def State.halfClustersIn (s : State) (q : Nat) (v : Uno) : List Uno :=
  (s.clustersIn v).filter (fun u => postOf s.pkg.member u == some q)

/-! ### Worst cases and regions (R157, R159, R178, R179) -/

/-- Stored bytes that L raw bytes can need. -/
def blocksCost (l : Nat) : Nat := (l + 4095) / 4096 * 4128

/-- The special segments of a part: spaces 8 CUT, 9 MARGIN, 0xA RESIDUE (Table FO-8). -/
def specialSpaces (p : Plan) : List Nat :=
  if p.entries.isEmpty then []
  else [8] ++ (if p.margin then [9] else []) ++ (if p.residue then [0xA] else [])

/-- The special segments of the lead part: 0xB CARTOUCHE, 0xC MARK. -/
def leadSpaces (p : Plan) : List Nat := (if p.cartouches then [0xB] else []) ++ (if p.marks = 0 then [] else [0xC])

/-- Raw allowance of a special segment (Table FO-4). -/
def State.allowance (s : State) (p : Plan) (q space : Nat) : Nat :=
  match space with
  | 8 => 32 * (s.halfCores q p.scope).length
  | 9 => 98304 * (s.halfClustersIn q p.scope).length
  | 0xA => 2064 * (s.halfCores q p.scope).length
  | 0xB => 131072
  | 0xC => 16 * p.marks
  | _ => 0

/-- The whole segment table of a plan: planned segments, each part's specials, cartouches and marks (R167). `part`
counts in the part table. -/
def State.allSegs (s : State) (p : Plan) : List Seg :=
  let ps := s.planPosts p
  (s.planSegs p).map (fun g => { g with part := ps.idxOf g.part }) ++
  ((rangeFrom 0 ps.length).flatMap (fun i => (specialSpaces p).map (fun sp =>
    { uno := halfUno (ps.getD i 0), space := sp, part := i, off := 0, len := 0 }))) ++
  (leadSpaces p).map (fun sp => { uno := p.scope, space := sp, part := 0, off := 0, len := 0 })

/-- Metadata bytes of the lead part (Table FO-4). -/
def metaBytes (segs parts : Nat) : Nat := 256 + 32 * segs + 64 * parts + 64

/-- The worst-case size of part i of a plan (R157). -/
def State.worstCase (s : State) (p : Plan) (i : Nat) : Nat :=
  let ps := s.planPosts p
  let q := ps.getD i 0
  let segs := s.allSegs p
  (((s.planSegs p).filter (fun g => g.part == q)).map (fun g => blocksCost g.len)).sum +
  ((specialSpaces p).map (fun sp => blocksCost (s.allowance p q sp))).sum +
  (if i = 0 then ((leadSpaces p).map (fun sp => blocksCost (s.allowance p q sp))).sum + metaBytes segs.length ps.length
   else 0)

/-- Bytes in units of 64 KB, rounded up. -/
def units64k (n : Nat) : Nat := (n + 65535) / 65536

/-- Units of post q's region, directory included (Table FO-25). -/
def State.regionUnits (s : State) (q : Nat) : Nat := s.reserveBytes (q / 2) / 2 / 65536

/-- Reservations in post q's region: start and units. -/
def State.reservations (s : State) (q : Nat) : List (Nat × Nat) :=
  s.folios.jobs.flatMap (fun e => match e.2 with
    | none => []
    | some j => (j.parts.filter (fun x => x.post == q)).map (fun x => (x.start64k, x.res64k)) ++
        (if j.leadRes ≠ 0 ∧ j.leadPost = q then [(0, j.leadRes)] else []))

/-- Unreserved units of post q's region (Table FO-26). -/
def State.regionFree (s : State) (q : Nat) : Nat :=
  s.regionUnits q - 1 - ((s.reservations q).map (·.2)).sum

/-- The lowest start of a gap of `n` units; where no single gap holds them although the region's free space does, the first
unit after the directory: the spec says neither where a part starts nor that a region is compacted (DESIGN CHOICE,
assumptions 62 and 169). -/
def State.regionStart (s : State) (q n : Nat) : Nat :=
  let rs := s.reservations q
  let starts := 1 :: rs.map (fun r => r.1 + r.2)
  let fits (a : Nat) : Bool := decide (a + n ≤ s.regionUnits q) &&
    rs.all (fun r => decide (r.1 + r.2 ≤ a ∨ a + n ≤ r.1))
  ((starts.filter fits).min?).getD 1

/-! ### Checks (R158, R175, R191) -/

/-- The access of Table FO-19: FULL or EVICT on the context; in END_OF_LIFE a maker analysis session. -/
def State.mayFolio (s : State) (who : Option Nat) (c : Ctx) : Bool :=
  (s.life.state != .endOfLife || s.isAnalysis who) && (s.levelOn who c == 2 || s.evictOn who c)

/-- SEAL_PLATFORM of CMP_FO_CFG. -/
def State.sealPlatform (s : State) : Bool := bitAt (s.regWord RegMap.cmpFoCfg 0x10600) 17

/-- SEAL is allowed for the context and lifecycle state, and its key is registered (Table FO-15). -/
def State.sealOk (s : State) (sealMode : Nat) (c : Ctx) : Bool :=
  match s.life.state with
  | .blank => sealMode == 0
  | .test => sealMode == 0 || sealMode == 3
  | .production =>
    if c = 0 then (sealMode == 2 && s.auth.opKeys) || (sealMode == 0 && !s.sealPlatform)
    else sealMode == 1 && (match s.reg c with
      | some r => r.sealing
      | none => false)
  | .endOfLife => sealMode == 0 || sealMode == 4

/-- KEY_ID of the sealing key of a SEAL value (R176, R338). -/
def State.sealKid (s : State) (sealMode : Nat) (c : Ctx) : Word :=
  match sealMode with
  | 1 => ((s.reg c).map (·.keyId)).getD 0
  | 2 => s.auth.opKid
  | 3 | 4 => s.auth.mkKid
  | _ => 0

/-- The posts that a plan's folio uses: those with parts, and the lead of a folio without any. -/
def State.folioPosts (s : State) (p : Plan) : List Nat :=
  if (s.planPosts p).isEmpty then [s.planLead p] else s.planPosts p

/-- Checks 1 to 11 and the refusal for a gated post of check 12 (R158). -/
def State.planChecks (s : State) (who : Option Nat) (slot : Nat) (arg : List Byte) : List (Bool × Nat) :=
  let p := parsePlan arg
  let segs := s.planSegs p
  let ref := if p.refJob = 0xFFFF then none else s.job p.refJob
  [((s.job slot).isNone && decide (slot < 64), Status.slotBusy),
   (!s.life.lockdown, Status.lockdown),
   (!s.pkg.pwrWarn, Status.pwrWarn),
   (s.planLegal arg, Status.planFormat),
   (s.present p.scope && p.entries.all (fun e => s.present e.uno), Status.unitAbsent),
   ((p.entries.flatMap s.expandEntry).all (fun e => s.inScope p.scope e.uno && s.entryFits e) &&
      (s.life.state != .production || s.scopeWithin p.ctx p.scope), Status.planScope),
   (s.mayFolio who p.ctx, Status.unitDenied),
   (s.sealOk p.sealMode p.ctx, Status.sealMode),
   (segs.all (fun g => bitAt (s.capPhys true g.uno) 6), Status.notCapable),
   (decide (segs.length ≤ 4096), Status.planSize),
   (p.refJob == 0xFFFF || (match ref with
      | some j => j.state == .complete && j.ctx == p.ctx
      | none => false), Status.refInvalid),
   (p.refJob == 0xFFFF || s.canRef ObjKind.job p.refJob, Status.refLimit),
   (s.noneGated (s.folioPosts p), Status.postGated),
   (s.noneUnserved (s.folioPosts p), Status.postLost)]

/-- The rest of checks 12 and 13: engines taken, `own` exempt (R289), and room in each region. -/
def State.planChecks2 (s : State) (arg : List Byte) (own : Option Nat) : List (Bool × Nat) :=
  let p := parsePlan arg
  let ps := s.planPosts p
  [((s.folioPosts p).all (fun q => own == some (s.servingEngine q) || !s.taken q), Status.engineBusy),
   (if ps.isEmpty then decide (1 ≤ s.regionFree (s.planLead p))
    else (rangeFrom 0 ps.length).all (fun i =>
      decide (units64k (s.worstCase p i) ≤ s.regionFree (ps.getD i 0))), Status.reserveFull)]

/-- Posts of a plan that are gated, waking or restarting and unserved. -/
def State.planSleeping (s : State) (arg : List Byte) : List Nat :=
  (s.folioPosts (parsePlan arg)).filter s.postAsleep

/-! ### Creation (R159, R165) -/

/-- The serial after `n`: 0 is never assigned (R165). -/
def nextSerial (n : BitVec 32) : BitVec 32 := if n + 1 = 0 then 1 else n + 1

/-- A segment starts with the DELTA and LIVE flags that it will carry: a match in the reference folio (R173), or an
object whose operations are not frozen (Table FO-19). -/
def State.segFlags (s : State) (ref : Option Job) (g : Seg) : Seg :=
  let dl := match ref with
    | some j => j.segs.any (fun x => x.uno == g.uno && x.space == g.space && x.off == g.off && x.len == g.len)
    | none => false
  let live := g.space == 2 && kindOf s.pkg.member g.uno == .obj && !(s.inst 4 g.uno).any && !(s.inst 6 g.uno).any
  { g with delta := dl, live := live }

/-- The job that a checked plan makes. -/
def State.jobOf (s : State) (owner : Nat) (engine : Option Nat) (arg : List Byte) : Job :=
  let p := parsePlan arg
  let ps := s.planPosts p
  { state := .created
    owner := owner
    engine := engine
    ctx := p.ctx
    platform := p.ctx == 0
    sealMode := p.sealMode
    delta := p.delta
    residue := p.residue
    margin := p.margin
    cartouches := p.cartouches
    legacy := p.legacy
    hint := p.hint
    marksMax := p.marks
    refJob := if p.refJob = 0xFFFF then none else some p.refJob
    scope := p.scope
    entries := p.entries.length
    serial := s.folios.serial
    segs := s.allSegs p
    planned := (s.planSegs p).length
    parts := (rangeFrom 0 ps.length).map (fun i =>
      let q := ps.getD i 0
      let n := units64k (s.worstCase p i)
      { post := q, lead := i == 0, adopted := s.server q != some q, start64k := s.regionStart q n, res64k := n })
    beginT := s.pkg.meridian
    keyId := s.sealKid p.sealMode p.ctx
    leadPost := s.planLead p
    leadRes := if ps.isEmpty then 1 else 0 }

/-- The job is CREATED: reservations made, the serial taken, its references held (R159, R165, R391). -/
def State.createJob (s : State) (slot owner : Nat) (engine : Option Nat) (arg : List Byte) : State :=
  let j := s.jobOf owner engine arg
  let s1 := s.setJob slot (some j)
  let s2 : State := { s1 with folios := { s1.folios with serial := nextSerial s1.folios.serial } }
  let s3 := (s2.newRef owner ObjKind.job slot)
  let s4 := match j.refJob with
    | some r => s3.hubRef ObjKind.job r
    | none => s3
  if kindOf s.pkg.member j.scope = .group then s4.hubRef ObjKind.group (j.scope - 0xF00000) else s4

/-! ### Start (R160) -/

/-- A running part holds half q's capture engine. -/
def State.capturing (s : State) (q : Nat) : Bool :=
  s.folios.jobs.any (fun e => match e.2 with
    | some j => j.parts.any (fun x => x.post == q && (x.state == 3 || x.state == 4))
    | none => false)

/-- A part holds half q's capture engine or waits for it: a later start queues behind it (R160). -/
def State.engineClaimed (s : State) (q : Nat) : Bool :=
  s.folios.jobs.any (fun e => match e.2 with
    | some j => j.parts.any (fun x => x.post == q && (x.state == 2 || x.state == 3 || x.state == 4))
    | none => false)

/-- The checks of a start; a START_CAPTURE start skips the third (R160). -/
def State.startChecks (s : State) (j : Job) (skipHalt : Bool) : List (Bool × Nat) :=
  [(j.state == .created, Status.jobState),
   (!s.pkg.pwrWarn, Status.pwrWarn),
   (skipHalt || s.haltedUnit j.scope, Status.notHalted)]

/-- The HALT that set HALTED on a scope: the newest complete HALT over all its cores (Table FO-7). -/
def State.haltOf (s : State) (v : Uno) : Option Hop :=
  let cs := s.coresIn v
  (((s.hops.filterMap (fun e => e.2)).filter (fun h => h.kind == .halt && h.status != 1 && !cs.isEmpty &&
    cs.all (fun u => h.cores.contains u)))).getLast?

/-- Capture starts: the folio key is drawn and wrapped, each part captures or queues behind an earlier one, a half that the
sibling serves makes its part ADOPTED, and the hub holds a reference (R160, R176, R191, R391). `fend`: every planned segment is to be captured (R161). -/
def State.startJob (s : State) (slot : Nat) (j : Job) (skipHalt fend : Bool) : State :=
  let h := s.haltOf j.scope
  let key := Config.drbg256 s.drawn
  let parts := j.parts.map (fun x => { x with
    state := (if s.engineClaimed x.post then 2 else 3)
    adopted := (x.adopted || ((s.server x.post).getD x.post != x.post)) })
  let j1 := { j with
    state := .capturing
    skipHalt := skipHalt
    fendBegun := fend
    queued := s.folios.started
    parts := parts
    hop := (h.map (·.id)).getD 0
    cutT := (h.map (·.t)).getD 0
    key := if j.sealMode = 0 then none else some key
    wrapped := if j.sealMode = 0 then 0 else Config.wrapKey j.keyId key }
  let s1 := if j.sealMode = 0 then s else s.draw
  let s2 := s1.setJob slot (some j1)
  let s3 : State := { s2 with folios := { s2.folios with started := s2.folios.started + 1 } }
  s3.hubRef ObjKind.job slot

/-! ### Which block comes next (R161) -/

/-- Segment i of a job is still to be captured by its part now: named by FSEG, or every one once FEND has begun. -/
def Job.due (j : Job) (i : Nat) (g : Seg) : Bool :=
  !g.captured && !g.skipped && !g.partialSeg &&
  (if i < j.planned then g.wanted || j.fendBegun else j.fendBegun && !j.cutShort)

/-- The segment that part k captures now: one already begun, else the first named by FSEG, else the first in table
order (R161). -/
def Job.curSeg (j : Job) (k : Nat) : Option Nat :=
  let mine := ((rangeFrom 0 j.segs.length).zip j.segs).filter (fun e => e.2.part == k && j.due e.1 e.2)
  match mine.find? (fun e => decide (0 < e.2.done)) with
  | some e => some e.1
  | none => match mine.find? (fun e => e.2.wanted) with
    | some e => some e.1
    | none => (mine.head?).map (·.1)

/-- The index of the part that a post's region holds. -/
def Job.partAt (j : Job) (q : Nat) : Option Nat :=
  let i := (j.parts.map (·.post)).idxOf q
  if i < j.parts.length then some i else none

/-! ### Special segments (R163, R169, R239) -/

/-- The 32-byte cut record of a core (Table FO-11). -/
def State.cutRecord (s : State) (lone : Bool) (u : Uno) : List Byte :=
  let c := s.core u
  let dma := !(s.inst 0 (parentOf s.pkg.member u)).any
  let skew := c.cutCode == 2 || c.cutCode == 3 || c.cutCode == 4
  let run := c.cutCode == 8 || (c.run != .stopped && !c.asleep)
  leBytes 3 u ++ leBytes 1 c.cutCode ++
    leBytes 2 (bitNat dma + 2 * bitNat skew + 4 * bitNat run + 8 * bitNat (c.cutCode == 7 || lone)) ++
    leBytes 2 0 ++ leBytes 8 c.cutS.toNat ++ leBytes 8 c.cutT.toNat ++ leBytes 8 0

/-- The 64-byte margin record of a flit (Table FO-11). -/
def marginRecord (router port kind seq : Nat) (f : Flit) : List Byte :=
  leBytes 3 router ++ leBytes 1 port ++ leBytes 1 kind ++ leBytes 1 f.vc ++ leBytes 2 seq ++ leBytes 3 f.src ++
    leBytes 1 0 ++ leBytes 3 f.dst ++ leBytes 1 0 ++ slice f.payload 0 32 ++ leBytes 8 f.sentT.toNat ++ leBytes 8 0

/-- The clusters of half q in a folio's scope; of a lone folio, those of its context whose policy is HALT_FOLIO (R190,
R221). -/
def State.jobClusters (s : State) (j : Job) (q : Nat) : List Uno :=
  if j.lone then (halfClusters q).filter (fun c => s.present c && s.ctxOf c == j.ctx && s.lonePolicy q ((c - 0x1000) % 64) == 0)
  else s.halfClustersIn q j.scope

/-- The cores of half q in a folio's scope, in UNO order. -/
def State.jobCores (s : State) (j : Job) (q : Nat) : List Uno :=
  if j.lone then (s.jobClusters j q).flatMap s.clusterCores else s.halfCores q j.scope

/-- A router's flits that a margin segment holds: a cluster router's own; of a spine or crossbar router those for the scope's
clusters (R107, R420). -/
def State.routerFlits (s : State) (cls : List Uno) (router : Uno) (fs : List Flit) : List Flit :=
  if (router - 0x8000) % 128 < 40 then fs
  else fs.filter (fun f => match clusterOf s.pkg.member f.dst with
    | some c => cls.contains c
    | none => false)

/-- PORT of a margin record: the network of a spine or crossbar router is its own (R420). -/
def portByte (m : Member) (router port : Nat) : Nat :=
  if (router - 0x8000) % 128 < 40 then port else port % 128 + (if kindOf m router = .xbar then 128 else 0)

/-- The open requests without a response of a core that has not settled, each a KIND 2 record (R119, R169). -/
def State.openRecords (s : State) (u : Uno) : List Byte :=
  if (s.core u).settled || (s.core u).run != .stopped then []
  else
    let fs := Config.openRequests u
    ((rangeFrom 0 fs.length).zip fs).flatMap (fun x =>
      let y := x.2.2
      marginRecord (((corePorts s.pkg.member u).map (·.1)).headD 0) (x.2.1 % 256) 2 x.1
        { src := y.1, dst := y.2.1, vc := y.2.2.1, payload := slice y.2.2.2.1 0 32, sentT := word y.2.2.2.2 })

/-- The margin records of routers of half q: parked flits, then those in place, port by port, and then the open requests of
the scope's unsettled cores (R169). -/
def State.marginBytes (s : State) (q : Nat) (cls : List Uno) : List Byte :=
  let own (r : Uno) : Bool := if (r - 0x8000) % 128 < 40 then cls.contains (clusterUno q ((r - 0x8000) % 128)) else true
  ((s.rports.filter (fun e => postOf s.pkg.member (e.1 / 256) == some q && own (e.1 / 256))).flatMap (fun e =>
    let fs := (s.routerFlits cls (e.1 / 256) e.2.margin).map (fun f => (0, f)) ++
      (s.routerFlits cls (e.1 / 256) e.2.inPlace).map (fun f => (1, f))
    ((rangeFrom 0 fs.length).zip fs).flatMap (fun x =>
      marginRecord (e.1 / 256) (portByte s.pkg.member (e.1 / 256) (e.1 % 256)) x.2.1 x.1 x.2.2))) ++
  (cls.flatMap s.clusterCores).flatMap s.openRecords

/-- A byte of a RESIDUE segment: the record's core, reserved bytes, and what the core reports; a core that took ASLEEP is not
woken, its record holds VALID 0 and zero entries (Table FO-11). -/
def State.residueByte (s : State) (cores : List Uno) (pos : Nat) (b : Byte) : Byte :=
  match cores[pos / 2064]? with
  | none => b
  | some u =>
    let r := pos % 2064
    if r < 3 then BitVec.ofNat 8 (u / 256 ^ r)
    else if r = 3 ∨ (8 ≤ r ∧ r < 16) ∨ (s.core u).asleep ∨ (s.core u).cutCode = 5 then 0
    else b

/-- The die bitmap of a scope. -/
def State.dieMask (s : State) (v : Uno) : BitVec 64 :=
  (s.diesIn v).foldl (fun a d => a ||| BitVec.ofNat 64 (2 ^ d)) 0

/-- Records that a folio's cartouche segment holds: of the collector ring, or of the post's lone log (R169, R222). -/
def State.folioCarts (s : State) (j : Job) (q : Nat) : List Rec :=
  if j.lone then (s.post ((s.server q).getD q)).loneLog.filter (fun r => j.ctx == 0 || r.ctx == j.ctx)
  else ((s.cart.ring.filter (fun e => if j.ctx = 0 then (e.r.dies &&& s.dieMask j.scope) != 0 else e.r.ctx == j.ctx)).map
    (·.r)).take 4096

/-- A scope contains a partition: all of the partition's clusters lie in it (R239). -/
def State.containsPart (s : State) (v part : Uno) : Bool :=
  let cs := s.clustersIn part
  v == part || (!cs.isEmpty && cs.all (fun cl => s.inScope v cl))

/-- The marks that the DECLARED deadlock records of a folio's scope add (R239). -/
def State.deadlockMarks (s : State) (v : Uno) : List (Time × Word) :=
  s.watch.records.flatMap (fun e =>
    if e.2.state = 2 ∧ s.containsPart v e.2.part then
      (e.2.objects.take 64).map (fun o => (e.2.t, word (o.uno + 2 ^ 24 * o.producers + 2 ^ 32 * o.waiters + 2 ^ 48 * 0x5357)))
    else [])

/-- The raw bytes of a special segment as Graticule forms them; RESIDUE comes from the cores. -/
def State.specialBytes (s : State) (j : Job) (q space : Nat) : Option (List Byte) :=
  match space with
  | 8 => some ((s.jobCores j q).flatMap (s.cutRecord j.lone))
  | 9 => some (s.marginBytes q (s.jobClusters j q))
  | 0xB => some ((s.folioCarts j q).flatMap recBytes)
  | 0xC => some (j.marks.flatMap (fun m => leBytes 8 m.1.toNat ++ leBytes 8 m.2.toNat))
  | _ => none

/-- The length of a RESIDUE segment. -/
def State.residueLen (s : State) (j : Job) (q : Nat) : Nat := 2064 * (s.halfCores q j.scope).length

/-- The job with its MARK list completed by the deadlock marks that still fit (R239). -/
def State.withDeadlockMarks (s : State) (j : Job) : Job :=
  let room := j.marksMax - j.marks.length
  { j with marks := j.marks ++ (s.deadlockMarks j.scope).take room }

/-- Capture reaches special segment i of part k: its bytes are formed and its length is known (R169). -/
def State.formSpecial (s : State) (j : Job) (k i : Nat) (g : Seg) : Job :=
  let q := ((j.parts[k]?).map (·.post)).getD 0
  let j := if g.space = 0xC then s.withDeadlockMarks j else j
  let bytes := s.specialBytes j q g.space
  let n := match bytes with
    | some b => b.length
    | none => s.residueLen j q
  { j with specials := Tbl.set none j.specials i (some (bytes.getD []))
           segs := j.segs.set i { g with len := n, captured := decide (n = 0) } }

/-- A segment of a part has nothing to read: an empty planned segment is captured and a special one is formed, until
the part's next segment holds bytes; at most `n` of them (R171). -/
def State.settleSegs (s : State) (k : Nat) : Nat → Job → Job
  | 0, j => j
  | n + 1, j =>
    match j.curSeg k with
    | none => j
    | some i =>
      match j.segs[i]? with
      | none => j
      | some g =>
        if i < j.planned then
          if g.len = 0 then
            s.settleSegs k n { j with segs := j.segs.set i { s.segFlags (j.refJob.bind s.job) g with captured := true } }
          else j
        else if (Tbl.get none j.specials i).isSome then j
        else s.settleSegs k n (s.formSpecial j k i g)

/-! ### The Stroke decoder (R174) -/

/-- One byte back-copied `n` times from distance d; output is kept newest first. -/
def strokeCopy (d : Nat) : Nat → List Byte → List Byte
  | 0, out => out
  | n + 1, out => strokeCopy d n (out.getD (d - 1) 0 :: out)

/-- Strokes decoded onto `out` (newest first), at most `n` strokes. -/
def strokeLoop (rawLen : Nat) : Nat → List Byte → List Byte → Option (List Byte)
  | 0, _, _ => none
  | k + 1, inp, out =>
    if rawLen ≤ out.length then (if out.length = rawLen ∧ inp.isEmpty then some out.reverse else none)
    else match inp with
      | [] => none
      | c :: r =>
        let v := c.toNat
        match v / 64 with
        | 0 =>
          let n := v % 64 + 1
          if r.length < n then none else strokeLoop rawLen k (r.drop n) ((r.take n).reverse ++ out)
        | 1 =>
          match r with
          | [] => none
          | b :: r2 =>
            let n := v / 8 % 8 + 3
            let d := v % 8 * 256 + b.toNat + 1
            if out.length < d then none else strokeLoop rawLen k r2 (strokeCopy d n out)
        | 2 =>
          match r with
          | b0 :: b1 :: r2 =>
            let e := b0.toNat + 256 * b1.toNat
            let n := e / 4096 * 64 + v % 64 + 3
            let d := e % 4096 + 1
            if out.length < d then none else strokeLoop rawLen k r2 (strokeCopy d n out)
          | _ => none
        | _ =>
          match r with
          | [] => none
          | b :: r2 => strokeLoop rawLen k r2 (List.replicate (v % 64 + 3) b ++ out)

/-- The decoded output of a Stroke stream of `rawLen` bytes; `none` for an invalid stream (R174). -/
def strokeDecode (rawLen : Nat) (inp : List Byte) : Option (List Byte) := strokeLoop rawLen (inp.length + 1) inp []

/-! ### Coding a block (R156, R163, R172, R173) -/

/-- The core whose state holds byte `off` of a unit's STATE space (Table FO-3). -/
def State.coreAt (s : State) (u : Uno) (off : Nat) : Option Uno :=
  match kindOf s.pkg.member u with
  | .core => some u
  | .tg => some (parentOf s.pkg.member u)
  | .cluster => (s.clusterCores u)[off / 786432]?
  | .half => (((halfClusters (u - 0x200)).filter (fun c => s.present c)).flatMap s.clusterCores)[off / 786432]?
  | _ => none

/-- The core whose state or memory holds the next block of a segment. -/
def State.blockCore (s : State) (g : Seg) : Option Uno :=
  match g.space, kindOf s.pkg.member g.uno with
  | 0, _ => s.coreAt g.uno (g.off + g.done)
  | 2, .core => some g.uno
  | _, _ => none

/-- The block's core is not halted, took UNCONFIRMED, or did not halt under the HOP whose completion started the job
(R160, R163, R172). -/
def State.notHaltedAt (s : State) (j : Job) (g : Seg) : Bool :=
  match s.blockCore g with
  | none => false
  | some u =>
    (s.core u).cutCode == 8 || ((s.core u).run != .stopped && !(s.core u).asleep) ||
    (match j.startHop.bind s.hop with
     | some h => !decide ((h.at u).code ≤ 7)
     | none => false)

/-- Lines and pages of another context are kept back: a tenant folio outside BLANK, TEST and END_OF_LIFE (R156). -/
def State.deniable (s : State) (j : Job) : Bool := j.ctx != 0 && s.life.state == .production

/-- The block belongs to an HBM page that the accelerator's memory map does not assign to the folio's context (R156). -/
def State.deniedAt (s : State) (j : Job) (g : Seg) : Bool :=
  s.deniable j && g.space == 2 && kindOf s.pkg.member g.uno == .chan &&
    Config.pageCtx g.uno (g.off + g.done) s.now % 4096 != j.ctx

/-- The block lies in the L2 slices of a half's STATE space (Table FO-3). -/
def State.inL2 (s : State) (g : Seg) : Bool :=
  g.space == 0 && kindOf s.pkg.member g.uno == .half && (s.coreAt g.uno (g.off + g.done)).isNone

/-- A block's bytes with the L2 lines of another owner read as zeros: `foreign` numbers those lines of 64 bytes in the block
(R156). -/
def State.ownLines (s : State) (j : Job) (g : Seg) (foreign : List Nat) (raw : List Byte) : List Byte :=
  if s.deniable j && s.inL2 g then
    ((rangeFrom 0 raw.length).zip raw).map (fun e => if foreign.contains (e.1 / 64) then 0 else e.2)
  else raw

/-- Bytewise exclusive or. -/
def xorBytes (a b : List Byte) : List Byte := List.zipWith (fun x y => x ^^^ y) a b

/-- Where the reference block of a segment's block stands: the reference job's slot, part and place (R173). -/
def State.refAt (s : State) (j : Job) (g : Seg) : Option (Nat × Nat × Nat × Block) :=
  match j.refJob.bind (fun i => (s.job i).map (fun r => (i, r))) with
  | none => none
  | some (slot, r) =>
    match ((rangeFrom 0 r.segs.length).zip r.segs).find?
        (fun e => e.2.uno == g.uno && e.2.space == g.space && e.2.off == g.off && e.2.len == g.len) with
    | none => none
    | some (i, x) =>
      let bs := (r.parts.getD x.part { post := 0, lead := false, start64k := 0, res64k := 0 }).blocks
      match (((rangeFrom 0 bs.length).zip bs).filter (fun b => b.2.seg == i))[g.done / 4096]? with
      | none => none
      | some b => some (slot, x.part, b.1, b.2)

/-- The reference block of a segment's block, when its coding holds data and read-back does not mark it (R173). -/
def State.refBlock (s : State) (j : Job) (g : Seg) : Option (List Byte) :=
  match s.refAt j g with
  | none => none
  | some (_, _, _, b) => if b.coding = 6 ∨ b.coding = 7 ∨ b.coding = 8 ∨ b.marked then none else some b.raw

/-- Block `i` of part `k` of a job changed. -/
def Job.modBlock (j : Job) (k i : Nat) (f : Block → Block) : Job :=
  { j with parts := j.parts.modify k (fun x => { x with blocks := x.blocks.modify i f }) }

/-- A job reads its reference block: the first read-back of HINT 2 invalidates the lines (R181), and an uncorrectable error
marks the copy, advances ECC_BLOCKS and is reported by the post that reads (R182). -/
def State.readRef (s : State) (j : Job) (g : Seg) (post : Nat) (ecc : Bool) : State :=
  if !g.delta then s
  else match s.refAt j g with
    | none => s
    | some (slot, k, i, b) =>
      match s.job slot with
      | none => s
      | some r =>
        let bad := ecc && !b.marked
        let r1 := r.modBlock k i (fun b => { b with cached := b.cached && r.hint != 2, marked := b.marked || ecc })
        let s1 := s.setJob slot (some { r1 with eccBlocks := r.eccBlocks + bitNat bad })
        if bad then s1.folioReport ((s.server post).getD post) 2 r.serial r.ctx else s1

/-- A Stroke stream that the coder may have written: valid, and shorter than the bytes it codes (R172, R174). -/
def strokeOk (raw : List Byte) (coded : List Byte) : Bool :=
  decide (1 ≤ coded.length ∧ coded.length < raw.length) && strokeDecode raw.length coded == some raw

/-- CODING, raw bytes and coded bytes of a block by the first rule that applies (R172). `foreign`: its L2 lines of another
owner. -/
def State.codeBlock (s : State) (j : Job) (g : Seg) (n : Nat) (src : BlockSource) (foreign : List Nat)
    (coded : Option (List Byte)) : Nat × List Byte × List Byte :=
  let none_ := List.replicate n (0 : Byte)
  match src with
  | .eccError => (7, none_, [])
  | .bytes bs =>
    let raw := s.ownLines j g foreign (slice bs 0 n)
    if s.deniedAt j g then (6, none_, [])
    else if s.notHaltedAt j g then (8, none_, [])
    else if raw.all (fun b => b == 0) then (0, raw, [])
    else
      let ref := if g.delta then s.refBlock j g else none
      match ref with
      | some rb =>
        let x := xorBytes raw (slice rb 0 n)
        if x.all (fun b => b == 0) then (3, raw, [])
        else match coded with
          | some cs => if strokeOk x cs then (5, raw, cs) else (4, raw, x)
          | none => (4, raw, x)
      | none =>
        match coded with
        | some cs => if strokeOk raw cs then (2, raw, cs) else (1, raw, raw)
        | none => (1, raw, raw)

/-- The 16-byte block header (Table FO-10). -/
def blockHeader (rawLen codedLen coding : Nat) (sealing mark : Bool) (seg num : Nat) (serial : BitVec 32) : List Byte :=
  leBytes 2 rawLen ++ leBytes 2 codedLen ++ leBytes 1 (coding + 16 * bitNat sealing + 32 * bitNat mark) ++ leBytes 1 0 ++
    leBytes 2 seg ++ leBytes 4 num ++ leBytes 4 serial.toNat

/-- Zero bytes up to a multiple of 16. -/
def pad16 (n : Nat) : List Byte := List.replicate ((16 - n % 16) % 16) 0

/-- Bytes that a block of CODED_LEN n takes in the region (R168). -/
def storedSize (n : Nat) : Nat := 16 + (n + 15) / 16 * 16 + 16

/-- The IV of a block (R176). -/
def blockIv (serial : BitVec 32) (post num : Nat) : List Byte :=
  leBytes 4 serial.toNat ++ leBytes 1 post ++ leBytes 3 0 ++ leBytes 4 num

/-- The first 128 bits of a SHA-384 digest, in digest order. -/
def sha384Head (bs : List Byte) : BitVec 128 := (Config.sha384 bs).extractLsb' 256 128

/-- A block as it is stored: sealed under the folio key, or with the plain CHECK (R176, R177). -/
def sealBlock (key : Option (BitVec 256)) (serial : BitVec 32) (post seg num coding : Nat) (raw coded : List Byte) :
    Block :=
  let hdr := blockHeader raw.length coded.length coding key.isSome false seg num serial
  match key with
  | none => { coding := coding, sealing := false, seg := seg, num := num, raw := raw, coded := coded, data := coded,
              check := sha384Head (hdr ++ coded) }
  | some k => { coding := coding, sealing := true, seg := seg, num := num, raw := raw, coded := coded,
                data := slice (Config.cipher k (blockIv serial post num) coded) 0 coded.length,
                check := Config.gcmTag k (blockIv serial post num) hdr coded }

/-- CHECK as stored: bytes in digest order (R177). -/
def checkBytes (c : BitVec 128) : List Byte := (leBytes 16 c.toNat).reverse

/-- The stored bytes of a block (R168); of a marked copy, ECC_MARK with zero data and CHECK bytes (R182). -/
def Block.bytes (b : Block) (serial : BitVec 32) : List Byte :=
  let hdr := blockHeader b.raw.length b.coded.length b.coding b.sealing b.marked b.seg b.num serial
  if b.marked then hdr ++ List.replicate (b.data.length + (pad16 b.data.length).length + 16) 0
  else hdr ++ b.data ++ pad16 b.data.length ++ checkBytes b.check

/-- What a part digest covers of a block: its bytes with ECC_MARK taken as 0 (Table FO-9). -/
def Block.hashed (b : Block) (serial : BitVec 32) : List Byte :=
  blockHeader b.raw.length b.coded.length b.coding b.sealing false b.seg b.num serial ++ (b.bytes serial).drop 16

/-- Entries of 256 bytes that a part's bytes beyond its committed pointer take, at most the buffer's 64 (R180). -/
def Part.buffered (x : Part) : Nat := min 64 ((x.bytes + 255) / 256 - x.committed / 256)

/-- A part's block counters and what its buffer holds read 0 (R192). -/
def Part.clearCounts (x : Part) : Part :=
  { x with raw := 0, zero := 0, stroke := 0, rawCoded := 0, same := 0, denied := 0, srcEcc := 0, notHalted := 0,
           demoted := 0, wcb := 0 }

/-- A part's counters after one more block (Tables FO-28, FO-29). -/
def Part.count (x : Part) (coding raw coded : Nat) (demoted : Bool) : Part :=
  { x with
    bytes := x.bytes + storedSize coded
    raw := x.raw + raw
    zero := if coding = 0 then x.zero + 1 else x.zero
    stroke := if coding = 2 ∨ coding = 5 then x.stroke + 1 else x.stroke
    rawCoded := if coding = 1 ∨ coding = 4 then x.rawCoded + 1 else x.rawCoded
    same := if coding = 3 then x.same + 1 else x.same
    denied := if coding = 6 then x.denied + 1 else x.denied
    srcEcc := if coding = 7 then sat16 x.srcEcc else x.srcEcc
    notHalted := if coding = 8 then sat16 x.notHalted else x.notHalted
    demoted := if demoted then sat32 x.demoted 1 else x.demoted }

/-- One block stored in part k of a job as the next of segment i (R161, R168). On the native path its bytes go through the
post's buffer, whose entries leave it when it is full, at a commit or at a drain (R180; assumption 165). -/
def Job.store (j : Job) (k i : Nat) (g : Seg) (coding : Nat) (raw coded : List Byte) (demoted : Bool) : Job :=
  let x := j.parts.getD k { post := 0, lead := false, start64k := 0, res64k := 0 }
  let num := x.blocks.length
  let b := sealBlock j.key j.serial x.post i num coding raw coded
  let g1 := { g with
    firstBlock := if g.done = 0 then num else g.firstBlock
    blocks := g.blocks + 1
    done := g.done + raw.length
    captured := decide (g.len ≤ g.done + raw.length) }
  { j with segs := j.segs.set i g1, parts := j.parts.set k { x.count coding raw.length coded.length demoted with
      blocks := x.blocks ++ [{ b with cached := j.legacy && j.hint != 0 && !demoted }]
      wcb := if j.legacy then 0
        else min 64 (x.wcb + (x.bytes + storedSize coded.length + 255) / 256 - (x.bytes + 255) / 256) } }

/-! ### The end of parts and folios (R159, R166, R170, R176) -/

/-- Part k has nothing left to capture. -/
def Job.partDry (j : Job) (k : Nat) : Bool :=
  (j.fendBegun || j.cutShort) && (j.curSeg k).isNone

/-- Bytes a part has written: its blocks, and of the lead's metadata the header's place and the segment table from the job's
creation on, the part table and the trailer at its end (R159, Table FO-28). -/
def Job.written (j : Job) (k : Nat) : Nat :=
  let x := j.parts.getD k { post := 0, lead := false, start64k := 0, res64k := 0 }
  x.bytes + (if !x.lead then 0 else if j.ended then metaBytes j.segs.length j.parts.length
    else 256 + 32 * j.segs.length)

/-- Bytes a part stores: its blocks, and the lead's metadata (Table FO-28). -/
def Job.stored (j : Job) (k : Nat) : Nat :=
  let x := j.parts.getD k { post := 0, lead := false, start64k := 0, res64k := 0 }
  x.bytes + (if x.lead then metaBytes j.segs.length j.parts.length else 0)

/-- A part ends: its digest is formed, the committed pointer covers it, and what its reservation holds beyond the
stored bytes is released (R159, R179). -/
def Job.endPart (j : Job) (k : Nat) (state : Nat) : Job :=
  let x := j.parts.getD k { post := 0, lead := false, start64k := 0, res64k := 0 }
  let x1 := { x with
    state := state
    committed := x.bytes
    wcb := 0
    incomplete := state == 6
    unchecked := j.lone
    res64k := units64k (j.stored k)
    digest := Config.sha384 (x.blocks.flatMap (fun b => b.hashed j.serial)) }
  { j with parts := j.parts.set k x1 }

/-- A segment left out of a folio that ends early: PARTIAL when it has blocks, else SKIPPED (R167, R185). -/
def Seg.leftOut (g : Seg) : Seg :=
  if g.captured then g else if 0 < g.done then { g with partialSeg := true } else { g with skipped := true }

/-- COMPLETE: every planned segment captured, no line lost, every part ended normally (R166). -/
def Job.whole (j : Job) : Bool :=
  !j.cutShort && !j.lossFlag && (j.segs.take j.planned).all (fun g => g.captured && !g.partialSeg && !g.skipped) &&
  j.parts.all (fun x => x.state == 5)

/-- The segment table entry (Table FO-8). -/
def Seg.entry (g : Seg) : List Byte :=
  leBytes 3 g.uno ++ leBytes 1 g.space ++ leBytes 1 g.part ++
    leBytes 1 (bitNat g.captured + 2 * bitNat g.skipped + 4 * bitNat g.partialSeg + 8 * bitNat g.live + 16 * bitNat g.delta) ++
    leBytes 2 0 ++ leBytes 8 g.off ++ leBytes 8 g.len ++ leBytes 4 g.firstBlock ++ leBytes 4 g.blocks

/-- A digest of 48 bytes in digest order. -/
def digestBytes (d : BitVec 384) : List Byte := (leBytes 48 d.toNat).reverse

/-- The part table entry (Table FO-9). -/
def Part.entry (x : Part) : List Byte :=
  leBytes 1 x.post ++ leBytes 1 (bitNat x.adopted + 2 * bitNat x.incomplete + 4 * bitNat x.unchecked) ++ leBytes 2 0 ++
    leBytes 4 x.blocks.length ++ leBytes 8 x.bytes ++ digestBytes x.digest

/-- TOTAL_BYTES of a folio (Table FO-6). -/
def Job.totalBytes (j : Job) : Nat :=
  256 + 32 * j.segs.length + (j.parts.map (·.bytes)).sum + 64 * j.parts.length + 64

/-- The trailer digest: SHA-384 of segment table and part table (R170). -/
def Job.tableDigest (j : Job) : BitVec 384 :=
  Config.sha384 (j.segs.flatMap Seg.entry ++ j.parts.flatMap Part.entry)

/-- The FLAGS bytes of a job's cut records. -/
def Job.cutFlags (j : Job) : List Nat :=
  j.parts.flatMap (fun x => (x.blocks.filter (fun b => ((j.segs.map (·.space)).getD b.seg 0) == 8)).flatMap
    (fun b => (rangeFrom 0 (b.raw.length / 32)).map (fun i => fieldAt b.raw (32 * i + 4) 2)))

/-- FLAGS of the header (Table FO-7). -/
def Job.headerFlags (j : Job) (rendered : Bool) : Nat :=
  let fs := j.cutFlags
  bitNat j.delta + 2 * bitNat j.legacy + 4 * bitNat j.lone + 8 * bitNat (fs.any (fun f => bitAt f 1)) +
  16 * bitNat (fs.any (fun f => bitAt f 3)) + 32 * bitNat (j.eccBlocks != 0) + 64 * bitNat j.lossFlag +
  128 * bitNat (fs.any (fun f => bitAt f 0)) + 256 * bitNat j.residue + 512 * bitNat j.margin +
  1024 * bitNat j.cartouches + 2048 * bitNat j.trimmed + 4096 * bitNat (j.parts.any (·.adopted)) +
  8192 * bitNat rendered + 16384 * bitNat (fs.any (fun f => bitAt f 2))

/-- The header of a finished folio; a rendered copy clears SEAL, the key fields and DIGEST (Table FO-7, R184). -/
def Job.header (j : Job) (slot : Nat) (refSerial : BitVec 32) (rendered : Bool) : List Byte :=
  let raw := (j.segs.map (·.done)).sum
  let lost := (j.segs.filter (fun g => g.skipped || g.partialSeg)).length
  let body := leBytes 4 0x494C4F46 ++ leBytes 2 1 ++ leBytes 1 (if j.state = .complete then 1 else 2) ++
    leBytes 1 (if rendered then 0 else j.sealMode) ++ leBytes 2 j.ctx ++ leBytes 2 (j.headerFlags rendered) ++
    leBytes 4 j.serial.toNat ++ leBytes 1 slot ++ leBytes 1 j.parts.length ++ leBytes 2 j.hop.toNat ++
    leBytes 3 j.scope ++ leBytes 1 0 ++ leBytes 8 j.cutT.toNat ++ leBytes 8 j.beginT.toNat ++ leBytes 8 j.endT.toNat ++
    leBytes 4 j.segs.length ++ leBytes 4 refSerial.toNat ++ leBytes 8 raw ++ leBytes 8 j.totalBytes ++
    leBytes 4 j.eccBlocks ++ leBytes 4 lost ++ leBytes 8 (if rendered then 0 else j.keyId.toNat) ++
    leBytes 40 (if rendered then 0 else j.wrapped.toNat) ++
    (if rendered then List.replicate 48 0 else digestBytes j.tableDigest) ++ List.replicate 76 0
  body ++ leBytes 4 (crc32c body).toNat

/-- A rendered copy of a block: plain data and plain CHECK (R184). -/
def Block.render (b : Block) (serial : BitVec 32) : Block :=
  { b with sealing := false, data := b.coded,
           check := sha384Head (blockHeader b.raw.length b.coded.length b.coding false false b.seg b.num serial ++ b.coded) }

/-- The whole folio stream (R164), sealed as stored or rendered. -/
def Job.stream (j : Job) (slot : Nat) (refSerial : BitVec 32) (rendered : Bool) : List Byte :=
  let parts := if rendered then j.parts.map (fun x =>
      let bs := x.blocks.map (fun b => b.render j.serial)
      { x with blocks := bs, digest := Config.sha384 (bs.flatMap (fun b => b.hashed j.serial)) }) else j.parts
  let j1 := { j with parts := parts }
  j1.header slot refSerial rendered ++ j1.segs.flatMap Seg.entry ++
    parts.flatMap (fun x => x.blocks.flatMap (fun b => b.bytes j.serial)) ++ parts.flatMap Part.entry ++
    leBytes 4 0x4C525446 ++ leBytes 4 0 ++ leBytes 8 j.totalBytes ++ digestBytes j1.tableDigest

/-- SERIAL of a job's delta reference. -/
def State.refSerial (s : State) (j : Job) : BitVec 32 := ((j.refJob.bind s.job).map (·.serial)).getD 0

/-- The next part that waits on half q starts: the earliest start first (R160). -/
def State.startQueued (s : State) (q : Nat) : State :=
  if s.capturing q then s
  else
    let waiting := s.folios.jobs.filterMap (fun e => match e.2 with
      | some j => if j.parts.any (fun x => x.post == q && x.state == 2) then some (j.queued, e.1) else none
      | none => none)
    match (waiting.map (·.1)).min? with
    | none => s
    | some n =>
      match waiting.find? (fun w => w.1 == n) with
      | none => s
      | some w => match s.job w.2 with
        | none => s
        | some j => s.setJob w.2 (some { j with parts := j.parts.map (fun x =>
            if x.post == q && x.state == 2 then { x with state := 3 } else x) })

/-- The FEND of an engine that waits for this job has its outcome (R289). -/
def State.fendResult (s : State) (e slot status : Nat) : State :=
  let g := s.engine e
  if g.fendJob = some slot then s.setEngine e { g with fendDone := some status } else s

/-- The trailer and header are written: the job is COMPLETE or INCOMPLETE, its key is erased, JOB_DONE goes to its
creator and the running capture's reference drops (R166, R176, R185, Table HO-6). A folio ended before FEND raises
one FOLIO INCOMPLETE. -/
def State.finishJob (s : State) (slot : Nat) : State :=
  match s.job slot with
  | none => s
  | some j =>
    if j.ended then s
    else
      let wasRunning := j.running
      let whole := j.whole
      let j1 := { j with state := if whole then .complete else .incomplete, endT := s.pkg.meridian, key := none,
                         leadRes := j.leadRes, total := j.totalBytes }
      let s1 := s.setJob slot (some j1)
      let s2 := if whole then s1 else if j.cutShort then s1.folioReport j.leadPost 1 j.serial j.ctx else s1
      let s3 := s2.emit j.owner (s2.event EventType.jobDone (if whole then Status.ok else Status.incomplete) j.owner 0xFF
        (objectWord ObjKind.job slot) (word j.serial.toNat) (word j1.totalBytes))
      let s4 := match j.engine with
        | some e => (s3.fendResult e slot (if whole then Status.ok else Status.incomplete)).engineEvent e 2
        | none => s3
      if wasRunning then s4.hubUnref ObjKind.job slot else s4

/-- A sealed folio that ends before its capture has started: its key is drawn and wrapped for the header, and seals no block
(R176, R185). -/
def State.keyUnused (s : State) (slot : Nat) (j : Job) : State :=
  if j.sealMode = 0 then s
  else (s.setJob slot (some { j with wrapped := Config.wrapKey j.keyId (Config.drbg256 s.drawn) })).draw

/-- A job is cut short: what it has not captured is PARTIAL or SKIPPED. With a segment in progress that may finish,
only the segments not begun are left out; otherwise the folio is written INCOMPLETE now (R185). -/
def State.cutJob (s : State) (slot : Nat) (finishBegun : Bool) : State :=
  match s.job slot with
  | none => s
  | some j =>
    if j.ended then s
    else
      let begun := fun (i : Nat) (g : Seg) => decide (i < j.planned) && decide (0 < g.done) && !g.captured
      let segs := ((rangeFrom 0 j.segs.length).zip j.segs).map (fun e =>
        if finishBegun && begun e.1 e.2 then e.2 else e.2.leftOut)
      let j1 := { j with segs := segs, cutShort := true, fendBegun := true,
                         state := .ending }
      let s1 := s.setJob slot (some j1)
      let s1 := if j.state = .created then (s1.hubRef ObjKind.job slot).keyUnused slot j1 else s1
      if finishBegun && ((rangeFrom 0 j.segs.length).zip j.segs).any (fun e => begun e.1 e.2) then s1
      else
        let j2 := (rangeFrom 0 j1.parts.length).foldl (fun a k => a.endPart k 6) j1
        (s1.setJob slot (some j2)).finishJob slot

/-! ### Drains and the loss map (R185, R187) -/

/-- Entries of a post's write-combining buffer that hold data of its capturing part; a LEGACY part bypasses the buffer
(R180, R181, Table FO-30). -/
def State.wcbOccupancy (s : State) (q : Nat) : Nat :=
  (s.folios.jobs.map (fun e => match e.2 with
    | some j => ((j.parts.filter (fun x => x.post == q && (x.state == 3 || x.state == 4))).map (·.wcb)).sum
    | none => 0)).sum

/-- Entries that did not drain: a loss map entry, or OVERFLOW; the folio is marked LOSS and FOLIO WCB_LOSS is raised. -/
def State.wcbLoss (s : State) (slot : Nat) (j : Job) (q reason lines : Nat) : State :=
  let x := (j.partAt q).bind (fun k => j.parts[k]?)
  let block := (x.map (fun p => (p.blocks.filter (fun b =>
    decide (((p.blocks.take (b.num + 1)).map (fun y => storedSize y.coded.length)).sum ≤ p.committed))).length)).getD 0
  let e : Loss := { serial := j.serial, post := q, reason := reason, lines := lines, block := block }
  let f := s.folios
  let f1 := if f.loss.length < 64 then { f with loss := f.loss ++ [e] } else { f with overflow := sat16 f.overflow }
  (({ s with folios := f1 }).setJob slot (some { j with lossFlag := true })).folioReport q 3 j.serial j.ctx

/-- The capturing part of half q drains with `lines` entries left undrained, at most those that held data. -/
def State.drainPost (s : State) (q reason lines : Nat) : State :=
  let n := min lines (s.wcbOccupancy q)
  if n = 0 then s
  else match s.folios.jobs.find? (fun e => match e.2 with
      | some j => j.parts.any (fun x => x.post == q && (x.state == 3 || x.state == 4))
      | none => false) with
    | some (slot, some j) => s.wcbLoss slot j q reason n
    | _ => s

/-- Half q's capturing part after a drain that left `lines` entries undrained: the committed pointer is written at the end of
what drained, and the blocks beyond it are gone (R186, R188). -/
def Job.drained (j : Job) (q lines : Nat) : Job :=
  match j.partAt q with
  | none => j
  | some k =>
    { j with parts := j.parts.modify k (fun x =>
        if x.state = 3 ∨ x.state = 4 then
          { x with committed := if lines = 0 then x.bytes else max x.committed (((x.bytes + 255) / 256 - lines) * 256),
                   wcb := 0 }
        else x) }

/-- Several posts drain (R185). -/
def State.drainAll (s : State) (reason : Nat) (us : List Undrained) : State :=
  us.foldl (fun t u => t.drainPost u.post reason u.lines) s

/-- A rescan of half q's part of a job accepts its blocks up to the committed pointer and no further (R186). -/
def Job.rescan (j : Job) (q : Nat) : Job :=
  match j.partAt q with
  | none => j
  | some k =>
    let x := j.parts.getD k { post := 0, lead := false, start64k := 0, res64k := 0 }
    let kept : List Block := x.blocks.filter (fun b =>
      decide (((x.blocks.take (b.num + 1)).map (fun y : Block => storedSize y.coded.length)).sum ≤ x.committed))
    let x1 := { x with
      blocks := kept
      bytes := (kept.map (fun y : Block => storedSize y.coded.length)).sum
      committed := min x.committed ((kept.map (fun y : Block => storedSize y.coded.length)).sum) }
    { j with
      parts := j.parts.set k x1.clearCounts
      segs := ((rangeFrom 0 j.segs.length).zip j.segs).map (fun e =>
        if e.2.part = k then
          let mine := kept.filter (fun b => b.seg == e.1)
          let done := (mine.map (fun b => b.raw.length)).sum
          { e.2 with done := done, blocks := mine.length, captured := e.2.captured && decide (e.2.len ≤ done) }
        else e.2) }

end Sys2Proof.Machine
end

