-- ==== Sys2Proof/Machine/SyncOps.lean ====
section
/-! DEFINITION. Synchronisation watch and deadlines (chapter 08): sampling, the wait graph and its findings, deadlock
records, policies with their halts, and deadline comparators. -/

namespace Sys2Proof.Machine

/-! ### Tables of the watch -/

def State.setWatch (s : State) (w : Watch) : State := { s with watch := w }
def State.waiter (s : State) (g : Uno) : Waiter := Tbl.get {} s.watch.waiters g
def State.watcher (s : State) (p : Nat) : Watcher := Tbl.get {} s.watch.watchers p
def State.setWatcher (s : State) (p : Nat) (v : Watcher) : State :=
  s.setWatch { s.watch with watchers := Tbl.set {} s.watch.watchers p v }
def State.policy (s : State) (c : Ctx) (r : Nat) : Policy := Tbl.get {} s.watch.policies (c * 2 + r)
def State.setPolicy (s : State) (c : Ctx) (r : Nat) (v : Policy) : State :=
  s.setWatch { s.watch with policies := Tbl.set {} s.watch.policies (c * 2 + r) v }
def State.deadlock (s : State) (c : Ctx) : Deadlock := Tbl.get {} s.watch.records c
def State.setDeadlock (s : State) (c : Ctx) (v : Deadlock) : State :=
  s.setWatch { s.watch with records := Tbl.set {} s.watch.records c v }
def State.deadline (s : State) (p i : Nat) : Deadline := Tbl.get {} s.watch.deadlines (p * 64 + i)
def State.setDeadline (s : State) (p i : Nat) (v : Deadline) : State :=
  s.setWatch { s.watch with deadlines := Tbl.set {} s.watch.deadlines (p * 64 + i) v }
def State.setSyncObj (s : State) (o : Uno) (v : SyncObj) : State :=
  s.setWatch { s.watch with objs := Tbl.set {} s.watch.objs o v }

/-! ### Who watches what (R228) -/

/-- The watch of a context is armed. -/
def State.watchOn (s : State) (c : Ctx) : Bool :=
  (s.policy c 0).cycleEn || (s.policy c 0).quiescEn || (s.policy c 1).cycleEn || (s.policy c 1).quiescEn

/-- Contexts with an armed watch, lowest first. -/
def State.watched (s : State) : List Ctx := ((s.watch.policies.map (fun e => e.1 / 2)).dedup).filter s.watchOn

/-- The posts of the halves that hold a cluster or an object of a context's partition. -/
def State.ctxPosts (s : State) (c : Ctx) : List Nat :=
  let part := match s.partOfCtx c with
    | some (v, _) => s.postsIn v
    | none => []
  let objs : List Nat := (s.watch.objs.filter (fun (e : Nat × SyncObj) => e.2.ctx == c)).filterMap
    (fun (e : Nat × SyncObj) => postOf s.pkg.member e.1)
  (rangeFrom 0 s.pkg.member.posts).filter (fun p => part.contains p || objs.contains p)

/-- The watcher of half p is armed: none is before start-up has enumerated the package (R228, Table SW-5). -/
def State.watcherArmed (s : State) (p : Nat) : Bool :=
  decide (7 ≤ s.pkg.bootStep) && s.watched.any (fun c => (s.ctxPosts c).contains p)

/-- INTERVAL_US in ns. -/
def State.snapInterval (s : State) : Nat := 1000 * s.regBits RegMap.cmpSwCfg 0x10E00 0 20

/-! ### Sampling (R227, R231, Table SW-2) -/

/-- What the core taps of half p sample for each thread group (R227). -/
def State.groupsOf (s : State) (p : Nat) : List (Uno × Waiter) :=
  s.watch.waiters.filter (fun (e : Nat × Waiter) => postOf s.pkg.member e.1 == some p)

/-- The waiting thread groups among those sampled: group, object and wait generation. -/
def Watcher.waits (w : Watcher) : List (Uno × Uno × BitVec 32) :=
  w.newGroups.filterMap (fun e => e.2.obj.map (fun o => (e.1, o, e.2.gen)))

/-- Groups that wait on an object. -/
def State.waitersOn (s : State) (o : Uno) : Nat :=
  (s.watch.waiters.filter (fun (e : Nat × Waiter) => e.2.obj == some o)).length

/-- The entry of one object at a sampling (Table SW-2). -/
def State.snapEntry (s : State) (queued : List (Uno × Nat)) (o : Uno) : SnapEntry :=
  let m := s.pkg.member
  let x := s.syncObj o
  let w := s.waitersOn o
  let here := x.producers.filter (fun g => postOf m g == postOf m o)
  let q : Bool := queued.any (fun e => e.1 == o && decide (0 < e.2))
  { uno := o
    flags := bitNat (decide (0 < w)) + 2 * bitNat (here.any (fun g => (s.waiter g).obj.isNone)) + 4 * bitNat q +
      8 * bitNat (s.inst 4 o).any + 16 * bitNat (x.producers.any (fun g => postOf m g != postOf m o))
    waiters := min 65535 w
    producers := x.producers.length
    ctx := x.ctx
    prods := x.producers }

/-- The entries of half p's objects that sample anything, in index order. -/
def State.sampleBank (s : State) (p : Nat) (queued : List (Uno × Nat)) : List SnapEntry :=
  if !s.present (0x3300 + p) then []
  else
    let named : List Uno := s.watch.objs.map (·.1) ++ (s.watch.waiters.filterMap (fun (e : Nat × Waiter) => e.2.obj)) ++
      queued.map (·.1) ++ s.insts.filterMap (fun e => if e.1 / 0x1000000 = 4 then some (e.1 % 0x1000000) else none)
    ((rangeFrom (objUno p 0) 1024).filter (fun o => named.contains o)).map (s.snapEntry queued)

/-- A partition is not judged at this moment: a core halted or under STEP, or a freeze class applied (R236). -/
def State.barredNow (s : State) (c : Ctx) : Bool :=
  match s.partOfCtx c with
  | none => true
  | some (v, _) => (s.coresIn v).any (fun u => (s.core u).run != .running || (s.core u).halted) || s.freezeByte v != 0

/-- Half p samples at a scheduled time; a half that no running post serves gives no share (R246). -/
def State.samplePost (s : State) (env : AccelSample) (p : Nat) : State :=
  let w := s.watcher p
  if (s.server p).isNone then s.setWatcher p { w with sampling := none, newEntries := [], newGroups := [], bad := true }
  else s.setWatcher p { w with sampling := some s.pkg.meridian, newEntries := s.sampleBank p env.queued,
                               newGroups := s.groupsOf p, bad := false }

/-- Half p's bank tap samples for an unscheduled snapshot in the cycle its copy reaches the T_snap; one without a valid
copy counts on the master (R230; assumption 174). The queue depths come with the SNAP row. -/
def State.sampleEarly (s : State) (p : Nat) (w : Watcher) : Watcher :=
  match w.unsched with
  | some t =>
    if w.early.isNone ∧ t.toNat ≤ (s.copyNow (0x3300 + p)).getD s.now then { w with early := some (s.sampleBank p []) } else w
  | none => w

/-- Every unscheduled snapshot that is due samples. -/
def State.sampleDue (s : State) : State :=
  s.setWatch { s.watch with watchers := Tbl.mapVals {} s.sampleEarly s.watch.watchers }

/-- An early sample of half p with the queue depths that its bank tap sampled in the same cycle. -/
def withQueues (p : Nat) (queued : List (Uno × Nat)) (xs : List SnapEntry) : List SnapEntry :=
  let q (o : Uno) : Bool := queued.any (fun e => e.1 == o && decide (0 < e.2))
  ((rangeFrom (objUno p 0) 1024).filter (fun o => q o || xs.any (fun x => x.uno == o))).map (fun o =>
    let x : SnapEntry := (xs.find? (fun x => x.uno == o)).getD ⟨o, 0, 0, 0, 0, []⟩
    { x with flags := x.flags + 4 * bitNat (q o) })

/-- Open edges and wait records that half p would send (R231). -/
def State.sendCount (s : State) (p : Nat) (w : Watcher) : Nat :=
  let m := s.pkg.member
  let waits (g : Uno) : Bool := w.newGroups.any (fun e => e.1 == g && e.2.obj.isSome)
  let kept := w.newEntries.filter (fun e => decide (0 < e.waiters) &&
    (e.prods.filter (fun g => postOf m g == some p)).all waits)
  (kept.map (fun e => (e.prods.filter (fun g => postOf m g != some p)).length)).sum +
  (w.newGroups.filter (fun e => e.2.obj.isSome && e.2.remote)).length

/-! ### Findings (R233 to R235) -/

/-- The joined graph: every entry and wait of one snapshot. -/
structure Graph where
  entries : List SnapEntry
  waits   : List (Uno × Uno × BitVec 32)
deriving DecidableEq, Repr

/-- The snapshot as joined from the shares that were sent. -/
def State.joined (s : State) : Graph :=
  let ws := (s.watch.watchers.filter (fun (e : Nat × Watcher) => !e.2.bad)).map (·.2)
  { entries := ws.flatMap (·.newEntries), waits := ws.flatMap Watcher.waits }

/-- The object that a group waits on. -/
def Graph.waitOf (g : Graph) (u : Uno) : Option Uno := ((g.waits.find? (fun e => e.1 == u)).map (·.2.1))

/-- The thread group's cluster belongs to a context's partition. -/
def State.inPart (s : State) (c : Ctx) (g : Uno) : Bool := s.ctxOf g == c

/-- An object is blocked: it has waiters and producers and every producer waits; a producer outside the partition is
live (R226, R231). -/
def State.blocked (s : State) (g : Graph) (c : Ctx) (e : SnapEntry) : Bool :=
  decide (0 < e.waiters) && !e.prods.isEmpty && e.prods.all (fun u => s.inPart c u && (g.waitOf u).isSome)

/-- One pruning: objects with an edge out of the set leave it. -/
def Graph.prune (g : Graph) (xs : List SnapEntry) : List SnapEntry :=
  xs.filter (fun e => e.prods.all (fun u => match g.waitOf u with
    | some o => xs.any (fun x => x.uno == o)
    | none => false))

/-- Pruned `n` times. -/
def Graph.pruneN (g : Graph) : Nat → List SnapEntry → List SnapEntry
  | 0, xs => xs
  | n + 1, xs => Graph.pruneN g n (g.prune xs)

/-- The largest closed set of a context's partition (R233). -/
def State.closedSet (s : State) (g : Graph) (c : Ctx) : List SnapEntry :=
  let xs := g.entries.filter (fun e => e.ctx == c && s.blocked g c e)
  g.pruneN xs.length xs

/-- The waits of a partition's groups. -/
def State.partWaits (s : State) (g : Graph) (c : Ctx) : List (Uno × Uno × BitVec 32) :=
  g.waits.filter (fun e => s.inPart c e.1)

/-- An object's entry in the joined graph; one of a bank that no watcher sampled is as it stands. -/
def State.entryOf (s : State) (g : Graph) (o : Uno) : SnapEntry :=
  (g.entries.find? (fun e => e.uno == o)).getD (s.snapEntry [] o)

/-- A quiescent finding in a snapshot (R234). -/
def State.quietFinding (s : State) (g : Graph) (c : Ctx) : Bool :=
  let ws := s.partWaits g c
  let env := s.watch.env
  !ws.isEmpty &&
  (env.residents.filter (s.inPart c)).all (fun u => (g.waitOf u).isSome) &&
  ws.all (fun e => (s.entryOf g e.2.1).prods.all (s.inPart c)) &&
  !env.busyCores.any (fun u => s.ctxOf u == c) &&
  !env.busyClusters.any (fun u => s.ctxOf u == c) &&
  !(g.entries.any (fun e => e.ctx == c && bitAt e.flags 2)) &&
  !env.hostCtxs.contains c

/-- The groups concerned by a closed set: waiters of its objects and their producers (R235). -/
def Graph.cycleGroups (g : Graph) (xs : List SnapEntry) : List (Uno × BitVec 32) :=
  (g.waits.filter (fun e => xs.any (fun x => x.uno == e.2.1 || x.prods.contains e.1))).map (fun e => (e.1, e.2.2))

/-- A finding is confirmed: every group concerned waits with the generation it had in the snapshot before, and every
object concerned shows QUEUED 0 in both (R235). -/
def State.confirms (s : State) (gs : List (Uno × BitVec 32)) (xs : List SnapEntry) : Bool :=
  gs.all (fun e => s.watch.prevWaits.contains e) &&
  xs.all (fun x => !bitAt x.flags 2 && !s.watch.prevQueued.contains x.uno)

/-! ### Policy halts (R242, R243) -/

/-- A policy HALT of a row is waiting or incomplete. -/
def State.policyBusy (s : State) (c : Ctx) (r : Nat) : Bool :=
  s.watch.halts.any (fun h => h.ctx == c && h.row == r) ||
  s.hops.any (fun e => match e.2 with
    | some h => h.status == 1 && (match h.origin with
      | .policy c' r' _ => c' == c && r' == r
      | _ => false)
    | none => false)

/-- The HALT of a policy row: contour, on the partition, with the row's hold class (R242). -/
def policyReq (part : Uno) (row : Nat) : HopReq :=
  { kind := .halt, imm := false, scope := part, param := 0, who := none, hold := some (row == 0) }

/-- An issuer byte as an issuer: 128 is the Compass. -/
def issuerOf (i : Nat) : Option Nat := if i = 128 then none else some i

/-- A policy HALT accepted under its issuer; a partition that has gone halts nothing. -/
def State.issuePolicy (s : State) (h : PolHalt) : State :=
  match s.partOfCtx h.ctx with
  | none => s
  | some (v, _) =>
    let q := policyReq v h.row
    let i := issuerOf h.issuer
    (s.acceptHop i q (if s.hopImm i q then .urgent else .contour) (.policy h.ctx h.row h.folio)).1

/-- The row's job can still start: it has not, and it is CREATED while no PWR_WARN stands (R243, R246). -/
def State.policyJobReady (s : State) (c : Ctx) (r : Nat) : Bool :=
  let x := s.policy c r
  !x.started && !s.pkg.pwrWarn && (match x.job.bind s.job with
    | some j => j.state == .created
    | none => false)

/-- An action of a row: 0 REPORT, 1 HALT, 2 HALT_FOLIO. A HALT of the row that is waiting or incomplete absorbs it;
with 16 incomplete HOPs of its issuer it waits (R242, R243). -/
def State.policyAct (s : State) (c : Ctx) (r action issuer : Nat) : State :=
  if action = 0 || s.policyBusy c r then s
  else
    let folio := action == 2 && s.policyJobReady c r
    let s1 := if folio then s.setPolicy c r { s.policy c r with started := true } else s
    let h : PolHalt := { ctx := c, row := r, issuer := issuer, folio := folio }
    if s1.hopsPending (issuerOf issuer) < 16 then s1.issuePolicy h
    else s1.setWatch { s1.watch with halts := s1.watch.halts ++ [h] }

/-! ### Deadlines (R240, R241) -/

/-- Object word of a DEADLINE event: the record's context. -/
def deadlineEvent (s : State) (d : Deadline) (result : Nat) (doneT : Time) : Event :=
  s.event EventType.deadline result d.session 0xFF (objectWord ObjKind.context d.ctx) (word d.jobId.toNat) doneT

/-- An ARMED record takes a result with its DEADLINE event. `state`: 2 MET, 3 MISSED, 0 FREE. -/
def State.endDeadline (s : State) (p i state result : Nat) (doneT : Time) : State :=
  let d := s.deadline p i
  (s.setDeadline p i (if state = 0 then {} else { d with state := state, doneT := doneT })).emit d.session
    (deadlineEvent s d result doneT)

/-- Every record that satisfies `f` is cleared: one that is ARMED, or whose miss no post has applied yet, with its event
and the result (R241, Table SW-5). -/
def State.freeDeadlines (s : State) (f : Deadline → Bool) (result : Nat) : State :=
  s.watch.deadlines.foldl (fun t (e : Nat × Deadline) =>
    if f e.2 then (if e.2.state = 1 ∨ e.2.owed then t.endDeadline (e.1 / 64) (e.1 % 64) 0 result 0
      else t.setDeadline (e.1 / 64) (e.1 % 64) {}) else t) s

/-- The code of a miss and whether it halts (Table SW-4). A HALT_FOLIO that a waiting HALT of the row absorbs counts as
HALTED_FOLIO when that HALT carries the folio. -/
def State.missCode (s : State) (d : Deadline) (lone : Bool) : Nat :=
  let a := (s.policy d.ctx d.row).dm
  if lone || a == 0 then 1
  else if a = 1 then 2
  else if s.policyJobReady d.ctx d.row && !s.policyBusy d.ctx d.row then 3
  else if s.watch.halts.any (fun h => h.ctx == d.ctx && h.row == d.row && h.folio) ||
    s.hops.any (fun e => match e.2 with
      | some h => h.status == 1 && h.origin == .policy d.ctx d.row true
      | none => false) then 3
  else 4

/-- What the serving post does at a miss (R241): event DEADLINE, the cartouche, DM_ACTION and the host event. In lone
survey no action is applied (R246). `at_` is the miss time for the cartouche. -/
def State.applyMiss (s : State) (p q i : Nat) : State :=
  let d := s.deadline p i
  let lone := (s.post q).lone
  let code := s.missCode d lone
  let s1 := s.setDeadline p i { d with owed := false }
  let s2 := s1.engineEvent q 6
  let late := { s2 with pkg := { s2.pkg with meridian := d.doneT } }
  let r := (late.report (halfUno p) Class.deadlineMiss code (leBytes 4 d.jobId.toNat) d.ctx)
  let s3 := { r with pkg := { r.pkg with meridian := s2.pkg.meridian } }
  let s4 := if lone then s3 else s3.policyAct d.ctx d.row (s.policy d.ctx d.row).dm q
  s4.emit d.session (deadlineEvent s4 d 1 d.doneT)

/-- Owed results of half p are applied by the post that now serves it (R241). -/
def State.applyOwed (s : State) (p : Nat) : State :=
  match s.server p with
  | none => s
  | some q => (rangeFrom 0 64).foldl (fun t i => if (t.deadline p i).owed then t.applyMiss p q i else t) s

/-- An operation gives an object a value: records armed on it whose target it reaches by their deadline are MET, with
the bank's stamp; one without a valid copy stamps nothing and meets no record (R240). -/
def State.objWrite (s : State) (o : Uno) (v : Word) : State :=
  let p := (postOf s.pkg.member o).getD 0
  let s1 := s.setSyncObj o { s.syncObj o with value := v }
  match s.copyNow (0x3300 + p) with
  | none => s1
  | some t => (rangeFrom 0 64).foldl (fun r i =>
      let d := r.deadline p i
      if d.state = 1 ∧ objUno p d.obj = o ∧ d.target.toNat ≤ v.toNat ∧ t ≤ d.t.toNat then
        r.endDeadline p i 2 0 (word t)
      else r) s1

/-- The deadlock record of a context at NONE. -/
def State.clearDeadlock (s : State) (c : Ctx) : State := s.setDeadlock c {}

/-- A context's rows are cleared: the hub's references on their jobs drop (R244, R246). -/
def State.clearPolicies (s : State) (c : Ctx) : State :=
  (rangeFrom 0 2).foldl (fun t r =>
    let t1 := match (t.policy c r).job with
      | some j => t.hubUnref ObjKind.job j
      | none => t
    t1.setPolicy c r {}) (s.setWatch { s.watch with halts := s.watch.halts.filter (fun h => h.ctx != c) })

end Sys2Proof.Machine
end

