-- ==== Sys2Proof/Machine/Objects.lean ====
section
/-! DEFINITION. The life of shared objects (R390 to R396): the return of engines, the destruction of a partition, and
the death of counted objects whose count has reached zero. -/

namespace Sys2Proof.Machine

/-! ### Engines go back to the resident program (R72) -/

/-- The program that holds folios open is gone: what has not begun is skipped (R185, Table FO-16); the jobs no longer
belong to the engine. -/
def State.dropEngineJobs (s : State) (e : Nat) (forget : Bool) : State :=
  (Tbl.keysSome s.folios.jobs).foldl (fun t j =>
    match t.job j with
    | none => t
    | some x =>
      if x.engine != some e then t
      else
        let t1 := if !x.ended && !x.fendBegun then t.cutJob j true else t
        if forget then
          match t1.job j with
          | some y => t1.setJob j (some { y with engine := none })
          | none => t1
        else t1) s

/-- An engine returns to its resident program: the user program stops and the engine enters RESTORING (R72). `why` is
STOP_REASON (Table QE-10): 0 leaves it, as a RELEASE has no code of its own. -/
def State.returnEngine (s : State) (e why : Nat) : State :=
  let g := s.engine e
  if g.owner.isNone then s
  else
    let s1 := s.dropEngineJobs e true
    let g := s1.engine e
    s1.setEngine e { g with state := .restoring, owner := none, loaded := false, dirty := false, tags := [],
                            force := [], sleepEnd := none, fendJob := none, fendDone := none, pst := none, stepBlocked := false,
                            stopReason := if why = 0 then g.stopReason else why }

/-! ### Freed slots -/

/-- No session holds the object any more. -/
def State.purgeHolds (s : State) (kind slot : Nat) : State :=
  { s with auth := { s.auth with sessions := s.auth.sessions.map (fun e =>
      (e.1, e.2.map (fun x => { x with holds := x.holds.filter (fun h => !(h.1 == kind && h.2.1 == slot)) }))) } }

/-- The slot of a counted object is free, and the Legend shows it (R61). -/
def State.freeRefs (s : State) (kind slot : Nat) : State := ((s.purgeHolds kind slot).setRefs kind slot {}).bumpGen

/-! ### Partitions (R110, R328, R340, R396) -/

/-- The flits held at a partition's boundary queues are discarded, one NET BOUNDARY_DISCARD report each (R110). -/
def State.discardBoundary (s : State) (v : Uno) : State :=
  s.bounds.foldl (fun t e =>
    if s.inScope v (e.1 % 0x10000) then
      (e.2.flits.foldl (fun r _ => r.netReport (e.1 / 0x10000) 2) t).setBound e.1 {}
    else t) s

/-- Hold bits and freezes of a partition's units cleared as its clusters stand in reset, and BW_FMD with the new binding
(R145, R396). -/
def State.resetPartition (s : State) (v : Uno) (c : Ctx) : State :=
  let s1 := (s.coresIn v).foldl (fun t u =>
    t.setCore u { t.core u with run := .running, settled := true, asleep := false, wakeHeld := false, holdP := false,
                                holdC := false, halted := false, precise := none, stops := [], fmd := 0 }) s
  let s2 := s1.rearmChains
  { s2 with insts := s2.insts.filter (fun e =>
      let cls := e.1 / 0x1000000
      let u := e.1 % 0x1000000
      !(if cls = 1 ∨ cls = 2 ∨ cls = 3 then u == v
        else if cls = 4 ∨ cls = 6 then s.ctxOf u == c
        else s.inScope v u)) }

/-- What partition destruction does but for the group's reference (R340, R396): grants and keys, sets, streams, policy
rows, the deadlock record, deadline records, boundary flits, holds, the binding. -/
def State.clearPartition (s : State) (slot : Uno) (g : Group) : State :=
  let c := g.ctx
  let s1 : State := { s with
    auth := { s.auth with
      regs := Tbl.set none s.auth.regs c none
      sessions := s.auth.sessions.map (fun e =>
        (e.1, e.2.map (fun x => { x with tenants := x.tenants.filter (fun t => t.ctx != c) }))) }
    cart := { s.cart with sigKeys := Tbl.set 0 s.cart.sigKeys c 0 } }
  let s2 := (Tbl.keysSome s1.sets).foldl (fun t i => match t.trigSet i with
    | some x => if x.ctx = c then t.unloadSet i 2 else t
    | none => t) s1
  let s3 := (Tbl.keysSome s2.trace.streams).foldl (fun t i => match t.stream i with
    | some x => if x.ctx = c then t.endStream i 2 else t
    | none => t) s2
  let s4 := ((s3.clearPolicies c).clearDeadlock c).freeDeadlines (fun d => d.ctx == c) 2
  let s5 := (s4.discardBoundary slot).resetPartition slot c
  ({ s5 with groups := Tbl.set none s5.groups slot (some { g with partition := false, ctx := 0, freezeSet := 0 }) }).bumpGen

/-! ### Death (R59, R393, Table HO-8) -/

/-- OBJECT_DIED goes to the creator's home ring. -/
def State.diedEvent (s : State) (kind slot : Nat) : State :=
  let w := (s.refs kind slot).creator
  s.emit w (s.event EventType.objectDied Status.ok w 0xFF (objectWord kind slot) 0 0)

/-- A dump job's slot and reservations are freed and its references drop. -/
def State.dropJob (s : State) (slot : Nat) : State :=
  match s.job slot with
  | none => s
  | some j =>
    let s1 := s.setJob slot none
    let s2 := match j.refJob with
      | some r => s1.hubUnref ObjKind.job r
      | none => s1
    if kindOf s.pkg.member j.scope = .group then s2.hubUnref ObjKind.group (j.scope - 0xF00000) else s2

/-- The live groups among a group's members (R58). -/
def State.memberGroups (s : State) (g : Group) : List Uno :=
  (s.groups.filter (fun e => e.2.isSome && g.members.any (fun r => memberHas r e.1))).map (·.1)

/-- A software group's slot is freed; a partition is first destroyed (R59, R396). -/
def State.dropGroup (s : State) (slot : Uno) : State :=
  match s.group slot with
  | none => s
  | some g =>
    let s1 := if g.partition then s.clearPartition slot g else s
    let s2 := (s1.memberGroups g).foldl (fun t u => t.hubUnref ObjKind.group (u - 0xF00000)) s1
    { s2 with groups := Tbl.set none s2.groups slot none }

/-- An unloading set's copies, places, lattice channel and job reference are freed, and SET_UNLOADED is written (R147). -/
def State.disarmNow (s : State) (slot : Nat) : State :=
  match s.trigSet slot with
  | none => s
  | some x =>
    let fires := s.setFires slot
    let s1 := (s.removeSet slot x).freeRefs ObjKind.set slot
    let s2 := match x.job with
      | some j => s1.hubUnref ObjKind.job j
      | none => s1
    s2.emit x.owner (s2.event EventType.setUnloaded x.reason x.owner 0xFF (objectWord ObjKind.set slot) 0 (word fires))

/-- An ending stream's parts and slot are freed and STREAM_ENDED is written (R266). -/
def State.streamGone (s : State) (slot : Nat) : State :=
  match s.stream slot with
  | none => s
  | some x =>
    let n := ((rangeFrom 0 s.pkg.member.posts).map (fun p => (s.tpart p slot).packets)).sum
    let s1 := (rangeFrom 0 s.pkg.member.posts).foldl (fun t p => t.setTpart p slot {}) s
    let s2 := (s1.setStream slot none).freeRefs ObjKind.stream slot
    s2.emit x.owner (s2.event EventType.streamEnded x.ending x.owner 0xFF (objectWord ObjKind.stream slot) 0 (word n))

/-- An object whose count has reached zero dies: OBJECT_DIED is written and it ends as Table HO-8 binds. A set and a
stream hold their slot until SET_DISARM and STREAM_ENDED. -/
def State.perish (s : State) (kind slot : Nat) : State :=
  let s1 := (s.diedEvent kind slot).setRefs kind slot { s.refs kind slot with dying := true }
  if kind = ObjKind.job then (s1.dropJob slot).freeRefs kind slot
  else if kind = ObjKind.set then s1.unloadSet slot 1
  else if kind = ObjKind.stream then s1.endStream slot 1
  else (s1.dropGroup (0xF00000 + slot)).freeRefs kind slot

/-- A live object with count zero. -/
def State.deadKey (s : State) : Option Nat :=
  (s.host.refs.find? (fun e => e.2.live && !e.2.dying && s.refCount (e.1 / 65536) (e.1 % 65536) == 0)).map (·.1)

/-- Objects die, one after the other, at most `n` (a death drops references that others held). -/
def State.reapN : Nat → State → State
  | 0, s => s
  | n + 1, s => match s.deadKey with
    | none => s
    | some k => State.reapN n (s.perish (k / 65536) (k % 65536))

/-- Every object whose count has reached zero dies (R393). -/
def State.reap (s : State) : State := State.reapN s.host.refs.length s

end Sys2Proof.Machine
end

