-- ==== Sys2Proof/Machine/LoneOps.lean ====
section
/-! DEFINITION. Lone survey (R190, R220 to R223): the policy halts that a post issues and the folios that it writes once
they complete. -/

namespace Sys2Proof.Machine

/-- The contexts that hold clusters of half h with one of these policies (R221). -/
def State.loneCtxs (s : State) (h : Nat) (pols : List Nat) : List Ctx :=
  (((halfClusters h).filter (fun c => s.present c && pols.contains (s.lonePolicy h ((c - 0x1000) % 64)))).map s.ctxOf).eraseDups

/-- The clusters of a context on half h whose policy halts them. -/
def State.loneClusters (s : State) (h : Nat) (c : Ctx) : List Uno :=
  (halfClusters h).filter (fun cl => s.present cl && s.ctxOf cl == c &&
    decide (s.lonePolicy h ((cl - 0x1000) % 64) ≤ 1))

/-- The policy HALT of one context: contour with the post's defaults, hold class PLATFORM; with no meridian to read it
is immediate (R97, R221). -/
def State.loneHalt (s : State) (p h : Nat) (c : Ctx) : State :=
  let q : HopReq := { kind := .halt, imm := false, scope := halfUno h, param := 0, who := none, hold := some true }
  let r := s.acceptHop (some p) q (if s.hopImm (some p) q then .urgent else .contour) (.lone p c)
  let cores := (s.loneClusters h c).flatMap s.clusterCores
  match r.1.hop r.2 with
  | none => r.1
  | some x =>
      let insts := (cores.flatMap (fun u => s.coreInsts (s.haltClasses 0 u) u)).eraseDups
      r.1.setHop r.2 { x with cores := cores, ctx := c, iwait := insts, insts := insts }

/-- The policy of a post that enters lone survey, for each half that it serves (R221). -/
def State.lonePolicies (s : State) (p : Nat) : State :=
  ([p, p ^^^ 1].filter (fun h => s.server h == some p)).foldl (fun t h =>
    (s.loneCtxs h [0, 1]).foldl (fun r c => r.loneHalt p h c) t) s

/-- The SEAL value of a lone folio: to its context's key, or the operator's for context 0 in PRODUCTION (R190). -/
def State.loneSeal (s : State) (c : Ctx) : Nat :=
  if s.sealOk 1 c then 1 else if s.sealOk 2 c then 2 else 0

/-- The segments of a lone folio with their worst-case costs, in the order in which they are fitted: cut, margin,
cartouches, then cluster states in UNO order (R190). -/
def State.loneSegs (s : State) (h : Nat) (cls : List Uno) (cores : Nat) : List (Seg × Nat) :=
  let special (sp n : Nat) : Seg × Nat := ({ uno := halfUno h, space := sp, part := 0, off := 0, len := 0 }, blocksCost n)
  [special 8 (32 * cores), special 9 (98304 * cls.length), special 0xB 131072] ++
    cls.map (fun cl => ({ uno := cl, space := 0, part := 0, off := 0, len := s.stateSizePhys cl }, blocksCost (s.stateSizePhys cl)))

/-- How many of the segments fit into `room` bytes. -/
def loneFit : Nat → List (Seg × Nat) → Nat
  | _, [] => 0
  | room, x :: r => if x.2 ≤ room then 1 + loneFit (room - x.2) r else 0

/-- One context's folio on half h, in h's region: a job that captures from the start, in the lowest free slot (R190). Its
header holds HOP 0 and as CUT_T the meridian at which the folio is written: no one HALT set HALTED on the half, and the
spec gives CUT_T as the T of one (DESIGN CHOICE, assumption 167). -/
def State.loneFolio (s : State) (p h : Nat) (c : Ctx) : State :=
  let cls := (s.loneClusters h c).filter (fun cl => s.lonePolicy h ((cl - 0x1000) % 64) == 0)
  let cores := (cls.flatMap s.clusterCores).length
  let all := s.loneSegs h cls cores
  let fits := loneFit (s.regionFree h * 65536 - metaBytes all.length 1) all
  let kept := ((rangeFrom 0 all.length).zip all).map (fun e => { e.2.1 with skipped := decide (fits ≤ e.1) })
  let segs := kept.drop 3 ++ kept.take 3
  let units := units64k (metaBytes all.length 1 + ((all.take fits).map (·.2)).sum)
  match firstBelow (fun i => (s.job i).isNone) 64 with
  | none => s
  | some slot =>
    let sm := s.loneSeal c
    let key := Config.drbg256 s.drawn
    let kid := s.sealKid sm c
    let j : Job := {
      state := .capturing
      owner := 256
      engine := none
      ctx := c
      platform := c == 0
      sealMode := sm
      delta := false
      residue := false
      margin := true
      cartouches := true
      legacy := false
      hint := 0
      marksMax := 0
      refJob := none
      scope := halfUno h
      entries := 0
      serial := s.folios.serial
      segs := segs
      planned := kept.length - 3
      parts := [{ post := h, state := (if s.engineClaimed h then 2 else 3), lead := true, adopted := p != h,
                  start64k := s.regionStart h units, res64k := units }]
      beginT := s.pkg.meridian
      cutT := s.pkg.meridian
      keyId := kid
      leadPost := h
      lone := true
      skipHalt := true
      fendBegun := true
      trimmed := decide (fits < all.length)
      queued := s.folios.started
      key := if sm = 0 then none else some key
      wrapped := if sm = 0 then 0 else Config.wrapKey kid key }
    let s1 := ((s.draw.setJob slot (some j)).setRefs ObjKind.job slot
      { live := true, hub := 1, kept := 1, creator := 256 }).bumpGen
    let s2 : State := { s1 with folios := { s1.folios with serial := nextSerial s1.folios.serial,
                                                           started := s1.folios.started + 1 } }
    let s3 := s2.setPost p { s2.post p with loneFolios := (s2.post p).loneFolios + 1 }
    if j.trimmed then s3.folioReport h 5 j.serial c else s3

/-- A policy halt of post p still runs. -/
def State.loneBusy (s : State) (p : Nat) : Bool :=
  s.hops.any (fun e => match e.2 with
    | some h => h.status == 1 && (match h.origin with
      | .lone q _ => q == p
      | _ => false)
    | none => false)

/-- Once every policy halt of a post has completed, it writes the folio of each HALT_FOLIO context (R190, R221). -/
def State.loneFolios (s : State) (p : Nat) : State :=
  if s.loneBusy p then s
  else ([p, p ^^^ 1].filter (fun h => s.server h == some p)).foldl (fun t h =>
    (s.loneCtxs h [0]).foldl (fun r c => r.loneFolio p h c) t) s

end Sys2Proof.Machine
end

