-- ==== Sys2Proof/Machine/Break.lean ====
section
/-! DEFINITION. Break and watch (chapter 05): loading, arming and unloading of trigger sets, matches, counters and
chains. -/

namespace Sys2Proof.Machine

/-! ### Trigger sets -/

/-- The posts whose wake a set's load waits for (R146 step 9). -/
def State.setWakePosts (s : State) (x : TrigSet) : List Nat :=
  ((x.elems.filter (fun e => e.kind == 7 || (e.isChain && (e.action == 4 || e.action == 5)))).flatMap s.elemPosts).eraseDups

/-- The posts that a set needs: those of its wake, and those on which its halting actions reserve places (R139, R218). -/
def State.setNeedPosts (s : State) (x : TrigSet) : List Nat :=
  (s.setWakePosts x ++ (x.elems.filter (fun e => Elem.isHalt e.action)).flatMap s.elemPosts).eraseDups

/-- The posts whose engines a START_CAPTURE element needs. -/
def State.startPosts (s : State) (x : TrigSet) : List Nat :=
  ((x.elems.filter (fun e => e.action == 5)).flatMap s.elemPosts).eraseDups

/-- Hold class of a set (R94, Table BW-9). -/
def State.setPlatform (s : State) (who : Option Nat) (ctx : Ctx) : Bool := ctx == 0 || s.openState || s.isMaker who

/-- Checks 1 to 8 and the refusal of check 9 of R146, and that of R218. -/
def State.setChecks (s : State) (c : CmdCtx) (slot : Nat) (arg : List Byte) (x : TrigSet) : List (Bool × Nat) :=
  [((s.trigSet slot).isNone && decide (slot < 1024), Status.slotBusy),
   (!s.life.lockdown, Status.lockdown),
   (setLegal arg, Status.setFormat),
   (s.present x.scope && x.elems.all (fun e => s.present e.place), Status.unitAbsent),
   (s.placesIn x, Status.setScope),
   ((s.life.state != .endOfLife || s.isAnalysis c.who) && (!x.ctxAny || s.anyCtxOk c.who) &&
      x.elems.all (s.elemAccess c.who x.ctx), Status.unitDenied),
   ((!x.elems.any (fun e => e.kind == 1 || e.kind == 2 || e.kind == 4) || s.capable x.scope 7) &&
      (!x.elems.any (fun e => e.kind == 3) || s.capable x.scope 11) &&
      (!x.elems.any (fun e => e.action == 2) || s.capable x.scope 10), Status.notCapable),
   (s.setAgrees x, Status.setConflict),
   (s.noneGated (s.setWakePosts x), Status.postGated),
   (s.noneUnserved (s.setNeedPosts x), Status.postLost)]

/-- Checks 10 to 14 of R146. -/
def State.setChecks2 (s : State) (x : TrigSet) : List (Bool × Nat) :=
  let ps := (x.elems.flatMap s.elemPosts).eraseDups
  let job := x.job.bind (fun j => (Tbl.get none s.folios.jobs j).map (fun r => (j, r)))
  [((s.startPosts x).all (fun p => !s.taken p), Status.engineBusy),
   (s.kindFits x 1 && s.kindFits x 2 && s.kindFits x 3 && s.kindFits x 5, Status.bwTapFull),
   (s.kindFits x 4 && s.kindFits x 6, Status.bwStationFull),
   (s.kindFits x 7, Status.bwCombinerFull),
   (!x.needsLane || s.freeLane.isSome, Status.latticeFull),
   ((ps.map s.chainIssuer).all (fun p => decide (s.placesNeeded x p ≤ s.placesFree p)), Status.actionFull),
   (match x.job, job with
    | none, _ => true
    | some _, some (_, r) => r.state == .created && r.ctx == x.ctx
    | some _, none => false, Status.jobState),
   (match x.job with
    | none => true
    | some j => s.canRef ObjKind.job j, Status.refLimit)]

/-- SET_LOAD (R128 to R130, R146, R147, R23, R139): judged in order, waiting for a wake at step 9; then every copy is
placed, to be armed at T_arm. -/
def execSetLoad (c : CmdCtx) (slot : Nat) (arg : List Byte) (s : State) : Out :=
  let x0 := setOf c.session (s.setPlatform c.who (fieldAt arg 0x0C 2)) arg (word (s.now + s.defLead none))
  .next (s.creates c ObjKind.set slot (s.setChecks c slot arg x0) (fun s =>
    let sleeping := (s.setWakePosts x0).filter s.postAsleep
    if !sleeping.isEmpty then s.waitFor (.setLoad c slot arg) sleeping
    else s.judged c (s.setChecks2 x0) (fun s =>
      let x := { x0 with lane := if x0.needsLane then s.freeLane else none }
      let s1 := (s.placeSet slot x).newRef c.session ObjKind.set slot
      let s2 := match x.job with
        | some j => s1.hubRef ObjKind.job j
        | none => s1
      let s3 := s2.usePosts c.session (s.setWakePosts x ++ x.elems.flatMap s.elemPosts)
      s3.complete c Status.ok (objectWord ObjKind.set slot) 0)))

/-- SET_ARM (R147): at T_arm every copy of a placed set is armed. -/
def execSetArm (slot : Nat) (s : State) : Out :=
  match s.trigSet slot with
  | none => .next s
  | some x => if x.state = 1 ∧ x.tArm.toNat ≤ s.now then .next (s.armSet slot x) else .next s

/-- SET_DISARM (R147, R148, R393): an unloading set's copies, places, lattice channel and job reference are freed and
SET_UNLOADED is written. Unloads wait until a Compass is active. -/
def execSetDisarm (slot : Nat) (s : State) : Out :=
  match s.trigSet slot with
  | none => .next s
  | some x =>
    if x.state ≠ 5 ∨ s.pkg.bothDead then .next s else .next (s.disarmNow slot).reap

/-! ### Matches -/

/-- IAC_MATCH (R131, R133, R136): thread group `tg` of a core issues the instruction at `addr`. -/
def execIacMatch (core : Uno) (n : Nat) (tg : Nat) (addr : Nat) (s : State) : Out :=
  let c := s.cmp (cmpKey core n)
  if n < 4 ∧ s.executes core ∧ s.acts c.ctl.toNat core ∧ tgOk c.ctl.toNat tg ∧ c.issueHit addr then
    .next (s.tapMatch core n 7 n)
  else .next s

/-- DAC_MATCH (R132, R133, R136): a load or store of thread group `tg`, at issue, or a load with value match at write-back,
which may follow a stop. -/
def execDacMatch (core : Uno) (n : Nat) (tg : Nat) (store : Bool) (lanes : List Lane) (s : State) : Out :=
  let c := s.cmp (cmpKey core (4 + n))
  if n < 4 ∧ s.accesses core c.ctl.toNat store ∧ s.acts c.ctl.toNat core ∧ tgOk c.ctl.toNat tg ∧ c.accessHit store lanes then
    .next (s.tapMatch core (4 + n) 8 n)
  else .next s

/-- What a station comparator watches meets it (R135). The matched unit is the core, or the cluster for DMA. -/
def State.scmpHit (s : State) (cluster : Uno) (c : Cmp) (ev : ScmpEvent) : Option Uno :=
  let w := c.ctl.toNat
  let unit (k : Nat) : Uno := 0x10000 + 16 * (cluster - 0x1000) + k
  match ev with
  | .issue k tg addr =>
    if ctlSource w = 0 ∧ ctlCore w = k ∧ s.executes (unit k) ∧ tgOk w tg ∧ c.issueHit addr then some (unit k) else none
  | .access k tg store lanes =>
    if ctlSource w = 1 ∧ ctlCore w = k ∧ s.accesses (unit k) w store ∧ tgOk w tg ∧ c.accessHit store lanes then some (unit k)
    else none
  | .dma store lane => if ctlSource w = 2 ∧ c.accessHit store [lane] then some cluster else none

/-- SCMP_MATCH (R135, R136): a station comparator matches, in CNET cycle `cyc` within this ns, and the station's chains of its
set take it. -/
def execScmpMatch (cluster : Uno) (n : Nat) (ev : ScmpEvent) (cyc : Nat) (s : State) : Out :=
  let c := s.cmp (cmpKey cluster (8 + n))
  if n < 8 ∧ kindOf s.pkg.member cluster = .cluster ∧ s.present cluster ∧ s.acts c.ctl.toNat cluster then
    match s.scmpHit cluster c ev with
    | some u => .next (s.sourceAt cluster (c.owner.getD 0) c.elem u 4 cyc)
    | none => .next s
  else .next s

/-- What one core cycle can add to a counter: one for CYCLES, else at most one for each of 64 thread groups (R134). -/
def cycleEvents (evsel amount : Nat) : Nat := if evsel = 0 then min amount 1 else min amount 64

/-- COUNTER_EVENT (R134, R137): events of a core cycle, EVSEL 0 to 6; those of EVSEL 7 to 9 come with their matches
and fires. -/
def execCounterEvent (core : Uno) (n : Nat) (amount : Nat) (s : State) : Out :=
  let c := s.cnt (core * 16 + n)
  if n < 2 ∧ s.counts core (cntEvsel c.ctl.toNat) ∧ s.acts c.ctl.toNat core ∧ cntEvsel c.ctl.toNat ≤ 6 then
    .next (s.countAt core n (cycleEvents (cntEvsel c.ctl.toNat) amount))
  else .next s

/-- The unit that holds a chain and how many chains it has (Table BW-1). -/
def holderUnit : Holder → Uno × Nat
  | .tap core => (core, 2)
  | .station cluster => (cluster, 4)
  | .post p => (halfUno p, 16)

/-- A unit with an armed copy of the element, below the holder; it acts on execution under the set's context (R130, R133). -/
def State.sourceBelow (s : State) (slot src : Nat) (v u : Uno) : Bool :=
  s.inScope v u &&
  (match s.trigSet slot with
   | some x => x.ctxAny || x.ctx == s.ctxOf u
   | none => false) &&
  (s.cmps.any (fun e => e.2.owner == some slot && e.2.elem == src && ctlEn e.2.ctl.toNat && s.inScope (e.1 / 16) u) ||
   s.cnts.any (fun e => e.2.owner == some slot && e.2.elem == src && ctlEn e.2.ctl.toNat && s.inScope (e.1 / 16) u) ||
   s.chains.any (fun e => e.2.owner == some slot && e.2.elem == src && decide (2 ≤ e.2.state) && s.inScope (e.1 / 16) u))

/-- The source of an arriving match stands below the holder: an armed copy of the element, or a lattice or pin source at a
combiner (Table BW-5). -/
def State.arrives (s : State) (h : Holder) (slot src : Nat) (u : Uno) : Bool :=
  let v := (holderUnit h).1
  match h with
  | .tap _ => false
  | .station _ => s.sourceBelow slot src v u
  | .post p => (s.server p).isSome && (decide (20 ≤ src ∧ src ≤ 21) || s.sourceBelow slot src v u)

/-- STAGE_SOURCE_ARRIVAL (R133, R136, R137, R143): in cycle `cyc` of its clock within this ns, the matches or fires of `units`
reach a station chain or a combiner, ORed. They count once, and the matched unit is the lowest-numbered (Table BW-5). -/
def execStageSourceArrival (h : Holder) (chain : Nat) (src : Nat) (units : List Uno) (cyc : Nat) (s : State) : Out :=
  let hu := holderUnit h
  let key := hu.1 * 16 + chain
  match (s.chain key).owner with
  | none => .next s
  | some slot =>
    match (units.filter (s.arrives h slot src)).min? with
    | some u => if chain < hu.2 then .next (s.stageMatch key slot src u cyc).1 else .next s
    | none => .next s

/-- CHAIN_WINDOW_EXPIRY (R136, R148): WINDOW cycles of the chain's clock have passed since the previous stage was met;
a tap chain's clock stands while its core does not run. -/
def execChainWindowExpiry (h : Holder) (chain : Nat) (s : State) : Out :=
  let hu := holderUnit h
  let key := hu.1 * 16 + chain
  let c := s.chain key
  let runs : Bool := match h with
    | .tap core => s.executes core
    | _ => true
  if chain < hu.2 ∧ c.watching ∧ 0 < c.stage ∧ stageWindow c.stageWord ≠ 0 ∧ runs then .next (s.setChain key c.restart)
  else .next s

/-- COUNT_WRITE (R134, R150): COUNT is stored and SAT cleared for the loading session or a session with FULL on the
set's context; for any other it is an access to reserved space (R11). A write that reaches a half that no post serves is
dropped, neither clamped nor logged (R67). -/
def execCountWrite (p : Path) (core : Uno) (n : Nat) (v : Word) (s : State) : Out :=
  let who := s.actor p
  if s.present core && !((halfOf s.pkg.member core).bind s.server).isSome then .next s
  else if n < 2 ∧ s.present core ∧ kindOf s.pkg.member core = .core ∧ s.mayCount who (cmpKey core n) then
    .next (s.onBar p (s.cntWrite who core n false 0 64 v.toNat))
  else
    .next (s.onBar p (s.reservedReport
      { who := who, ctx := s.ctxOf core, log := postOf s.pkg.member core, off := 0x188 + 0x20 * n }))

/-- FETCH_MATCH_DISCARDED (R144, Table BW-8): a fetch that an armed IAC of the core's context would have matched is
discarded unissued. -/
def execFetchMatchDiscarded (core : Uno) (s : State) : Out :=
  let c := s.core core
  if s.executes core ∧ (rangeFrom 0 4).any (fun n => s.acts (s.cmp (cmpKey core n)).ctl.toNat core) then
    .next (s.setCore core { c with fmd := BitVec.ofNat 32 (sat32 c.fmd.toNat 1) })
  else .next s

end Sys2Proof.Machine
end

