-- ==== Sys2Proof/Machine/FlashOps.lean ====
section
/-! DEFINITION. The lifecycle flash (chapter 13): sectors, spares and writes, the six copies of the lifecycle record and
what they derive, and the update state of sector 3 (chapter 15). -/

namespace Sys2Proof.Machine

/-! ### Dies and sectors (R350 to R352, R367) -/

/-- The Compass dies whose flash is written: that of the active Compass, and the other while it lives (R351). -/
def State.flashDies (s : State) : List Nat :=
  [0, 1].filter (fun d => (d == 1) == s.pkg.activeB || (if d = 0 then s.pkg.healthA else s.pkg.healthB) == 1)

def State.sector (s : State) (die p : Nat) : Sector := Tbl.get {} s.life.sectors (die * 64 + p)

def State.setSector (s : State) (die p : Nat) (v : Sector) : State :=
  { s with life := { s.life with sectors := Tbl.set {} s.life.sectors (die * 64 + p) v } }

/-- Follows at most `n` retirements from a physical sector. -/
def State.followSector (s : State) (die : Nat) : Nat → Nat → Nat
  | 0, p => p
  | n + 1, p => if (s.sector die p).retired then s.followSector die n (s.sector die p).link else p

/-- The physical sector that serves a logical one. -/
def State.physOf (s : State) (die l : Nat) : Nat := s.followSector die 8 l

/-- Spares of a die that serve nothing and are not retired. -/
def State.freeSpares (s : State) (die : Nat) : List Nat :=
  (rangeFrom 56 8).filter (fun p => !(s.sector die p).inUse && !(s.sector die p).retired)

/-- The write limit of a sector. -/
def sectorLimit : Nat := 10000

/-- Spares that `n` writes of a logical sector would consume. -/
def State.sparesFor (s : State) (die l n : Nat) : Nat :=
  let left := sectorLimit - (s.sector die (s.physOf die l)).count
  if n ≤ left then 0 else (n - left + sectorLimit - 1) / sectorLimit

/-- Writes of these (sector, number) pairs find a write left or a free spare on every die. -/
def State.canWrite (s : State) (ws : List (Nat × Nat)) : Bool :=
  s.flashDies.all (fun d => decide ((ws.map (fun w => s.sparesFor d w.1 w.2)).sum ≤ (s.freeSpares d).length))

/-- The index of a LIFECYCLE report that names a sector (R368). -/
def sectorIndex (die p : Nat) : Nat := 0x8000 + 64 * die + p

/-- One write of a logical sector on one die: a worn sector's number moves to the lowest free spare (R367). -/
def State.writeOn (s : State) (l : Nat) (programmed : Bool) (die : Nat) : State :=
  let p := s.physOf die l
  let x := s.sector die p
  if x.count < sectorLimit then s.setSector die p { x with count := x.count + 1, programmed := programmed }
  else match (s.freeSpares die).head? with
    | none => s
    | some sp =>
      let s1 := s.setSector die p { x with retired := true, inUse := false, link := sp, programmed := false }
      (s1.setSector die sp { (s1.sector die sp) with inUse := true, link := l, count := 1, programmed := programmed }).lifeReport
        6 (sectorIndex die p)

/-- One write of a logical sector on both dies (R351, R352). -/
def State.writeSector (s : State) (l : Nat) (programmed : Bool) : State :=
  s.flashDies.foldl (fun t d => t.writeOn l programmed d) s

/-- The first of these (sector, number) pairs that finds no spare on a die, with the die (R367). -/
def State.wornAt (s : State) (ws : List (Nat × Nat)) : Option (Nat × Nat) :=
  (s.flashDies.flatMap (fun d =>
    if (s.freeSpares d).length < (ws.map (fun w => s.sparesFor d w.1 w.2)).sum then
      ((ws.filter (fun w => decide (0 < s.sparesFor d w.1 w.2))).drop (s.freeSpares d).length).map
        (fun w => (d, s.physOf d w.1)) ++
      (ws.filter (fun w => decide (0 < s.sparesFor d w.1 w.2))).map (fun w => (d, s.physOf d w.1))
    else [])).head?

/-- FLASH_WORN names the sector that finds no spare, or sector 0 of die A where no record slot is free (R366 to R368). -/
def State.wornReport (s : State) (ws : List (Nat × Nat)) : State :=
  match s.wornAt ws with
  | some x => s.lifeReport 7 (sectorIndex x.1 x.2)
  | none => s.lifeReport 7 (sectorIndex 0 0)

/-- A command refused with FLASH_WORN raises LIFECYCLE FLASH_WORN (R366, R367). -/
def State.refuseWorn (s : State) (c : CmdCtx) (ws : List (Nat × Nat)) : State := (s.wornReport ws).refuse c Status.flashWorn

/-- Sectors that hold a programmed bit are erased; each erase counts one write (R360). -/
def State.eraseSector (s : State) (l : Nat) : State :=
  s.flashDies.foldl (fun t d => if (t.sector d (t.physOf d l)).programmed then t.writeOn l false d else t) s

/-! ### Step records (R354 to R357) -/

/-- The record of copy c (A0 to A2, B0 to B2) at a position. -/
def State.stepRec (s : State) (c i : Nat) : StepRec := Tbl.get .erased s.life.copies (c * 192 + i)

def State.setStepRec (s : State) (c i : Nat) (v : StepRec) : State :=
  { s with life := { s.life with copies := Tbl.set .erased s.life.copies (c * 192 + i) v } }

/-- Copies on the reachable dies. -/
def State.copiesHere (s : State) : List Nat := s.flashDies.flatMap (fun d => [3 * d, 3 * d + 1, 3 * d + 2])

/-- A record with its CRC right and its TAG defined. -/
def StepRec.isValid : StepRec → Bool
  | .valid tag _ _ _ _ => decide (0xA1 ≤ tag ∧ tag ≤ 0xA4)
  | _ => false

/-- What a position resolves to (R356). -/
inductive Resolved where
  | absent
  | value (r : StepRec)
  | undecided
deriving DecidableEq, Repr

/-- The resolution of what copies hold at one position (R356). -/
def resolve (rs : List StepRec) : Resolved :=
  let vs := rs.filter StepRec.isValid
  match vs with
  | [] => .absent
  | _ => match vs.find? (fun r => decide (vs.length < 2 * (vs.filter (fun x => x == r)).length)) with
    | some r => .value r
    | none => .undecided

def State.position (s : State) (i : Nat) : Resolved := resolve (s.copiesHere.map (fun c => s.stepRec c i))

/-- A state's code in a record. -/
def Lc.code : Lc → Nat
  | .blank => 0
  | .test => 1
  | .production => 2
  | .endOfLife => 3

def Lc.ofCode : Nat → Option Lc
  | 0 => some .blank
  | 1 => some .test
  | 2 => some .production
  | 3 => some .endOfLife
  | _ => none

/-- The transitions of Table LC-4. -/
def lcListed (a b : Lc) : Bool :=
  match a, b with
  | .blank, .test | .blank, .endOfLife | .test, .blank | .test, .production | .test, .endOfLife
  | .production, .endOfLife => true
  | _, _ => false

/-- FROM, TO and SLOT of a step record. -/
def StepRec.names : StepRec → Nat × Nat × Nat
  | .valid _ a b n _ => (a, b, n)
  | _ => (0, 0, 0)

/-- A position is present. -/
def Resolved.here : Resolved → Bool
  | .absent => false
  | _ => true

/-- What reading the record gives: LOCKDOWN with the first position that failed, or the state, whether a transition is
pending, the last slot with INTENT (255: none) and the last step present in it. -/
inductive Derived where
  | locked (i : Nat)
  | decided (st : Lc) (pending : Bool) (slot step : Nat)
deriving DecidableEq, Repr

/-- A slot that an interrupted first copy left unusable: its INTENT is absent and a copy of it is corrupt (R356, Table
LC-7). Reading the record passes over it. -/
def State.unusable (s : State) (slot : Nat) : Bool :=
  s.copiesHere.any (fun c => s.stepRec c (4 * slot) == .corrupt) && !(s.position (4 * slot)).here

/-- The slots from `slot` upward, `n` of them, with what the slots before derived (R357). -/
def State.deriveFrom (s : State) : Nat → Nat → Lc → Bool → Nat → Nat → Derived
  | 0, _, st, pend, last, step => .decided st pend last step
  | n + 1, slot, st, pend, last, step =>
    let pos (k : Nat) : Resolved := s.position (4 * slot + k)
    match [0, 1, 2, 3].find? (fun k => pos k == .undecided) with
    | some k => .locked (4 * slot + k)
    | none =>
      match pos 0 with
      | .absent | .undecided =>
        if s.unusable slot then
          match [1, 2, 3].find? (fun k => (pos k).here) with
          | some k => .locked (4 * slot + k)
          | none => s.deriveFrom n (slot + 1) st pend last step
        else
          match (rangeFrom (4 * slot + 1) (4 * n + 3)).find? (fun i => (s.position i).here) with
          | some i => .locked i
          | none => .decided st pend last step
      | .value r =>
        if pend then .locked (4 * slot)
        else match [1, 2, 3].find? (fun k => match pos k with
            | .value x => x.names != r.names
            | _ => false) with
          | some k => .locked (4 * slot + k)
          | none =>
            match Lc.ofCode r.names.1, Lc.ofCode r.names.2.1 with
            | some a, some b =>
              if r.names.2.2 ≠ slot ∨ a ≠ st ∨ lcListed a b = false then .locked (4 * slot)
              else
                let done := (pos 2).here
                let top := if (pos 3).here then 4 else if done then 3 else if (pos 1).here then 2 else 1
                s.deriveFrom n (slot + 1) b (!done) slot top
            | _, _ => .locked (4 * slot)

/-- The state that the whole record gives (R357). -/
def State.derive (s : State) : Derived := s.deriveFrom 48 0 .blank false 255 0

/-- A slot's 64 bytes are erased in every copy (R355). -/
def State.recSlotFree (s : State) (slot : Nat) : Bool :=
  s.copiesHere.all (fun c => [0, 1, 2, 3].all (fun k => s.stepRec c (4 * slot + k) == .erased))

/-- The slot a transition takes (R355, R366). -/
def State.freeRecSlot (s : State) : Option Nat := firstBelow s.recSlotFree 48

/-- TEST entries left (R365). -/
def State.testLeft (s : State) : Nat :=
  16 - ((rangeFrom 0 48).filter (fun k => match s.position (4 * k) with
    | .value r => r.names.1 == 0 && r.names.2.1 == 1
    | _ => false)).length

/-- One step record written to every reachable copy that is still erased there (R355). -/
def State.writeStep (s : State) (tag src dst slot step : Nat) : State :=
  s.copiesHere.foldl (fun t c => if t.stepRec c (4 * slot + step) = .erased then
    t.setStepRec c (4 * slot + step) (.valid tag src dst slot s.pkg.meridian) else t) s

/-- FROM and TO of the last slot with INTENT. -/
def State.lastNames (s : State) : Nat × Nat :=
  match s.position (4 * s.life.slot) with
  | .value r => (r.names.1, r.names.2.1)
  | _ => (0, 0)

/-- A transition runs or is pending, so that commands that meet it wait or are refused (R362, R364). -/
def State.lcBusy (s : State) : Bool := s.life.pending || s.life.running

/-! ### The update state (R403, R411) -/

def SlotState.empty : Nat := 0
def SlotState.downloading : Nat := 1
def SlotState.downloaded : Nat := 2
def SlotState.verified : Nat := 3
def SlotState.trial : Nat := 4
def SlotState.confirmed : Nat := 5
def SlotState.previous : Nat := 6
def SlotState.invalid : Nat := 7

/-- A slot record, slot 0 for A and 1 for B. -/
def State.fwSlot (s : State) (i : Nat) : Slot := if i = 0 then s.upd.slotA else s.upd.slotB

def Update.setSlot (u : Update) (i : Nat) (v : Slot) : Update :=
  if i = 0 then { u with slotA := v } else { u with slotB := v }

def Update.slot (u : Update) (i : Nat) : Slot := if i = 0 then u.slotA else u.slotB

/-- FW_OTHER: the version of the slot that does not run, while it holds a valid image (Table UT-7, Table UP-3). -/
def Update.fwOther (u : Update) : BitVec 32 :=
  let y := u.slot (1 - u.booted)
  if (y.state == SlotState.previous && decide (u.rollback ≤ y.secver)) || y.state == SlotState.confirmed ||
    y.state == SlotState.trial || y.state == SlotState.verified then y.version else 0

/-- The update state replaced: a Legend change where FW_OTHER or ROLLBACK_USED is another value (R61, Table UT-7). -/
def State.setUpd (s : State) (u : Update) : State :=
  let t : State := { s with upd := u }
  if u.fwOther = s.upd.fwOther ∧ u.rollback = s.upd.rollback then t else t.bumpGen

/-- One write of the update state: sector 3, its generation raised by 1. A write that finds no spare is refused and
raises FLASH_WORN (R367). -/
def State.writeUpd (s : State) (f : Update → Update) : State :=
  if s.canWrite [(3, 1)] then
    let s1 := s.writeSector 3 true
    s1.setUpd { f s1.upd with gen := s1.upd.gen + 1 }
  else s.wornReport [(3, 1)]

/-- A slot's state changed by one write of the update state. -/
def State.slotState (s : State) (i st : Nat) : State :=
  s.writeUpd (fun u => u.setSlot i { u.slot i with state := st })

/-- The slot in a state, if one is. -/
def State.slotIn (s : State) (st : Nat) : Option Nat :=
  if s.upd.slotA.state = st then some 0 else if s.upd.slotB.state = st then some 1 else none

/-- The inactive slot: neither CONFIRMED nor TRIAL; slot A when both are (R403). -/
def State.inactiveSlot (s : State) : Nat :=
  let live (x : Slot) : Bool := x.state == SlotState.trial || x.state == SlotState.confirmed
  if live s.upd.slotA then 1 else 0

/-- UPDATE reports: detail is the slot and the VERSION of its image (Table CA-2, Table UP-10). -/
def State.updReport (s : State) (code i : Nat) : State :=
  s.reportHub s.compassDie Class.update code (leBytes 1 i ++ leBytes 4 (s.fwSlot i).version.toNat) 0

/-- The owned update ends: the slot is INVALID and UPDATE ABANDONED is raised (R404, Table UP-7). -/
def State.abandon (s : State) : State :=
  let i := s.inactiveSlot
  let s1 := s.slotState i SlotState.invalid
  ({ s1 with upd := { s1.upd with owner := none } }).updReport 9 i

/-- A KEY value is accepted in the lifecycle state (R402). -/
def State.fwKeyOk (s : State) (key : Nat) : Bool :=
  key == 1 || (key == 2 && (s.life.state == .blank || s.life.state == .test))

/-- The level of Table UP-5. -/
def State.updLevel (s : State) (who : Option Nat) : Bool :=
  match who.bind s.session with
  | none => false
  | some x => match s.life.state with
    | .blank => x.provision.live s.now
    | .test => x.makerTest.live s.now
    | .production => s.hasPlatform who
    | .endOfLife => x.analysis.live s.now

end Sys2Proof.Machine
end

