-- ==== Sys2Proof/Machine/Folio.lean ====
section
/-! DEFINITION. Folios (chapter 06): jobs, capture, the end of parts and folios, exports of folios and of trace pages,
and PWR_WARN. -/

namespace Sys2Proof.Machine

/-! ### Creation and start -/

/-- JOB_CREATE (R152 to R159, R165): the plan is judged in order, waiting for a wake at step 12; an accepted one reserves
each part's worst case. -/
def execJobCreate (c : CmdCtx) (slot : Nat) (arg : List Byte) (s : State) : Out :=
  .next (s.creates c ObjKind.job slot (s.planChecks c.who slot arg) (fun s =>
    let sleeping := s.planSleeping arg
    if !sleeping.isEmpty then s.waitFor (.jobCreate c slot arg) sleeping
    else s.judged c (s.planChecks2 arg none) (fun s =>
      let s1 := s.createJob slot c.session none arg
      (s1.usePosts c.session (s.folioPosts (parsePlan arg))).complete c Status.ok (objectWord ObjKind.job slot) 0)))

/-- JOB_START (R160): a CREATED job captures every planned segment and then the rest (R161). -/
def execJobStart (c : CmdCtx) (slot : Nat) (s : State) : Out :=
  match s.job slot with
  | none => .next (s.judged c [(decide (slot < 64), Status.cmdFormat)] (fun s => s.refuse c Status.jobState))
  | some j =>
    .next (s.judged c ([(decide (slot < 64), Status.cmdFormat), (s.mayFolio c.who j.ctx, Status.unitDenied)] ++ s.startChecks j false) (fun s =>
      let s1 := (j.parts.map (·.post)).foldl (fun t p => t.autoStart p) s
      (s1.startJob slot j false true).complete c Status.ok (objectWord ObjKind.job slot) 0))

/-- QUEUED_PART_START (R160): the earliest waiting part of a free capture engine captures. -/
def execQueuedPartStart (post : Nat) (s : State) : Out := .next (s.startQueued post)

/-! ### Capture (R161 to R163, R168, R172 to R181) -/

/-- A half holds no L2 line of a folio: it lies in a captured scope or in a halted partition (R181). -/
def State.noAllocate (s : State) (half : Uno) : Bool :=
  s.folios.jobs.any (fun e => match e.2 with
    | some j => j.running && s.inScope j.scope half
    | none => false) ||
  s.groups.any (fun e => match e.2 with
    | some g => g.partition && s.inScope e.1 half && s.haltedUnit e.1
    | none => false)

/-- Bytes of folio lines that a die's L2 may hold (R181). -/
def State.legacyRoom (s : State) : Nat := 1048576 * s.regBits RegMap.cmpFoCfg 0x10600 32 8

/-- Folio bytes that legacy writes have allocated in a die's L2. -/
def State.legacyBytes (s : State) (d : Nat) : Nat :=
  (s.folios.jobs.map (fun e => match e.2 with
    | some j => ((j.parts.filter (fun x => x.post / 2 == d)).map (fun x =>
        ((x.blocks.filter (·.cached)).map (fun b => storedSize b.coded.length)).sum)).sum
    | none => 0)).sum

/-- A legacy write at byte `at_` of post q's region that asks to allocate goes as stream-through: the slices that hold its
lines belong to a half that may hold none, or the die's share is used up (R181). Which half's slices hold a line is the
accelerator's; a block's lines are taken to lie in those of one half (assumption 166). -/
def State.demotes (s : State) (j : Job) (q at_ size : Nat) : Bool :=
  j.legacy && j.hint != 0 &&
  (s.noAllocate (halfUno (2 * (q / 2) + Config.l2Half q at_ % 2)) ||
   decide (s.legacyRoom < s.legacyBytes (q / 2) + size))

/-- The raw bytes that a block of a special segment holds; a planned block's come from the units, and a RESIDUE block's
from the cores in the records' frame. -/
def State.blockSource (s : State) (j : Job) (q i : Nat) (g : Seg) (src : BlockSource) : BlockSource :=
  if i < j.planned then src
  else if g.space = 0xA then match src with
    | .eccError => .eccError
    | .bytes bs => .bytes (((rangeFrom 0 bs.length).zip bs).map (fun e => s.residueByte (s.jobCores j q) (g.done + e.1) e.2))
  else .bytes ((((Tbl.get none j.specials i).getD []).drop g.done).take 4096)

/-- A part draws to its end once FEND has stored its last segment (Table FO-27). -/
def State.drainPart (s : State) (j : Job) (k : Nat) : Job :=
  let j1 := s.settleSegs k (j.segs.length + 1) j
  if j1.partDry k then { j1 with parts := j1.parts.modify k (fun x => { x with state := 4 }) } else j1

/-- CAPTURE_BLOCK (R156, R160 to R163, R168, R172, R173, R176, R177, R181, R182): the next 4 KB of the part's current
segment is coded, sealed and stored. An uncorrectable source read raises FOLIO SOURCE_ECC. `foreign` numbers the block's
L2 lines that another context owns; `refEcc`: the read of its reference block is uncorrectable. -/
def execCaptureBlock (job : Nat) (post : Nat) (seg : Nat) (src : BlockSource) (foreign : List Nat) (refEcc : Bool)
    (coded : Option (List Byte)) (s : State) : Out :=
  match s.job job with
  | none => .next s
  | some j0 =>
    match j0.partAt post with
    | none => .next s
    | some k =>
      let live := j0.running && ((j0.parts[k]?).map (·.state)) == some 3 && (s.server post).isSome && !s.pkg.pwrWarn
      if !live then .next s
      else
        let j := s.settleSegs k (j0.segs.length + 1) j0
        match j.segs[seg]? with
        | none => .next s
        | some g0 =>
          if j.curSeg k ≠ some seg then .next (s.setJob job (some (s.drainPart j k)))
          else
            let g := if g0.done = 0 then s.segFlags (j.refJob.bind s.job) g0 else g0
            let n := min 4096 (g.len - g.done)
            let s := s.readRef j g post refEcc
            let b := s.codeBlock j g n (s.blockSource j post seg g src) foreign coded
            let at_ := ((j.parts[k]?).map (fun x => 65536 * x.start64k + x.bytes)).getD 0
            let j1 := j.store k seg g b.1 b.2.1 b.2.2 (s.demotes j post at_ (storedSize b.2.2.length))
            let s1 := s.setJob job (some (s.drainPart j1 k))
            let s2 := if b.1 = 7 then s1.folioReport ((s.server post).getD post) 6 j.serial j.ctx else s1
            let ended : Bool := match j1.segs[seg]? with
              | some x => x.captured
              | none => false
            .next (match j.engine with
              | some e => if ended then s2.engineEvent e 2 else s2
              | none => s2)

/-- COMMITTED_POINTER (R179): HBM has acknowledged the next 64 KB of a part. -/
def execCommittedPointer (job : Nat) (post : Nat) (s : State) : Out :=
  match s.job job with
  | none => .next s
  | some j =>
    match j.partAt post with
    | none => .next s
    | some k =>
      .next (s.setJob job (some { j with parts := j.parts.modify k (fun x =>
        if (x.state = 3 ∨ x.state = 4) ∧ x.committed + 65536 ≤ x.bytes then
            let y := { x with committed := x.committed + 65536 }
            { y with wcb := min y.wcb y.buffered }
        else x) }))

/-- PART_END (R159, R170, R176, R179): a part with nothing left to capture ends. -/
def execPartEnd (job : Nat) (post : Nat) (s : State) : Out :=
  match s.job job with
  | none => .next s
  | some j0 =>
    match j0.partAt post with
    | none => .next s
    | some k =>
      let j := s.settleSegs k (j0.segs.length + 1) j0
      let st := ((j.parts[k]?).map (·.state)).getD 0
      if j.running && (st == 3 || st == 4) && j.partDry k && (s.server post).isSome then
        let j1 := j.endPart k (if j.cutShort then 6 else 5)
        let all := j1.parts.all (fun x => x.state == 5 || x.state == 6)
        .next (s.setJob job (some { j1 with state := if all then .ending else j1.state }))
      else .next s

/-- JOB_DONE (R166, R170, R171): every part has ended and the lead post writes trailer and header. -/
def execJobDone (job : Nat) (s : State) : Out :=
  match s.job job with
  | none => .next s
  | some j =>
    if j.running && (j.fendBegun || j.cutShort) && j.parts.all (fun x => x.state == 5 || x.state == 6) &&
        (s.server j.leadPost).isSome && (!s.pkg.bothDead || j.lone) then .next (s.finishJob job).reap
    else .next s

/-! ### Exports (R182 to R184, R265, R316) -/

/-- The access that an export of a folio needs; a rendered one needs FULL (R184, Table FO-19). -/
def State.mayExport (s : State) (who : Option Nat) (j : Job) (render : Bool) : Bool :=
  s.mayFolio who j.ctx && (!render || s.levelOn who j.ctx == 2)

/-- An export to the port runs. -/
def State.portExport (s : State) : Bool := s.folios.exports.any (·.toPort)

/-- EXPORT_DONE for an export (Table HO-6). -/
def State.exportEvent (s : State) (x : Export) (status : Nat) : State :=
  let obj := match x.job with
    | some j => objectWord ObjKind.job j
    | none => objectWord ObjKind.stream x.stream
  s.emit x.session (s.event EventType.exportDone status x.session (x.queue.getD 0xFF) obj x.tag (word x.moved))

/-- An accepted export: its reference is held and its chunks follow (R391, R392). -/
def State.startExport (s : State) (x : Export) (kind slot : Nat) : State :=
  let s1 : State := { s with folios := { s.folios with exports := s.folios.exports ++ [x] } }
  let s2 := s1.hubRef kind slot
  if x.toPort then { s2 with port := { s2.port with aperture := [], aprBase := x.off, aprFirst := 0, aprDone := false } }
  else s2

/-- FOLIO_EXPORT (R182 to R184, R191): root-served (R71); an export of 0 bytes completes at once with ZERO. -/
def execFolioExport (c : CmdCtx) (job : Nat) (render : Bool) (off : Nat) (len : Nat) (s : State) : Out :=
  let may := match s.job job with
    | some j => s.mayExport c.who j render
    | none => true
  let x : Export := { job := some job, stream := 0, post := 0, consume := false, render := render,
                      toPort := c.queue.isNone, session := c.session, tag := c.tag, queue := c.queue, off := off, len := len }
  .next (s.judged c
    [(decide (job < 64) && c.holds len, Status.cmdFormat), (!s.taken 128, Status.engineBusy), (may, Status.unitDenied)] (fun s =>
    if len = 0 then (s.complete c Status.zero (objectWord ObjKind.job job) 0).exportEvent x Status.zero
    else
      let total := ((s.job job).map (·.total)).getD 0
      let ended := ((s.job job).map (·.ended)).getD false
      s.judged c
        [(ended, Status.jobState),
         (!s.folios.exports.any (fun y => y.job == some job) && (!x.toPort || !s.portExport), Status.exportBusy),
         (decide (off + len ≤ total), Status.exportRange)]
        (fun s => (s.startExport x ObjKind.job job).complete c Status.ok (objectWord ObjKind.job job) 0)))

/-- STREAM_EXPORT (R265): whole pages of one part from RD_PAGE onward. -/
def execStreamExport (c : CmdCtx) (slot : Nat) (post : Nat) (consume : Bool) (pages : Nat) (s : State) : Out :=
  let part := s.tpart post slot
  let live := (s.stream slot).isSome && part.state != 0 && ((s.stream slot).map (·.ending)) == some 0
  let may := match s.stream slot with
    | some x => s.mayStream c.who x
    | none => true
  let x : Export := { job := none, stream := slot, post := post, consume := consume, render := false,
                      toPort := c.queue.isNone, session := c.session, tag := c.tag, queue := c.queue, off := 0,
                      len := pages }
  .next (s.judged c
    [(decide (slot < 512 ∧ post < s.pkg.member.posts) && c.holds (4096 * pages), Status.cmdFormat),
     (!s.taken 128, Status.engineBusy), (live, Status.unitAbsent), (may, Status.unitDenied)] (fun s =>
    if pages = 0 then (s.complete c Status.zero (objectWord ObjKind.stream slot) 0).exportEvent x Status.zero
    else s.judged c
      [(!s.folios.exports.any (fun y => y.job.isNone && y.stream == slot && y.post == post) &&
          (!x.toPort || !s.portExport), Status.exportBusy),
       (decide (pages ≤ part.unread), Status.exportRange)]
      (fun s => (s.startExport x ObjKind.stream slot).complete c Status.ok (objectWord ObjKind.stream slot) 0)))

/-- `n` unmarked blocks of a list marked from the first that ends beyond byte `from_`; `pos` is where the list starts. -/
def markBlocks : Nat → Nat → Nat → List Block → List Block
  | _, 0, _, bs => bs
  | _, _, _, [] => []
  | from_, n + 1, pos, b :: r =>
    let e := pos + storedSize b.coded.length
    if from_ < e ∧ !b.marked then { b with marked := true } :: markBlocks from_ n e r
    else b :: markBlocks from_ (n + 1) e r

/-- Blocks of a job in stored order. -/
def Job.allBlocks (j : Job) : List Block := j.parts.flatMap (·.blocks)

/-- A job's parts with new blocks in stored order. -/
def splitBlocks : List Part → List Block → List Part
  | [], _ => []
  | x :: r, bs => { x with blocks := bs.take x.blocks.length } :: splitBlocks r (bs.drop x.blocks.length)

/-- L2 lines of HINT 2 are invalidated by their first read-back (R181): the blocks of a list that end within
(from_, last], where `pos` is where the list starts. -/
def uncache : Nat → Nat → Nat → List Block → List Block
  | _, _, _, [] => []
  | from_, last, pos, b :: r =>
    let e := pos + storedSize b.coded.length
    { b with cached := b.cached && !decide (from_ < e ∧ e ≤ last) } :: uncache from_ last e r

/-- Reading bytes [off, off + n) of a stream of HINT 2 back. -/
def Job.readBack (j : Job) (off n : Nat) : Job :=
  let body := 256 + 32 * j.segs.length
  { j with parts := splitBlocks j.parts (uncache (off - body) (off + n - body) 0 j.allBlocks) }

/-- Blocks of a part that read back marked. -/
def Part.marks (x : Part) : Nat := (x.blocks.filter (·.marked)).length

/-- The posts that read the blocks which `j1` marks beyond `j`, one entry a block: of each part the post that serves it. -/
def State.markedBy (s : State) (j j1 : Job) : List Nat :=
  (j.parts.zip j1.parts).flatMap (fun e =>
    List.replicate (e.2.marks - e.1.marks) ((s.server e.1.post).getD e.1.post))

/-- A read-back that met `n` uncorrectable blocks from stream offset `off`: marked copies, ECC_BLOCKS advanced, and one
FOLIO ECC_MARKED report each by the post that read it (R182, R189). -/
def State.markEcc (s : State) (slot : Nat) (off n : Nat) : State :=
  match s.job slot with
  | none => s
  | some j =>
    if n = 0 then s
    else
      let body := off - (256 + 32 * j.segs.length)
      let j1 := { j with parts := splitBlocks j.parts (markBlocks body n 0 j.allBlocks) }
      let by_ := s.markedBy j j1
      by_.foldl (fun t q => t.folioReport q 2 j.serial j.ctx)
        (s.setJob slot (some { j1 with eccBlocks := j.eccBlocks + by_.length }))

/-- The next bytes of an export: 4 KB of a folio stream, or one page of a part. -/
def State.exportBytes (s : State) (x : Export) : List Byte :=
  match x.job with
  | some i => match s.job i with
    | none => []
    | some j => ((j.stream i (s.refSerial j) x.render).drop (x.off + x.moved)).take (min 4096 (x.len - x.moved))
  | none =>
    let t := s.tpart x.post x.stream
    let pages := ((s.stream x.stream).map (·.pages)).getD 1
    let page := (t.rdPage pages + (if x.consume then 0 else x.moved)) % pages
    let ws := if page = t.wrPage then t.words ++ List.replicate (512 - t.words.length) 0
      else Tbl.get [] t.image page ++ List.replicate (512 - (Tbl.get [] t.image page).length) 0
    ws.flatMap (fun w => leBytes 8 w.toNat)

/-- The session of an export still holds the access of its rule (R335). -/
def State.exportAllowed (s : State) (x : Export) : Bool :=
  match x.job with
  | some i => match s.job i with
    | some j => s.mayExport (some x.session) j x.render
    | none => false
  | none => match s.stream x.stream with
    | some y => s.mayStream (some x.session) y && y.ending == 0
    | none => false

def State.setExport (s : State) (i : Nat) (x : Export) : State :=
  { s with folios := { s.folios with exports := s.folios.exports.set i x } }

/-- One chunk moved: to host memory, or to the aperture. -/
def State.moveChunk (s : State) (i : Nat) (x : Export) : State :=
  let bs := s.exportBytes x
  let n := match x.job with
    | some _ => bs.length
    | none => 1
  let s0 := match x.job with
    | some q => match s.job q with
      | some j => if j.hint = 2 then s.setJob q (some (j.readBack (x.off + x.moved) n)) else s
      | none => s
    | none => s
  let s1 := s0.setExport i { x with moved := x.moved + n, paused := none }
  let s2 : State := if x.toPort then { s1 with port := { s1.port with aperture := s1.port.aperture ++ [bs] } }
    else { s1 with host := { s1.host with result := bs } }
  if x.job.isNone && x.consume then s2.setTpart x.post x.stream ((s2.tpart x.post x.stream).release 1) else s2

/-- EXPORT_CHUNK (R182 to R184, R265, R316, R335, R372): the i-th export moves its next 4 KB. `eccBlocks` blocks read
back uncorrectable; `damaged` says that header, tables or trailer did. -/
def execExportChunk (i : Nat) (eccBlocks : Nat) (damaged : Bool) (s : State) : Out :=
  match s.folios.exports[i]? with
  | none => .next s
  | some x =>
    if x.status ≠ 0 ∨ x.len ≤ x.moved ∨ s.pkg.bothDead then .next s
    else if !s.exportAllowed x then .next (s.setExport i { x with status := Status.unitDenied })
    else if x.toPort then
      if s.port.aperture.length < 16 then
        match x.job, damaged with
        | some j, true => .next ((match s.job j with
            | some y => s.folioReport y.leadPost 4 y.serial y.ctx
            | none => s).setExport i { x with status := Status.folioDamaged })
        | some j, false => .next ((s.markEcc j (x.off + x.moved) eccBlocks).moveChunk i x)
        | none, _ => .next (s.moveChunk i x)
      else .next s
    else if !s.pkg.busMaster then .next (s.setExport i { x with paused := some (x.paused.getD s.pkg.meridian) })
    else match x.job, damaged with
      | some j, true => .next ((match s.job j with
          | some y => s.folioReport y.leadPost 4 y.serial y.ctx
          | none => s).setExport i { x with status := Status.folioDamaged })
      | some j, false => .next ((s.markEcc j (x.off + x.moved) eccBlocks).moveChunk i x)
      | none, _ => .next (s.moveChunk i x)

/-- EXPORT_DONE (R183, R393): an export that has moved everything, or that was stopped, ends; its reference drops. -/
def execExportDone (i : Nat) (s : State) : Out :=
  match s.folios.exports[i]? with
  | none => .next s
  | some x =>
    if (x.status = 0 ∧ x.moved < x.len) ∨ s.pkg.bothDead then .next s
    else
      let s1 : State := { s with folios := { s.folios with exports := s.folios.exports.eraseIdx i } }
      let s2 := if x.toPort ∧ (s.session x.session).isNone then s1 else s1.exportEvent x x.status
      let s3 : State := if x.toPort then { s2 with port := { s2.port with aprDone := true } } else s2
      .next (match x.job with
        | some j => (s3.hubUnref ObjKind.job j).reap
        | none => (s3.hubUnref ObjKind.stream x.stream).reap)

/-- EXPORT_PAUSE_TIMEOUT (R397): an export that has paused for 1 s ends with DEST_GONE. -/
def execExportPauseTimeout (i : Nat) (s : State) : Out :=
  match s.folios.exports[i]? with
  | none => .next s
  | some x =>
    match x.paused with
    | none => .next s
    | some t =>
      if x.status = 0 ∧ t.toNat + 1000000000 ≤ s.now ∧ !s.pkg.bothDead then .next (s.setExport i { x with status := Status.destGone })
      else .next s

/-! ### PWR_WARN (R185, R187, R188) -/

/-- Every engine takes event PWR_WARN. -/
def State.eventAll (s : State) (bit : Nat) : State :=
  (rangeFrom 0 s.pkg.member.posts ++ [128]).foldl (fun t e => t.engineEvent e bit) s

/-- After a drain each capturing part of a job keeps what drained and no more (R188). -/
def State.keepDrained (s : State) (slot : Nat) (us : List Undrained) : State :=
  match s.job slot with
  | none => s
  | some j =>
    if !j.running then s
    else s.setJob slot (some (j.parts.foldl (fun a x =>
      let lines := min x.wcb (((us.find? (fun u => u.post == x.post)).map (·.lines)).getD 0)
      let b := a.drained x.post lines
      if lines = 0 then b else b.rescan x.post) j))

/-- PWR_WARN (R185, R187, R188): buffers drain, what drained is committed, folios that have not ended are written INCOMPLETE,
and one POWER_THERMAL report is raised for the package. -/
def execPwrWarn (undrained : List Undrained) (s : State) : Out :=
  if s.pkg.pwrWarn then .next s
  else
    let s1 : State := { s with pkg := { s.pkg with pwrWarn := true } }
    let s2 := (s1.reportHub s.compassDie Class.powerThermal 2 (leBytes 3 s.compassDie) 0).eventAll 9
    let s3 := s2.drainAll 5 undrained
    let s4 := (Tbl.keysSome s3.folios.jobs).foldl (fun t j => t.keepDrained j undrained) s3
    .next ((Tbl.keysSome s4.folios.jobs).foldl (fun t j => t.cutJob j false) s4).reap

/-- PWR_WARN_DEASSERT (R188): plans and starts are accepted again. -/
def execPwrWarnDeassert (s : State) : Out := .next { s with pkg := { s.pkg with pwrWarn := false } }

end Sys2Proof.Machine
end

