-- ==== Sys2Proof/Machine/SessionOps.lean ====
section
/-! DEFINITION. How sessions open and close and how their levels change (chapters 12 and 14), the guard interval of the
pins (chapter 11), and what a hub reset or a lifecycle transition does to sessions and commands. -/

namespace Sys2Proof.Machine

/-! ### Commands that wait (R331, R378) -/

/-- The session and TAG of a command that a rule can make wait in the in-flight table. -/
def heldCtx : Instr → Option CmdCtx
  | .setLoad c _ _ => some c
  | .jobCreate c _ _ => some c
  | .grant c _ => some c
  | .hubWarmReset c _ => some c
  | .updActivate c _ _ => some c
  | .policy c _ _ _ _ _ _ _ => some c
  | .deadlineSet c _ _ _ _ _ => some c
  | _ => none

/-- The commands of a session that wait for a wake or for the authorisation unit complete as the session closes. -/
def State.dropWaiting (s : State) (slot : Nat) : State :=
  let gone := (s.host.waiting.filterMap heldCtx ++ s.auth.verify.map (·.c)).filter (fun c => c.session == slot)
  let s1 : State := { s with
    host := { s.host with waiting := s.host.waiting.filter (fun i => ((heldCtx i).map (·.session)) != some slot) }
    auth := { s.auth with verify := s.auth.verify.filter (fun v => v.c.session != slot) } }
  gone.foldl (fun t c => t.refuse c Status.sessionInvalid) s1

/-! ### Levels that fall (R335) -/

/-- Streams of a session whose access on their context has fallen below OBSERVE are cut (R266, Table AC-5). -/
def State.cutFallen (s : State) (slot : Nat) : State :=
  (Tbl.keysSome s.trace.streams).foldl (fun t i => match t.stream i with
    | some x => if x.owner = slot ∧ !t.mayStream (some slot) x then t.cutStream i else t
    | none => t) s

/-! ### Pins (R318, R319, Table PT-12) -/

/-- TRIG_OUT begins a guard interval, after which the selected function takes the pin: a CROSS pulse ends, and a serial
word in progress is lost; the serial output restarts with a TIME packet. -/
def State.guardOut (s : State) : State :=
  { s with
    port := { s.port with guardOut := { on := true, next := s.toFunc }, func := 0, cross := none }
    trace := { s.trace with serial := if s.port.func = 2 then s.trace.serial.cut s.pkg.meridian else s.trace.serial } }

/-- The pins pass through a guard: a boundary-register change, or a takeover. -/
def State.guardPins (s : State) : State :=
  let s1 := s.guardOut
  { s1 with port := { s1.port with guardIn := true, guardFault := true } }

/-! ### Closing a session (R312, R394, R414) -/

/-- Each port session has its own selectors: those of a session that closes go with it, so that the next port session's
stand at their reset values (R62, R192, R225, R270, R375; DEDUCED, assumption 170). -/
def State.dropPortKeys (s : State) : State := { s with regs := s.regs.filter (fun e => decide (e.1 < 2 ^ 32)) }

/-- A clamp log whose entries of a session are no session's any more (R69). -/
def ClampLog.forget (l : ClampLog) (slot : Nat) : ClampLog :=
  { l with entries := l.entries.map (fun e => (e.1, e.2.map (fun c =>
      if c.session = slot ∧ !c.unbound then { c with orphan := true } else c))) }

/-- What still names a closed session names none: owners, creators, issuers and writers of clamps; numbers become 256. -/
def State.forget (s : State) (slot : Nat) : State :=
  let sub (n : Nat) : Nat := if n = slot then 256 else n
  { s with
    sets := s.sets.map (fun e => (e.1, e.2.map (fun x => { x with owner := sub x.owner })))
    clamps := s.clamps.map (fun e => (e.1, e.2.forget slot))
    posts := Tbl.mapVals {} (fun _ x => { x with users := x.users.filter (· != slot) }) s.posts
    hops := s.hops.map (fun e => (e.1, e.2.map (fun h => match h.origin with
      | .command n tag q => { h with origin := .command (sub n) tag q }
      | _ => h)))
    folios := { s.folios with
      jobs := s.folios.jobs.map (fun e => (e.1, e.2.map (fun j => { j with owner := sub j.owner })))
      exports := s.folios.exports.map (fun x => if x.session = slot then
        { x with session := 256, status := if x.toPort && x.status == 0 then Status.destGone else x.status } else x) }
    trace := { s.trace with streams := s.trace.streams.map (fun e => (e.1, e.2.map (fun x => { x with owner := sub x.owner }))) }
    watch := { s.watch with
      deadlines := Tbl.mapVals {} (fun _ d => { d with session := sub d.session }) s.watch.deadlines }
    host := { s.host with
      refs := Tbl.mapVals {} (fun _ r => { r with creator := sub r.creator }) s.host.refs
      bound := if s.host.bound = some slot then none else s.host.bound } }

/-- The holds of a closing session drop, each as one RELEASE; at a firmware or hub-warm reset its holds on partition
groups become kept references (R394, R414). -/
def State.dropHolds (s : State) (slot : Nat) (keep : Bool) : State :=
  match s.session slot with
  | none => s
  | some x =>
    let s1 := s.setSession slot (some { x with holds := [] })
    (x.holds.foldl (fun t h =>
      let part := ((t.group (0xF00000 + h.2.1)).map (·.partition)) == some true
      if keep && h.1 == ObjKind.group && part then
        t.setRefs h.1 h.2.1 { t.refs h.1 h.2.1 with kept := (t.refs h.1 h.2.1).kept + h.2.2 }
      else t) s1).reap

/-- SESSION_CLOSED, but for a function reset, whose rings are disabled, and for TRST_N, whose framing is cleared (R394,
R415, Table UP-8). -/
def State.closedEvent (s : State) (slot reason : Nat) : State :=
  if reason = Reason.functionReset ∨ reason = Reason.trst then s
  else s.emit slot (s.event EventType.sessionClosed reason slot 0xFF (objectWord ObjKind.session slot) 0 0)

/-- A session closes with a reason: holds drop, engines return, its streams are cut and an update that it owns is
abandoned; then SESSION_CLOSED is written and the slot is free (R72, R266, R312, R394, Table UP-7). -/
def State.closeSession (s : State) (slot reason : Nat) : State :=
  if (s.session slot).isNone then s
  else
    let keep := reason == Reason.fwActivate || reason == Reason.fwTrial || reason == Reason.hubWarmReset
    let s1 := (s.dropWaiting slot).dropHolds slot keep
    let s2 := ((s1.engines.filter (fun e => e.2.owner == some slot)).map (·.1)).foldl (fun t e => t.returnEngine e 3) s1
    let s3 := if s2.upd.owner = some slot then s2.abandon else s2
    let s4 := ((s3.closedEvent slot reason).setSession slot none).bumpGen
    let s5 := (s4.cutFallen slot).forget slot
    let q := { s5.port with sessionFresh := true, chall := none, aperture := [], staging := [] }
    if slot = portSlot then
      let s5 := s5.dropPortKeys
      let s6 := { s5 with port := { q with bscan := q.bscan && s5.openState } }
      if q.bscan && !s5.openState then s6.guardPins else s6
    else s5

/-- Every open session, lowest slot first. -/
def State.openSlots (s : State) : List Nat := Tbl.keysSome s.auth.sessions

def State.closeAll (s : State) (reason : Nat) : State := s.openSlots.foldl (fun t k => t.closeSession k reason) s

/-- Every taken command completes with HUB_RESET (R397, R408). -/
def State.completeAll (s : State) (status : Nat) : State :=
  let cs := s.host.inflight.map (·.c)
  let s1 : State := { s with host := { s.host with waiting := [] }, auth := { s.auth with verify := [] } }
  cs.foldl (fun t c => t.refuse c status) s1

/-! ### The port's failures (R314, R315) -/

/-- PORT reports: the detail is the port number and the session slot (R304). -/
def State.portReport (s : State) (code : Nat) : State :=
  s.reportHub s.compassDie Class.port code (leBytes 1 (if s.pkg.member = .za6400 then 0 else 1) ++ leBytes 1 portSlot) 0

/-- A port lockout runs. -/
def State.portLocked (s : State) : Bool :=
  match s.port.lockEnd with
  | none => false
  | some t => decide (s.now < t.toNat)

/-- The end of a lockout that starts now and lasts `n` seconds. -/
def State.lockUntil (s : State) (n : Nat) : Time := word (s.now + n * 1000000000)

/-- A port signature that fails: FAILS, and from the fourth on a lockout, each twice as long as the last up to 64 s. -/
def State.portFail (s : State) : State :=
  let p := s.port
  let n := min 255 (p.fails + 1)
  let s1 := ({ s with port := { p with fails := n, auth := sat16 p.auth } }).portReport 4
  if 4 ≤ n then
    ({ s1 with port := { s1.port with lockEnd := some (s1.lockUntil p.nextLock),
                                      nextLock := min 64 (2 * p.nextLock) } }).portReport 5
  else s1

/-- A port signature that verifies clears FAILS and the length of the next lockout. -/
def State.portPass (s : State) : State :=
  { s with port := { s.port with fails := 0, nextLock := 1 } }

/-! ### Tokens (R331 to R334) -/

/-- The Ed25519 key of a token's class is present and accepted in the lifecycle state (R331 step 4, Table AC-8). -/
def State.keyAccepted (s : State) (key : Nat) : Bool :=
  match s.life.state with
  | .blank => key == 3
  | .test => key == 4
  | .production => key == 2 || (key == 1 && s.auth.opKeys)
  | .endOfLife => key == 5

/-- The grant of a key class other than TENANT. -/
def Session.keyGrant (x : Session) : Nat → KeyGrant
  | 1 => x.operator
  | 3 => x.provision
  | 4 => x.makerTest
  | _ => x.analysis

def Session.setKeyGrant (x : Session) (key : Nat) (g : KeyGrant) : Session :=
  match key with
  | 1 => { x with operator := g }
  | 3 => { x with provision := g }
  | 4 => { x with makerTest := g }
  | _ => { x with analysis := g }

/-- SEQ last accepted for a KEY and CTXID. -/
def Session.lastSeq (x : Session) (key : Nat) (c : Ctx) : Nat :=
  if key = 2 then ((x.tenants.find? (fun g => g.ctx == c)).map (fun g => g.seq.toNat)).getD 0
  else (x.keyGrant key).seq.toNat

/-- An entry of a tenant grant gives a level now. -/
def CtxGrant.live (g : CtxGrant) (now : Nat) : Bool :=
  decide (now < g.expiry.toNat ∧ 0 < g.level) || decide (0 < g.portLevel)

/-- A tenant grant's entry replaced; a new context takes a free place, or that of a grant that has lapsed, which moves
to the end. -/
def putTenant (now : Nat) (g : CtxGrant) (xs : List CtxGrant) : List CtxGrant :=
  if xs.any (fun e => e.ctx == g.ctx) then xs.map (fun e => if e.ctx = g.ctx then g else e)
  else if xs.length < 16 then xs ++ [g]
  else match xs.find? (fun e => !e.live now) with
    | none => xs ++ [g]
    | some d => (xs.map (fun e => if e = d then g else e)) ++ [d]

/-- The session may take one more tenant context (R331 step 10, R313). -/
def Session.ctxRoom (x : Session) (now : Nat) (c : Ctx) : Bool :=
  x.tenants.any (fun g => g.ctx == c && g.live now) || decide (x.held now < 16)

/-- A token lockout runs (R334); the port's follows R315. -/
def State.tokenLocked (s : State) (slot : Nat) : Bool :=
  if slot = portSlot then s.portLocked
  else match (s.session slot).bind (·.lockEnd) with
    | none => false
    | some t => decide (s.now < t.toNat)

/-- A token whose signature fails (R334). -/
def State.tokenFail (s : State) (slot : Nat) : State :=
  let s1 : State := { s with auth := { s.auth with fails := sat16 s.auth.fails } }
  if slot = portSlot then s1.portFail
  else match s1.session slot with
    | none => s1
    | some x =>
      let n := min 255 (x.fails + 1)
      if 4 ≤ n then s1.setSession slot (some { x with fails := n, lockEnd := some (s.lockUntil x.nextLock),
                                                      nextLock := min 64 (2 * x.nextLock) })
      else s1.setSession slot (some { x with fails := n })

/-- An accepted token takes effect (R331, R332, R334). -/
def State.tokenPass (s : State) (slot : Nat) (v : Verify) : State :=
  match s.session slot with
  | none => s
  | some x =>
    let x1 := { x with fails := 0, nextLock := 1 }
    let x2 := if v.key = 2 then
        let old := (x.tenants.find? (fun g => g.ctx == v.ctx)).map (·.portLevel)
        { x1 with tenants := putTenant s.now { ctx := v.ctx, level := v.level, seq := v.seq, expiry := v.expiry,
                                               portLevel := old.getD 0 } x1.tenants }
      else x1.setKeyGrant v.key { (x.keyGrant v.key) with on := v.level != 0, seq := v.seq, expiry := v.expiry }
    let s1 := s.setSession slot (some x2)
    (if slot = portSlot then s1.portPass else s1).cutFallen slot

end Sys2Proof.Machine
end

