-- ==== Sys2Proof/Machine/PinOps.lean ====
section
/-! DEFINITION. The trigger pins (R317 to R319): pulses, assertions and guard intervals. -/

namespace Sys2Proof.Machine

/-- TO_PULSE in ns: AON cycles of 10 ns. -/
def State.pulseTime (s : State) : Nat := 10 * s.regBits RegMap.cmpPtCfg 0x11200 40 8

/-- An XTRIG pulse at the active Compass's die: CROSS drives a pulse, or extends the one that runs; during a guard it is
counted and not output (R318, Table PT-12). -/
def State.crossPulse (s : State) : State :=
  let p := s.port
  if p.guardOut.on then
    if p.guardOut.next = 1 ∨ s.toFunc = 1 then { s with port := { p with guardDrops := sat16 p.guardDrops } } else s
  else if p.func = 1 ∧ !p.bscan then { s with port := { p with cross := some (word (s.now + s.pulseTime)) } }
  else s

/-- A trigger reaches post p: event TRIG of its engine, and the source at its half's combiners (Tables BW-5, QE-5). -/
def State.trigAt (s : State) (p src : Nat) : State :=
  match s.server p with
  | some q => (s.engineEvent q 8).sourceAll p src
  | none => s

/-- A guard ends: the newest function takes TRIG_OUT, and the inputs are heard again (R319). -/
def State.guardEnds (s : State) : State :=
  let p := s.port
  { s with port := { p with func := if p.guardOut.on then p.guardOut.next else p.func, guardOut := {}, guardIn := false,
                            guardFault := false } }

/-- What a write of CMP_PT_CFG sets off (R318, R319): a change of TO_FUNC or TO_POL puts TRIG_OUT through a guard, one of
TI_EN puts TRIG_IN through one; away from SERIAL, the words that wait are dropped and counted. -/
def State.ptCfgEffect (s : State) (old : Nat) : State :=
  let new := s.regWord RegMap.cmpPtCfg 0x11200
  let s1 := if bitsOf old 24 3 ≠ bitsOf new 24 3 then s.guardOut else s
  let q := s1.trace.serial
  let s2 : State := if bitsOf old 24 2 = 2 ∧ bitsOf new 24 2 ≠ 2 then
      { s1 with trace := { s1.trace with serial := { q.lose q.queue.length with queue := [] } } }
    else s1
  if bitAt old 0 ≠ bitAt new 0 then { s2 with port := { s2.port with guardIn := true } } else s2

/-- Chunks of the aperture released by the port session: the oldest `n`, or all that are held (R316). -/
def State.aprAck (s : State) (n : Nat) : State :=
  let p := s.port
  let k := min n p.aperture.length
  { s with port := { p with aperture := p.aperture.drop k, aprFirst := (p.aprFirst + k) % 16,
                            aprBase := p.aprBase + ((p.aperture.take k).map (·.length)).sum } }

/-- CMP_PT_CLR.LINE and CMP_PT_CLR.ERR (Table PT-18). -/
def State.clearLine (s : State) : State :=
  { s with port := { s.port with glitches := 0, collisions := 0, resets := 0, guardDrops := 0 } }

def State.clearErr (s : State) : State := { s with port := { s.port with stalls := 0, framing := 0, crcErr := 0, auth := 0 } }

end Sys2Proof.Machine
end

