-- ==== Sys2Proof/Machine/GroupOps.lean ====
section
/-! DEFINITION. Software groups, partitions and registrations (R57, R58, R327, R336 to R341, R395). -/

namespace Sys2Proof.Machine

/-! ### Group records (Table QR-10) -/

/-- A group record: ENTRIES, the context, the member ranges, and whether every reserved byte is 0. -/
structure GroupRec where
  entries : Nat
  ctx     : Ctx
  members : List (Uno × Nat)
  legal   : Bool
deriving DecidableEq, Repr

/-- `n` members: COUNT 0 or 1 is the single unit. -/
def groupMembers : Nat → List Byte → List (Uno × Nat)
  | 0, _ => []
  | n + 1, r => (fieldAt r 0 3, max 1 (fieldAt r 4 3)) :: groupMembers n (r.drop 8)

def parseGroup (r : List Byte) : GroupRec :=
  let n := min (fieldAt r 0 1) 64
  { entries := fieldAt r 0 1
    ctx := fieldAt r 2 2 % 4096
    members := groupMembers n (r.drop 8)
    legal := fieldAt r 1 1 == 0 && decide (fieldAt r 2 2 < 4096) && fieldAt r 4 4 == 0 &&
      (rangeFrom 0 n).all (fun i => fieldAt r (0x0B + 8 * i) 1 == 0 && fieldAt r (0x0F + 8 * i) 1 == 0) }

/-- Bytes of a record of these ENTRIES. -/
def groupBytes (r : List Byte) : Nat := 8 + 8 * min (fieldAt r 0 1) 64

/-- A member range as it stands once the group is created: of the software-group slots that it spans, only those that are
live are members, so that a group created later in a free slot is none (R57, R58). -/
def State.closeRange (s : State) (r : Uno × Nat) : List (Uno × Nat) :=
  if r.1 + r.2 ≤ 0xF00000 ∨ 0xF01000 ≤ r.1 then [r]
  else (if r.1 < 0xF00000 then [(r.1, 0xF00000 - r.1)] else []) ++
    (s.groups.filter (fun e => e.2.isSome && memberHas r e.1)).map (fun e => (e.1, 1))

/-- Live groups that the members name. -/
def State.namedGroups (s : State) (ms : List (Uno × Nat)) : List Uno :=
  (s.groups.filter (fun e => e.2.isSome && ms.any (fun r => memberHas r e.1))).map (·.1)

/-- Units named by the members, holes and held ones left out (R51). -/
def State.namedUnits (s : State) (ms : List (Uno × Nat)) : List Uno :=
  (ms.flatMap (fun r => rangeFrom r.1 r.2)).filter s.present

/-- The level of a group with these members (R58 step 6). -/
def State.newLevel (s : State) (ms : List (Uno × Nat)) : Nat :=
  1 + (s.namedGroups ms).foldl (fun a u => max a (((s.group u).map (·.level)).getD 0)) 0

/-- The creator's access to a group (R327); a partition is not judged. -/
def State.groupAccess (s : State) (who : Option Nat) (c : Ctx) (ms : List (Uno × Nat)) : Bool :=
  let us := s.namedUnits ms
  if c = 0 then s.hasPlatform who || us.all (fun u => s.levelIn who 1 u)
  else decide (1 ≤ s.levelOn who c) && us.all (fun u => s.scopeWithin c u)

/-- The shape of a partition (R58 step 8): packages, dies, halves and clusters; no member group bound to a context; no
cluster of another partition. -/
def State.shapeOk (s : State) (ms : List (Uno × Nat)) : Bool :=
  let us := s.namedUnits ms
  us.all (fun u => (expand s 17 u).all (fun x => match kindOf s.pkg.member x with
    | .package | .die | .half | .cluster => true
    | _ => false)) &&
  (s.namedGroups ms).all (fun u => ((s.group u).map (·.partition)) == some false) &&
  us.all (fun u => (s.clustersIn u).all (fun cl => (s.partitionOf cl).isNone))

/-- The checks of R58 in their order; `bound` for a partition. -/
def State.groupChecks (s : State) (who : Option Nat) (slot : Uno) (g : GroupRec) (bound : Bool) : List (Bool × Nat) :=
  let ms := g.members
  [(decide (0xF00000 ≤ slot ∧ slot < 0xF01000), Status.unitAbsent),
   ((s.group slot).isNone, Status.slotBusy),
   (decide (1 ≤ g.entries ∧ g.entries ≤ 64) && g.legal, Status.groupSize),
   (ms.all (fun r => !memberHas r slot), Status.groupCycle),
   (ms.all (fun r => s.present r.1 && s.present (r.1 + r.2 - 1)), Status.unitAbsent),
   (decide (s.newLevel ms ≤ 16), Status.groupDepth),
   (bound || s.groupAccess who g.ctx ms, Status.unitDenied),
   (!bound || s.shapeOk ms, Status.partitionShape),
   ((s.namedGroups ms).all (fun u => s.canRef ObjKind.group (u - 0xF00000)), Status.refLimit)]

/-- The slot goes live with the membership that it keeps: one reference on each member group, the first reference with
the creator (R57, R58, R391). -/
def State.makeGroup (s : State) (sess : Nat) (slot : Uno) (g : GroupRec) (partition : Bool) (freezeSet : Nat) : State :=
  let names := s.namedGroups g.members
  let r : Group := { members := g.members.flatMap s.closeRange, ctx := g.ctx, level := s.newLevel g.members, partition := partition,
                     freezeSet := freezeSet }
  let s1 : State := { s with groups := Tbl.set none s.groups slot (some r) }
  let s2 := names.foldl (fun t u => t.hubRef ObjKind.group (u - 0xF00000)) s1
  s2.newRef sess ObjKind.group (slot - 0xF00000)

/-! ### Registration records (R336 to R339) -/

/-- MAGIC, FORMAT, reserved bytes and REC_CRC of a record (Table AC-6). -/
def regLegal (r : List Byte) : Bool :=
  r.length == 128 && fieldAt r 0 4 == 0x47455247 && fieldAt r 4 2 == 1 && (slice r 0x70 12).all (fun b => b == 0) &&
  decide (fieldAt r 6 2 < 4096) && fieldAt r 0x7C 4 == (crc32c (r.take 0x7C)).toNat

def regCtx (r : List Byte) : Ctx := fieldAt r 6 2
def regPub (r : List Byte) : List Byte := slice r 8 32

/-- EPH_PUB and WRAPPED are both all zero: the record carries no sealing key. -/
def regBare (r : List Byte) : Bool := (slice r 0x28 72).all (fun b => b == 0)

/-- R339 step 7. -/
def State.regSealOk (s : State) (r : List Byte) (unwrapOk : Bool) : Bool :=
  if regBare r then s.life.state != .production else unwrapOk

/-- The checks of R339 in their order. -/
def State.regChecks (s : State) (who : Option Nat) (r : List Byte) (pointOk unwrapOk : Bool) : List (Bool × Nat) :=
  [(!s.life.lockdown, Status.lockdown),
   (s.life.state != .endOfLife, Status.lifecycleState),
   (s.hasPlatform who, Status.unitDenied),
   (regLegal r, Status.keyFormat),
   (regCtx r != 0 && regCtx r != 0xFFF, Status.ctxReserved),
   ((s.reg (regCtx r)).isNone, Status.slotBusy),
   (pointOk, Status.keyFormat),
   (s.regSealOk r unwrapOk, Status.keyFormat)]

/-- The context is bound (R145, R199, R339, R395): the registration with its generation, the signature key, the
lone-survey policy of every cluster, and BW_FMD of its cores cleared. -/
def State.bindCtx (s : State) (slot : Uno) (lonePolicy : Nat) (r : List Byte) : State :=
  let c := regCtx r
  let bare := regBare r
  let x : Registration := { part := slot, regGen := s.auth.regGen + 1, grantPub := regPub r, sealing := !bare,
                            keyId := if bare then 0 else Config.keyId (slice r 0x28 72) }
  let s1 : State := { s with
    auth := { s.auth with regGen := s.auth.regGen + 1, regs := Tbl.set none s.auth.regs c (some x) }
    cart := { s.cart with sigKeys := Tbl.set 0 s.cart.sigKeys c (Config.drbg128 s.drawn) } }
  let s1 : State := { s1 with groups := Tbl.set none s1.groups slot ((s1.group slot).map (fun g =>
    { g with lonePolicy := lonePolicy })) }
  let s2 := (s1.clustersIn slot).foldl (fun t cl =>
    t.setLonePolicy ((postOf s.pkg.member cl).getD 0) ((cl - 0x1000) % 64) lonePolicy) s1.draw
  (s2.coresIn slot).foldl (fun t u => t.setCore u { t.core u with fmd := 0 }) s2

/-- An install of operator keys (R341, R353): the sector of the pair that does not hold the current record is written,
with the generation raised by 1. -/
def State.installOp (s : State) (r : List Byte) : State :=
  let other := if s.life.opSector = 6 then 7 else 6
  let s1 := s.writeSector other true
  let kid := Config.keyId (slice r 0x28 72)
  { s1 with
    life := { s1.life with opGen := s1.life.opGen + 1, opSector := other, opRecPub := regPub r, opRecKid := kid,
                           opValid := true } }

/-- The operator keys in force become those of the record in flash. -/
def State.loadOp (s : State) : State :=
  if s.life.opValid && s.life.state == .production && !s.life.pending then
    { s with auth := { s.auth with opPub := s.life.opRecPub, opKid := s.life.opRecKid, opKeys := true } }
  else { s with auth := { s.auth with opPub := [], opKid := 0, opKeys := false } }

/-- The sector that the next operator key record goes to. -/
def State.nextOpSector (s : State) : Nat := if s.life.opSector = 6 then 7 else 6

/-- The context of a counted object (R391). -/
def State.objCtx (s : State) (kind slot : Nat) : Ctx :=
  if kind = ObjKind.job then ((s.job slot).map (·.ctx)).getD 0
  else if kind = ObjKind.set then ((s.trigSet slot).map (·.ctx)).getD 0
  else if kind = ObjKind.stream then ((s.stream slot).map (·.ctx)).getD 0
  else ((s.group (0xF00000 + slot)).map (·.ctx)).getD 0

/-- The object is counted (Table HO-7). -/
def counted (kind : Nat) : Bool := kind == ObjKind.job || kind == ObjKind.set || kind == ObjKind.stream || kind == ObjKind.group

end Sys2Proof.Machine
end

