-- ==== Sys2Proof/Machine/Halt.lean ====
section
/-! DEFINITION. Halt operations (chapter 04): the commands, what happens at stations, taps and routers, and the
completion of a HOP. -/

namespace Sys2Proof.Machine

/-! ### Commands (R92 to R95) -/

/-- A host or port command issues a HOP through the active Compass; `modeOk`: MODE is one of Table HO-3. -/
def State.hopCommand (s : State) (c : CmdCtx) (kind : HopKind) (modeOk imm : Bool) (scope : Uno) (param : Word) : State :=
  let q : HopReq := { kind := kind, imm := imm, scope := scope, param := param.toNat, who := c.who, hold := none }
  s.judged c [(modeOk, Status.cmdFormat)] (fun s =>
    let r := s.issueHop none q (.command c.session c.tag c.queue)
    match r.2 with
    | .error st => r.1.refuse c st
    | .ok n =>
      let id := ((r.1.hop n).map (·.id)).getD 0
      (r.1.usePosts c.session (s.postsIn scope)).complete c Status.ok (objectWord ObjKind.hop id.toNat) 0)

/-- HALT_COMMAND (R92 to R97, R104). -/
def execHaltCommand (c : CmdCtx) (scope : Uno) (mode : Nat) (param : Word) (s : State) : Out :=
  .next (s.hopCommand c .halt (decide (mode ≤ 1)) (mode == 1) scope param)

/-- STEP_COMMAND (R92 to R95, R116). -/
def execStepCommand (c : CmdCtx) (scope : Uno) (param : Word) (s : State) : Out :=
  .next (s.hopCommand c .step true false scope param)

/-- RESUME_COMMAND (R92 to R95, R117). -/
def execResumeCommand (c : CmdCtx) (scope : Uno) (param : Word) (s : State) : Out :=
  .next (s.hopCommand c .resume true false scope param)

/-- FREEZE_COMMAND (R92 to R95, R115). -/
def execFreezeCommand (c : CmdCtx) (scope : Uno) (param : Word) (s : State) : Out :=
  .next (s.hopCommand c .freeze true false scope param)

/-- THAW_COMMAND (R92 to R95, R115). -/
def execThawCommand (c : CmdCtx) (scope : Uno) (param : Word) (s : State) : Out :=
  .next (s.hopCommand c .thaw true false scope param)

/-! ### At stations and taps (R97 to R105, R112 to R116) -/

/-- The cores of a HOP that a unit's delivery reaches: the core itself, or those of the cluster. -/
def State.reached (s : State) (h : Hop) (unit : Uno) : List Uno :=
  h.cores.filter (fun u => u == unit || parentOf s.pkg.member u == unit)

/-- The die from which a HOP's request goes out: its post's, or the active Compass's. -/
def State.issuerDie (s : State) (h : Hop) : Nat := if h.id.toNat / 256 = 0x80 then s.homeDie else h.id.toNat / 512

/-- The link directions that the request crosses to a unit and that no multicast flit of the HOP has crossed yet. -/
def State.hopLinks (s : State) (h : Hop) (unit : Uno) : List Nat :=
  (crossing s.pkg.member (s.issuerDie h) ((dieOf s.pkg.member unit).getD 0)).filter (fun k => !h.sent.contains k)

/-- A unit that a HOP's request goes to: it lies in scope, or its tap acts on cores or instances of the HOP. -/
def State.addressed (s : State) (h : Hop) (unit : Uno) : Bool :=
  s.inScope h.scope unit || !(s.reached h unit).isEmpty || !(s.actedBy h unit).isEmpty

/-- What a request does at a unit that takes it: the half's post begins its record when the HOP reaches the half first, the
core taps queue it or stop, and an immediate halt freezes (R97, R100 to R105, R113, R122, R125). -/
def State.takeHop (s : State) (hop : Nat) (h : Hop) (unit : Uno) : State :=
  let s1 := s.setHop hop { h with sent := h.sent ++ s.hopLinks h unit, heard := h.heard.filter (· != unit) ++ [unit] }
  let s2 := match postOf s.pkg.member unit with
    | some p => s1.writeRecord p hop
    | none => s1
  let s3 := (s.reached h unit).foldl (fun t u => t.tapReceive hop u) s2
  if h.kind == .halt && h.mode != .contour then s3.freezeAt hop unit else s3

/-- HOP_MULTICAST (R25, R27, R97, R100 to R105, R113, R122, R125): the request reaches a station, a core tap, a bank tap or
the host-interface tap. Its two flits spend a credit on each link that the multicast has not crossed yet, and wait
where a meter holds none. -/
def execHopMulticast (hop : Nat) (unit : Uno) (s : State) : Out :=
  match s.hop hop with
  | none => .next s
  | some h =>
    if !s.present unit || h.status == 0 || !s.addressed h unit then .next s
    else match s.sendUrg 2 (s.hopLinks h unit) with
      | none => .next s
      | some s0 => .next (s0.takeHop hop h unit)

/-- A unit's copy has reached a time; one that is invalid waits for none. -/
def State.reachedTime (s : State) (unit : Uno) (t : Nat) : Bool :=
  match s.copyNow unit with
  | some x => decide (t ≤ x)
  | none => true

/-- The stop of a HALT at its target time (R97 to R101): S is T + d, or a copy that is out of bound or invalid gives
SKEWED or UNTIMED with HALT_LATE COPY_SKEW. A core already stopped takes ALREADY. -/
def State.matchHalt (s : State) (n : Nat) (h : Hop) (u : Uno) (d : Nat) : State :=
  let stops := (s.core u).run != .stopped
  match s.copyNow u with
  | none => (s.stopCore n u (BitVec.allOnes 64) (s.loneCode h 4)).hopLateIf stops n u 2
  | some _ =>
    (s.stopCore n u (h.t + BitVec.ofNat 64 d) (s.loneCode h (s.timedCode u 0))).hopLateIf (stops && (s.copy u).oob) n u 2

/-- TARGET_TIME_MATCH (R97 to R101, R122): the copy reaches T − 2 of the core's next pending HALT, or of an absorbed one.
`d` is S − T: at most 2 at the nominal core clock, and below 1.25 ns plus one core cycle at any (R99; assumption 160). -/
def execTargetTimeMatch (core : Uno) (d : Nat) (s : State) : Out :=
  let c := s.core core
  let due (o : TimedOp) : Bool := o.kind == .halt && s.reachedTime core (o.t.toNat - 2)
  let head := c.queue.head?.filter due
  let ab := c.absorbed.head?.filter due
  let pick := match head, ab with
    | some x, some y => if y.t.toNat < x.t.toNat then some (y, false) else some (x, true)
    | some x, none => some (x, true)
    | none, some y => some (y, false)
    | none, none => none
  match pick with
  | none => .next s
  | some (o, fromQueue) =>
    let c' := if fromQueue then { c with queue := c.queue.drop 1 } else { c with absorbed := c.absorbed.drop 1 }
    let s1 := s.setCore core c'
    match s1.hop o.hop with
    | none => .next s1
    | some h => .next (s1.matchHalt o.hop h core d)

/-- Another operation whose turn at a unit comes first: a HALT, FREEZE or THAW that the unit holds, with an earlier target
time or an equal one and a lower rank, which has yet to act on an instance that this one acts on (R122, Table CH-5). -/
def State.actsFirst (s : State) (n : Nat) (h : Hop) (unit : Uno) : Bool :=
  s.hops.any (fun e => match e.2 with
    | some x => e.1 != n && (x.kind == .halt || x.kind == .freeze || x.kind == .thaw) && x.heard.contains unit &&
        (decide (x.t.toNat < h.t.toNat) || (x.t == h.t && decide (x.kind.rank < h.kind.rank))) &&
        (s.actedBy x unit).any (fun k => (s.actedBy h unit).contains k)
    | none => false)

/-- A unit's taps are to act on a HOP's class instances now: they hold its request, its time has come by their copy, and no
other operation comes first. -/
def State.classDue (s : State) (n : Nat) (h : Hop) (unit : Uno) : Bool :=
  s.present unit && h.heard.contains unit && s.reachedTime unit h.t.toNat && !s.actsFirst n h unit

/-- The core taps at a unit take a FREEZE or THAW at its turn. -/
def State.coresApply (s : State) (n : Nat) (h : Hop) (unit : Uno) : State :=
  (s.reached h unit).foldl (fun t u => t.tapApplies n u) s

/-- CLASS_FREEZE (R96, R112 to R115): at T by its copy, a unit's taps freeze the class instances of a HALT or FREEZE, and the
core taps take a FREEZE. -/
def execClassFreeze (hop : Nat) (unit : Uno) (s : State) : Out :=
  match s.hop hop with
  | none => .next s
  | some h =>
    if (h.kind == .halt || h.kind == .freeze) && s.classDue hop h unit then
      .next (if h.kind == .freeze then (s.freezeAt hop unit).coresApply hop h unit else s.freezeAt hop unit)
    else .next s

/-- CLASS_THAW (R114, R115): at T, a THAW releases every named class, and the core taps take it. -/
def execClassThaw (hop : Nat) (unit : Uno) (s : State) : Out :=
  match s.hop hop with
  | none => .next s
  | some h =>
    if h.kind == .thaw && s.classDue hop h unit then
      .next ((s.releaseAt hop (s.actedBy h unit)).coresApply hop h unit)
    else .next s

/-- CORE_SLEEP (R102): a running core is power-gated or put to sleep; its pending halts confirm ASLEEP. -/
def execCoreSleep (core : Uno) (s : State) : Out :=
  let c := s.core core
  if kindOf s.pkg.member core != .core || !s.present core || c.asleep || c.run != .running then .next s
  else
    let t := match s.copyNow core with
      | some x => word x
      | none => BitVec.allOnes 64
    let halts := (c.queue ++ c.absorbed).filter (fun o => o.kind == .halt)
    let s1 := s.setCore core { c with asleep := true, sleepT := t, queue := c.queue.filter (fun o => o.kind != .halt),
                                      absorbed := [] }
    .next (halts.foldl (fun r o => match r.hop o.hop with
      | some h => r.tapHalt o.hop h core
      | none => r) s1)

/-- CORE_WAKE_REQUEST (R102): an asleep core wakes, or the request is held until its holds clear. -/
def execCoreWakeRequest (core : Uno) (s : State) : Out :=
  let c := s.core core
  if !c.asleep then .next s
  else if c.free then .next (s.setCore core { c with asleep := false, wakeHeld := false, run := .running })
  else .next (s.setCore core { c with wakeHeld := true })

/-- CORE_SETTLED (R108): a stopped core's interface has drained and its requests are answered; it confirms every HOP at
which it waited to settle. -/
def execCoreSettled (core : Uno) (s : State) : Out :=
  let c := s.core core
  if c.run != .stopped || c.settled then .next s
  else
    let s1 := s.setCore core { c with settled := true }
    .next { s1 with hops := s1.hops.map (fun e => (e.1, e.2.map (fun h =>
      if (h.at core).phase = 2 then h.put core { h.at core with phase := 3 } else h))) }

/-! ### Routers and boundaries (R106, R107, R109, R110, R420) -/

/-- The core that a cluster router's port delivers to (R420). -/
def portCore (m : Member) (router port : Nat) : Option Uno :=
  if kindOf m router = .cnet ∧ (router - 0x8000) % 128 < 40 ∧ port % 128 < 16 then
    some (coreUno ((router - 0x8000) / 128) ((router - 0x8000) % 128) (port % 128))
  else none

/-- A core is stopped under a HALT whose scope holds every endpoint of some routers, given by their clusters (R106). -/
def State.parksAll (s : State) (u : Uno) (cls : List Uno) : Bool :=
  (s.core u).run == .stopped && (s.core u).stops.any (fun n => match s.hop n with
    | some h => cls.all (fun cl => !s.present cl || s.inScope h.scope cl)
    | none => false)

/-- The core's own routers are in scope of a HALT that stopped it. -/
def State.parks (s : State) (u : Uno) : Bool := s.parksAll u [parentOf s.pkg.member u]

/-- The cluster whose DMA engines or station a router port serves (R420). -/
def portCluster (m : Member) (router port : Nat) : Option Uno :=
  if kindOf m router = .cnet ∧ (router - 0x8000) % 128 < 40 ∧ (port % 128 = 16 ∨ port % 128 = 17) then
    some (clusterUno ((router - 0x8000) / 128) ((router - 0x8000) % 128))
  else none

/-- The port of a core's own router on a network is stopped: its margin buffer is full (R107). `data`: the data network. -/
def State.portStopped (s : State) (u : Uno) (data : Bool) : Bool :=
  match corePorts s.pkg.member u with
  | [a, b] => decide (64 ≤ (if data then s.rport b.1 b.2 else s.rport a.1 a.2).margin.length)
  | _ => false

/-- A flit enters a port's margin buffer, or waits in place behind 64 parked flits (R106, R107). -/
def State.park (s : State) (router port : Nat) (flit : Flit) : State :=
  let r := s.rport router port
  if r.margin.length < 64 then s.setRport router port { r with margin := r.margin ++ [flit] }
  else s.setRport router port { r with inPlace := r.inPlace ++ [flit] }

/-- A flit waits in a port's queue where it is (R107). -/
def State.waitInPlace (s : State) (router port : Nat) (flit : Flit) : State :=
  s.setRport router port { s.rport router port with inPlace := (s.rport router port).inPlace ++ [flit] }

/-- FLIT_PARKED (R106, R107, R109, R110): a flit for a stopped core enters its port's margin buffer, or waits in place
behind 64 parked flits; so does one for the DMA engines or the station beside stopped cores. One for a core whose port
has stopped waits in place in an upstream router that is in scope. A flit that reaches a boundary queue that holds
waits there. -/
def execFlitParked (router : Uno) (port : Nat) (flit : Flit) (s : State) : Out :=
  let m := s.pkg.member
  let cl := (clusterOf m flit.dst).getD 0
  let key := boundKey router cl
  if (s.bound key).holding then
    .next (s.setBound key { s.bound key with flits := (s.bound key).flits ++ [flit] })
  else match portCore m router port, portCluster m router port, coreOf m flit.dst with
    | some u, _, _ =>
      if s.present u && s.parks u && coreOf m flit.dst == some u then .next (s.park router port flit) else .next s
    | none, some c, _ =>
      if flit.dst == c && (s.clusterCores c).any s.parks then .next (s.park router port flit) else .next s
    | none, none, some u =>
      if s.present router && decide (40 ≤ (router - 0x8000) % 128 ∧ port < 64) && s.present u &&
          postOf m router == postOf m u && s.parksAll u (routerClusters router) &&
          s.portStopped u (kindOf m router == .xbar) then
        .next (s.waitInPlace router port flit)
      else .next s
    | none, none, none => .next s

/-- BOUNDARY_HOLD_START (R110): at T by its copy, or on receipt of an immediate halt, a boundary queue outside the scope
begins to hold flits for one of its clusters. -/
def execBoundaryHoldStart (hop : Nat) (router : Uno) (cluster : Uno) (s : State) : Out :=
  match s.hop hop with
  | none => .next s
  | some h =>
    let m := s.pkg.member
    let isRouter := kindOf m router == .xbar || kindOf m router == .cnet
    let due := h.mode != .contour || s.reachedTime router h.t.toNat
    if h.kind == .halt && isRouter && s.present router && kindOf m cluster == .cluster && s.inScope h.scope cluster && due &&
        !(s.bound (boundKey router cluster)).holding then
      .next (s.setBound (boundKey router cluster) { holding := true, hop := hop })
    else .next s

/-! ### Steps (R116) -/

/-- The code of a core that starts under a RESUME: SKEWED or UNTIMED by its copy, LATE for a request that came late, else
`ok` (R117, Table CH-5); late and out of bound is SKEWED (DESIGN CHOICE, assumption 155). -/
def State.startCode (s : State) (u : Uno) (late : Bool) (ok : Nat) : Nat :=
  match s.copyNow u with
  | none => 4
  | some _ => s.timedCode u (if late then 2 else ok)

/-- The head of a core tap's queue when it is HOP n's operation and its time has come. -/
def State.dueOp (s : State) (u : Uno) (n : Nat) : Option TimedOp :=
  (s.core u).queue.head?.filter (fun o => o.hop == n && s.reachedTime u (o.t.toNat - 2))

/-- STEP_START (R114, R116, Table CH-5): at T_s the routers deliver parked flits and the core runs its n boundaries. -/
def execStepStart (hop : Nat) (core : Uno) (s : State) : Out :=
  match s.hop hop, s.dueOp core hop with
  | some h, some o =>
    let c := s.core core
    let s1 := s.setCore core { c with queue := c.queue.drop 1 }
    let c := s1.core core
    if h.kind != .step then .next s
    else if c.asleep then .next (s1.confirmCore hop core 5)
    else if c.run != .stopped then .next (s1.confirmCore hop core 9)
    else if !h.platform && c.holdP then .next (s1.confirmCore hop core 10)
    else
      let s2 := (s1.setCore core { c with run := .stepping hop, settled := false }).deliverParked core
      .next (s2.hopCode hop core (if o.late then 2 else if (s.copyNow core).isNone then 4 else 0) 1 0)
  | _, _ => .next s

/-- What a core's tap reads as the time: its copy, or the master's count while the copy is invalid. -/
def State.tapNow (s : State) (u : Uno) : Nat := (s.copyNow u).getD s.now

/-- The least time that n core cycles take at the nominal clock, in ns (assumption 161). -/
def stepTime (n : Nat) : Nat := n * 10 / 9

/-- STEP_END (R101, R116, R163): the core has run its n issue boundaries from T_s, stops and records S; a copy that is out of
bound or invalid at the stop gives SKEWED or UNTIMED with HALT_LATE COPY_SKEW. -/
def execStepEnd (core : Uno) (s : State) : Out :=
  let c := s.core core
  match c.run with
  | .stepping n =>
    match s.hop n with
    | none => .next s
    | some h =>
      if s.tapNow core < h.t.toNat + stepTime h.steps then .next s
      else
        let t := match s.copyNow core with
          | some x => word x
          | none => BitVec.allOnes 64
        let skewed := (s.copyNow core).isNone || (s.copy core).oob
        let code := s.startCode core false (h.at core).code
        let s1 := s.setCore core { c with run := .stopped, settled := false, s := t, cutCode := code, cutS := t,
                                          cutT := h.t }
        .next ((s1.hopCode n core code 2 (s.sinceT n t)).hopLateIf skewed n core 2)
  | _ => .next s

/-! ### Resumes (R117) -/

/-- The classes that a release stage frees (Table CH-3): 0 inkwells, 1 synchronisation objects and their HALT holds,
2 DMA and host queues, 3 timers, 4 watchdogs. -/
def stageClasses : Nat → List Nat
  | 0 => [5]
  | 1 => [4, 6]
  | 2 => [0, 1]
  | 3 => [2]
  | 4 => [3]
  | _ => []

/-- A release stage's time has come by the master meridian. -/
def State.stageDue (s : State) (t : Time) (stage : Nat) : Bool :=
  match stage with
  | 0 => decide (t.toNat ≤ s.now + 32)
  | 1 => decide (t.toNat ≤ s.now + 16)
  | 2 => decide (t.toNat ≤ s.now + 8)
  | 3 => decide (t.toNat ≤ s.now + 2)
  | 4 => decide (t.toNat + 1000 ≤ s.now)
  | _ => false

/-- A core meets its RESUME at T_r (R102, R114, R117, R163). -/
def State.resumeCore (s : State) (n : Nat) (h : Hop) (d : Nat) (u : Uno) : State :=
  match s.dueOp u n with
  | none => s
  | some o =>
    let c := { s.core u with queue := (s.core u).queue.drop 1 }
    let s1 := s.setCore u c
    let freed := c.unhold h.platform
    if c.asleep then
      if freed.free then
        (s1.setCore u { freed with run := .running, asleep := !c.wakeHeld, wakeHeld := false, precise := none,
                                   stops := [], cutCode := 5, cutT := h.t }).confirmCore n u 5
      else (s1.setCore u freed).confirmCore n u 10
    else if c.run != .stopped then s1.confirmCore n u 9
    else if freed.free then
      let code := s.startCode u o.late 13
      let start := match s.copyNow u with
        | some x => if o.late then word (x + 1) else h.t + BitVec.ofNat 64 d
        | none => s.pkg.meridian
      (s1.setCore u { freed with run := .running, settled := true, precise := none, stops := [], cutCode := code, cutS := start,
                                 cutT := h.t }).hopCode n u code 3 (if code = 4 then 0 else start.toNat - h.t.toNat)
    else (s1.setCore u freed).confirmCore n u 10

/-- RESUME_RELEASE (R114, R117, R142): one release stage of a RESUME: the due classes release, at −8 ns the routers deliver
parked flits, and at T_r the cores start. `d` is the start meridian less T_r: at most 2 at the nominal core clock (assumption 160). -/
def execResumeRelease (hop : Nat) (stage : Nat) (d : Nat) (s : State) : Out :=
  match s.hop hop with
  | none => .next s
  | some h =>
    if h.kind != .resume || !s.stageDue h.t stage then .next s
    else
      let ks := h.iwait.filter (fun k => (stageClasses stage).contains (k / 0x1000000))
      let s1 := s.releaseAt hop ks
      let s2 := if stage = 2 then
          h.cores.foldl (fun t u =>
            let c := t.core u
            if c.run == .stopped && (c.unhold h.platform).free then t.deliverParked u else t) s1
        else s1
      .next (if stage = 3 then (h.cores.foldl (fun t u => t.resumeCore hop h d u) s2).rearmChains else s2)

/-- BOUNDARY_RELEASE (R110, R117): boundary queues of clusters that run again release their held flits, once the in-scope
routers have delivered theirs. -/
def execBoundaryRelease (hop : Nat) (s : State) : Out :=
  match s.hop hop with
  | none => .next s
  | some h =>
    if h.kind != .resume then .next s
    else
      let free (cl : Uno) : Bool := (s.clusterCores cl).all (fun u =>
        (s.core u).run == .running && (corePorts s.pkg.member u).all (fun k => s.rport k.1 k.2 == {}))
      .next (s.bounds.foldl (fun t e =>
        if e.2.holding && s.inScope h.scope (e.1 % 0x10000) && free (e.1 % 0x10000) then t.setBound e.1 {} else t) s)

/-! ### Completion (R108, R118 to R121, R139, R142, R160, R190, R242) -/

/-- A job starts as a START_CAPTURE start does, on the completion of HOP n: no check of HALTED; a refusal changes nothing
(R138, R160, R242). -/
def State.startCapture (s : State) (n slot : Nat) : State :=
  match s.job slot with
  | none => s
  | some j =>
    match firstFail (s.startChecks j true) with
    | some _ => s
    | none => ((j.parts.map (·.post)).foldl (fun t p => t.autoStart p) s).startJob slot { j with startHop := some n } true true

/-- What a chain HOP's completion sets off: the set's job for START_CAPTURE, the deferred HOP of its place, chains that
may be armed again, and the release of spent places (R138, R139, R142). -/
def State.chainDone (s : State) (n p place : Nat) : State :=
  let key := p * 16 + place
  match s.place? key with
  | none => s
  | some pl =>
    match s.trigSet pl.set with
    | none => s.setPlace key (some { pl with hop := none })
    | some x =>
      let a := (x.elems[pl.elem]?.map (fun e => e.word 4)).getD 0
      let s1 := if actAction a = 5 then (match x.job with
          | some j => s.startCapture n j
          | none => s) else s
      ((s1.placeFrees key (actAction a) (actAscope a)).rearmChains).releaseSpent pl.set pl.elem

/-- The flags of a completed HOP: HALTED at cores and objects that it halted, cleared where a RESUME set them running
(R108, R118); the Legend shows the change (R61). -/
def State.hopFlags (s : State) (h : Hop) : State := s.flaggedFrom <|
  let objs := (h.insts.filter (fun k => k / 0x1000000 = 6)).map (· % 0x1000000)
  match h.kind with
  | .halt | .step =>
    let s1 := h.cores.foldl (fun t u =>
      let c := t.core u
      if c.run == .stopped && c.settled then t.setCore u { c with halted := true } else t) s
    objs.foldl (fun t o => if (t.inst 6 o).any then t.setInst 6 o { t.inst 6 o with halted := true } else t) s1
  | .resume =>
    let s1 := h.cores.foldl (fun t u =>
      let c := t.core u
      if c.run == .running then t.setCore u { c with halted := false } else t) s
    objs.foldl (fun t o => if (t.inst 6 o).any then t else t.setInst 6 o { t.inst 6 o with halted := false }) s1
  | _ => s

/-- A HOP completes with a status: its flags, its report, and what stands behind it (R108, R121). -/
def State.completeHop (s : State) (n status : Nat) : State :=
  match s.hop n with
  | none => s
  | some h =>
    let done : Time := if status = 4 then 0 else s.pkg.meridian
    let h1 := { h with status := status, doneT := done }
    let s1 := (s.setHop n h1).hopFlags h1
    match h.origin with
    | .command sess tag queue =>
      s1.emit sess (s1.event EventType.hopDone status sess (queue.getD 0xFF) (objectWord ObjKind.hop h.id.toNat) tag done)
    | .engine e => s1.engineEvent e 1
    | .chain p pl => s1.chainDone n p pl
    | .policy c r folio => if folio then (match (s1.policy c r).job with
        | some j => s1.startCapture n j
        | none => s1) else s1
    | .lone p _ => s1.loneFolios p

/-- The halves of a HOP whose cores have all confirmed take their status and DONE time (R121, R125). -/
def State.halfDone (s : State) (h : Hop) : Hop :=
  let ps := ((h.cores.filterMap (postOf s.pkg.member)).eraseDups)
  ps.foldl (fun a p =>
    let us := hopHalf s.pkg.member h p
    if (Tbl.get none a.halves p).isNone && us.all (fun u => decide (3 ≤ (h.at u).phase)) then
      { a with halves := Tbl.set none a.halves p (some (h.statusOf us, s.pkg.meridian)) } else a) h

/-- A HOP that the active Compass issued, with both Compasses lost: its completions are kept in the post records and
reported to no one (Table CH-6). -/
def State.issuerGone (s : State) (h : Hop) : Bool := s.pkg.bothDead && h.id.toNat / 256 == issuerByte none

/-- The issuer takes a core's confirmation; one that the deadline overtook brings the code that the core took (R119). -/
def Hop.confirmed (h : Hop) (u : Uno) : Hop :=
  let k := h.at u
  h.put u { k with phase := 4, code := k.own.getD k.code, own := none }

/-- Nothing is awaited any more: every core has confirmed, and a FREEZE, a THAW, or a HOP that acts on no core has acted on
its instances (R96, R108, R115, R118). -/
def Hop.complete (h : Hop) : Bool :=
  h.cores.all (fun u => (h.at u).phase == 4) &&
  ((!h.cores.isEmpty && h.kind != .freeze && h.kind != .thaw) || h.iwait.isEmpty)

/-- HOP_CONFIRMATION (R108, R118, R121, R125): the issuer takes the confirmations of a core or of a cluster. When every
core is done and no instance is awaited the HOP completes; a late one only updates record and flags. A HOP whose issuer's
state was cleared takes none (R123). -/
def execHopConfirmation (hop : Nat) (unit : Uno) (s : State) : Out :=
  match s.hop hop with
  | none => .next s
  | some h =>
    let us := (s.reached h unit).filter (fun u => (h.at u).phase == 3)
    let h1 := s.halfDone (us.foldl (fun a u => a.confirmed u) h)
    let s1 := s.setHop hop h1
    if h.status = 0 then .next s
    else if h.status = 1 then
      if h1.complete && !s.issuerGone h then .next (s1.completeHop hop (h1.statusOf h1.cores))
      else .next s1
    else if us.isEmpty then .next s
    else .next (s1.hopFlags h1)

/-- The time from which DEADLINE counts (R119). -/
def Hop.deadlineFrom (h : Hop) : Nat :=
  match h.kind with
  | .step => h.t.toNat + (h.steps * 10 + 8) / 9
  | _ => h.t.toNat

/-- At the deadline a core whose confirmation the issuer has not taken is UNCONFIRMED; one that has stopped and not settled
keeps its code (R119). -/
def Hop.overdue (h : Hop) (u : Uno) : Hop :=
  let k := h.at u
  match k.phase with
  | 0 | 1 => h.put u { k with code := 8 }
  | 3 => h.put u { k with code := 8, own := some k.code }
  | _ => h

/-- HOP_DEADLINE (R119 to R121): cores that have not confirmed take UNCONFIRMED, those not settled are reported
UNSETTLED, and the HOP completes with DEADLINE. -/
def execHopDeadline (hop : Nat) (s : State) : Out :=
  match s.hop hop with
  | none => .next s
  | some h =>
    if h.status ≠ 1 || decide (s.now < h.deadlineFrom + 1000 * h.deadline) || s.issuerGone h then .next s
    else
      let none_ := h.cores.filter (fun u => (h.at u).phase != 2 && (h.at u).phase != 4)
      let open_ := h.cores.filter (fun u => (h.at u).phase == 2)
      let h1 := h.cores.foldl (fun a u => a.overdue u) h
      let ps := (h.cores.filterMap (postOf s.pkg.member)).eraseDups
      let h2 := ps.foldl (fun a p => if (Tbl.get none a.halves p).isNone then
        { a with halves := Tbl.set none a.halves p (some (a.statusOf (hopHalf s.pkg.member a p), 0)) } else a) h1
      let s1 := s.setHop hop h2
      let s2 := none_.foldl (fun t u => t.postLate hop u 3) s1
      let s3 := open_.foldl (fun t u => t.postLate hop u 4) s2
      .next (s3.completeHop hop 4)

/-! ### Lattice pulses (R21, R23, R104) -/

/-- A pending lattice HOP of a set that holds a channel. -/
def State.laneHop (s : State) (h : Hop) (chan : Nat) : Bool :=
  h.mode == .lattice && (match h.origin with
    | .chain p pl => match s.place? (p * 16 + pl) with
      | some x => ((s.trigSet x.set).bind (·.lane)) == some chan
      | none => false
    | _ => false)

/-- LATTICE_HALT_PULSE (R21, R23, R104, R113): a pulse of a channel, sent at `sentT`, enters a die: every core tap whose
mask includes the channel stops and the stations and banks of the die freeze. -/
def execLatticeHaltPulse (chan : Nat) (die : Nat) (sentT : Time) (s : State) : Out :=
  if s.pkg.member.dies ≤ die ∨ 16 ≤ chan then .next s
  else
    .next (s.hops.foldl (fun t e => match e.2 with
      | none => t
      | some h =>
        if h.status == 1 && h.t == sentT && s.laneHop h chan then
          let us := h.cores.filter (fun u => dieOf s.pkg.member u == some die && (s.core u).lmask.getLsbD chan)
          let t1 := ((us.filterMap (postOf s.pkg.member)).eraseDups).foldl (fun r p => r.writeRecord p e.1) t
          let t2 := us.foldl (fun r u => r.tapReceive e.1 u) t1
          let units := [2 * die, 2 * die + 1].flatMap (fun p => halfClusters p ++ [0x3300 + p]) ++
            (if die = 0 then [0x3000] else [])
          units.foldl (fun r u => r.freezeAt e.1 u) t2
        else t) s)

end Sys2Proof.Machine
end

