-- ==== Sys2Proof/Machine/ResetOps.lean ====
section
/-! DEFINITION. What each reset touches (R38 to R40, Table TP-7; Table CH-6, Table FO-16, Table BW-10, Table SW-5,
Table HO-9): package warm reset, hub-warm reset and hub-cold reset as shared operations. -/

namespace Sys2Proof.Machine

/-! ### Package warm reset (Table CH-6) -/

/-- A core under reset: one whose holds stand stays halted, any other runs from its reset state. Pending operations stay
in its tap (Table TP-7). -/
def Core.warmReset (c : Core) : Core :=
  { c with run := if c.free then .running else .stopped, settled := true, asleep := false, wakeHeld := false,
           precise := none }

/-- An incomplete HOP completes at the reset: cores that have not confirmed take UNCONFIRMED with HALT_LATE UNCONFIRMED,
and a core that had stopped counts as settled (Table CH-6). -/
def State.resetHop (s : State) (n : Nat) : State :=
  match s.hop n with
  | none => s
  | some h =>
    if h.status ≠ 1 then s
    else
      let late := h.cores.filter (fun u => decide ((h.at u).phase < 2))
      let h1 := h.cores.foldl (fun a u =>
        let k := a.at u
        a.put u (if k.phase < 2 then { k with code := 8 } else { k with phase := 4 })) h
      let ps := (h.cores.filterMap (postOf s.pkg.member)).eraseDups
      let h2 := ps.foldl (fun a p =>
        let st := a.statusOf (hopHalf s.pkg.member a p)
        if (Tbl.get none a.halves p).isNone then
          { a with halves := Tbl.set none a.halves p (some (st, if st = 4 then 0 else s.pkg.meridian)) } else a) h1
      let s1 := late.foldl (fun t u => t.postLate n u 3) (s.setHop n h2)
      s1.completeHop n (h2.statusOf h2.cores)

/-- Every folio that has not ended ends INCOMPLETE at once (Table FO-16). -/
def State.cutJobs (s : State) : State :=
  (Tbl.keysSome s.folios.jobs).foldl (fun t j => match t.job j with
    | some x => if x.ended then t else t.cutJob j false
    | none => t) s

/-- Tap chains return to stage 0; counters keep their values (Table BW-10). -/
def State.restartTapChains (s : State) : State :=
  { s with chains := Tbl.mapVals {} (fun k c =>
      if kindOf s.pkg.member (k / 16) = .core then c.restart else c) s.chains }

/-- The package warm reset (Table CH-6, Table FO-16, Table SW-5): cores reset, flits are discarded, running folios end,
incomplete HOPs complete, deadline records end with RESET and deadlock records return to NONE. -/
def State.packageWarm (s : State) : State :=
  let s1 : State := { s with
    cores := Tbl.mapVals {} (fun _ c => c.warmReset) s.cores
    rports := []
    bounds := Tbl.mapVals {} (fun _ b => { b with flits := [] }) s.bounds }
  let s2 := (Tbl.keysSome s1.hops).foldl (fun t n => t.resetHop n) s1
  let s3 := s2.restartTapChains.cutJobs
  let s4 := s3.freeDeadlines (fun _ => true) 3
  { s4 with watch := { s4.watch with
      records := []
      waiters := Tbl.mapVals {} (fun _ w => { w with obj := none }) s4.watch.waiters } }.rearmChains.reap

/-! ### What every hub reset ends -/

/-- Every trigger set unloads with a reason, SET_UNLOADED written (Table BW-10). -/
def State.unloadAll (s : State) (reason : Nat) : State :=
  (Tbl.keysSome s.sets).foldl (fun t i => (t.unloadSet i reason).disarmNow i) s

/-- Every stream ends with a reason, STREAM_ENDED written (R266). -/
def State.endStreams (s : State) (reason : Nat) : State :=
  (Tbl.keysSome s.trace.streams).foldl (fun t i => (t.endStream i reason).streamGone i) s

/-- Running exports stop and their references drop. -/
def State.dropExports (s : State) : State :=
  let s1 := s.folios.exports.foldl (fun t x => match x.job with
    | some j => t.hubUnref ObjKind.job j
    | none => t.hubUnref ObjKind.stream x.stream) s
  { s1 with folios := { s1.folios with exports := [] } }

/-- Within 10 µs before the reset, the hub ends what it holds: buffers drain with `undrained` lines left, sets unload,
streams end, every taken command completes with HUB_RESET, and every session closes (Table HO-9, R408, R414). -/
def State.hubEnds (s : State) (lossReason closeReason : Nat) (undrained : List Undrained) : State :=
  let s1 := (s.drainAll lossReason undrained).unloadAll 5
  let s2 := (s1.endStreams 5).dropExports
  (s2.completeAll Status.hubReset).closeAll closeReason

/-! ### Hub-warm reset -/

/-- BAR0 offsets of the registers that a hub-warm reset clears: post windows, the Legend and window selectors, the
queues, the watch and the root engine (R62, R67, R126, R192, R225, R248, R270, R399). Keys of the port session's own
selectors lie 2^32 above. -/
def hubReg (key : Nat) : Bool :=
  let a := key % 2 ^ 32
  decide (0x1000000 ≤ a) || a == 0x10130 || decide (0x10E00 ≤ a ∧ a < 0x10F00) ||
  decide (0x11400 ≤ a ∧ a < 0x11C00) || decide (0x20000 ≤ a ∧ a < 0x40000) || decide (0x60000 ≤ a ∧ a < 0x70000)

/-- A post at a hub-warm reset: step 7 of the rerun starts only the posts that were running (R414); one that was
restarting or waking starts again. -/
def Post.warmReset (q : Post) : Post :=
  { q with health := if q.health = Health.ok ∨ q.health = Health.restarting then Health.waking else q.health
           users := [], hbOut := false, ackDue := false, hbT := 0, ackT := 0, lastAck := none, memError := false, restored := false
           rehomed := false }

/-- A HOP at a hub-warm reset: its operations stay queued in the taps, and it is reported to no one (Table CH-6). -/
def Hop.forgotten (h : Hop) : Hop := { h with status := 0 }

/-- What a hub-warm reset leaves, once the hub has ended what it held (Table TP-7): AON, the meridian, the cores, the
taps' halt and freeze state, policy rows, deadlock and deadline records, partitions and registrations are kept;
comparators, chains and lattice masks, and every HUB register and queue are cleared. -/
def State.hubWarmState (s : State) : State :=
  let w := s.watch
  let posts := (rangeFrom 0 s.pkg.member.posts).foldl (fun t p => Tbl.set {} t p (s.post p).warmReset) []
  { s with
    pkg := { s.pkg with bootStep := 1, warmRerun := true, fwRecovery := false, fencedA := false, fencedB := false,
                        standbyOk := false, healthA := 1, healthB := 1, hbmDone := [] }
    upd := { s.upd with postsLostBefore := s.pkg.postsLost }
    posts := posts
    clamps := []
    reports := []
    legend := { gen := s.legend.gen, changeT := s.legend.changeT }
    regs := s.regs.filter (fun e => !hubReg e.1)
    engines := (s.engines.filter (fun e => e.2.owner.isSome)).map (fun e => (e.1, { stopReason := 7 }))
    hops := s.hops.map (fun e => (e.1, e.2.map Hop.forgotten))
    hopSeq := []
    cores := Tbl.mapVals {} (fun _ c => { c with lmask := 0, fmd := 0 }) s.cores
    rings := []
    cmps := []
    cnts := []
    chains := []
    sets := []
    places := []
    halves := []
    xtrig := []
    folios := { s.folios with jobs := s.folios.jobs.map (fun e => (e.1, e.2.map (fun j => { j with engine := none }))) }
    pair := { s.pair with missA := 0, missB := 0, probeA := false, probeB := false, onReq := false, routed := [] }
    watch := { objs := w.objs, waiters := w.waiters, policies := w.policies, records := w.records,
               deadlines := w.deadlines }
    trace := { taps := s.trace.taps, stations := s.trace.stations, areaEff := s.trace.areaEff, serial := s.trace.serial }
    host := { refs := s.host.refs, resets := s.host.resets + 1, msixTable := s.host.msixTable } }

/-- A hub-warm reset for a close reason (R38, R39, R408, R414). -/
def State.hubWarm (s : State) (closeReason : Nat) (undrained : List Undrained) : State :=
  (s.hubEnds 1 closeReason undrained).hubWarmState

/-! ### Hub-cold reset -/

/-- The jobs whose folios a hub-cold reset leaves in the reserve: those that have not ended, which enumeration finds in the
directories and writes INCOMPLETE, and those that a kept reference holds (R159, R178, R185, R186, R223). -/
def State.keptJobs (s : State) : Tbl (Option Job) :=
  s.folios.jobs.filter (fun e => match e.2 with
    | some j => !j.ended || decide (0 < (s.refs ObjKind.job e.1).kept)
    | none => false)

/-- SERIAL after a hub-cold reset: one more than the highest that the folio directories hold (R165). -/
def serialAfter (js : Tbl (Option Job)) : BitVec 32 :=
  nextSerial (BitVec.ofNat 32 (js.foldl (fun a e => max a ((e.2.map (fun j => j.serial.toNat)).getD 0)) 0))

/-- What stands in the two lifecycle flashes of a package (R350): it survives every reset. -/
def Lifecycle.flash (l : Lifecycle) : Lifecycle :=
  { copies := l.copies, sectors := l.sectors, user := l.user, certChain := l.certChain, devKeys := l.devKeys,
    devApub := l.devApub, devXpub := l.devXpub,
    opGen := l.opGen, opSector := l.opSector, opRecPub := l.opRecPub, opRecKid := l.opRecKid, opValid := l.opValid }

/-- The update state and the anti-rollback counter in flash (R403, R411). -/
def Update.flash (u : Update) : Update :=
  { slotA := u.slotA, slotB := u.slotB, manual := u.manual, tries := u.tries, gen := u.gen, rollback := u.rollback }

/-- The pins as the outside drives them. -/
def Port.pins (p : Port) : Port := { trigIn := p.trigIn, faultExt := p.faultExt }

/-- What a hub-cold reset leaves (Table TP-7): AON, both HUB domains and every tap are cleared and the cores are held;
the meridian and its copies, both flashes, the reserve with its folios, the accelerator's synchronisation objects and
what the outside drives are kept. -/
def State.hubColdState (s : State) : State :=
  let jobs := s.keptJobs
  { State.reset with
    pkg := { member := s.pkg.member, powered := s.pkg.powered, aonUp := s.pkg.aonUp, meridian := s.pkg.meridian,
             bootStep := 1, warmHeld := s.pkg.warmHeld, pwrWarn := s.pkg.pwrWarn, busMaster := s.pkg.busMaster }
    dies := s.dies
    copies := s.copies
    links := s.links
    folios := { jobs := jobs, serial := serialAfter jobs, started := s.folios.started, reserve := s.folios.reserve }
    watch := { objs := Tbl.mapVals {} (fun _ o => { o with ctx := 0, producers := [] }) s.watch.objs }
    port := s.port.pins
    life := s.life.flash
    host := { msixTable := s.host.msixTable }
    upd := s.upd.flash
    drawn := s.drawn
    pending := s.pending }

/-- A hub-cold reset for a close reason (R38, R40): as a hub-warm reset, and every object ends. -/
def State.hubCold (s : State) (closeReason : Nat) (undrained : List Undrained) : State :=
  (s.hubEnds 2 closeReason undrained).hubColdState

end Sys2Proof.Machine
end

