-- ==== Sys2Proof/Machine/LifeOps.lean ====
section
/-! DEFINITION. The lifecycle controller (chapter 13): repairs of the record, keys made at start-up, the transition and
its wipe. -/

namespace Sys2Proof.Machine

/-! ### Repairs (R358) -/

/-- Positions at which some copy holds a record, lowest first. -/
def State.usedPositions (s : State) : List Nat :=
  (rangeFrom 0 192).filter (fun i => s.life.copies.any (fun e => e.1 % 192 == i))

/-- One position after step 2: erased copies of a resolved position are programmed and COPY_REPAIRED is raised once; a
corrupt copy stays and raises COPY_CORRUPT. -/
def State.repairAt (s : State) (i : Nat) : State :=
  let here := s.copiesHere
  let s1 := if here.any (fun c => s.stepRec c i == .corrupt) then s.lifeReport 5 i else s
  match s.position i with
  | .value r =>
    let bare := here.filter (fun c => s.stepRec c i == .erased)
    if bare.isEmpty then s1 else (bare.foldl (fun t c => t.setStepRec c i r) s1).lifeReport 4 i
  | _ => s1

/-- Every used position repaired. -/
def State.repair (s : State) : State := s.usedPositions.foldl (fun t i => t.repairAt i) s

/-- Used positions at which a repair programs some copy. -/
def State.repairCount (s : State) : Nat :=
  (s.usedPositions.filter (fun i => (match s.position i with | .value _ => true | _ => false) &&
    s.copiesHere.any (fun c => s.stepRec c i == .erased))).length

/-- Repairs run on after step 2, each for at most 120 µs; how long one takes within that bound is open (log entry 173). -/
def State.repairs (s : State) : State :=
  let n := s.repairCount
  let s1 := s.repair
  { s1 with life := { s1.life with repairT := s.pkg.meridian + n * min (Config.repairTime n) 120000 } }

/-! ### Keys made at start-up (R348, R349) -/

/-- At the first start-up in BLANK with sector 4 erased, the device keys are made and written there. -/
def State.makeDevKeys (s : State) : State :=
  if s.life.state = .blank ∧ !s.life.devKeys then
    let a := slice (Config.publicKey s.drawn) 0 32
    let x := slice (Config.publicKey (s.drawn + 1)) 0 32
    let s1 := s.draw.draw
    { s1 with life := { s1.life with devKeys := true, devApub := a, devXpub := x } }
  else s

/-- At an AON reset in TEST or END_OF_LIFE, the maker sealing key is drawn and published wrapped (R348). -/
def State.makeMakerKey (s : State) : State :=
  if !s.pkg.warmRerun && (s.life.state == .test || s.life.state == .endOfLife) then
    let key := Config.drbg256 s.drawn
    let kid := Config.keyId (leBytes 32 key.toNat)
    let eph := slice (Config.publicKey (s.drawn + 1)) 0 32
    let wrap := leBytes 40 (Config.wrapKey kid key).toNat
    let s1 := s.draw.draw
    { s1 with auth := { s1.auth with mkKid := kid, mkEph := eph, mkWrap := wrap } }
  else s

/-- AUTH_DEV_ and AUTH_OP_ are loaded from flash (R345). -/
def State.loadKeys (s : State) : State :=
  let s1 : State := { s with auth := { s.auth with devApub := s.life.devApub, devXpub := s.life.devXpub } }
  s1.loadOp

/-- A COMMIT without ANNOUNCE is announced: LIFECYCLE TRANSITION, then the record (R363). -/
def State.announce (s : State) (code : Nat) : State :=
  let l := s.life
  let n := s.lastNames
  let s1 := (s.lifeReport code (4 * l.slot + 3)).writeStep 0xA4 n.1 n.2 l.slot 3
  { s1 with life := { s1.life with step := 4 } }

/-! ### Transitions (R360 to R364) -/

/-- The user sectors, and sectors 6 and 7 when the transition's wipe erases them (Table LC-4). -/
def wipeSectors (src dst : Nat) : List Nat :=
  rangeFrom 40 16 ++ (if (src == 1 && dst != 2) || src == 2 then [6, 7] else [])

/-- Logical sectors of a list that hold a programmed bit on some reachable die, each with one write. -/
def State.wipeWrites (s : State) (ls : List Nat) : List (Nat × Nat) :=
  (ls.filter (fun l => s.flashDies.any (fun d => (s.sector d (s.physOf d l)).programmed))).map (fun l => (l, 1))

/-- The flash writes that a transition needs (R362 step 9). -/
def State.transitionWrites (s : State) (src dst : Nat) : List (Nat × Nat) :=
  s.wipeWrites (wipeSectors src dst) ++ (if dst = 2 then [(s.nextOpSector, 1)] else [])

/-- Every folio directory is emptied: no job and no reservation is left (R360). -/
def State.emptyDirectories (s : State) : State :=
  (Tbl.keysSome s.folios.jobs).foldl (fun t j => (t.dropJob j).freeRefs ObjKind.job j) s.dropExports

/-- Every partition is destroyed with the effects of R340. -/
def State.destroyPartitions (s : State) : State :=
  (Tbl.keysSome s.groups).foldl (fun t u => match t.group u with
    | some g => if g.partition then t.clearPartition u g else t
    | none => t) s

/-- Step 4 of Table LC-6: directories emptied, sectors erased as Table LC-4 states. -/
def State.wipe (s : State) : State :=
  let n := s.lastNames
  let ls := wipeSectors n.1 n.2
  let s1 := ls.foldl (fun t l => t.eraseSector l) s.emptyDirectories
  let l := s1.life
  let ops := ls.contains 6
  { s1 with life := { l with user := [], opRecPub := if ops then [] else l.opRecPub,
                             opRecKid := if ops then 0 else l.opRecKid, opValid := l.opValid && !ops } }

/-- WIPE, if absent, and COMMIT are written (R364). -/
def State.commit (s : State) : State :=
  let n := s.lastNames
  let i := s.life.slot
  let s1 := (s.writeStep 0xA2 n.1 n.2 i 1).writeStep 0xA3 n.1 n.2 i 2
  { s1 with life := { s1.life with step := 3 } }

/-- The level of Table LC-4. -/
def State.transitionLevel (s : State) (who : Option Nat) : Bool :=
  match who.bind s.session with
  | none => false
  | some x => match s.life.state with
    | .blank => x.provision.live s.now
    | .test => x.makerTest.live s.now
    | .production => s.hasPlatform who
    | .endOfLife => false

/-- CONFIRM of this package: the first 8 bytes of the SHA-384 of "GDEV" and the attestation public key (Table LC-5). -/
def State.confirmBytes (s : State) : List Byte :=
  (digestBytes (Config.sha384 (leBytes 4 (magic 'G' 'D' 'E' 'V') ++ s.auth.devApub))).take 8

/-- An operator key record that an install accepts: steps 3, 6 and 7 of R339 with CTXID 0. -/
def opRecordOk (r : List Byte) (pointOk unwrapOk : Bool) : Bool :=
  regLegal r && regCtx r == 0 && pointOk && !regBare r && unwrapOk

/-- The checks of R362, but for the flash writes of step 9. -/
def State.transitionChecks (s : State) (c : CmdCtx) (arg : List Byte) (pointOk unwrapOk : Bool) : List (Bool × Nat) :=
  let dst := fieldAt arg 4 1
  [(arg.length == 16 || (arg.length == 144 && dst == 2), Status.cmdFormat),
   (!s.life.lockdown, Status.lockdown),
   (!s.lcBusy && decide (s.life.repairT ≤ s.pkg.meridian), Status.lcBusy),
   (fieldAt arg 0 4 == 0x5254434C && fieldAt arg 5 3 == 0 && (match Lc.ofCode dst with
      | some b => lcListed s.life.state b
      | none => false), Status.lifecycleState),
   (s.transitionLevel c.who, Status.unitDenied),
   (slice arg 8 8 == s.confirmBytes, Status.deviceMismatch),
   (!(s.life.state == .blank && dst == 1) || decide (0 < s.testLeft), Status.testLimit),
   (dst != 2 || opRecordOk (slice arg 16 128) pointOk unwrapOk, Status.keyFormat),
   (!s.pkg.pwrWarn, Status.pwrWarn)]

/-- An accepted transition up to the end of step 3 of Table LC-6: operator record, INTENT, sessions closed, the
accelerator in package warm reset and held, partitions destroyed. -/
def State.beginTransition (s : State) (slot dst : Nat) (r : List Byte) : State :=
  let src := s.life.state.code
  let s1 := if dst = 2 then s.installOp r else s
  let s2 := s1.writeStep 0xA1 src dst slot 0
  let s3 : State := { s2 with life := { s2.life with slot := slot, step := 1, running := true } }
  let s4 := (s3.dropExports.closeAll Reason.lifecycle).destroyPartitions.packageWarm
  { s4 with pkg := { s4.pkg with coresHeld := true } }

end Sys2Proof.Machine
end

