-- ==== Sys2Proof/Machine/UpdateOps.lean ====
section
/-! DEFINITION. Hub firmware (chapter 15): image headers, the boot choice, confirmation and the failure of a trial. -/

namespace Sys2Proof.Machine

/-! ### Completions of update commands (Table UP-12) -/

/-- An update command refused: LAST_STATUS takes the status. -/
def State.updRefuse (s : State) (c : CmdCtx) (status : Nat) : State :=
  ({ s with upd := { s.upd with lastStatus := status } }).refuse c status

/-- An update command that completes with OK. -/
def State.updDone (s : State) (c : CmdCtx) (data : Word) : State :=
  ({ s with upd := { s.upd with lastStatus := Status.ok } }).complete c Status.ok noObject data

/-- As `judgedAny`, with LAST_STATUS. Every update command needs the level of Table UP-5 and no LOCKDOWN (R404). -/
def State.updJudged (s : State) (c : CmdCtx) (checks : List (Bool × Nat)) (act : State → State) : State :=
  if s.pkg.bothDead then s
  else match firstFail ([((s.session c.session).isSome, Status.sessionInvalid), (!s.life.lockdown, Status.lockdown),
      (s.updLevel c.who, Status.unitDenied)] ++ checks) with
  | some st => s.updRefuse c st
  | none => act s

/-- Only the owner: WRONG_STATE with no update owned, UPD_BUSY for another session (R404, R406, R407). -/
def State.ownerChecks (s : State) (c : CmdCtx) : List (Bool × Nat) :=
  [(s.upd.owner.isSome, Status.wrongState), (s.upd.owner == some c.session, Status.updBusy)]

/-! ### Image headers (R401, R405) -/

/-- Offset and length of component k of a header: controller code, Quill library, microcode. -/
def imagePart (h : List Byte) (k : Nat) : Nat × Nat := (fieldAt h (0x18 + 8 * k) 4, fieldAt h (0x1C + 8 * k) 4)

/-- IMAGE_LEN of a header. -/
def imageLen (h : List Byte) : Nat := fieldAt h 0x14 4

/-- A component lies within the image. -/
def imagePartOk (h : List Byte) (k : Nat) : Bool :=
  let p := imagePart h k
  decide (0 < p.2 ∧ p.1 % 16 = 0 ∧ 0x200 ≤ p.1 ∧ p.1 + p.2 ≤ imageLen h)

/-- Two components do not overlap. -/
def imageApart (h : List Byte) (j k : Nat) : Bool :=
  let a := imagePart h j
  let b := imagePart h k
  decide (a.1 + a.2 ≤ b.1 ∨ b.1 + b.2 ≤ a.1)

/-- The bit of a member in MEMBERS. -/
def Member.bit : Member → Nat
  | .za0400 => 0
  | .za1600 => 1
  | .za6400 => 2

/-- Step 5 of R405. -/
def headerLegal (m : Member) (h : List Byte) : Bool :=
  fieldAt h 0 4 == 0x49574647 && fieldAt h 4 2 == 1 && fieldAt h 0x0E 2 == 0 && fieldAt h 0x3C 4 == 0 &&
  (slice h 0x70 144).all (fun b => b == 0) && (slice h 0x160 160).all (fun b => b == 0) &&
  decide (4096 ≤ imageLen h ∧ imageLen h ≤ 1048576 ∧ imageLen h % 16 = 0) &&
  [0, 1, 2].all (imagePartOk h) && imageApart h 0 1 && imageApart h 0 2 && imageApart h 1 2 &&
  decide (fieldAt h 7 1 < 8) && bitAt (fieldAt h 7 1) m.bit && fieldAt h 0x30 4 == 1 && fieldAt h 0x34 4 == 1

/-- The slot record that an accepted header gives. -/
def headerSlot (h : List Byte) : Slot :=
  { state := SlotState.downloading, key := fieldAt h 6 1, secver := fieldAt h 0x0C 2,
    version := BitVec.ofNat 32 (fieldAt h 8 4), len := imageLen h, ucode := BitVec.ofNat 32 (fieldAt h 0x38 4) }

/-- Steps 7 to 9 of R405 on a slot's record. -/
def State.imageChecks (s : State) (x : Slot) (sigOk : Bool) : List (Bool × Nat) :=
  [(s.fwKeyOk x.key, Status.keyAbsent), (sigOk, Status.updSignature),
   (decide (s.upd.rollback ≤ x.secver), Status.rollback), (decide (x.secver ≤ 256), Status.rollbackExhausted)]

/-- The first sector of a slot (R400). -/
def slotSector (i : Nat) : Nat := if i = 0 then 8 else 24

/-- Sectors of an image of `n` bytes. -/
def imageSectors (i n : Nat) : List Nat := rangeFrom (slotSector i) ((n + 65535) / 65536)

/-- The flash writes of an update up to its confirm (R405 step 10). -/
def updateWrites (i n : Nat) : List (Nat × Nat) := (imageSectors i n).map (fun l => (l, 1)) ++ [(3, 5)]

/-- Sectors that a chunk from `off` of `n` bytes starts (R406). -/
def startedSectors (i off n : Nat) : List Nat :=
  ((rangeFrom 0 16).filter (fun k => decide (off ≤ 65536 * k ∧ 65536 * k < off + n))).map (fun k => slotSector i + k)

/-! ### Verification (R407, R409) -/

/-- A slot that fails verification is INVALID and the ownership ends. -/
def State.verifyFails (s : State) (i : Nat) : State :=
  let s1 := s.slotState i SlotState.invalid
  ({ s1 with upd := { s1.upd with owner := none } }).updReport 2 i

/-- After step 7, a DOWNLOADED slot that no session owns is verified (R409). -/
def State.verifyPending (s : State) : State :=
  match s.upd.pendOk, s.slotIn SlotState.downloaded with
  | some ok, some i =>
    let s1 : State := { s with upd := { s.upd with pendOk := none } }
    if (firstFail (s.imageChecks (s.fwSlot i) ok)).isNone then (s1.slotState i SlotState.verified).updReport 1 i
    else s1.verifyFails i
  | _, _ => { s with upd := { s.upd with pendOk := none } }

/-! ### Boot (R409, R411) -/

/-- A slot that the boot ROM may boot: key accepted, SECVER not below the counter, its copy verifies. -/
def State.bootable (s : State) (i : Nat) (verify : Bool) : Bool :=
  let x := s.fwSlot i
  s.fwKeyOk x.key && decide (s.upd.rollback ≤ x.secver) && verify

/-- The counter programmed forward to the CONFIRMED slot's SECVER when it lags (R411). -/
def State.repairRollback (s : State) : State :=
  match s.slotIn SlotState.confirmed with
  | none => s
  | some i =>
    let v := min 256 (s.fwSlot i).secver
    if s.upd.rollback < v then (s.setUpd { s.upd with rollback := v }).updReport 10 i else s

/-- Slot i runs. -/
def State.bootSlot (s : State) (i : Nat) (trial : Bool) : State :=
  { s with
    pkg := { s.pkg with bootStep := 4 }
    upd := { s.upd with booted := i, trial := trial, trialT := if trial then s.pkg.meridian else s.upd.trialT } }

/-- The choice once no trial can boot: the CONFIRMED slot, the PREVIOUS one, or firmware recovery. -/
def State.bootStanding (s : State) (verify : Nat → Bool) : State :=
  let c := s.slotIn SlotState.confirmed
  let p := s.slotIn SlotState.previous
  match c.filter (fun i => s.bootable i (verify i)) with
  | some i => s.bootSlot i false
  | none =>
    match p.filter (fun i => s.bootable i (verify i)) with
    | some i =>
      let s1 := s.writeUpd (fun u =>
        let u1 := match c with
          | some k => u.setSlot k { u.slot k with state := SlotState.invalid }
          | none => u
        u1.setSlot i { u1.slot i with state := SlotState.confirmed })
      ({ s1 with upd := { s1.upd with fallback := true } }.updReport 7 i).bootSlot i false
    | none =>
      ({ s with pkg := { s.pkg with bootStep := 4, fwRecovery := true, degraded := true },
                upd := { s.upd with trial := false } }).updReport 8 (c.getD 0)

/-- The boot choice of R409. -/
def State.chooseSlot (s : State) (verify : Nat → Bool) : State :=
  match s.slotIn SlotState.trial with
  | none => s.bootStanding verify
  | some t =>
    if 0 < s.upd.tries ∧ s.bootable t (verify t) then
      let s1 : State := { s with upd := { s.upd with tries := s.upd.tries - 1 } }
      (s1.updReport 3 t).bootSlot t true
    else
      let s1 := (s.slotState t SlotState.invalid).updReport 6 t
      ({ s1 with upd := { s1.upd with reverted := true } }).bootStanding verify

/-! ### Confirmation and failure (R410, R411) -/

/-- The trial slot is CONFIRMED and the other PREVIOUS; then the counter advances (R410, R411). -/
def State.confirm (s : State) : State :=
  match s.slotIn SlotState.trial with
  | none => s
  | some t =>
    let s1 := s.writeUpd (fun u => (u.setSlot t { u.slot t with state := SlotState.confirmed }).setSlot (1 - t)
      { u.slot (1 - t) with state := SlotState.previous })
    let s2 := s1.setUpd { s1.upd with
      trial := false, confirmWait := none, rollback := max s1.upd.rollback (min 256 (s1.fwSlot t).secver) }
    s2.updReport 4 t

/-- A trial fails: TRIAL_FAILED, every session closes with FW_TRIAL, and a hub-warm reset starts (R410). -/
def State.trialFails (s : State) : State :=
  (s.updReport 5 ((s.slotIn SlotState.trial).getD 0)).hubWarm Reason.fwTrial []

/-- CONFIRM_S in ns (Table UP-14). -/
def State.confirmTime (s : State) : Nat := 1000000000 * s.regBits RegMap.lcuUpdCfg 0x40210 0 12

end Sys2Proof.Machine
end

