-- ==== Sys2Proof/Machine/BootOps.lean ====
section
/-! DEFINITION. Start-up and power (chapter 01): the meridian's copies, the links between dies, what enumeration does,
and posts as they lose and regain power. -/

namespace Sys2Proof.Machine

/-! ### Links between dies (R22, R25, R26, R32) -/

/-- A link on the way of the EPOCH line to a die retrains or is down: the die's copies get no pulse. -/
def State.epochCut (s : State) (d : Nat) : Bool :=
  (routeLinks s.pkg.member 14 (s.compassDie - 0x100) d).any (fun e => (s.link e.1 e.2).retraining || (s.link e.1 e.2).down)

/-- The units at the two ends of a link: two dies, or for a router's link, which stays in its half, the half. -/
def State.linkEnds (s : State) (k : Nat) : List Uno :=
  if k < 4096 then [0x100 + k / 64, 0x100 + k % 64]
  else match postOf s.pkg.member k with
    | some p => [halfUno p]
    | none => []

/-- Both ends of a link lie in the scope of a running job that is still halted (R26). -/
def State.raisedLink (s : State) (k : Nat) : Bool :=
  s.folios.jobs.any (fun e => match e.2 with
    | some j => j.running && s.haltedUnit j.scope && (s.linkEnds k).all (s.inScope j.scope)
    | none => false)

/-- A link's meters after a refill, up to 64 and 32 credits (R25, R26). -/
def Link.refill (x : Link) (raised : Bool) : Link :=
  { x with urg := min 64 (x.urg + 1), reqRsp := min 32 (x.reqRsp + if raised then 15 else 1) }

/-! ### Epochs (R28 to R31) -/

/-- The correction of one epoch: one tick for an error of 1 or 2, two for more. -/
def skewStep (k : Int) : Int := if 2 < k then k - 2 else if 0 < k then k - 1 else if k < -2 then k + 2 else if k < 0 then k + 1 else 0

/-- A copy at an EPOCH pulse: out of bound when it finds more than 2 ticks, and corrected. -/
def Copy.epoch (c : Copy) : Copy :=
  if c.valid then { c with oob := decide (2 < c.skew ∨ c.skew < -2), skew := skewStep c.skew } else c

/-- The taps of a die whose copies differ from the die's. -/
def State.oddCopies (s : State) (d : Nat) : List (Nat × Option Copy) :=
  s.copies.filter (fun e => dieOf s.pkg.member e.1 == some d)

/-- The EPOCH pulse at one die: a load flit's value is taken by every copy, or every copy is compared; an episode that
begins raises NET MERIDIAN_BOUND (R28, R29, R31). -/
def State.epochDie (s : State) (d : Nat) : State :=
  if s.epochCut d then s
  else
    let x := s.die d
    let load := match x.pending with
      | some v => if v.toNat ≤ s.now then some v else none
      | none => none
    match load with
    | some v =>
      let s1 := s.setDie d { x with copy := { valid := true, skew := (v.toNat : Int) - s.now }, pending := none,
                                    episode := false }
      { s1 with copies := s1.copies.filter (fun e => dieOf s.pkg.member e.1 != some d) }
    | none =>
      let c := x.copy.epoch
      let odd := (s.oddCopies d).map (fun e => (e.1, e.2.map Copy.epoch))
      let out := (c.valid && c.oob) || odd.any (fun e => (e.2.map (fun k => k.valid && k.oob)).getD false)
      let s1 := s.setDie d { x with copy := c, episode := out }
      let s2 : State := { s1 with copies := s1.copies.map (fun e =>
        if dieOf s.pkg.member e.1 = some d then (e.1, e.2.map Copy.epoch) else e) }
      if out && !x.episode then s2.netReport (0x100 + d) 1 else s2

/-! ### Posts that lose power or restart (R42, R43, R67, R72, R126, R219, R225) -/

/-- The Compass rewrites the lone-survey policies of a post's clusters from their partitions (R221, R225). -/
def State.rewriteLone (s : State) (p : Nat) : State :=
  (halfClusters p).foldl (fun t cl => match t.partitionOf cl with
    | some (_, g) => t.setLonePolicy p ((cl - 0x1000) % 64) g.lonePolicy
    | none => t) s

/-- Everything in a post's HUB domain returns to its reset value: its window's registers, what its half records of trigger
sets (R151), HOP ring, clamp log, watcher, funnel and engine, whose program is lost (Tables QE-8 and TP-7). `why` is STOP_REASON. -/
def State.clearPost (s : State) (p why : Nat) : State :=
  let s1 := s.dropEngineJobs p true
  let e : Engine := if (s1.engine p).owner.isSome then { stopReason := why } else {}
  let lo := postWindow p
  let s2 := s1.setEngine p e
  { s2 with
    regs := s2.regs.filter (fun r => !decide (lo ≤ r.1 % 2 ^ 32 ∧ r.1 % 2 ^ 32 < lo + 0x40000))
    clamps := Tbl.set {} s2.clamps p {}
    rings := Tbl.set {} s2.rings p {}
    hopSeq := Tbl.set 0 s2.hopSeq p 0
    halves := s2.halves.filter (fun e => e.1 % 128 != p)
    watch := { s2.watch with watchers := Tbl.set {} s2.watch.watchers p {} }
    trace := { s2.trace with funnels := Tbl.set [] s2.trace.funnels p [] } }

/-- A post that runs: its heartbeat and acknowledgement clocks start, and what waited for it starts (R43, R241, R263). -/
def State.postStarts (s : State) (p : Nat) : State :=
  let s1 := s.setHealth p Health.ok
  let s2 := s1.setPost p { s1.post p with hbT := s.pkg.meridian, ackT := s.pkg.meridian, lastAck := none, hbOut := false, ackDue := false,
                                          startDead := false, memError := false }
  ((s2.rewriteLone p).startWaiting p).applyOwed p |>.startQueued p

/-- A post is declared dead or lost: its sibling is to adopt its half, woken first when it is gated; with the sibling
dead or lost too the die is unserved (R216, R218). -/
def State.postDies (s : State) (p : Nat) (atStart : Bool) : State :=
  let sib := p ^^^ 1
  let s1 := s.setHealth p Health.lost
  let s2 := s1.setPost p { s1.post p with startDead := atStart, adoptWanted := true, restored := false, rehomed := false,
                                          hbOut := false, ackDue := false, lone := (s1.post p).lone && !atStart
                                          counted := true }
  let s3 : State := { s2 with pkg := { s2.pkg with
    postsLost := if (s1.post p).counted then s2.pkg.postsLost else s2.pkg.postsLost + 1 } }
  let s4 := if (s3.post p).adopting then
      (s3.setPost p { s3.post p with adopting := false }).setHealth sib Health.lost
    else s3
  if (s4.post sib).health = Health.lost then s4.failover s4.compassDie 0xA (0x100 + p / 2)
  else s4.startWake sib

/-- A post in use by something (R42, R245). -/
def State.postInUse (s : State) (p : Nat) : Bool :=
  !(s.post p).users.isEmpty || s.watcherArmed p || !(s.combinerSets p).isEmpty || (s.post p).adopting ||
  s.sets.any (fun e => match e.2 with
    | some x => x.elems.any (fun k => k.action == 5 && (s.elemPosts k).contains p)
    | none => false) ||
  (rangeFrom 0 512).any (fun i => (s.tpart p i).live) || (rangeFrom 0 64).any (fun i => (s.deadline p i).state == 1) ||
  s.folios.jobs.any (fun e => match e.2 with
    | some j => j.running && j.parts.any (fun x => x.post == p)
    | none => false) ||
  (s.engine p).owner.isSome

/-! ### Enumeration (R45, R46, R178, R186, R199, R262) -/

/-- A unit held in reset. -/
def State.holdUnit (s : State) (u : Uno) : State := { s with held := Tbl.set false s.held u true }

/-- A die held in reset (Table TP-11). -/
def State.holdDie (s : State) (d : Nat) : State :=
  if Tbl.get false s.held (0x100 + d) then s
  else
    let s1 := s.holdUnit (0x100 + d)
    { s1 with pkg := { s1.pkg with diesHeld := s1.pkg.diesHeld + 1, degraded := true } }

def State.degrade (s : State) : State := { s with pkg := { s.pkg with degraded := true } }

/-- Start-up finds a post dead: with its sibling dead too, the die is held (Table TP-11). -/
def State.deadPost (s : State) (p : Nat) : State :=
  let s1 := (s.postDies p true).degrade
  if s1.dieUnserved (p / 2) then s1.holdDie (p / 2) else s1

/-- One unit that enumeration found dead (Table TP-11). -/
def State.deadUnit (s : State) (u : Uno) : State :=
  if s.isHeld u then s
  else match kindOf s.pkg.member u with
    | .half => if (s.post (u - 0x200)).health = Health.waking then s.deadPost (u - 0x200) else s
    | .cluster => ((s.holdUnit u).degrade).failover s.compassDie 0xB u
    | .core => ((s.holdUnit u).degrade).failover s.compassDie 0xC u
    | .cnet | .xbar => ((routerClusters u).foldl (fun t c => t.holdUnit c) s).degrade.reportHub u Class.net 3 (leBytes 3 u) 0
    | .hbm | .hostIf | .bank =>
      ({ s with unobs := Tbl.set false s.unobs u true }.degrade).failover s.compassDie 0xC u
    | _ => s

/-- The least reserve of a die: 1.25 GB. -/
def reserveLeast : Nat := 1342177280

/-- The folio reserve of one die, carved from its present channels; below 1.25 GB the die is held (R178). -/
def State.carve (s : State) (d : Nat) : State :=
  let n := s.folios.reserveEff * 1048576 * s.dieChannels d
  if n < reserveLeast then s.holdDie d
  else { s with folios := { s.folios with reserve := Tbl.set 0 s.folios.reserve d n } }

/-- RESERVE_REQ comes into force when no dump job is live (Table FO-20), and AREA_MB when no stream is (R262). -/
def State.carveAll (s : State) : State :=
  let f := s.folios
  let eff := if f.jobs.any (fun e => e.2.isSome) then f.reserveEff else s.regBits RegMap.cmpFoCfg 0x10600 0 8
  let s1 : State := { s with
    folios := { f with reserveEff := eff, reserve := [] }
    trace := { s.trace with areaEff := if s.trace.streams.any (fun e => e.2.isSome) then s.trace.areaEff
                                        else s.regBits RegMap.cmpItCfg 0x11000 0 9 } }
  ((rangeFrom 0 s.pkg.member.dies).filter (fun d => !Tbl.get false s1.held (0x100 + d))).foldl (fun t d => t.carve d) s1

/-- Every copy of a die that is locked and not yet loaded is loaded by the epochs of step 6 (R28, Table TP-10). -/
def State.loadCopies (s : State) : State :=
  (rangeFrom 0 s.pkg.member.dies).foldl (fun t d =>
    let x := t.die d
    if x.pllLocked && !x.copy.valid then t.setDie d { x with copy := { valid := true }, pending := none } else t) s

/-- Folios found in the reserve are rescanned and their jobs recreated with a kept reference; one that was open is
written INCOMPLETE (R186, Table FO-16). A job that lived through a hub-warm reset keeps its slot and references; the
registers of its parts are at reset (R192). -/
def State.recreateJob (s : State) (slot : Nat) : State :=
  match s.job slot with
  | none => s
  | some j =>
    if !j.ended then
      let j1 := { j.parts.foldl (fun a x => a.rescan x.post) j with owner := 256, engine := none }
      let r := s.refs ObjKind.job slot
      let s1 := (s.setJob slot (some j1)).setRefs ObjKind.job slot
        { r with live := true, dying := false, hub := max 1 r.hub, kept := 1, creator := 256 }
      (s1.cutJob slot false).reap
    else if j.ended && !(s.refs ObjKind.job slot).live then
      (s.setJob slot (some { j with owner := 256, engine := none, parts := j.parts.map Part.clearCounts })).setRefs ObjKind.job slot
        { live := true, kept := 1, creator := 256 }
    else s.setJob slot (some { j with parts := j.parts.map Part.clearCounts })

/-- Enumeration records the halt state that it finds: HALTED at cores that have stopped and settled and at objects under a
HALT hold (R39, R123). -/
def State.recordHalts (s : State) : State :=
  { s with
    cores := Tbl.mapVals {} (fun _ c => { c with halted := c.run == .stopped && c.settled }) s.cores
    insts := Tbl.mapVals {} (fun k x => if k / 0x1000000 = 6 then { x with halted := x.any } else x) s.insts }

/-- The Legend is built, with the halt state as it stands, and every post window's policies rewritten; signature keys of contexts 0 and 0xFFF are drawn
(R60, R199, R225). -/
def State.buildLegend (s : State) : State :=
  let u := s.upd
  let x := u.slot u.booted
  let keys := Tbl.set 0 (Tbl.set 0 s.cart.sigKeys 0 (Config.drbg128 s.drawn)) 0xFFF (Config.drbg128 (s.drawn + 1))
  let s1 : State := { s with
    legend := { gen := s.legend.gen, changeT := s.pkg.meridian, enumT := s.pkg.meridian, bootrom := Config.bootRom,
                fwActive := x.version, slot := u.booted, secver := x.secver, ucode := x.ucode }
    cart := { s.cart with sigKeys := keys } }
  ((rangeFrom 0 s.pkg.member.posts).foldl (fun t p => t.rewriteLone p) s1.recordHalts.draw.draw).bumpGen

/-- No post is on its way to running: step 7 of start-up has ended, and a DOWNLOADED slot is verified (R409). -/
def State.postsSettled (s : State) : State :=
  if s.pkg.bootStep = 6 ∧ (rangeFrom 0 s.pkg.member.posts).all (fun p =>
      (s.post p).health != Health.waking || s.isHeld (halfUno p)) then
    ({ s with pkg := { s.pkg with bootStep := 7 } }).verifyPending
  else s

end Sys2Proof.Machine
end

