-- ==== Sys2Proof/Machine/FirmwareUpdate.lean ====
section
/-! DEFINITION. The update commands, the boot choice and the trial of hub firmware (chapter 15). -/

namespace Sys2Proof.Machine

/-- UPD_BEGIN (R404, R405): a download into the inactive slot begins with the header's 512 bytes. -/
def execUpdBegin (c : CmdCtx) (header : List Byte) (sigOk : Bool) (s : State) : Out :=
  let x := headerSlot header
  .next (s.updJudged c
    ([(header.length == 512, Status.cmdFormat),
      (s.upd.owner.isNone && (s.slotIn SlotState.trial).isNone, Status.updBusy),
      (!s.pkg.pwrWarn, Status.pwrWarn),
      (headerLegal s.pkg.member header, Status.imageFormat),
      (decide (fieldAt header 0x10 4 ≤ Config.bootRom.toNat), Status.updBootrom)] ++ s.imageChecks x sigOk)
    (fun s =>
      let i := s.inactiveSlot
      let ws := updateWrites i x.len
      if s.canWrite ws then
        let s1 := (s.writeUpd (fun u => u.setSlot i x)).writeSector (slotSector i) true
        ({ s1 with upd := { s1.upd with owner := some c.session, length := x.len, received := 512 } }).updDone c 0
      else (s.wornReport ws).updRefuse c Status.flashWorn))

/-- UPD_DATA (R406): the next bytes of the image; the last byte leaves the slot DOWNLOADED. -/
def execUpdData (c : CmdCtx) (off : Nat) (arg : List Byte) (s : State) : Out :=
  let u := s.upd
  .next (s.updJudged c
    (s.ownerChecks c ++
     [(arg.length % 16 == 0, Status.cmdFormat),
      (decide (0 < arg.length), Status.zero),
      (off == u.received && decide (off + arg.length ≤ u.length), Status.updOffset)])
    (fun s =>
      let i := s.inactiveSlot
      let s1 := (startedSectors i off arg.length).foldl (fun t l => t.writeSector l true) s
      let n := off + arg.length
      let s2 : State := { s1 with upd := { s1.upd with received := n } }
      (if n = u.length then s2.slotState i SlotState.downloaded else s2).updDone c (word n)))

/-- UPD_VERIFY (R407): the owner's DOWNLOADED slot is verified; a slot that fails is INVALID. -/
def execUpdVerify (c : CmdCtx) (sigOk digestOk : Bool) (s : State) : Out :=
  let i := s.inactiveSlot
  .next (s.updJudged c
    (s.ownerChecks c ++ [((s.fwSlot i).state == SlotState.downloaded, Status.updIncomplete)])
    (fun s =>
      match firstFail (s.imageChecks (s.fwSlot i) sigOk ++ [(digestOk, Status.updDigest)]) with
      | some st => (s.verifyFails i).updRefuse c st
      | none =>
        if s.canWrite [(3, 1)] then ((s.slotState i SlotState.verified).updReport 1 i).updDone c 0
        else (s.wornReport [(3, 1)]).updRefuse c Status.flashWorn))

/-- UPD_ACTIVATE (R408, R409, R413, R414): the VERIFIED slot goes on TRIAL and a hub-warm reset starts, but in firmware
recovery. While a lifecycle transition runs or is pending the command waits. -/
def execUpdActivate (c : CmdCtx) (manual force : Bool) (s : State) : Out :=
  if s.pkg.bothDead then .next s
  else if (s.session c.session).isSome ∧ s.lcBusy ∧ !s.life.lockdown then .next (s.waitFor (.updActivate c manual force) [])
  else
    let i := s.inactiveSlot
    .next (s.updJudged c
      [((s.fwSlot i).state == SlotState.verified, Status.wrongState),
       (!s.pkg.pwrWarn, Status.pwrWarn),
       (force || !(s.folios.jobs.any (fun e => (e.2.map Job.running).getD false)), Status.captureBusy)]
      (fun s =>
        if s.canWrite [(3, 1)] then
          let s1 := s.writeUpd (fun u =>
            { u.setSlot i { u.slot i with state := SlotState.trial } with tries := 3, manual := manual })
          let s2 := ({ s1 with upd := { s1.upd with owner := none } }).updDone c 0
          if s2.pkg.fwRecovery then s2 else s2.hubWarm Reason.fwActivate []
        else (s.wornReport [(3, 1)]).updRefuse c Status.flashWorn))

/-- UPD_CONFIRM (R410): under MANUAL, once the self-test has passed. -/
def execUpdConfirm (c : CmdCtx) (s : State) : Out :=
  .next (s.updJudged c [(s.upd.confirmWait.isSome, Status.wrongState)] (fun s => s.confirm.updDone c 0))

/-- UPD_ABORT (R404): the owner's update ends and its slot is INVALID. -/
def execUpdAbort (c : CmdCtx) (s : State) : Out :=
  .next (s.updJudged c (s.ownerChecks c) (fun s => s.abandon.updDone c 0))

/-- BOOT_SLOT_SELECT (R409, R411, Table TP-10 step 4): the boot ROM chooses and loads a slot; `verifyA` and `verifyB`
say whether each slot's own-die copy passes R407 steps 2 and 3. -/
def execBootSlotSelect (verifyA verifyB : Bool) (s : State) : Out :=
  if s.pkg.bootStep ≠ 3 then .next s
  else
    let verify (i : Nat) : Bool := if i = 0 then verifyA else verifyB
    let pend := (s.slotIn SlotState.downloaded).map verify
    let s1 : State := { s with upd := { s.upd with fallback := false, reverted := false, trial := false,
                                                   confirmWait := none, pendOk := pend } }
    .next (s1.repairRollback.chooseSlot verify)

/-- BUILT_IN_SELF_TEST (R410): after step 7 of a trial boot. A pass confirms, or under MANUAL sets CONFIRM_WAIT; the
test also fails when more posts are lost than before the reset. -/
def execBuiltInSelfTest (pass : Bool) (s : State) : Out :=
  if s.pkg.bothDead || !s.upd.trial || decide (s.pkg.bootStep < 7) || s.upd.confirmWait.isSome then .next s
  else if pass && (!s.pkg.warmRerun || decide (s.pkg.postsLost ≤ s.upd.postsLostBefore)) then
    .next (if s.upd.manual then { s with upd := { s.upd with confirmWait := some s.pkg.meridian } } else s.confirm)
  else .next s.trialFails

/-- TRIAL_CONFIRM_TIMEOUT (R410): no confirm within 2 s of step 4, or within CONFIRM_S of CONFIRM_WAIT. -/
def execTrialConfirmTimeout (s : State) : Out :=
  let late := match s.upd.confirmWait with
    | some t => decide (t.toNat + s.confirmTime ≤ s.now)
    | none => !s.upd.manual && decide (s.upd.trialT.toNat + 2000000000 ≤ s.now)
  if s.upd.trial && late && !s.pkg.bothDead then .next s.trialFails else .next s

end Sys2Proof.Machine
end

