-- ==== Sys2Proof/Machine/Sessions.lean ====
section
/-! DEFINITION. Sessions, tokens, shared objects, groups and partitions (chapters 02, 12 and 14): the commands. -/

namespace Sys2Proof.Machine

/-! ### Sessions (R329, R380, R394) -/

/-- OPEN (R329, R380): a host session in the lowest free slot, at the opening rights of Table AC-8; nonce and SCHECK are
drawn from the CTR_DRBG. Its home ring is that of the queue. -/
def execOpenSession (c : CmdCtx) (s : State) : Out :=
  if s.pkg.bothDead then .next s
  else match firstFail [(c.queue.isSome && decide (32 ≤ c.resLen), Status.cmdFormat), (!s.life.lockdown, Status.lockdown)] with
  | some st => .next (s.refuse c st)
  | none =>
    match firstBelow (fun i => (s.session i).isNone) 255 with
    | none => .next (s.refuse c Status.sessionFull)
    | some slot =>
      let nonce := Config.drbg128 s.drawn
      let check : BitVec 32 := (Config.drbg128 (s.drawn + 1)).setWidth 32
      let x : Session := { isPort := false, ring := c.queue.getD 0, nonce := nonce, scheck := check, openT := s.pkg.meridian }
      let rec_ := leBytes 16 nonce.toNat ++ leBytes 8 s.now ++ leBytes 4 check.toNat ++ leBytes 4 0
      let s1 := (s.draw.draw.setSession slot (some x)).bumpGen
      let s2 : State := s1.give c rec_
      .next (s2.completeFor c slot Status.ok (objectWord ObjKind.session slot) 0)

/-- CLOSE (R394): the command completes, then the session closes. -/
def execCloseSession (c : CmdCtx) (s : State) : Out :=
  .next (s.judgedAny c [] (fun s => (s.complete c Status.ok noObject 0).closeSession c.session Reason.close))

/-! ### Tokens (R330 to R334) -/

/-- LEVEL and CTXID are allowed for KEY (Tables AC-3 and AC-4). -/
def tokenFields (level key ctx : Nat) : Bool :=
  match key with
  | 1 => (level == 3 || level == 0) && ctx == 0
  | 2 => decide (level ≤ 2) && decide (1 ≤ ctx ∧ ctx ≤ 0xFFE)
  | 3 | 4 | 5 => (level == 4 || level == 0) && ctx == 0
  | _ => false

/-- R331 step 3. -/
def tokenLegal (r : List Byte) : Bool :=
  fieldAt r 0 4 == 0x544E5247 && fieldAt r 4 2 == 1 && fieldAt r 0x0A 2 == 0 && (slice r 0x28 24).all (fun b => b == 0) &&
  fieldAt r 0x0C 4 != 0 && tokenFields (fieldAt r 6 1) (fieldAt r 7 1) (fieldAt r 8 2)

/-- The longest grant term in ns (Table AC-9). -/
def State.grantTerm (s : State) : Nat := s.regBits RegMap.authCfg 0x50000 0 14 * 60000000000

/-- Steps 1 to 8 of R331. -/
def State.tokenChecks (s : State) (x : Session) (slot : Nat) (r : List Byte) : List (Bool × Nat) :=
  let key := fieldAt r 7 1
  let ctx := fieldAt r 8 2
  let expiry := fieldAt r 0x10 8
  [(r.length == 128, Status.cmdFormat),
   (!s.life.lockdown, Status.lockdown),
   (!s.tokenLocked slot, Status.lockedOut),
   (tokenLegal r, Status.grantFormat),
   (s.keyAccepted key, Status.keyAbsent),
   (fieldAt r 0x18 16 == x.nonce.toNat, Status.grantNonce),
   (key != 2 || (s.reg ctx).isSome, Status.ctxUnbound),
   (decide (x.lastSeq key ctx < fieldAt r 0x0C 4), Status.grantReplay),
   (decide (s.now + 1000 < expiry), Status.grantExpired),
   (decide (expiry ≤ s.now + s.grantTerm), Status.grantTerm)]

/-- GRANT (R330, R331): steps 1 to 8, then a place among the 8 tokens of the authorisation unit, for which it waits. -/
def execGrant (c : CmdCtx) (arg : List Byte) (s : State) : Out :=
  if s.pkg.bothDead then .next s
  else match s.session c.session with
  | none => .next (s.refuse c Status.sessionInvalid)
  | some x =>
    match firstFail (s.tokenChecks x c.session arg) with
    | some st => .next (s.refuse c st)
    | none =>
      if 8 ≤ s.auth.verify.length then .next (s.waitFor (.grant c arg) [])
      else
        let ctx := fieldAt arg 8 2
        let v : Verify := { c := c, level := fieldAt arg 6 1, key := fieldAt arg 7 1, ctx := ctx,
                            seq := BitVec.ofNat 32 (fieldAt arg 0x0C 4), expiry := word (fieldAt arg 0x10 8),
                            regGen := ((s.reg ctx).map (·.regGen)).getD 0 }
        .next { s with auth := { s.auth with verify := s.auth.verify ++ [v] } }

/-- GRANT_VERIFY_DONE (R331, R334): the oldest token's verification ends. Steps 6 and 7 and the generation are judged
again, then 9 and 10. -/
def execGrantVerifyDone (sigOk : Bool) (s : State) : Out :=
  if s.pkg.bothDead then .next s
  else match s.auth.verify with
  | [] => .next s
  | v :: rest =>
    let s1 : State := { s with auth := { s.auth with verify := rest } }
    match s1.session v.c.session with
    | none => .next (s1.refuse v.c Status.sessionInvalid)
    | some x =>
      let bound := v.key != 2 || ((s1.reg v.ctx).map (·.regGen)) == some v.regGen
      match firstFail [(bound, Status.ctxUnbound), (decide (x.lastSeq v.key v.ctx < v.seq.toNat), Status.grantReplay)] with
      | some st => .next (s1.refuse v.c st)
      | none =>
        if !sigOk then .next ((s1.tokenFail v.c.session).refuse v.c Status.grantSignature)
        else if v.key == 2 && v.level != 0 && !x.ctxRoom s1.now v.ctx then .next (s1.refuse v.c Status.ctxLimit)
        else .next ((s1.tokenPass v.c.session v).complete v.c Status.ok
          (objectWord ObjKind.context v.ctx) (word v.level))

/-- GRANT_LAPSE (R333, R335): a grant's EXPIRY has come; the level is the lower one and the session's streams are cut. -/
def execGrantLapse (session : Nat) (s : State) : Out :=
  .next (if s.pkg.bothDead then s else s.cutFallen session)

/-- TOKEN_LOCKOUT_EXPIRY (R334): a host session's token lockout ends. -/
def execTokenLockoutExpiry (session : Nat) (s : State) : Out :=
  match s.session session with
  | none => .next s
  | some x =>
    if s.tokenLocked session then .next s else .next (s.setSession session (some { x with lockEnd := none }))

/-! ### Attestation and keys (R341, R342, R353) -/

/-- The signed bytes of an attestation record (Table AC-7). -/
def State.attestBody (s : State) (ctx : Ctx) (challenge : List Byte) : List Byte :=
  let r := s.reg ctx
  leBytes 4 0x54535441 ++ leBytes 2 1 ++ leBytes 1 s.life.state.code ++
    leBytes 1 (bitNat r.isSome + 2 * bitNat ((r.map (·.sealing)).getD false)) ++ leBytes 2 ctx ++ leBytes 2 0 ++
    leBytes 3 ((r.map (·.part)).getD 0) ++ leBytes 1 0 ++ leBytes 8 s.now ++
    leBytes 8 ((r.map (·.keyId.toNat)).getD 0) ++ slice ((r.map (·.grantPub)).getD []) 0 32 ++ slice challenge 0 16 ++
    leBytes 4 ((r.map (·.regGen.toNat)).getD 0) ++ leBytes 4 s.legend.fwActive.toNat ++ List.replicate 64 0

/-- ATTEST (R342): the record of Table AC-7, signed by the device attestation key. -/
def execAttest (c : CmdCtx) (ctx : Ctx) (challenge : List Byte) (s : State) : Out :=
  .next (s.judged c [(decide (ctx < 4096 ∧ 216 ≤ c.resLen), Status.cmdFormat)] (fun s =>
    let body := s.attestBody ctx challenge
    let s1 : State := s.give c (body ++ slice (Config.attestSign body) 0 64)
    s1.complete c Status.ok (objectWord ObjKind.context ctx) 0))

/-- CERT (R342, R380): the maker certificate chain and its length. -/
def execCert (c : CmdCtx) (s : State) : Out :=
  .next (s.judged c [(decide (s.life.certChain.length ≤ c.resLen), Status.cmdFormat)] (fun s =>
    let s1 : State := s.give c s.life.certChain
    s1.complete c Status.ok noObject (word s.life.certChain.length)))

/-- OPKEY (R341, R353): the operator keys replaced by a record that the current operator key signs. The spec names no
status for a signature that fails; it is GRANT_SIGNATURE (assumption 30). -/
def execOpkey (c : CmdCtx) (arg : List Byte) (pointOk unwrapOk sigOk : Bool) (s : State) : Out :=
  let r := arg.take 128
  let room := s.canWrite [(s.nextOpSector, 1)]
  .next (s.judged c
    [(arg.length == 192, Status.cmdFormat),
     (!s.life.lockdown, Status.lockdown),
     (s.hasPlatform c.who, Status.unitDenied),
     (!s.lcBusy, Status.lcBusy),
     (s.auth.opKeys, Status.keyAbsent),
     (regLegal r && regCtx r == 0, Status.keyFormat),
     (pointOk, Status.keyFormat),
     (!regBare r && unwrapOk, Status.keyFormat),
     (sigOk, Status.grantSignature)]
    (fun s => if room then ((s.installOp r).loadOp).complete c Status.ok noObject 0
      else s.refuseWorn c [(s.nextOpSector, 1)]))

/-! ### Shared objects (R391, R392) -/

/-- The count of an object afterwards, as DATA. -/
def State.countData (s : State) (kind slot : Nat) : Word := word (s.refCount kind slot)

/-- The first ACQUIRE takes a kept reference over: of a job, any session that may acquire it; of a partition group, one
with platform rights (R186, R414). -/
def State.takesKept (s : State) (who : Option Nat) (kind slot : Nat) : Bool :=
  decide (0 < (s.refs kind slot).kept) && (kind == ObjKind.job || (kind == ObjKind.group && s.hasPlatform who))

/-- ACQUIRE (R391, R392): a hold for a session that may read the object. -/
def execAcquire (c : CmdCtx) (kind slot : Nat) (s : State) : Out :=
  let keep := s.takesKept c.who kind slot
  .next (s.judged c
    [(kindSlotOk kind slot, Status.cmdFormat),
     (counted kind && s.refLive kind slot, Status.unitAbsent),
     (s.observes c.who (s.objCtx kind slot), Status.unitDenied),
     (s.holdRoom c.session kind slot, Status.holdFull),
     (keep || s.canRef kind slot, Status.refLimit)]
    (fun s =>
      let s1 := if keep then s.setRefs kind slot { s.refs kind slot with kept := (s.refs kind slot).kept - 1 } else s
      let s2 := s1.addHoldOf c.session kind slot
      s2.complete c Status.ok (objectWord kind slot) (s2.countData kind slot)))

/-- RELEASE (R391, R393): one hold of the session drops; at zero the object dies. -/
def execRelease (c : CmdCtx) (kind slot : Nat) (s : State) : Out :=
  .next (s.judged c
    [(kindSlotOk kind slot, Status.cmdFormat),
     (counted kind && s.refLive kind slot, Status.unitAbsent),
     (((s.session c.session).map (fun x => decide (0 < x.holdOf kind slot))) == some true, Status.notHeld)]
    (fun s =>
      let s1 := s.dropHoldOf c.session kind slot
      (s1.complete c Status.ok (objectWord kind slot) (s1.countData kind slot)).reap))

/-! ### Groups and partitions (R57, R58, R395, R396) -/

/-- GROUP_CREATE (R57, R58, R327, R391). -/
def execGroupCreate (c : CmdCtx) (slot : Uno) (arg : List Byte) (s : State) : Out :=
  let g := parseGroup arg
  .next (s.judged c
    ([(arg.length == groupBytes arg, Status.cmdFormat),
      (s.holdRoom c.session ObjKind.group (slot - 0xF00000), Status.holdFull)] ++ s.groupChecks c.who slot g false)
    (fun s => (s.makeGroup c.session slot g false 0).complete c Status.ok
      (objectWord ObjKind.group (slot - 0xF00000)) 0))

/-- PARTITION_CREATE (R336 to R339, R395): group record and registration record are checked, then the context is bound. -/
def execPartitionCreate (c : CmdCtx) (slot : Uno) (freezeSet : Nat) (lonePolicy : Nat) (arg : List Byte)
    (pointOk unwrapOk : Bool) (s : State) : Out :=
  let n := groupBytes arg
  let g := parseGroup arg
  let r := slice arg n 128
  .next (s.judged c
    ([(arg.length == n + 128 && decide (freezeSet < 64) && decide (lonePolicy ≤ 2), Status.cmdFormat),
      (s.holdRoom c.session ObjKind.group (slot - 0xF00000), Status.holdFull),
      (g.ctx == regCtx r, Status.cmdFormat)] ++ s.groupChecks c.who slot g true ++ s.regChecks c.who r pointOk unwrapOk)
    (fun s => ((s.makeGroup c.session slot g true freezeSet).bindCtx slot lonePolicy r).complete c Status.ok
      (objectWord ObjKind.group (slot - 0xF00000)) 0))

/-- PARTITION_DESTROY (R328, R340, R396): one reference of the group drops: the creating session's hold, else a kept
reference, else none. -/
def execPartitionDestroy (c : CmdCtx) (slot : Uno) (s : State) : Out :=
  let k := slot - 0xF00000
  .next (s.judged c
    [(decide (0xF00000 ≤ slot ∧ slot < 0xF01000), Status.cmdFormat),
     (!s.life.lockdown, Status.lockdown),
     (s.hasPlatform c.who, Status.unitDenied),
     (((s.group slot).map (·.partition)) == some true, Status.notPartition),
     (!s.captures slot, Status.captureBusy)]
    (fun s => match s.group slot with
      | none => s.refuse c Status.notPartition
      | some g =>
        let s1 := s.clearPartition slot g
        let r := s1.refs ObjKind.group k
        let holds : Nat := ((s1.session r.creator).map (fun x => x.holdOf ObjKind.group k)).getD 0
        let s2 := if 0 < holds then s1.dropHoldOf r.creator ObjKind.group k
          else if 0 < r.kept then s1.setRefs ObjKind.group k { r with kept := r.kept - 1 } else s1
        (s2.complete c Status.ok (objectWord ObjKind.group k) 0).reap))

end Sys2Proof.Machine
end

