-- ==== Sys2Proof/Machine/Sync.lean ====
section
/-! DEFINITION. Deadlock detection and deadlines (chapter 08). -/

namespace Sys2Proof.Machine

/-! ### Waits and producers (R226, R227) -/

/-- SYNCHRONISATION_WAIT (R226, R227): a thread group begins a wait on an object, or its wait completes. A core that
does not execute begins none. -/
def execSynchronisationWait (group : Uno) (obj : Option Uno) (objCtx : Ctx) (s : State) : Out :=
  let core := parentOf s.pkg.member group
  let w := s.waiter group
  if kindOf s.pkg.member group != .tg || !s.present core then .next s
  else match obj with
    | none => .next (s.setWatch { s.watch with waiters := Tbl.set {} s.watch.waiters group { w with obj := none } })
    | some o =>
      if kindOf s.pkg.member o != .obj || !s.present o || !s.executes core then .next s
      else
        let s1 := s.setSyncObj o { s.syncObj o with ctx := objCtx % 4096 }
        .next (s1.setWatch { s1.watch with
          waiters := Tbl.set {} s1.watch.waiters group { w with obj := some o, gen := w.gen + 1 } })

/-- Registrations that a bank holds. -/
def State.bankProducers (s : State) (p : Nat) : Nat :=
  ((s.watch.objs.filter (fun (e : Nat × SyncObj) => postOf s.pkg.member e.1 == some p)).map
    (fun (e : Nat × SyncObj) => e.2.producers.length)).sum

/-- PRODUCER_REGISTRATION (R226): at most 8 producers for an object and 4,096 for a bank. -/
def execProducerRegistration (obj : Uno) (group : Uno) (objCtx : Ctx) (s : State) : Out :=
  let m := s.pkg.member
  let x := s.syncObj obj
  let p := (postOf m obj).getD 0
  if kindOf m obj != .obj || !s.present obj || kindOf m group != .tg || !s.present group then .next s
  else
    let full : Bool := decide (8 ≤ x.producers.length) || decide (4096 ≤ s.bankProducers p)
    let known := x.producers.contains group
    if full && !known then .next (s.setSyncObj obj { x with ctx := objCtx % 4096 })
    else
      let w := s.waiter group
      let s1 := s.setSyncObj obj { x with
        ctx := objCtx % 4096, producers := if known then x.producers else x.producers ++ [group] }
      let w1 := { w with producer := true, remote := w.remote || postOf m group != postOf m obj }
      .next (s1.setWatch { s1.watch with waiters := Tbl.set {} s1.watch.waiters group w1 })

/-! ### Snapshots (R227 to R232) -/

/-- SNAPSHOT_TIME (R227 to R229): at a multiple of the interval every armed watcher samples; while the previous join
runs the whole snapshot is skipped and counted. -/
def execSnapshotTime (env : AccelSample) (s : State) : Out :=
  let ps := (rangeFrom 0 s.pkg.member.posts).filter s.watcherArmed
  if s.now % s.snapInterval ≠ 0 || ps.isEmpty || s.watch.joining == some s.pkg.meridian then .next s
  else if s.watch.joining.isSome then .next (s.setWatch { s.watch with skipped := sat16 s.watch.skipped })
  else
    let s1 := s.setWatch { s.watch with
      joining := if s.pkg.bothDead then none else some s.pkg.meridian
      env := env
      barred := s.watched.filter s.barredNow
      watchers := s.watch.watchers.map (fun (e : Nat × Watcher) =>
        (e.1, { e.2 with newEntries := [], newGroups := [], bad := false })) }
    .next (ps.foldl (fun t p => t.samplePost env p) s1)

/-- SNAP (R229 to R232): the post holds every sample of a half. A scheduled snapshot is counted, and more than 4,096
records make it incomplete; an unscheduled one, sampled at its T_snap, is never joined. Event SNAP is set. -/
def execSnap (post : Nat) (queued : List (Uno × Nat)) (s : State) : Out :=
  let w := s.watcher post
  match s.server post with
  | none => .next s
  | some q =>
    match w.sampling with
    | some t =>
      let big := decide (4096 < s.sendCount post w)
      let w1 := { w with sampling := none, entries := w.newEntries, snapT := some t, lastT := t, snaps := w.snaps + 1,
                         bad := w.bad || big, incomplete := if big && !w.bad then sat16 w.incomplete else w.incomplete }
      .next ((s.setWatcher post w1).engineEvent q 5)
    | none =>
      match w.unsched, w.early with
      | some t, some xs =>
        .next ((s.setWatcher post { w with unsched := none, early := none, entries := withQueues post queued xs
                                           snapT := some t }).engineEvent q 5)
      | _, _ => .next s

/-! ### Judgement (R232 to R238) -/

/-- A declaration (R238): the record, one SYNC_DEADLOCK cartouche, DECLARED, and the DL_ACTION of each set row. -/
def State.declare (s : State) (c : Ctx) (v : Uno) (quiet : Bool) (xs : List SnapEntry) (gs : List (Uno × BitVec 32))
    (t : Time) : State :=
  let low := ((xs.head?).map (·.uno)).getD 0
  let half := halfUno ((postOf s.pkg.member low).getD 0)
  let s1 := s.setDeadlock c { state := 2, quiescent := quiet, part := v, objects := xs, groups := gs, t := t }
  let s2 := s1.reportHub half Class.syncDeadlock (if quiet then 2 else 1) (leBytes 3 v ++ leBytes 3 low) c
  let s3 := s2.setWatch { s2.watch with declared := sat16 s2.watch.declared }
  (rangeFrom 0 2).foldl (fun r row =>
    if (r.policy c row).set then r.policyAct c row (r.policy c row).dl 128 else r) s3

/-- One context judged at the end of a join (R232 to R237). A snapshot that is incomplete for its partition, or one at
which R236 bars judgement, counts as one without a finding for a SUSPECT record. -/
def State.judgeCtx (s : State) (g : Graph) (t : Time) (c : Ctx) : State :=
  let d := s.deadlock c
  match s.partOfCtx c with
  | none => s
  | some (v, _) =>
    let missing := (s.ctxPosts c).any (fun p => (s.watcher p).bad)
    if missing || s.watch.barred.contains c then (if d.state = 1 then s.setDeadlock c {} else s)
    else
      let cyc := if (s.policy c 0).cycleEn || (s.policy c 1).cycleEn then s.closedSet g c else []
      let quiet := ((s.policy c 0).quiescEn || (s.policy c 1).quiescEn) && s.quietFinding g c
      let qx := (Tbl.keysSome ((s.partWaits g c).foldl (fun t w => Tbl.put t w.2.1 (some ())) [])).map (s.entryOf g)
      let qg := (s.partWaits g c).map (fun w => (w.1, w.2.2))
      if d.state = 2 then
        if d.groups.all (fun e => g.waits.any (fun w => w.1 == e.1 && w.2.2 == e.2)) then s else s.setDeadlock c {}
      else if d.state = 1 && d.sCycle && !cyc.isEmpty && s.confirms (g.cycleGroups cyc) cyc then
        s.declare c v false cyc (g.cycleGroups cyc) t
      else if d.state = 1 && d.sQuiet && quiet && s.confirms qg qx then s.declare c v true qx qg t
      else if !cyc.isEmpty || quiet then
        s.setDeadlock c { state := 1, sCycle := !cyc.isEmpty, sQuiet := quiet, quiescent := cyc.isEmpty, part := v }
      else s.setDeadlock c {}

/-- JOIN_COMPLETE (R229, R232 to R238): once every sampling half has reported, the Compass judges each watched context.
With no Compass active nothing is joined. -/
def execJoinComplete (s : State) : Out :=
  match s.watch.joining with
  | none => .next s
  | some t =>
    let waiting := s.watch.watchers.any (fun (e : Nat × Watcher) => e.2.sampling == some t && (s.server e.1).isSome)
    if s.pkg.bothDead then .next (s.setWatch { s.watch with joining := none })
    else if waiting then .next s
    else
      let s0 := s.setWatch { s.watch with watchers := s.watch.watchers.map (fun (e : Nat × Watcher) =>
        (e.1, if e.2.sampling.isSome then { e.2 with sampling := none, bad := true } else e.2)) }
      let g := s0.joined
      let s1 := s0.watched.foldl (fun r c => r.judgeCtx g t c) s0
      .next (s1.setWatch { s1.watch with
        joining := none
        prevWaits := g.waits.map (fun w => (w.1, w.2.2))
        prevQueued := (g.entries.filter (fun e => bitAt e.flags 2)).map (·.uno)
        joinNs := s.now - t.toNat
        snapT := t })

/-! ### Policies (R242 to R244) -/

/-- The access of Table SW-6 for a policy row. -/
def State.mayPolicy (s : State) (who : Option Nat) (c : Ctx) (row dl dm job : Nat) : Bool :=
  (s.life.state != .endOfLife || s.isAnalysis who) &&
  (s.openState || (if row = 0 then s.hasPlatform who
    else s.levelOn who c == 2 || (s.levelOn who c == 1 && dl == 0 && dm == 0 && job == 0xFF)))

/-- No other row or trigger set names the job (R244 step 7). -/
def State.jobFree (s : State) (c : Ctx) (row job : Nat) : Bool :=
  s.watch.policies.all (fun (e : Nat × Policy) => e.1 == c * 2 + row || e.2.job != some job) &&
  s.sets.all (fun e => match e.2 with
    | some x => x.job != some job
    | none => true)

/-- The checks of R244 up to the wake, with that of R218. -/
def State.policyChecks (s : State) (who : Option Nat) (c : Ctx) (row : Nat) (en : Bool) (dl dm job : Nat) :
    List (Bool × Nat) :=
  let folio := dl == 2 || dm == 2
  [(decide (c < 4096 ∧ row ≤ 1), Status.cmdFormat),
   (!s.life.lockdown, Status.lockdown),
   ((s.partOfCtx c).isSome, Status.noPartition),
   (s.mayPolicy who c row dl dm job, Status.unitDenied),
   (decide (dl ≤ 2 ∧ dm ≤ 2) && (if folio then decide (job < 64) else job == 0xFF), Status.swParam),
   (!(en || folio) || s.noneGated (s.ctxPosts c), Status.postGated),
   (!(en || folio) || s.noneUnserved (s.ctxPosts c), Status.postLost)]

/-- The checks of R244 after the wake; R71 extends ENGINE_BUSY to the arming of a watch. -/
def State.policyChecks2 (s : State) (c : Ctx) (row : Nat) (en : Bool) (dl dm job : Nat) : List (Bool × Nat) :=
  let folio := dl == 2 || dm == 2
  [(!(en || folio) || (s.ctxPosts c).all (fun p => !s.taken p), Status.engineBusy),
   (!folio || (match s.job job with
      | some j => j.state == .created && j.ctx == c && some j.scope == (s.partOfCtx c).map (·.1)
      | none => false) && s.jobFree c row job, Status.jobState),
   (!folio || s.canRef ObjKind.job job, Status.refLimit)]

/-- POLICY (R242 to R244): the row is replaced whole, with the hub's reference on its job. -/
def execPolicy (c : CmdCtx) (ctx : Ctx) (row : Nat) (cycleEn quiescentEn : Bool) (dl dm : Nat) (job : Nat) (s : State) :
    Out :=
  let en := cycleEn || quiescentEn
  let folio := dl == 2 || dm == 2
  .next (s.judged c (s.policyChecks c.who ctx row en dl dm job) (fun s =>
    let sleeping := if en || folio then (s.ctxPosts ctx).filter s.postAsleep else []
    if !sleeping.isEmpty then s.waitFor (.policy c ctx row cycleEn quiescentEn dl dm job) sleeping
    else s.judged c (s.policyChecks2 ctx row en dl dm job) (fun s =>
      let s1 := if folio then s.hubRef ObjKind.job job else s
      let s2 := match (s.policy ctx row).job with
        | some j => s1.hubUnref ObjKind.job j
        | none => s1
      let s3 := s2.setPolicy ctx row { set := true, cycleEn := cycleEn, quiescEn := quiescentEn, dl := dl, dm := dm,
                                       job := if folio then some job else none }
      let s4 := s3.usePosts c.session (s.ctxPosts ctx)
      ((s4.complete c Status.ok (objectWord ObjKind.context ctx) 0).reap))))

/-- POLICY_HALT_ISSUE (R223, R243): the i-th waiting policy HALT issues once its issuer has a place; a post in lone survey
issues none. -/
def execPolicyHaltIssue (i : Nat) (s : State) : Out :=
  match s.watch.halts[i]? with
  | none => .next s
  | some h =>
    if s.hopsPending (issuerOf h.issuer) < 16 ∧ !(s.post h.issuer).lone ∧ !(s.pkg.bothDead && h.issuer == 128) then
      .next ((s.setWatch { s.watch with halts := s.watch.halts.eraseIdx i }).issuePolicy h)
    else .next s

/-! ### Deadlines (R240, R241, R245) -/

/-- The access of Table SW-6 for a deadline on a row. -/
def State.mayDeadline (s : State) (who : Option Nat) (c : Ctx) (row : Nat) : Bool :=
  (s.life.state != .endOfLife || s.isAnalysis who) &&
  (s.openState || (if row = 0 then s.hasPlatform who else decide (1 ≤ s.levelOn who c)))

/-- The ARMED record of a context, row and identifier, if there is one. -/
def State.armedDeadline (s : State) (c : Ctx) (row : Nat) (jobId : BitVec 32) : Option Nat :=
  (s.watch.deadlines.find? (fun (e : Nat × Deadline) =>
    e.2.state == 1 && e.2.ctx == c && e.2.row == row && e.2.jobId == jobId)).map (·.1)

/-- The first comparator of a bank tap that is not ARMED; one that owes its result to a post comes last (R241). -/
def State.freeDeadline (s : State) (p : Nat) : Option Nat :=
  (firstBelow (fun i => (s.deadline p i).state != 1 && !(s.deadline p i).owed) 64).or
    (firstBelow (fun i => (s.deadline p i).state != 1) 64)

/-- The bank's post sleeps or wakes: a deadline command waits for it (R43, Table SW-6). -/
def State.bankAsleep (s : State) (p : Nat) : Bool :=
  (s.post p).health == Health.gated || (s.post p).health == Health.waking

/-- DEADLINE_SET (R240, R245, R247): a comparator of the object's bank tap is armed, once a sleeping post with its
auto-wake bit set has woken. -/
def execDeadlineSet (c : CmdCtx) (jobId : BitVec 32) (row : Nat) (obj : Uno) (target : Word) (t : Time) (s : State) : Out :=
  let p := (postOf s.pkg.member obj).getD 0
  let ctx := s.ctxOf obj
  .next (s.judged c
    [(decide (row ≤ 1), Status.cmdFormat),
     (!s.life.lockdown, Status.lockdown),
     (s.present obj && kindOf s.pkg.member obj == .obj, Status.unitAbsent),
     (s.life.state != .production || (s.partOfCtx ctx).isSome, Status.swScope),
     (s.mayDeadline c.who ctx row, Status.unitDenied),
     (decide (s.now + 1000 < t.toNat), Status.deadlinePast),
     ((s.armedDeadline ctx row jobId).isNone, Status.deadlineDup),
     (!s.gatedFast p, Status.postGated)]
    (fun s =>
      if s.bankAsleep p then s.waitFor (.deadlineSet c jobId row obj target t) [p]
      else s.judged c [((s.freeDeadline p).isSome, Status.deadlineFull)] (fun s =>
        let i := (s.freeDeadline p).getD 0
        let d : Deadline := { state := 1, jobId := jobId, row := row, ctx := ctx, obj := (obj - 0xC00000) % 1024,
                              target := target, t := t, session := c.session, platform := row == 0 }
        ((s.setDeadline p i d).usePosts c.session [p]).complete c Status.ok (objectWord ObjKind.context ctx) 0)))

/-- DEADLINE_CLEAR (R241, R245): the ARMED record goes FREE with result CLEARED. -/
def execDeadlineClear (c : CmdCtx) (ctx : Ctx) (row : Nat) (jobId : BitVec 32) (s : State) : Out :=
  .next (s.judged c
    [(decide (ctx < 4096 ∧ row ≤ 1), Status.cmdFormat),
     (!s.life.lockdown, Status.lockdown),
     (s.mayDeadline c.who ctx row, Status.unitDenied),
     ((s.armedDeadline ctx row jobId).isSome, Status.deadlineUnknown)]
    (fun s =>
      let k := (s.armedDeadline ctx row jobId).getD 0
      (s.endDeadline (k / 64) (k % 64) 0 2 0).complete c Status.ok (objectWord ObjKind.context ctx) 0))

/-- DEADLINE_MET (R240): an operation of the accelerator gives the object of an ARMED record a value. A frozen object
takes none. -/
def execDeadlineMet (post : Nat) (i : Nat) (value : Word) (s : State) : Out :=
  let d := s.deadline post i
  let o := objUno post d.obj
  if d.state = 1 ∧ i < 64 ∧ d.target.toNat ≤ value.toNat ∧ s.present o ∧ !(s.inst 4 o).any ∧ !(s.inst 6 o).any then
    .next (s.objWrite o value)
  else .next s

/-- DEADLINE_MISSED (R240, R241): the bank's copy has passed DEADLINE_T and the record is not met. The serving post
applies the miss, or the tap keeps it while no post runs. -/
def execDeadlineMissed (post : Nat) (i : Nat) (s : State) : Out :=
  let d := s.deadline post i
  let late : Bool := match s.copyNow (0x3300 + post) with
    | some t => decide (d.t.toNat + 1 ≤ t)
    | none => false
  if d.state == 1 && decide (i < 64) && late then
    let s1 := s.setDeadline post i { d with state := 3, doneT := d.t + 1, owed := true }
    .next (match s1.server post with
      | some q => s1.applyMiss post q i
      | none => s1)
  else .next s

end Sys2Proof.Machine
end

