-- ==== Sys2Proof/Machine/Boot.lean ====
section
/-! DEFINITION. Power, resets, start-up, the meridian's copies, links and post power (chapter 01). A start-up event that
comes before its step changes nothing. -/

namespace Sys2Proof.Machine

/-! ### Power and resets (R38 to R40) -/

/-- PACKAGE_POWER_ON (R38, R44): every domain is cleared and the reserve is lost; the flashes keep what they hold. -/
def execPackagePowerOn (s : State) : Out :=
  .next { State.reset with
    pkg := { member := s.pkg.member, powered := true }
    port := s.port.pins
    life := s.life.flash
    upd := s.upd.flash
    drawn := s.drawn
    pending := s.pending }

/-- AON_RESET_RELEASE (R28, R44): start-up step 1 ends and the meridian master starts at 0. -/
def execAonResetRelease (s : State) : Out :=
  if s.pkg.powered && !s.pkg.aonUp then
    .next { s with pkg := { s.pkg with aonUp := true, meridian := 0, bootStep := 1 } }
  else .next s

/-- HUB_COLD_RESET (R38, R40, R409): platform rights, or in firmware recovery the level of Table UP-5; the command
completes, then the reset follows. -/
def execHubColdReset (c : CmdCtx) (undrained : List Undrained) (s : State) : Out :=
  .next (s.judgedAny c
    [(!s.life.lockdown, Status.lockdown),
     (if s.pkg.fwRecovery then s.updLevel c.who else s.hasPlatform c.who, Status.unitDenied)]
    (fun s => (s.complete c Status.ok noObject 0).hubCold Reason.hubColdReset undrained))

/-- HUB_WARM_RESET (R38, R39, R369, R414): waits while a lifecycle transition runs or is pending. -/
def execHubWarmReset (c : CmdCtx) (undrained : List Undrained) (s : State) : Out :=
  .next (s.judged c [(!s.life.lockdown, Status.lockdown), (s.hasPlatform c.who, Status.unitDenied)] (fun s =>
    if s.lcBusy then s.waitFor (.hubWarmReset c undrained) []
    else (s.complete c Status.ok noObject 0).hubWarm Reason.hubWarmReset undrained))

/-- PACKAGE_WARM_RESET (R38, Table CH-6): the package reset pin. -/
def execPackageWarmReset (s : State) : Out := if s.pkg.aonUp then .next s.packageWarm else .next s

/-! ### Start-up (R44, R45) -/

/-- BOOT_SELF_TEST (R17, R44, R45): step 3. Compass A is active unless it is dead; with both dead no boot ROM runs. The
engine of a standby holds no program (R73). -/
def execBootSelfTest (okA okB : Bool) (s : State) : Out :=
  if s.pkg.bootStep ≠ 2 ∨ s.life.lockdown ∨ s.pkg.bothDead then .next s
  else
    let p := { s.pkg with activeB := !okA, standbyOk := okA && okB, healthA := if okA then 1 else 6,
                          healthB := if okB then 1 else 6, bothDead := !okA && !okB }
    if !okA && !okB then .next { s with pkg := { p with degraded := true } }
    else
      let s1 : State := { s with pkg := { p with bootStep := 3 } }
      if okA && okB then .next (s1.setEngine standbyEngine { state := .empty })
      else .next (s1.degrade.failover s1.compassDie 4 (0x100 + (if okA then s.pkg.member.dieB else 0)))

/-- One HBM controller's channels mapped out by a bit map; each raises MEM_ECC CHANNEL_MAPPED_OUT once (R45). -/
def State.mapOut (s : State) (ctrl : Nat) (bad : BitVec 32) : State :=
  (rangeFrom 0 32).foldl (fun t n =>
    let u := 0x4000 + 32 * ctrl + n
    if bad.getLsbD n && !Tbl.get false t.held u then
      (t.holdUnit u).reportHub u Class.memEcc 3 (leBytes 3 u ++ leBytes 8 0) 0
    else t) s

/-- A controller is done with step 5, which ends with the last one. -/
def State.hbmEnds (s : State) (ctrl : Nat) : State :=
  let ds := s.pkg.hbmDone ++ [ctrl]
  { s with pkg := { s.pkg with hbmDone := ds, bootStep := if ds.length = s.pkg.member.posts then 5 else s.pkg.bootStep } }

/-- Step 5 still waits for this controller. -/
def State.hbmWaits (s : State) (ctrl : Nat) : Bool :=
  s.pkg.bootStep == 4 && !s.pkg.fwRecovery && decide (ctrl < s.pkg.member.posts) && !s.pkg.hbmDone.contains ctrl

/-- HBM_READY (R44): step 5 takes a controller's bad-channel map; controller 2d + t serves stack t of die d. -/
def execHbmReady (ctrl : Nat) (bad : BitVec 32) (s : State) : Out :=
  if s.hbmWaits ctrl then .next ((s.mapOut ctrl bad).hbmEnds ctrl) else .next s

/-- HBM_READY_TIMEOUT (R45): the 32 channels of the controller's stack count as mapped out. -/
def execHbmReadyTimeout (ctrl : Nat) (s : State) : Out :=
  if s.hbmWaits ctrl then .next ((s.mapOut ctrl (BitVec.allOnes 32)).degrade.hbmEnds ctrl) else .next s

/-- ENUMERATION_CLOSE (R28, R45, R46, R60, R178, R186, R199, R262): step 6 ends; `dead` are the units whose probe got no
answer. Copies are loaded, the reserve is carved, folios are rescanned and the Legend is built. -/
def execEnumerationClose (dead : List Uno) (s : State) : Out :=
  if s.pkg.bootStep ≠ 5 then .next s
  else
    let s1 := dead.foldl (fun t u => t.deadUnit u) s
    let s2 := s1.carveAll.loadCopies
    let s3 := (Tbl.keysSome s2.folios.jobs).foldl (fun t j => t.recreateJob j) s2
    let s4 := s3.buildLegend
    .next ({ s4 with pkg := { s4.pkg with bootStep := 6 } }).postsSettled

/-- CORE_RELEASE (R44, R410): step 8, once a trial's self-test has passed; the cores leave reset at the common time. A
rerun after a hub-warm reset skips it (R39). The release multicast's 2 flits cross every link that leads from the active
Compass to a die (Table TP-3). -/
def execCoreRelease (s : State) : Out :=
  if s.pkg.bootStep ≠ 7 ∨ s.pkg.warmRerun ∨ (s.upd.trial && s.upd.confirmWait.isNone) then .next s
  else match s.sendUrg 2 (treeLinks s.pkg.member s.homeDie) with
    | none => .next s
    | some t => .next { t with pkg := { t.pkg with bootStep := 8, releaseT := t.pkg.meridian, coresHeld := false } }

/-! ### Credit meters and the meridian's copies (R25 to R33) -/

/-- CREDIT_REFILL (R25, R26): each link direction's meters refill, up to 64 and 32 credits. A link that the state does
not list has full meters. -/
def execCreditRefill (s : State) : Out :=
  .next { s with links := Tbl.mapVals {} (fun k x => x.refill (s.raisedLink k)) s.links }

/-- EPOCH (R28, R29, R31, R32, R34): a pulse, sent when the master's low 10 bits are 0 while a Compass is active. -/
def execEpoch (s : State) : Out :=
  if s.now % 1024 ≠ 0 ∨ !s.pkg.aonUp ∨ s.pkg.bothDead then .next s
  else .next ((rangeFrom 0 s.pkg.member.dies).foldl (fun t d => t.epochDie d) s)

/-- MERIDIAN_LOAD_FLIT (R28, R33): a flit names a future epoch value to a die whose copies are not loaded; after a relock
it is the one that answers the report. It comes from the active Compass on DBG-URG (R25, Table TP-3). -/
def execMeridianLoadFlit (die : Nat) (value : Time) (s : State) : Out :=
  let x := s.die die
  if die < s.pkg.member.dies ∧ 5 ≤ s.pkg.bootStep ∧ x.pllLocked ∧ !x.copy.valid ∧ s.now < value.toNat ∧ value.toNat % 1024 = 0
      ∧ (x.reloadAt = none ∨ x.reloadAt = some value) then
    match s.sendUrg 1 (crossing s.pkg.member s.homeDie die) with
    | none => .next s
    | some t => .next (t.setDie die { x with pending := some value, reloadAt := none })
  else .next s

/-- LINK_RETRAIN (R32): a link direction retrains, or fails to train and is down; NET LINK_RETRAIN or LINK_DOWN of the
near die. -/
def execLinkRetrain (near far : Nat) (failed : Bool) (s : State) : Out :=
  if (allLinks s.pkg.member).contains (near, far) then
    let x := s.link near far
    .next ((s.setLink near far { x with retraining := !failed, down := failed }).netReport (0x100 + near) (if failed then 5 else 4))
  else .next s

/-- LINK_TRAINING_END (R32): checks resume with the newly measured delay, in quarters of a nanosecond. -/
def execLinkTrainingEnd (near far : Nat) (delay : Nat) (s : State) : Out :=
  if (allLinks s.pkg.member).contains (near, far) && (s.link near far).retraining then
    .next (s.setLink near far { s.link near far with retraining := false, delay := delay })
  else .next s

/-- PLL_UNLOCK (R33): every copy of the die is invalid until a new load flit takes effect; POWER_THERMAL PLL_UNLOCK. -/
def execPllUnlock (die : Nat) (s : State) : Out :=
  let x := s.die die
  if die < s.pkg.member.dies ∧ x.pllLocked then
    let s1 := s.setDie die { x with pllLocked := false, relockWait := false, reloadAt := none, pending := none,
                                    copy := {}, episode := false }
    let s2 : State := { s1 with copies := s1.copies.filter (fun e => dieOf s.pkg.member e.1 != some die) }
    .next (s2.report (0x100 + die) Class.powerThermal 1 (leBytes 3 (0x100 + die)) 0)
  else .next s

/-- PLL_RELOCK (R33): the epoch repeater reports the relock; the report waits while no Compass is active. -/
def execPllRelock (die : Nat) (s : State) : Out :=
  let x := s.die die
  if die < s.pkg.member.dies ∧ !x.pllLocked then .next (s.setDie die { x with pllLocked := true, relockWait := true })
  else .next s

/-- RELOCK_REPORT (R33): the active Compass answers with a load flit that names the second epoch from now. -/
def execRelockReport (die : Nat) (s : State) : Out :=
  let x := s.die die
  if x.relockWait ∧ !s.pkg.bothDead ∧ 3 ≤ s.pkg.bootStep then
    .next (s.setDie die { x with relockWait := false, reloadAt := some (word ((s.now / 1024 + 2) * 1024)) })
  else .next s

/-- XTRIG_PULSE (R21, R138, R318): a pulse reaches a die: its posts, and at the active
Compass's die the root engine and the TRIG_OUT pin. -/
def execXtrigPulse (die : Nat) (s : State) : Out :=
  if s.xtrig.contains die then
    let s1 := ((({ s with xtrig := s.xtrig.erase die } : State).trigAt (2 * die) 20)).trigAt (2 * die + 1) 20
    .next (if s.compassDie = 0x100 + die then s1.crossPulse.engineEvent 128 8 else s1)
  else .next s

/-! ### Post power (R42, R43) -/

/-- POST_POWER (R42, R43, R380): gates a post that nothing uses, or starts the wake of a gated one. -/
def execPostPower (c : CmdCtx) (post : Nat) (action : Nat) (s : State) : Out :=
  let h := (s.post post).health
  .next (s.judged c
    [(decide (post < s.pkg.member.posts ∧ action ≤ 1), Status.cmdFormat),
     (!s.life.lockdown, Status.lockdown),
     (s.hasPlatform c.who, Status.unitDenied),
     (h != Health.lost && h != Health.adopted, Status.postLost),
     (action != 0 || h == Health.gated || (h == Health.ok && !s.postInUse post), Status.postBusy)]
    (fun s =>
      let s1 := if action = 1 then s.startWake post
        else if h = Health.ok then (s.clearPost post 0).setHealth post Health.gated else s
      s1.complete c Status.ok noObject 0))

/-- POST_WAKE_DONE (R43, R45): a wake ends. A failed self-test in start-up step 7 counts the post dead; later, it is
lost. The last wake of start-up ends step 7. -/
def execPostWakeDone (post : Nat) (pass : Bool) (s : State) : Out :=
  if (s.post post).health ≠ Health.waking ∨ s.pkg.bootStep < 6 ∨ s.pkg.member.posts ≤ post ∨ s.isHeld (halfUno post) then .next s
  else if pass then .next (s.postStarts post).postsSettled
  else if s.pkg.bootStep = 6 then
    .next (if s.pkg.warmRerun then (s.postDies post true).degrade else s.deadPost post).postsSettled
  else .next (s.postDies post false).postsSettled

/-- HELD_REQUEST_RESUME (R43, R331, R369, R378): the i-th command that waits is judged again; one whose reason stands
waits on. -/
def execHeldRequestResume (i : Nat) (s : State) : Out :=
  if s.pkg.bothDead then .next s
  else match s.host.waiting[i]? with
  | none => .next s
  | some w =>
    let s1 : State := { s with host := { s.host with waiting := s.host.waiting.eraseIdx i } }
    match w with
    | .setLoad c slot arg => execSetLoad c slot arg s1
    | .jobCreate c slot arg => execJobCreate c slot arg s1
    | .grant c arg => execGrant c arg s1
    | .hubWarmReset c us => execHubWarmReset c us s1
    | .updActivate c m f => execUpdActivate c m f s1
    | .policy c x row ce qe dl dm job => execPolicy c x row ce qe dl dm job s1
    | .deadlineSet c jobId row obj target t => execDeadlineSet c jobId row obj target t s1
    | _ => .next s1

end Sys2Proof.Machine
end

