-- ==== Sys2Proof/Machine/Cartouche.lean ====
section
/-! DEFINITION. The cartouche path (chapter 07, R194 to R212): reports from outside the hub, merging in routers, the
collector's intake and ring, and the commands that read it out. -/

namespace Sys2Proof.Machine

/-! ### Reports (R197, R198, R201) -/

/-- The class and code of a report that units outside the hub raise: faults of cores and memories, links and thermal
control (Table CA-3). Every other code is the effect of the command that raises it. -/
def externalReport (cls code : Nat) : Bool :=
  (cls == Class.coreExc && decide (1 ≤ code ∧ code ≤ 6)) ||
  (cls == Class.memEcc && (code == 1 || code == 2 || code == 4 || code == 5)) ||
  (cls == Class.powerThermal && (code == 3 || code == 4))

/-- Bytes of the detail of such a report (Table CA-2). -/
def detailBytes (cls : Nat) : Nat := if cls = Class.coreExc then 8 else if cls = Class.memEcc then 11 else 3

/-- The reporter that Table CA-2 names for the class. -/
def reporterOk (m : Member) (cls : Nat) (u : Uno) : Bool :=
  match kindOf m u with
  | .core => cls == Class.coreExc || cls == Class.memEcc
  | .chan | .half => cls == Class.memEcc
  | .die => cls == Class.powerThermal
  | _ => false

/-- CARTOUCHE_REPORT (R197, R201): the report passes to its hashing point. The context of a core's report is its
cluster's, that of a memory report the owner of the page or line, as the command names it. -/
def execCartoucheReport (reporter : Uno) (cls code : Nat) (detail : List Byte) (ctx : Ctx) (s : State) : Out :=
  if externalReport cls code && reporterOk s.pkg.member cls reporter && s.present reporter &&
      detail.length == detailBytes cls then
    let c := if cls = Class.coreExc then s.ctxOf reporter else if cls = Class.memEcc then ctx else 0
    .next (s.report reporter cls code (if cls = Class.powerThermal then leBytes 3 reporter else detail) c)
  else .next s

/-! ### Routers (R202, R203, R220) -/

/-- The full meridian of a FIRST_T: the largest value not past `now` with these 60 bits (R196). -/
def fullTime (now : Nat) (ft : BitVec 60) : Nat :=
  let a := now / 2 ^ 60 * 2 ^ 60 + ft.toNat
  if a ≤ now then a else a - 2 ^ 60

/-- The post in lone survey that a router's cartouche route ends at (R220). -/
def State.loneRoute (s : State) (router : Uno) : Option Nat :=
  ((postOf s.pkg.member router).bind s.server).filter (fun p => (s.post p).lone)

/-- The staging queue at the far end of a router's link has a free place of its 4 (R202). -/
def State.stagingFree (s : State) (router : Uno) : Bool :=
  decide ((s.cart.wire.filter (fun e => e.1 == router)).length < 4)

/-- A record leaves a router: toward the collector, into the staging queue at the far end, or to its half's lone log. It
leaves only with credit for the whole record (R27) and, on its way to the collector, with staging space (R202); `none`:
it cannot leave yet. -/
def State.forwardRec (s : State) (router : Uno) (r : Rec) : Option State :=
  match s.loneRoute router with
  | some p => (s.sendRec router).map (fun t => t.loneWrite p r)
  | none =>
    if s.stagingFree router then
      (s.sendRec router).map (fun t => { t with cart := { t.cart with wire := t.cart.wire ++ [(router, r)] } })
    else none

/-- The merge table of a router. -/
def State.mergeTable (s : State) (router : Uno) : List Merge := Tbl.get [] s.cart.tables router

def State.setMergeTable (s : State) (router : Uno) (v : List Merge) : State :=
  { s with cart := { s.cart with tables := Tbl.set [] s.cart.tables router v } }

/-- A record is the first of its staging queue, where the records wait in the order they came. -/
def Cart.atHead (c : Cart) (e : Uno × Rec) : Bool := c.wire.find? (fun x => x.1 == e.1) == some e

/-- A router on the way of a record that router `src` sent: on the die of `src`, or on the next die of the X-first route
to the active Compass (R202). -/
def State.onWay (s : State) (src router : Uno) : Bool :=
  let m := s.pkg.member
  match dieOf m src, dieOf m router with
  | some a, some b => src != router && (a == b || b == nextDie m a s.homeDie)
  | _, _ => false

/-- The link that a record crosses from router `src` to `router`: none within a die, where the link of `src` took it; the
link between the dies otherwise, with credit for the whole record (R27). -/
def State.crossRec (s : State) (src router : Uno) : Option State :=
  let a := (dieOf s.pkg.member src).getD 0
  let b := (dieOf s.pkg.member router).getD 0
  if a = b then some s else s.sendRec (linkKey a b)

/-- A record that a router takes: the first of a staging queue on its way, or one that waits in a hashing point of the
router's die; `none` when it is at neither, or waits for credit. -/
def State.takeRec (s : State) (router : Uno) (r : Rec) : Option State :=
  match s.cart.wire.find? (fun e => e.2 == r && s.cart.atHead e && s.onWay e.1 router) with
  | some e => (s.crossRec e.1 router).map (fun t => { t with cart := { t.cart with wire := t.cart.wire.erase e } })
  | none =>
    match s.cart.points.find? (fun e =>
        e.1 != 0 && e.2.held.contains r && dieOf s.pkg.member e.1 == dieOf s.pkg.member router) with
    | some e => some (s.setPoint e.1 (e.2.leave r))
    | none => none

/-- A record handled by a router in the order of R203; `none`: it would pass through, and cannot leave yet. -/
def State.routeRec (s : State) (router : Uno) (r : Rec) : Option State :=
  let t := s.mergeTable router
  let limit := fullTime s.now r.firstT + 4 * s.mergeWindow
  if t.any (fun e => sameSignature e.r r) then
    some (s.setMergeTable router (t.map (fun e => if sameSignature e.r r then { e with r := mergeRec e.r r } else e)))
  else if limit < s.now then s.forwardRec router r
  else if t.length < 16 then
    some (s.setMergeTable router (t ++ [{ r := r, close := word (min (s.now + s.mergeWindow) limit) }]))
  else s.forwardRec router r

/-- CARTOUCHE_ARRIVAL (R201 to R203): a CNET router takes a record on its way; a record that cannot go on stays where it
waits. -/
def execCartoucheArrival (router : Uno) (r : Rec) (s : State) : Out :=
  if kindOf s.pkg.member router = .cnet then
    .next (((s.takeRec router r).bind (fun t => t.routeRec router r)).getD s)
  else .next s

/-- CLOSE_TIME (R27, R203): at its close time an entry is forwarded and freed; without credit or staging space it stays. -/
def execCloseTime (router : Uno) (i : Nat) (s : State) : Out :=
  let t := s.mergeTable router
  match t[i]? with
  | none => .next s
  | some e =>
    if e.close.toNat ≤ s.now then
      .next (((s.forwardRec router e.r).map (fun x => x.setMergeTable router (t.eraseIdx i))).getD s)
    else .next s

/-! ### The collector (R205 to R208) -/

/-- FAULTN is set by a record of a selected class that the collector writes or folds (R207). -/
def State.faultnSet (s : State) (cls : Nat) : State :=
  if s.faultnClass cls then { s with cart := { s.cart with faultn := true } } else s

/-- A record folded at the intake; a fold raises the ring event as a write does (R205, R207, R208). -/
def State.intakeFold (s : State) (r : Rec) : State :=
  let s1 : State := { s with cart := { s.cart with intakeAcc := some (foldRec 2 s.cart.intakeAcc r) } }
  ((s1.markLost r.ctx).faultnSet r.cls).cartEventNow

/-- A record that reaches the collector: queued, or folded with all 64 places held (R205). -/
def State.intakeTake (s : State) (r : Rec) : State :=
  if s.cart.intake.length < 64 then { s with cart := { s.cart with intake := s.cart.intake ++ [r] } }
  else s.intakeFold r

/-- INTAKE_ARRIVAL (R205): a record on the wire, or one of the active Compass itself, reaches the collector; the root
engine takes event CART (Table QE-5). -/
def execIntakeArrival (r : Rec) (s : State) : Out :=
  if s.pkg.bothDead then .next s
  else match s.cart.wire.find? (fun e =>
      e.2 == r && s.cart.atHead e && dieOf s.pkg.member e.1 == some s.homeDie) with
  | some e => .next ((({ s with cart := { s.cart with wire := s.cart.wire.erase e } }).intakeTake r).engineEvent 128 4)
  | none =>
    if (s.point 0).held.contains r then
      .next (((s.setPoint 0 ((s.point 0).leave r)).intakeTake r).engineEvent 128 4)
    else .next s

/-- UNREAD: HEAD − TAIL (R206). -/
def Cart.unread (c : Cart) : Nat := (c.head - c.tail).toNat

/-- The ring with one more entry: an entry is stored until 4,096 more have been written (R209). -/
def Cart.push (c : Cart) (r : Rec) (isOpen : Bool) : Cart :=
  let xs := c.ring ++ [{ seq := c.head, r := r, isOpen := isOpen }]
  { c with ring := xs.drop (xs.length - 4096), head := c.head + 1 }

/-- A record folded into the open entry of the ring (R206). -/
def Cart.foldOpen (c : Cart) (r : Rec) : Cart :=
  { c with ring := c.ring.map (fun e => if e.isOpen then { e with r := foldRec 3 (some e.r) r } else e) }

/-- A record that leaves the intake queue, by the value of UNREAD (R206, R207). -/
def State.ringTake (s : State) (r : Rec) : State :=
  let c := s.cart
  let n := c.unread
  if n < 4095 then
    let k := if r.cls = Class.storm ∧ r.code = 2 then sat16 c.intakeStorms else c.intakeStorms
    ({ s with cart := { c.push r false with intakeStorms := k } }).faultnSet r.cls
  else if n = 4095 then
    let s1 : State := { s with cart := { c.push (foldRec 3 none r) true with ringStorms := sat16 c.ringStorms } }
    ((s1.markLost r.ctx).faultnSet r.cls).faultnSet Class.storm
  else (({ s with cart := c.foldOpen r }).markLost r.ctx).faultnSet r.cls

/-- Once the queue holds 32 records or fewer, the accumulator is enqueued (R205). -/
def State.intakeRelease (s : State) : State :=
  match s.cart.intakeAcc with
  | some a => if s.cart.intake.length ≤ 32 then
      { s with cart := { s.cart with intake := s.cart.intake ++ [a], intakeAcc := none } } else s
  | none => s

/-- COLLECTOR_WRITE (R205 to R208, R385): the head of the intake queue goes into the ring; in lone survey the ring
receives nothing (Table CA-8). -/
def execCollectorWrite (s : State) : Out :=
  if s.pkg.bothDead then .next s else
  match s.cart.intake with
  | [] => .next s
  | r :: rest =>
    .next (((({ s with cart := { s.cart with intake := rest } }).ringTake r).cartEventNow).intakeRelease)

/-! ### Reading out (R210 to R212) -/

/-- A write of CMP_CA_POP (R206, R210): a platform write that names TAIL pops one entry; bringing UNREAD to 4,095 closes
the open entry. -/
def State.caPop (s : State) (who : Option Nat) (v : BitVec 32) : State :=
  let c := s.cart
  if s.hasPlatform who && v == c.tail && decide (0 < c.unread) then
    let c1 := { c with tail := c.tail + 1 }
    { s with cart := if c1.unread = 4095 then { c1 with ring := c1.ring.map (fun e => { e with isOpen := false }) } else c1 }
  else s

/-- CMP_CA_POP. -/
def execCmpCaPop (p : Path) (v : BitVec 32) (s : State) : Out := .next (s.onBar p (s.caPop (s.actor p) v))

/-- FAULTN cleared by a session with platform rights (R212); the next rising edge is signalled again (R386). -/
def State.faultnClear (s : State) (who : Option Nat) : State :=
  if s.hasPlatform who then
    { s with cart := { s.cart with faultn := false }, host := { s.host with faultnSig := 0 } }
  else s

/-- FAULTN_RELEASE. -/
def execFaultnRelease (p : Path) (s : State) : Out := .next (s.onBar p (s.faultnClear (s.actor p)))

/-- The lost bit of a context counts for an actor (R211). -/
def State.seesLost (s : State) (who : Option Nat) (c : Ctx) : Bool :=
  s.hasPlatform who || decide (1 ≤ s.levelOn who c)

/-- CTX_LOST cleared: the lost bits that the session sees, no others (R211). -/
def State.ctxLostClear (s : State) (who : Option Nat) : State :=
  { s with cart := { s.cart with lost := s.cart.lost.filter (fun e => !s.seesLost who e.1) } }

/-- CTX_LOST_CLEAR. -/
def execCtxLostClear (p : Path) (s : State) : Out := .next (s.onBar p (s.ctxLostClear (s.actor p)))

end Sys2Proof.Machine
end

