-- ==== Sys2Proof/Machine/Failover.lean ====
section
/-! DEFINITION. The Compass pair, posts that fail, and lone survey (chapter 07, R213 to R223). Each event whose
condition does not hold changes nothing. -/

namespace Sys2Proof.Machine

/-! ### The heartbeat between the Compasses (R213, R214) -/

/-- Two Compasses run and exchange frames. -/
def State.paired (s : State) : Bool := s.pkg.standbyOk && !s.pkg.bothDead

/-- The next heartbeat frame of a Compass (R213). Only the standby receives mirror frames. -/
def State.frameOf (s : State) (fromB : Bool) : Frame :=
  let active := s.pkg.activeB == fromB
  { active := active
    count := (if fromB then s.pair.sentB else s.pair.sentA) + 1
    mirror := if active then 0 else s.pair.mirrored }

/-- HEARTBEAT_FRAME (R213): a Compass takes its partner's frame, and its count of consecutive misses starts again. -/
def execHeartbeatFrame (atB : Bool) (s : State) : Out :=
  if s.paired then
    let q := s.pair
    let f := s.frameOf (!atB)
    .next { s with pair := if atB then { q with sentA := f.count, seenB := some f, missB := 0 }
                           else { q with sentB := f.count, seenA := some f, missA := 0 } }
  else .next s

/-- MIRROR_FRAME (R213): the standby takes a mirror frame. What it mirrors is the state itself, which a takeover keeps. -/
def execMirrorFrame (s : State) : Out :=
  if s.paired then .next { s with pair := { s.pair with mirrored := s.pair.mirrored + 1 } } else .next s

/-- HEARTBEAT_MISS (R213, R214): 1 µs without a frame; the eighth miss in a row sends a probe. -/
def execHeartbeatMiss (atB : Bool) (s : State) : Out :=
  if s.paired then
    let q := s.pair
    .next { s with pair := if atB then { q with missB := min 8 (q.missB + 1), probeB := q.probeB || decide (7 ≤ q.missB) }
                           else { q with missA := min 8 (q.missA + 1), probeA := q.probeA || decide (7 ≤ q.missA) } }
  else .next s

/-- The die of the standby Compass. -/
def State.standbyDie (s : State) : Uno := 0x100 + (if s.pkg.activeB then 0 else s.pkg.member.dieB)

/-- PEER_PROBE_ANSWER (R214): the link has failed, not the Compass: heartbeats move to DBG-REQ, with HEARTBEAT_LINK. -/
def execPeerProbeAnswer (s : State) : Out :=
  if s.paired && (s.pair.probeA || s.pair.probeB) then
    let s1 : State := { s with pair := { s.pair with
      probeA := false, probeB := false, missA := 0, missB := 0, onReq := true
      linkFaults := satAdd 255 s.pair.linkFaults 1 } }
    .next (s1.failover s1.compassDie 3 s1.standbyDie)
  else .next s

/-- Contexts that have a live partition. -/
def State.partitionCtxs (s : State) : List Ctx :=
  (s.groups.filterMap (fun e => e.2.bind (fun g => if g.partition then some g.ctx else none))).eraseDups

/-- What a takeover loses of the cartouche path: records on their way to the old Compass, those that it held itself, and
its intake; the lost bit of every context with a live partition is set (R214). -/
def State.loseRecords (s : State) : State :=
  let s1 := s.setPoint 0 {}
  let s2 : State := { s1 with cart := { s1.cart with wire := [], intake := [], intakeAcc := none } }
  s2.partitionCtxs.foldl (fun t c => t.markLost c) s2

/-- A snapshot join in progress is abandoned and counts as an incomplete snapshot of every half that takes part in it; the
posts' own sampling goes on. SUSPECT records return to NONE (Table SW-5). -/
def State.abandonJoin (s : State) : State :=
  let w := s.watch
  let drop (_ : Nat) (x : Watcher) : Watcher :=
    if w.joining.isSome && !x.bad && (x.sampling == w.joining || some x.lastT == w.joining) then
      { x with bad := true, incomplete := sat16 x.incomplete }
    else x
  s.setWatch { w with
    joining := none
    barred := []
    watchers := Tbl.mapVals {} drop w.watchers
    records := Tbl.mapVals {} (fun _ d => if d.state = 1 then {} else d) w.records }

/-- The standby's engine, EMPTY until then, is the root engine of the Compass that takes over and RESIDENT; the old one's
user program is lost (R73, Table QE-8). No standby is left. -/
def State.rootTaken (s : State) : State :=
  let s1 := s.dropEngineJobs 128 true
  let why := if (s1.engine 128).owner.isSome then 5 else (s1.engine 128).stopReason
  (s1.setEngine 128 { s1.engine standbyEngine with state := .resident, stopReason := why }).setEngine standbyEngine {}

/-- The serial queue is lost; the output resumes with a TIME packet and then a LOSS packet with UNKNOWN (Table IT-6). -/
def State.serialLost (s : State) : State :=
  let q := s.trace.serial
  let lost := q.lose q.queue.length
  let gone := { lost with queue := [], sent := none, mid := false, freeT := s.pkg.meridian }
  let part := q.slot.bind (fun i => (rangeFrom 0 s.pkg.member.posts).find? (fun p => (s.tpart p i).live))
  let new := match q.slot.bind s.stream, part with
    | some x, some p =>
      if s.toFunc = 2 then
        q.resume p (s.tpart p (q.slot.getD 0)).wrPseq (if x.anyCtx then 0 else x.ctx) s.pkg.meridian
      else gone
    | _, _ => gone
  { s with trace := { s.trace with serial := new } }

/-- Partial packets and unread outbound words of the port are lost at a takeover (Table PT-14). -/
def State.portCut (s : State) : State :=
  { s with port := { s.port with inWords := [], outWords := [], response := none, taken := true } }

/-- The standby becomes the meridian master without a step and the active Compass (Table CA-6): port sessions close,
mirrored sessions stay, an update before activation is abandoned, and TAKEOVER names the old Compass's die. -/
def State.takeover (s : State) : State :=
  let old := s.compassDie
  let p := s.pkg
  let s1 : State := { s with
    pkg := { p with activeB := !p.activeB, standbyOk := false
                    healthA := if p.activeB then p.healthA else 6, healthB := if p.activeB then 6 else p.healthB }
    pair := { s.pair with missA := 0, missB := 0, probeA := false, probeB := false, onReq := false, routed := []
                          takeovers := satAdd 255 s.pair.takeovers 1, takeoverT := s.pkg.meridian } }
  let s2 := (s1.loseRecords.abandonJoin.rootTaken.serialLost.closeSession portSlot Reason.takeover).portCut
  let s3 := if s2.upd.owner.isSome then s2.abandon else s2
  (s3.guardPins.bumpGen).failover s3.compassDie 1 old

/-- PEER_PROBE_TIMEOUT (R214): the standby takes over, or the active Compass runs on without a standby, with
STANDBY_LOST. -/
def execPeerProbeTimeout (s : State) : Out :=
  let byStandby : Bool := if s.pkg.activeB then s.pair.probeA else s.pair.probeB
  if !s.paired || !(s.pair.probeA || s.pair.probeB) then .next s
  else if byStandby then .next s.takeover
  else
    let p := s.pkg
    let s1 : State := { s with
      pkg := { p with standbyOk := false, healthA := if p.activeB then 6 else p.healthA
                      healthB := if p.activeB then p.healthB else 6 }
      pair := { s.pair with missA := 0, missB := 0, probeA := false, probeB := false, onReq := false } }
    .next (((s1.setEngine standbyEngine {}).bumpGen).failover s1.compassDie 2 s.standbyDie)

/-- TAKEOVER_MULTICAST (R214, R215, R220): TAKEOVER reaches a unit once. A router re-points its cartouche route and the
PCIe controller BAR0; a half's post re-homes, with event REHOME, and its lone-survey count starts again; the Compass named
as replaced is fenced. -/
def execTakeoverMulticast (unit : Uno) (s : State) : Out :=
  if s.pkg.standbyOk || s.pair.takeoverT = 0 || Tbl.get false s.pair.routed unit then .next s
  else
    let s1 : State := { s with pair := { s.pair with routed := Tbl.set false s.pair.routed unit true } }
    match kindOf s.pkg.member unit with
    | .cnet | .hostIf => .next s1
    | .half =>
      let p := unit - 0x200
      if s.postRuns p then
        .next ((s1.setPost p { s1.post p with ackT := s.pkg.meridian }).engineEvent p 10)
      else .next s1
    | .die =>
      if unit = s.standbyDie then
        .next { s1 with pkg := { s1.pkg with fencedA := s1.pkg.fencedA || s.pkg.activeB
                                             fencedB := s1.pkg.fencedB || !s.pkg.activeB } }
      else .next s
    | _ => .next s

/-! ### Post heartbeats (R216) -/

/-- POST_HEARTBEAT (R216): a running post sends a heartbeat flit. -/
def execPostHeartbeat (post : Nat) (s : State) : Out :=
  if s.postRuns post then .next (s.setPost post { s.post post with hbOut := true }) else .next s

/-- POST_HEARTBEAT_ARRIVAL (R216): the active Compass takes the heartbeat, one flit on DBG-URG from the post's die (R25),
and answers with one acknowledgement. -/
def execPostHeartbeatArrival (post : Nat) (s : State) : Out :=
  if (s.post post).hbOut && !s.pkg.bothDead then
    match s.sendUrg 1 (crossing s.pkg.member (post / 2) s.homeDie) with
    | some t => .next (t.setPost post { s.post post with hbOut := false, hbT := s.pkg.meridian, ackDue := true })
    | none => .next s
  else .next s

/-- HEARTBEAT_ACK (R216, R220): the post takes an acknowledgement, one flit on DBG-URG, and its lone-survey count starts
again. -/
def execHeartbeatAck (post : Nat) (s : State) : Out :=
  if (s.post post).ackDue then
    match s.sendUrg 1 (crossing s.pkg.member s.homeDie (post / 2)) with
    | some t => .next (t.setPost post { s.post post with
        ackDue := false, ackT := s.pkg.meridian, lastAck := some s.pkg.meridian })
    | none => .next s
  else .next s

/-- POST_LOST (R216): 30 µs have passed without a heartbeat from a running post. -/
def execPostLost (post : Nat) (s : State) : Out :=
  if s.postRuns post && decide ((s.post post).hbT.toNat + 30000 ≤ s.now) && !s.pkg.bothDead then
    .next (s.postDies post false)
  else .next s

/-- POST_MEMORY_ERROR (R216): a running post reports an uncorrectable error in its own memories. -/
def execPostMemoryError (post : Nat) (s : State) : Out :=
  if s.postRuns post && !s.pkg.bothDead then
    let s1 := s.setPost post { s.post post with memError := true }
    .next (s1.postDies post false)
  else .next s

/-! ### Adoption and restart (R217 to R219) -/

/-- A post's part of every running job is rescanned; `adopted` marks it ADOPTED. The counters of a part that has ended read
0, as the post's registers do (R185, R192, Table FO-16). -/
def State.rescanJobs (s : State) (p : Nat) (adopted : Bool) : State :=
  (Tbl.keysSome s.folios.jobs).foldl (fun t i => match t.job i with
    | some j =>
      if !j.running then t.setJob i (some { j with parts := j.parts.map (fun x =>
          if x.post = p then x.clearCounts else x) })
      else
        let j1 := j.rescan p
        t.setJob i (some { j1 with parts := j1.parts.map (fun x =>
          if x.post = p then { x with adopted := x.adopted || adopted } else x) })
    | none => t) s

/-- Sets with a combiner copy on a post unload package-wide for a reason (Table BW-10). -/
def State.unloadCombiners (s : State) (p reason : Nat) : State :=
  (s.combinerSets p).foldl (fun t i => t.unloadSet i reason) s

/-- HOPs that a lost post's ring held PENDING are recorded by the post that serves the half now (Table CH-6). -/
def State.inheritHops (s : State) (p : Nat) (old : HopRing) : State :=
  (old.recs.filterMap (fun e => e.2)).foldl (fun t r =>
    match t.hop r.1 with
    | some h => if h.status = 1 then t.writeRecord (if r.2 then p ^^^ 1 else p) r.1 else t
    | none => t) s

/-- ADOPT (R217, Table CA-7): the running sibling takes over a lost half. Its own engine sees REHOME, the lost post's
program is lost, folio and trace parts are rescanned, and POST_LOST, or POST_DEAD of start-up, names the half. Of the
lost post's buffer `undrained` entries did not drain: a loss map entry of REASON 4 (R187). -/
def execAdopt (post : Nat) (undrained : Nat) (s : State) : Out :=
  let sib := post ^^^ 1
  if (s.post post).health ≠ Health.lost || !(s.post post).adoptWanted || !s.postRuns sib then .next s
  else
    let code := if (s.post post).startDead then 5 else 6
    let ring := s.hopRing post
    let s1 := (s.unloadCombiners post 4).clearPost post 6
    let s2 := s1.setPost post { s1.post post with adoptWanted := false }
    let s3 := (s2.setPost sib { s2.post sib with adopting := true }).setHealth post Health.adopted
    let s4 := (((s3.drainPost post 4 undrained).inheritHops post ring).rescanJobs post true).rescanParts post
    let s5 := ((s4.startWaiting post).applyOwed post).engineEvent sib 10
    .next (s5.failover (halfUno sib) code (halfUno post))

/-- POST_RESTART (R219, R380, Table TP-7): platform rights; a running or lost post drains and restarts alone. Its half is
served as a gated one, or still by the sibling that has adopted it. -/
def execPostRestart (c : CmdCtx) (post : Nat) (undrained : Nat) (s : State) : Out :=
  let h := (s.post post).health
  .next (s.judged c
    [(decide (post < s.pkg.member.posts), Status.cmdFormat),
     (!s.life.lockdown, Status.lockdown),
     (s.hasPlatform c.who, Status.unitDenied),
     (h == Health.ok || h == Health.lost || (h == Health.adopted && !(s.post post).rehomed), Status.wrongState)]
    (fun s =>
      let s1 := if h = Health.ok then s.drainPost post 3 undrained else s
      let s2 := (s1.unloadCombiners post 3).clearPost post 6
      let s3 := s2.setPost post { s2.post post with restored := decide (h = Health.adopted), rehomed := false
                                                    hbOut := false, ackDue := false }
      (s3.setHealth post Health.restarting).complete c Status.ok noObject 0))

/-- What a restarted post does once it has re-homed (R219, Tables FO-16 and IT-6): its policies are written, its clocks
start, its folio and trace parts are rescanned and go on. -/
def State.postResumes (s : State) (p : Nat) : State :=
  let s1 := s.setPost p { s.post p with adoptWanted := false }
  ((s1.rescanJobs p false).rescanParts p).postStarts p

/-- POST_RESTART_DONE (R219): the restart ends. A post whose sibling keeps its half has re-homed and waits for the
hand-back; a failed self-test leaves the post lost, with RESTART_FAILED. -/
def execPostRestartDone (post : Nat) (pass : Bool) (s : State) : Out :=
  let q := s.post post
  if q.health ≠ Health.restarting then .next s
  else if pass then
    if q.restored then .next ((s.setPost post { q with restored := false, rehomed := true }).setHealth post Health.adopted)
    else .next (s.postResumes post)
  else
    let s1 := s.failover s.compassDie 9 (halfUno post)
    if q.restored then .next ((s1.setPost post { q with restored := false }).setHealth post Health.adopted)
    else .next (s1.postDies post false)

/-- Every part of a running folio on a half has ended (R219). -/
def State.partsEnded (s : State) (p : Nat) : Bool :=
  s.folios.jobs.all (fun e => match e.2 with
    | some j => !j.running || j.parts.all (fun x => x.post != p || x.state == 5 || x.state == 6)
    | none => true)

/-- POST_RESTORED (R219): the sibling hands the stations back to the post that has re-homed. -/
def execPostRestored (post : Nat) (s : State) : Out :=
  let sib := post ^^^ 1
  if (s.post post).rehomed && s.partsEnded post then
    let s1 := s.setPost post { s.post post with rehomed := false }
    let s2 := (s1.setPost sib { s1.post sib with adopting := false }).postResumes post
    .next (s2.failover (halfUno sib) 8 (halfUno post))
  else .next s

/-! ### Lone survey (R220, R221) -/

/-- LONE_SURVEY (R72, R220): 40 µs without an acknowledgement or TAKEOVER, so both Compasses are lost (assumption 129).
The post drives FAULT_N and takes its routers' cartouches, its engine returns to the resident program, and its policy is
applied. -/
def execLoneSurvey (post : Nat) (s : State) : Out :=
  if s.postRuns post && !(s.post post).lone && decide ((s.post post).ackT.toNat + 40000 ≤ s.now) then
    let s0 : State := { s with pkg := { s.pkg with bothDead := true } }
    let s1 := s0.setPost post { s.post post with lone := true }
    .next ((s1.returnEngine post 4).lonePolicies post)
  else .next s

end Sys2Proof.Machine
end

