-- ==== Sys2Proof/Machine/Lifecycle.lean ====
section
/-! DEFINITION. Lifecycle commands and start-up step 2 (chapter 13). -/

namespace Sys2Proof.Machine

/-- LIFECYCLE_DECIDE (R345, R346, R348, R349, R356 to R359, R363, R364): start-up step 2 reads the record, decides the
state, repairs the copies and loads keys; a record that cannot be decided is LOCKDOWN, after which start-up stops
(Table TP-11). -/
def execLifecycleDecide (s : State) : Out :=
  if s.pkg.bootStep ≠ 1 ∨ !s.pkg.aonUp then .next s
  else
    match s.derive with
    | .locked i =>
      let s1 : State := { s with pkg := { s.pkg with bootStep := 2, degraded := true }
                                 life := { s.life with decided := true, lockdown := true } }
      .next (s1.lifeReport 3 i)
    | .decided st pending slot step =>
      let s1 : State := { s with
        pkg := { s.pkg with bootStep := 2 }
        life := { s.life with decided := true, lockdown := false, state := st, pending := pending, slot := slot,
                              step := step } }
      let s2 := s1.repairs.makeDevKeys.makeMakerKey.loadKeys
      .next (if !pending && step == 3 then s2.announce 1 else s2)

/-- UFLASH_WRITE (R350, R364, R367): one user sector erased and programmed on both dies. -/
def execUflashWrite (c : CmdCtx) (sector : Nat) (data : List Byte) (s : State) : Out :=
  .next (s.judged c
    [(decide (sector < 16) && data.length == 65536, Status.cmdFormat),
     (!s.life.lockdown, Status.lockdown),
     (s.hasPlatform c.who, Status.unitDenied),
     (!s.lcBusy, Status.lcBusy)]
    (fun s =>
      let programmed := data.any (fun b => b != 0xFF)
      if s.canWrite [(40 + sector, 1)] then
        let s1 := s.writeSector (40 + sector) programmed
        let s2 : State := { s1 with life := { s1.life with
          user := Tbl.set [] s1.life.user sector (if programmed then data else []) } }
        s2.complete c Status.ok noObject 0
      else s.refuseWorn c [(40 + sector, 1)]))

/-- UFLASH_READ (R350, R364): one user sector; an erased sector reads all ones. -/
def execUflashRead (c : CmdCtx) (sector : Nat) (s : State) : Out :=
  .next (s.judged c
    [(decide (sector < 16 ∧ 65536 ≤ c.resLen), Status.cmdFormat),
     (!s.life.lockdown, Status.lockdown),
     (s.hasPlatform c.who, Status.unitDenied),
     (!s.lcBusy, Status.lcBusy)]
    (fun s =>
      let d := Tbl.get [] s.life.user sector
      (s.give c (if d.isEmpty then List.replicate 65536 0xFF else d)).complete c Status.ok noObject 0))

/-- LIFECYCLE (R360 to R363): a transition is judged; one accepted completes with OK, writes INTENT and runs to the end
of step 3 of Table LC-6. -/
def execLifecycle (c : CmdCtx) (arg : List Byte) (pointOk unwrapOk : Bool) (s : State) : Out :=
  let dst := fieldAt arg 4 1
  .next (s.judged c (s.transitionChecks c arg pointOk unwrapOk) (fun s =>
    let ws := s.transitionWrites s.life.state.code dst
    match s.freeRecSlot with
    | none => s.refuseWorn c []
    | some slot =>
      if s.canWrite ws then (s.complete c Status.ok noObject 0).beginTransition slot dst (slice arg 16 128)
      else s.refuseWorn c ws))

/-- WIPE_COMPLETE (R360, R363, R364): steps 4 to 6 of Table LC-6. A transition that runs, over a takeover too (Table
LC-7, assumption 172), ends in a hub-cold reset; one that start-up found pending is committed and announced as RESUMED. -/
def execWipeComplete (s : State) : Out :=
  if s.pkg.bothDead then .next s
  else if s.life.running then .next (s.wipe.commit.hubCold Reason.lifecycle [])
  else if s.life.pending then
    let s1 := s.wipe.commit.announce 2
    .next ({ s1 with life := { s1.life with pending := false } }).loadOp
  else .next s

end Sys2Proof.Machine
end

