-- ==== Sys2Proof/Machine/Trace.lean ====
section
/-! DEFINITION. Inkwells and trace streams (chapter 09). -/

namespace Sys2Proof.Machine

/-! ### From store to part -/

/-- The payload of a store, right-aligned in its width (R249). -/
def inkPayload (st : InkStore) : Word := word (st.data.toNat % 2 ^ (8 * st.width))

/-- The SIZE code of a width (Table IT-2). -/
def sizeCode : Nat → Nat
  | 1 => 1
  | 2 => 2
  | 4 => 3
  | 8 => 4
  | _ => 0

/-- The lane of a store instruction that the tap takes: the lowest-numbered of those in the region (R249). -/
def inkLane (lanes : List InkStore) : Option InkStore :=
  (lanes.filter (fun st => decide (st.off < 512))).foldl (fun a st => match a with
    | some b => if st.lane < b.lane then some st else a
    | none => some st) none

/-- The store emits a packet: offset 0 of a slot, and a width of 1, 2, 4 or 8 bytes or an empty byte mask (R249). -/
def inkEmits (st : InkStore) : Bool :=
  decide (st.off < 512) && st.off % 16 == 0 && (st.width == 0 || sizeCode st.width != 0)

/-- The packet of a store at the tap's sampled time (R249, R251). -/
def State.storePacket (s : State) (group core : Uno) (st : InkStore) (t : Nat) : Packet :=
  { type := if st.width = 0 then .mark else .data
    t := word t
    ctx := s.ctxOf core
    uno := group
    chan := st.off / 16
    size := sizeCode st.width
    data := inkPayload st }

/-- INKWELL_STORE (R249, R251, R252, R253, R268): a store instruction of a core that executes. -/
def execInkwellStore (group : Uno) (lanes : List InkStore) (s : State) : Out :=
  let core := parentOf s.pkg.member group
  let c := s.core core
  match inkLane lanes with
  | none => .next s
  | some st =>
    if kindOf s.pkg.member group != .tg || !s.present core || s.pkg.coresHeld || s.pkg.warmHeld || c.asleep || c.run == .stopped ||
        !inkEmits st then .next s
    else
      let cl := parentOf s.pkg.member core
      let chan := st.off / 16
      if (s.inst 5 core).any then .next (s.stationDrop cl chan Loss.frozen)
      else match s.copyNow core with
        | none => .next (s.stationDrop cl chan Loss.untimed)
        | some t => .next (s.tapPush core (s.storePacket group core st t))

/-- A part takes a station's drop report: its stream takes the cluster's context, its scope meets the cluster and its
CHANNELS meet the dropped channels (R253). -/
def State.reportHits (s : State) (cl : Uno) (x : Stream) (d : Drops) : Bool :=
  (x.anyCtx || x.ctx == s.ctxOf cl) && s.overlap x.scope cl && (x.channels &&& d.chans) != 0

/-- STATION_DROP_REPORT (R253): at most once per microsecond, while the count is not zero and the post runs. -/
def execStationDropReport (cluster : Uno) (s : State) : Out :=
  let q := s.station cluster
  let p := (postOf s.pkg.member cluster).getD 0
  let due := match q.lastReport with
    | none => true
    | some t => decide (t.toNat + 1000 ≤ s.now)
  let d := s.stationDrops cluster
  if kindOf s.pkg.member cluster != .cluster || d.count = 0 || (s.server p).isNone || !due then .next s
  else
    .next (s.trace.streams.foldl (fun t e => match e.2 with
      | some x =>
        if (t.tpart p e.1).live && s.reportHits cluster x d then
          t.setTpart p e.1 ((t.tpart p e.1).lose d.count d.reasons true s.pkg.meridian)
        else t
      | none => t) (s.clearDrops cluster))

/-- FUNNEL_PACKET (R252, R255 to R259, R263, R264): station queues come in and the first packet is written into every
part that takes it. A post that does not run feeds nothing. -/
def execFunnelPacket (post : Nat) (s : State) : Out :=
  if !s.postRuns post then .next s
  else
    let s1 := s.gather post
    match s1.funnel post with
    | [] => .next s1
    | k :: r => .next ((s1.setFunnel post r).funnelWrite post k)

/-- LOSS_PACKET (R257): a part that feeds writes its LOSS packet when 1 µs has passed since the first loss. A part full
in STOP mode keeps counting. -/
def execLossPacket (post slot : Nat) (s : State) : Out :=
  let t := s.tpart post slot
  match s.stream slot, t.lossT with
  | some x, some t0 =>
    if t.state = 2 ∧ (s.server post).isSome ∧ t.lossCount ≠ 0 ∧ t0.toNat + 1000 ≤ s.now then
      .next ((s.lossPacket post slot x).getD (s.setTpart post slot { t with state := 3 }))
    else .next s
  | _, _ => .next s

/-- LINE_COMMIT (R263): the partly filled line is written and WR_OFF covers every packet placed. -/
def execLineCommit (post slot : Nat) (s : State) : Out :=
  let t := s.tpart post slot
  if t.state = 0 ∨ t.state = 5 ∨ (s.server post).isNone ∨ t.words.length * 8 ≤ t.wrOff then .next s
  else .next (s.setTpart post slot (t.commit (t.words.length * 8)))

/-- A live part at a meridian wrap: its LOSS packet where its loss counter is not zero, then the WRAP packet; its base and its
start time become 0 (R257, R258). -/
def State.wrapPart (s : State) (p slot : Nat) (x : Stream) : State :=
  if !(s.tpart p slot).live then s
  else
    let full := s.setTpart p slot { s.tpart p slot with state := 3 }
    let s1 := match (s.lossPacket p slot x).bind (fun r => r.room p slot x 2 0) with
      | some (r, _) => r.place p slot x false false (wrapWords p)
      | none => full
    let t := s1.tpart p slot
    s1.setTpart p slot { t with base := 0, startT := 0, lossT := t.lossT.map (fun _ => 0) }

/-- The packets of a queue are stamped before the wrap, and its next report is due at once. -/
def StationQ.wrapped (q : StationQ) : StationQ :=
  { q with queue := q.queue.map (fun k => { k with old := true }), lastReport := none }

/-- MERIDIAN_WRAP (R258, R268): at the last tick the master goes to 0. Every funnel first writes its input queue,
then a WRAP packet into every live part; bases become 0. -/
def execMeridianWrap (s : State) : Out :=
  if s.pkg.meridian ≠ BitVec.allOnes 64 then .next s
  else
    let s1 := s.trace.funnels.foldl (fun t e => t.flushFunnel e.1) s
    let s2 := s1.trace.streams.foldl (fun t e => match e.2 with
      | some x => (rangeFrom 0 s.pkg.member.posts).foldl (fun r p => r.wrapPart p e.1 x) t
      | none => t) s1
    .next { s2 with
      pkg := { s2.pkg with meridian := 0 }
      trace := { s2.trace with
        taps := Tbl.mapVals {} (fun _ q => q.wrapped) s2.trace.taps
        stations := Tbl.mapVals {} (fun _ q => q.wrapped) s2.trace.stations
        serial := { s2.trace.serial with startT := 0, freeT := 0 } } }

/-! ### Stream creation and end -/

/-- Every field of a stream record is legal (Table IT-5). -/
def streamLegal (r : List Byte) : Bool :=
  r.length == 32 && fieldAt r 0 4 == 0x53435254 && fieldAt r 4 2 == 1 && decide (fieldAt r 6 1 ≤ 1) &&
  decide (fieldAt r 7 1 ≤ 3) && fieldAt r 0x0B 1 == 0 && decide (fieldAt r 0x0C 2 < 4096) &&
  decide (2 ≤ fieldAt r 0x0E 2) && fieldAt r 0x10 4 != 0 && fieldAt r 0x14 8 == 0 &&
  fieldAt r 0x1C 4 == (crc32c (r.take 28)).toNat

/-- The stream that a record describes. -/
def streamOf (owner : Nat) (r : List Byte) : Stream :=
  { overwrite := fieldAt r 6 1 == 1
    anyCtx := bitAt (fieldAt r 7 1) 0
    serial := bitAt (fieldAt r 7 1) 1
    scope := fieldAt r 8 3
    ctx := fieldAt r 0x0C 2
    pages := fieldAt r 0x0E 2
    channels := BitVec.ofNat 32 (fieldAt r 0x10 4)
    owner := owner }

/-- The posts with a part of a stream: those whose halves hold a unit of its scope. -/
def State.streamPosts (s : State) (scope : Uno) : List Nat :=
  (s.postsIn scope).filter (fun p => !s.isHeld (halfUno p))

/-- STREAM_CREATE (R260, R261, R263): one part for each post concerned, started where the post is served. -/
def execStreamCreate (c : CmdCtx) (slot : Nat) (arg : List Byte) (s : State) : Out :=
  let x := streamOf c.session arg
  let ps := s.streamPosts x.scope
  .next (s.creates c ObjKind.stream slot
    [((s.stream slot).isNone && decide (slot < 512), Status.slotBusy),
     (!s.life.lockdown, Status.lockdown),
     (streamLegal arg, Status.streamFormat),
     (s.present x.scope, Status.unitAbsent),
     ((if x.ctx = 0 then s.hasPlatform c.who else decide (1 ≤ s.levelOn c.who x.ctx)) &&
        (!x.anyCtx || s.anyCtxOk c.who), Status.unitDenied),
     (s.noneGated ps, Status.postGated),
     (s.noneUnserved ps, Status.postLost),
     (s.capableRun x.scope 8 || s.capableRun x.scope 9, Status.notCapable),
     (ps.all (fun p => decide (s.partsOf p < 32)), Status.streamFull),
     (ps.all (fun p => decide (x.pages ≤ s.freePages p)), Status.traceSpace),
     (!x.serial || ps.length == 1, Status.serialScope),
     (!x.serial || (s.trace.serial.slot.isNone && s.toFunc == 2), Status.serialBusy)]
    (fun s =>
      let s1 := (s.setStream slot (some x)).newRef c.session ObjKind.stream slot
      let s2 := if x.serial then { s1 with trace := { s1.trace with serial := { s1.trace.serial with slot := some slot } } }
        else s1
      let s3 := ps.foldl (fun t p =>
        if (t.server p).isSome then t.partStart p slot x
        else (t.setTpart p slot { state := 1 }).autoStart p) s2
      ((s3.usePosts c.session ps).complete c Status.ok (objectWord ObjKind.stream slot) 0)))

/-- A write of SVP_IT_FREE (R265, R270): the selected part's oldest pages are released for a session that may read it;
for another it is an access to reserved space (R11). -/
def State.itFree (s : State) (p : Path) (post count : Nat) : State :=
  let base := postWindow post
  let slot := s.regBits RegMap.svpItSel (portKey p (base + 0x30108)) 0 9
  let who := s.actor p
  let deny := s.reservedReport { who := who, ctx := 0, log := some post, off := base + 0x30130 }
  if !s.postRuns post then s
  else match s.stream slot with
    | some x =>
      let h := s.partHalf post slot
      if s.mayStream who x then s.setTpart h slot ((s.tpart h slot).release (count % 65536)) else deny
    | none => deny

/-- SVP_IT_FREE. -/
def execSvpItFree (p : Path) (post : Nat) (count : Nat) (s : State) : Out := .next (s.onBar p (s.itFree p post count))

/-- STREAM_ENDED (R266, R393): an ended stream's pages are zeroed, its slot frees and the owner's event is written. -/
def execStreamEnded (slot : Nat) (s : State) : Out :=
  match s.stream slot with
  | none => .next s
  | some x =>
    if x.ending = 0 then .next s else .next (s.streamGone slot)

/-- SERIAL_WORD (R267): the first queued word is sent on TRIG_OUT once the serial function holds the pin and the line is
free for it. -/
def execSerialWord (s : State) : Out :=
  if s.port.func ≠ 2 ∨ s.pkg.bothDead then .next s
  else .next { s with trace := { s.trace with serial := s.trace.serial.send s.bitPeriod s.pkg.meridian } }

end Sys2Proof.Machine
end

