-- ==== Sys2Proof/Machine/Views.lean ====
section
/-! DEFINITION. What registers read (the register tables of every chapter): each register's value from the state that it
shows, in cells of two 4-byte words; a word that no register holds is reserved space (R11). -/

namespace Sys2Proof.Machine

/-! ### Cells -/

/-- The two words of eight bytes of register space; `none` is reserved space. -/
abbrev Cell := Option Nat × Option Nat

/-- An 8-byte register. -/
def cell8 (v : Nat) : Cell := (some (v % 2 ^ 32), some (v / 2 ^ 32 % 2 ^ 32))

/-- A 4-byte register beside reserved space. -/
def cell4 (v : Nat) : Cell := (some (v % 2 ^ 32), none)

/-- Two 4-byte registers. -/
def cells (a b : Nat) : Cell := (some (a % 2 ^ 32), some (b % 2 ^ 32))

/-- Eight bytes that hold no register. -/
def noCell : Cell := (none, none)

/-- A register word from fields: least significant bit and value. -/
def pack (fs : List (Nat × Nat)) : Nat := (fs.map (fun f => f.2 * 2 ^ f.1)).sum

/-- One word of a cell. -/
def Cell.half (c : Cell) (addr : Nat) : Option Nat := if addr % 8 = 0 then c.1 else c.2

/-- Eight bytes of a byte string at offset `8i` as a cell. -/
def bytesCell (bs : List Byte) (i : Nat) : Cell := cell8 (fieldAt bs (8 * i) 8)

/-- A 16-bit field of a count. -/
def low16 (n : Nat) : Nat := min n 65535

/-! ### The Legend (R60 to R62, Tables UT-5 to UT-7) -/

/-- Present clusters and cores not held in reset (Table UT-6). -/
def State.legendCounts (s : State) : Nat × Nat :=
  let cls := s.clustersIn 0
  (cls.length, (cls.map (fun c => (s.clusterCores c).length)).sum)

/-- Flags of the Legend header (Table UT-6). -/
def State.legendFlags (s : State) : Nat := bitNat s.pkg.degraded + 2 * bitNat s.pkg.activeB + 4 * bitNat s.pkg.standbyOk

/-- HBM channels mapped out at enumeration. -/
def State.hbmOut (s : State) : List Uno :=
  (s.held.filter (fun e => e.2 && kindOf s.pkg.member e.1 == .chan)).map (·.1)

/-- Posts powered and running. -/
def State.runningPosts (s : State) : List Nat := (rangeFrom 0 s.pkg.member.posts).filter s.postRuns

/-- The Legend header (Table UT-6). -/
def State.legendHeader (s : State) : List Byte :=
  let g := s.legend
  let n := s.legendCounts
  leBytes 4 (magic 'L' 'G' 'N' 'D') ++ leBytes 2 1 ++ leBytes 1 s.pkg.member.dies ++ leBytes 1 s.pkg.member.grid ++
  leBytes 4 g.gen.toNat ++ leBytes 4 s.legendFlags ++ leBytes 8 g.changeT.toNat ++ leBytes 8 g.enumT.toNat ++
  leBytes 4 n.1 ++ leBytes 4 n.2 ++ leBytes 2 s.hbmOut.length ++ leBytes 1 s.runningPosts.length

/-- Lattice channels that sets hold. -/
def State.lanesUsed (s : State) : Nat :=
  (s.sets.filter (fun e => (e.2.bind (·.lane)).isSome)).length

/-- The slot table (Table UT-5 0x0100). -/
def State.legendSlots (s : State) : List Byte :=
  let row (n used size : Nat) : List Byte := leBytes 4 n ++ leBytes 4 used ++ leBytes 4 size ++ leBytes 4 0
  row 256 (Tbl.keysSome s.auth.sessions).length 256 ++ row 64 (Tbl.keysSome s.folios.jobs).length 512 ++
  row 1024 (Tbl.keysSome s.sets).length 1024 ++ row 512 (Tbl.keysSome s.trace.streams).length 128 ++
  row 4096 (Tbl.keysSome s.groups).length 528 ++ row 4096 (Tbl.keysSome s.auth.regs).length 64 ++
  row 16 s.lanesUsed 16

/-- The versions (Table UT-7). -/
def State.legendVersions (s : State) : List Byte :=
  let g := s.legend
  leBytes 4 g.bootrom.toNat ++ leBytes 4 g.fwActive.toNat ++ leBytes 4 s.upd.fwOther.toNat ++ leBytes 4 g.slot ++
  leBytes 4 g.secver ++ leBytes 4 s.upd.rollback ++ leBytes 4 1 ++ leBytes 4 1 ++ leBytes 4 1 ++ leBytes 4 g.ucode.toNat

/-- One byte of the core bitmap: the cores of slots 8i to 8i + 7 (Table UT-5 0x2400). -/
def State.coreBits (s : State) (i : Nat) : Nat :=
  ((rangeFrom 0 8).map (fun b => bitNat (kindOf s.pkg.member (0x10000 + 8 * i + b) == .core &&
    !s.isHeld (0x10000 + 8 * i + b)) * 2 ^ b)).sum

/-- One byte of the HBM map (Table UT-5 0x0400). -/
def State.hbmBits (s : State) (i : Nat) : Nat :=
  ((rangeFrom 0 8).map (fun b => bitNat (Tbl.get false s.held (0x4000 + 8 * i + b)) * 2 ^ b)).sum

/-- One byte of the Legend; `sel` is CMP_LEGEND_SEL of the reader. -/
def State.legendByte (s : State) (sel off : Nat) : Byte :=
  let at_ (bs : List Byte) (base : Nat) : Byte := bs.getD (off - base) 0
  if off < 0x100 then at_ s.legendHeader 0
  else if off < 0x180 then at_ s.legendSlots 0x100
  else if off < 0x200 then 0
  else if off < 0x240 then at_ s.legendVersions 0x200
  else if off < 0x300 then 0
  else if off < 0x304 then at_ [44, 32, 2, 32] 0x300
  else if off < 0x400 then 0
  else if off < 0x600 then BitVec.ofNat 8 (s.hbmBits (off - 0x400))
  else if off < 0x800 then (leBytes 8 (s.reserveBytes ((off - 0x600) / 8))).getD (off % 8) 0
  else if off < 0x840 then BitVec.ofNat 8 (s.healthOf (0x100 + (off - 0x800)))
  else if off < 0x8C0 then
    BitVec.ofNat 8 (if off - 0x840 < s.pkg.member.posts then (s.post (off - 0x840)).health else 0)
  else if off = 0x8C0 then BitVec.ofNat 8 s.pkg.healthA
  else if off = 0x8C1 then BitVec.ofNat 8 s.pkg.healthB
  else if off < 0x1000 then 0
  else if off < 0x2400 then BitVec.ofNat 8 (s.healthOf (clusterUno ((off - 0x1000) / 40) ((off - 0x1000) % 40)))
  else if off < 0x6400 then BitVec.ofNat 8 (s.coreBits (off - 0x2400))
  else if off < 0xF000 then 0
  else
    let u := sel + (off - 0xF000) / 32
    if u ≤ 0xFFFFFF then (s.descriptor u).getD (off % 32) 0 else 0

/-- CMP_LEGEND_SEL of a path (R62). -/
def State.legendSel (s : State) (path : Path) : Nat :=
  s.regBits RegMap.cmpLegendSel (portKey path 0x10130) 0 24

/-- A cell of the Legend. -/
def State.legendCell (s : State) (path : Path) (base : Nat) : Cell :=
  cell8 (leNat ((rangeFrom base 8).map (s.legendByte (s.legendSel path))))

/-! ### Clamp logs (R68, R69, Tables UT-10, UT-11) -/

/-- The actor wrote the entry and has been open since, or holds FULL on its context. -/
def State.clampFull (s : State) (who : Option Nat) (e : Clamp) : Bool :=
  (!e.unbound && !e.orphan && who == some e.session) || s.levelOn who e.ctx == 2

/-- Byte string of one clamp-log entry as an actor reads it. -/
def State.clampBytes (s : State) (who : Option Nat) (e : Clamp) : List Byte :=
  let full := s.clampFull who e
  if full || s.hasPlatform who then
    leBytes 8 (if full then e.written.toNat else 0) ++ leBytes 8 (if full then e.stored.toNat else 0) ++
    leBytes 8 e.t.toNat ++ leBytes 4 e.off.toNat ++ leBytes 2 e.ctx ++ leBytes 1 e.session ++
    leBytes 1 (1 + 2 * bitNat (!full) + 4 * bitNat e.unbound)
  else List.replicate 32 0

/-- A cell of a clamp log; `off` counts from the log's start. -/
def State.clampCell (s : State) (who : Option Nat) (k off : Nat) : Cell :=
  match Tbl.get none (s.clampLog k).entries (off / 32) with
  | none => cell8 0
  | some e => bytesCell (s.clampBytes who e) (off % 32 / 8)

/-- CMP_CLAMP_STAT or SVP_CLAMP_STAT. -/
def State.clampStat (s : State) (k : Nat) : Nat :=
  let l := s.clampLog k
  ((rangeFrom 0 16).map (fun i => bitNat (Tbl.get none l.entries i).isSome * 2 ^ i)).sum + low16 l.lost * 2 ^ 16

/-! ### Start-up and identity (Tables TP-12 to TP-15, HO-11) -/

/-- CMP_BOOT. -/
def State.bootWord (s : State) : Nat :=
  let p := s.pkg
  pack [(0, p.diesHeld), (8, p.postsLost), (19, bitNat p.standbyOk), (20, bitNat p.activeB), (21, bitNat p.degraded),
        (22, bitNat p.fwRecovery), (23, bitNat s.life.lockdown), (24, p.bootStep)]

/-- CMP_POSTONn. -/
def State.postOn (s : State) (n : Nat) : Nat :=
  ((rangeFrom 0 32).map (fun b => bitNat (decide (32 * n + b < s.pkg.member.posts) && s.postRuns (32 * n + b)) * 2 ^ b)).sum

/-- CMP_AUTOWAKEn: bits of absent posts read 0. -/
def State.autoWord (s : State) (n : Nat) : Nat :=
  ((rangeFrom 0 32).map (fun b => bitNat (decide (32 * n + b < s.pkg.member.posts) && s.autoWake (32 * n + b)) * 2 ^ b)).sum

/-- CMP_ID. -/
def State.idWord (s : State) : Nat :=
  pack [(0, 1), (32, s.pkg.member.dies), (40, 1), (48, s.pkg.member.part)]

/-! ### Cartouches (R209 to R211, Tables CA-10 to CA-15) -/

/-- CMP_CA_STAT. -/
def State.caStat (s : State) (who : Option Nat) : Nat :=
  let c := s.cart
  pack [(0, c.unread), (29, bitNat (c.ring.any (·.isOpen))),
        (30, bitNat (c.lost.any (fun e => e.2 && s.seesLost who e.1))), (31, bitNat c.faultn),
        (32, low16 c.ringStorms), (48, low16 c.intakeStorms)]

/-- The entry of the ring with a SEQ. -/
def State.ringEntry (s : State) (seq : Nat) : Option RingRec := s.cart.ring.find? (fun e => e.seq.toNat == seq)

/-- The actor may read the entry (R209). -/
def State.caVisible (s : State) (who : Option Nat) (e : RingRec) : Bool :=
  s.hasPlatform who || decide (1 ≤ s.levelOn who e.r.ctx)

/-- An entry is unread: its SEQ has not been popped. -/
def State.caUnread (s : State) (seq : Nat) : Bool :=
  decide ((BitVec.ofNat 32 seq - s.cart.tail).toNat < s.cart.unread)

/-- CMP_CA_META for the SEQ selected. -/
def State.caMeta (s : State) (who : Option Nat) (seq : Nat) : Nat :=
  match s.ringEntry seq with
  | none => pack [(32, seq)]
  | some e =>
    let v := s.caVisible who e
    pack [(0, if v then e.r.ctx else 0), (28, bitNat (v && e.isOpen)), (29, bitNat v), (30, bitNat (s.caUnread seq)),
          (31, 1), (32, seq)]

/-- CMP_CA_RECi for the SEQ selected. -/
def State.caRec (s : State) (who : Option Nat) (seq i : Nat) : Nat :=
  match s.ringEntry seq with
  | none => 0
  | some e => if s.caVisible who e then (recWords e.r).getD i 0 else 0

/-- CMP_HB_STAT. PEER: 2 fenced, 1 lost, 3 heartbeat on DBG-REQ, 0 tracking. -/
def State.hbStat (s : State) : Nat :=
  let p := s.pkg
  let peerFenced := if p.activeB then p.fencedA else p.fencedB
  let peerLost := (if p.activeB then p.healthA else p.healthB) == Health.lost
  let peer := if peerFenced then 2 else if peerLost then 1 else if s.pair.onReq then 3 else 0
  let misses := if p.activeB then s.pair.missB else s.pair.missA
  pack [(0, bitNat p.activeB), (2, peer), (8, min misses 8), (16, min s.pair.linkFaults 255),
        (24, min s.pair.takeovers 255)]

/-! ### The watch (Tables SW-6, SW-9 to SW-19) -/

/-- The actor reads records of the context in full (R248). -/
def State.swFull (s : State) (who : Option Nat) (c : Ctx) : Bool :=
  decide (1 ≤ s.levelOn who c) || (c == 0 && s.hasPlatform who)

/-- CMP_SW_POL for a context and row. -/
def State.swPol (s : State) (who : Option Nat) (c r : Nat) : Nat :=
  let p := s.policy c r
  if s.swFull who c then
    pack [(0, bitNat p.set), (1, bitNat p.cycleEn), (2, bitNat p.quiescEn), (8, p.dl), (10, p.dm), (32, p.job.getD 0xFF)]
  else 0

/-- CMP_SW_DLREC; under EVICT DL_STATE, OBJECTS and PART only. -/
def State.swDlrec (s : State) (who : Option Nat) (c : Ctx) : Nat :=
  let d := s.deadlock c
  let us := d.objects.map (·.uno)
  if s.swFull who c then
    pack [(0, (us.min?).getD 0), (24, d.part), (48, min us.length 64), (60, bitNat (decide (64 < us.length))),
          (61, bitNat d.quiescent), (62, d.state)]
  else if s.evictOn who c then pack [(24, d.part), (48, min us.length 64), (62, d.state)]
  else 0

/-- CMP_SW_DLT. -/
def State.swDlt (s : State) (who : Option Nat) (c : Ctx) : Nat :=
  let d := s.deadlock c
  if (s.swFull who c || s.evictOn who c) && d.state == 2 then d.t.toNat else 0

/-- CMP_SW_DLOBJi. -/
def State.swDlobj (s : State) (who : Option Nat) (c i : Nat) : Nat :=
  if s.swFull who c && decide (i < 64) then ((((s.deadlock c).objects.map (·.uno)).mergeSort)[i]?).getD 0 else 0

/-- SVP_SW_DREC0 to SVP_SW_DREC3 of comparator i of post p's bank; under EVICT the times only. -/
def State.swDrec (s : State) (who : Option Nat) (p i n : Nat) : Nat :=
  let d := s.deadline p i
  let full := s.swFull who d.ctx
  let times := full || s.evictOn who d.ctx
  match n with
  | 0 => if full then pack [(0, d.obj % 1024), (12, d.ctx), (29, d.row), (30, d.state), (32, d.jobId.toNat)] else 0
  | 1 => if times then d.t.toNat else 0
  | 2 => if full then d.target.toNat else 0
  | _ => if times && d.state != 1 then d.doneT.toNat else 0

/-- SVP_SW_STAT. -/
def State.swStat (s : State) (p : Nat) : Nat :=
  let w := s.watcher p
  let armed := ((rangeFrom 0 64).filter (fun i => (s.deadline p i).state == 1)).length
  pack [(0, bitNat (s.watcherArmed p)), (1, bitNat (s.post p).adopting), (16, w.snaps.toNat), (32, armed),
        (48, low16 w.incomplete)]

/-! ### Trace (Tables IT-9 to IT-15) -/

/-- CMP_IT_SERIAL. -/
def State.itSerial (s : State) : Nat :=
  let q := s.trace.serial
  pack [(0, min q.queue.length 64), (16, q.slot.getD 0), (31, bitNat q.slot.isSome), (32, min q.lost 4294967295)]

/-- SVP_IT_STAT. -/
def State.itStat (s : State) (p : Nat) : Nat :=
  pack [(0, min (s.funnel p).length 256), (16, min (s.partsOf p + (if s.server (p ^^^ 1) = some p then s.partsOf (p ^^^ 1) else 0)) 63), (31, bitNat (s.post p).adopting),
        (32, s.freePages p)]

/-- SVP_IT_SEL of a path: slot and page. -/
def State.itSlot (s : State) (path : Path) (p : Nat) : Nat :=
  s.regBits RegMap.svpItSel (portKey path (postWindow p + 0x30108)) 0 9

def State.itPage (s : State) (path : Path) (p : Nat) : Nat :=
  s.regBits RegMap.svpItSel (portKey path (postWindow p + 0x30108)) 16 16

/-- The selected part, when the actor may read it (R265, R270). -/
def State.itShown (s : State) (who : Option Nat) (p slot : Nat) : Option (Stream × TPart) :=
  let t := s.tpart (s.partHalf p slot) slot
  match s.stream slot with
  | none => none
  | some x => if s.mayStream who x && t.state != 0 then some (x, t) else none

/-- SVP_IT_PART, SVP_IT_PTR, SVP_IT_PSEQ and SVP_IT_CNT. -/
def State.itPart (s : State) (who : Option Nat) (p slot n : Nat) : Nat :=
  match s.itShown who p slot with
  | none => 0
  | some (x, t) => match n with
    | 0 => pack [(0, bitNat x.anyCtx), (1, bitNat x.overwrite), (2, bitNat x.serial), (24, t.state), (32, x.ctx), (48, x.pages)]
    | 1 => pack [(0, t.unread), (16, t.rdPage x.pages), (32, t.wrOff), (48, t.wrPage)]
    | 2 => pack [(0, t.rdPseq.toNat), (32, t.wrPseq.toNat)]
    | _ => pack [(0, min t.lost 4294967295), (32, min t.packets 4294967295)]

/-- A cell of the page window. -/
def State.itWindow (s : State) (path : Path) (who : Option Nat) (p off : Nat) : Cell :=
  match s.itShown who p (s.itSlot path p) with
  | none => cell8 0
  | some (x, t) =>
    let page := s.itPage path p
    if page < x.pages then cell8 (((Tbl.get [] t.image page).getD (off / 8) 0).toNat) else cell8 0

/-! ### Folios (Tables FO-20 to FO-30) -/

/-- SVP_FO_REGION: the reserve ends at the top of the die's HBM address space (R179). -/
def State.foRegion (s : State) (p : Nat) : Nat :=
  let d := p / 2
  let units := s.regionUnits p
  pack [(0, s.reserveBase d / 65536 + p % 2 * units), (32, units)]

/-- The selected job's part that post p writes, when the actor may read it: its own, else that of the half which it has
adopted (R192, Table FO-27; assumption 168). -/
def State.foShown (s : State) (who : Option Nat) (path : Path) (p : Nat) : Option (Job × Nat × Part) :=
  let slot := s.regBits RegMap.svpFoSel (portKey path (postWindow p + 0x400)) 0 6
  match s.job slot with
  | none => none
  | some j =>
    if s.hasPlatform who || s.observes who j.ctx then
      match (j.parts.findIdx? (fun x => x.post == p)).or
          (j.parts.findIdx? (fun x => x.post == p ^^^ 1 && s.server (p ^^^ 1) == some p)) with
      | none => none
      | some k => (j.parts[k]?).map (fun x => (j, k, x))
    else none

/-- SVP_FO_PART to SVP_FO_WCB by their place in the map. -/
def State.foReg (s : State) (who : Option Nat) (path : Path) (p off : Nat) : Nat :=
  match s.foShown who path p with
  | none => 0
  | some (j, k, x) =>
    match off with
    | 0x418 => pack [(0, j.ctx), (18, bitNat x.adopted), (19, bitNat x.lead), (20, x.state), (32, j.serial.toNat)]
    | 0x420 => x.raw
    | 0x428 => j.written k
    | 0x430 => pack [(0, x.stroke), (32, x.zero)]
    | 0x438 => pack [(0, x.same), (32, x.rawCoded)]
    | 0x440 => pack [(0, low16 x.notHalted), (16, low16 x.srcEcc), (32, x.denied)]
    | _ => pack [(0, if x.state = 3 ∨ x.state = 4 then min 64 x.wcb else 0),
                 (7, bitNat j.legacy), (32, min x.demoted 4294967295)]

/-- A cell of the loss map (Table FO-23). -/
def State.lossCell (s : State) (off : Nat) : Cell :=
  match s.folios.loss[off / 16]? with
  | none => cell8 0
  | some e => if off % 16 = 0 then cells e.serial.toNat (pack [(0, e.post), (8, e.reason), (16, low16 e.lines)])
              else cells e.block 0

/-! ### Halt records (R125, Tables CH-10 to CH-20) -/

/-- SVP_HOP_RING.PENDING. -/
def State.hopPendingBits (s : State) (p : Nat) : Nat :=
  ((rangeFrom 0 16).map (fun i => bitNat (s.recPending p (Tbl.get none (s.hopRing p).recs i)) * 2 ^ i)).sum

/-- The record in the selected slot, when the actor may read it: the HOP, whether it covers the sibling's half, and
that half. -/
def State.hopShown (s : State) (who : Option Nat) (path : Path) (p : Nat) : Option (Hop × Bool × Nat) :=
  let slot := s.regBits RegMap.svpHopSel (portKey path (postWindow p + 0x108)) 0 4
  match Tbl.get none (s.hopRing p).recs slot with
  | none => none
  | some (n, adopted) => match s.hop n with
    | none => none
    | some h => if s.hasPlatform who || decide (1 ≤ s.levelOn who h.ctx) then
        some (h, adopted, if adopted then p ^^^ 1 else p) else none

/-- MODE of Table CH-12. -/
def HopMode.code : HopMode → Nat
  | .contour => 0
  | .urgent => 1
  | .lattice => 2

/-- STATUS and DONE of a half. -/
def Hop.halfStatus (h : Hop) (p : Nat) : Nat × Nat :=
  match Tbl.get none h.halves p with
  | some (st, t) => (st, t.toNat)
  | none => if h.status = 1 then (1, 0) else (h.status, h.doneT.toNat)

/-- MAX_DELTA and FIRST_LATE of a half (Table CH-17). -/
def State.hopSpread (s : State) (h : Hop) (p : Nat) : Nat :=
  let us := hopHalf s.pkg.member h p
  let ds := us.map (fun u => if [0, 2, 3, 13].contains (h.at u).code then (h.at u).delta else 0)
  let late := us.filter (fun u => codeLate (h.at u).code)
  let first := late.foldl (fun a u => match a with
    | none => some u
    | some b => if (h.at u).order < (h.at b).order then some u else some b) none
  pack [(0, min 4294967295 (ds.foldl max 0)), (32, first.getD 0)]

/-- PARKED, PORTS_STOPPED and BOUNDARY_HELD (Table CH-18). -/
def State.hopMargin (s : State) (h : Hop) (p : Nat) : Nat :=
  let m := s.pkg.member
  let ports := s.rports.filter (fun e => postOf m (e.1 / 256) == some p)
  let parked := (ports.map (fun e => e.2.margin.length)).sum
  let stopped := (ports.filter (fun e => !e.2.inPlace.isEmpty)).length
  let held := (s.bounds.filter (fun e => postOf m (e.1 / 0x10000) == some p && e.2.holding &&
    s.inScope h.scope (e.1 % 0x10000))).map (fun e => e.2.flits.length)
  pack [(0, low16 parked), (16, low16 stopped), (32, low16 held.sum)]

/-- Cores of a half with a code that passes a test. -/
def State.hopCount (s : State) (h : Hop) (p : Nat) (f : Nat → Bool) : Nat :=
  ((hopHalf s.pkg.member h p).filter (fun u => f (h.at u).code)).length

/-- SVP_HOP_CONFi: confirmed cores of clusters 2i and 2i + 1 (Table CH-19). -/
def hopConf (h : Hop) (p i : Nat) : Nat :=
  ((rangeFrom 0 32).map (fun b =>
    let u := coreUno p (2 * i + b / 16) (b % 16)
    bitNat (h.cores.contains u && codeConfirmed (h.at u).code) * 2 ^ b)).sum

/-- SVP_HOP_ID of a record, with a STATUS. -/
def Hop.idWord (h : Hop) (st : Nat) : Nat :=
  pack [(0, st), (8, if h.platform then 1 else 2), (10, h.mode.code), (12, h.kind.code), (16, h.id.toNat)]

/-- SVP_HOP_PARAM of a record. -/
def Hop.paramWord (h : Hop) : Nat := pack [(0, h.lead), (26, h.classes), (32, h.deadline), (48, h.steps)]

/-- SVP_HOP_COUNT of a half. -/
def State.hopCounts (s : State) (h : Hop) (q : Nat) : Nat :=
  pack [(0, (hopHalf s.pkg.member h q).length), (16, s.hopCount h q codeConfirmed), (32, s.hopCount h q codeLate),
        (48, s.hopCount h q (fun c => c == 5))]

/-- SVP_HOP_ID to SVP_HOP_PARAM of half q's record of a HOP, as cells. -/
def State.hopRecCell (s : State) (h : Hop) (adopted : Bool) (q off : Nat) : Cell :=
  let st := h.halfStatus q
  if off = 0x110 then cell4 (h.idWord st.1)
  else if off = 0x118 then cell8 (pack [(0, h.scope), (31, bitNat adopted), (32, h.ctx)])
  else if off = 0x120 then cell8 h.t.toNat
  else if off = 0x128 then cell8 st.2
  else if off = 0x130 then cell8 (s.hopCounts h q)
  else if off = 0x138 then cell8 (s.hopSpread h q)
  else if off = 0x140 then cell8 (s.hopMargin h q)
  else if off = 0x198 then cell8 h.paramWord
  else
    let i := (off - 0x148) / 4
    cells (hopConf h q i) (hopConf h q (i + 1))

/-- The selected record's cells. -/
def State.hopCell (s : State) (who : Option Nat) (path : Path) (p off : Nat) : Cell :=
  match s.hopShown who path p with
  | none => if off = 0x110 then cell4 0 else cell8 0
  | some (h, adopted, q) => s.hopRecCell h adopted q off

/-! ### Break and watch (R150, Tables BW-11 to BW-24) -/

/-- How an actor sees registers of a set: 2 in full, 1 SET, CTXID, EN and STATE only, 0 not at all. -/
def State.bwSees (s : State) (who : Option Nat) (owner : Option Nat) : Nat :=
  match owner with
  | none => 2
  | some slot => match s.trigSet slot with
    | none => 2
    | some x =>
      if 1 ≤ s.levelOn who x.ctx ∨ (x.ctx = 0 ∧ s.hasPlatform who = true) then 2
      else if s.hasPlatform who then 1 else 0

/-- A register value cut to what the actor sees; `mask` selects SET, CTXID, EN and STATE. -/
def bwCut (sees v mask : Nat) : Nat := if sees = 2 then v else if sees = 1 then Nat.land v mask else 0

/-- A comparator's registers from its first offset. -/
def State.cmpCell (s : State) (who : Option Nat) (key off : Nat) (iac : Bool) : Cell :=
  let c := s.cmp key
  let v := s.bwSees who c.owner
  let ctl := cell8 (bwCut v c.ctl.toNat 0xFFFFFC01)
  if off = 0 then cell8 (bwCut v c.lo.toNat 0)
  else if off = 8 then cell8 (bwCut v c.hi.toNat 0)
  else if iac then (if off = 0x10 then ctl else noCell)
  else if off = 0x10 then cell8 (bwCut v c.value.toNat 0)
  else if off = 0x18 then cell8 (bwCut v c.mask.toNat 0)
  else if off = 0x20 then ctl
  else noCell

/-- A counter's registers. -/
def State.cntCell (s : State) (who : Option Nat) (key off : Nat) : Cell :=
  let c := s.cnt key
  let v := s.bwSees who c.owner
  if off = 0 then cell4 (bwCut v c.ctl.toNat 0xFFFFFC01)
  else if off = 8 then cell8 (bwCut v c.count.toNat 0)
  else if off = 0x10 then cell8 (bwCut v c.thresh.toNat 0)
  else noCell

/-- A chain's registers. -/
def State.chainCell (s : State) (who : Option Nat) (key off : Nat) : Cell :=
  let c := s.chain key
  let v := s.bwSees who c.owner
  if off < 0x20 then cell8 (bwCut v ((c.stages.getD (off / 8) 0).toNat) 0)
  else if off = 0x20 then cell8 (bwCut v c.act.toNat 0xFFC0000000000010)
  else if off = 0x28 then
    cell8 (bwCut v (pack [(0, low16 c.suppressed), (16, c.stage), (20, c.state), (32, min c.fires 4294967295)]) 0xF00000)
  else noCell

/-- A cell of a core tap's CONFIG space (Table BW-11). BW_FMD shows to FULL alone (Table BW-8). -/
def State.tapCell (s : State) (who : Option Nat) (u : Uno) (off : Nat) : Cell :=
  if off < 0x80 then s.cmpCell who (cmpKey u (off / 0x20)) (off % 0x20) true
  else if off < 0x180 then s.cmpCell who (cmpKey u (4 + (off - 0x80) / 0x40)) ((off - 0x80) % 0x40) false
  else if off < 0x1C0 then s.cntCell who (cmpKey u ((off - 0x180) / 0x20)) ((off - 0x180) % 0x20)
  else if off < 0x220 then s.chainCell who (cmpKey u ((off - 0x1C0) / 0x30)) ((off - 0x1C0) % 0x30)
  else if off = 0x220 then cell4 (s.core u).lmask.toNat
  else if off = 0x228 then cell4 (if s.levelOn who (s.ctxOf u) = 2 then (s.core u).fmd.toNat else 0)
  else noCell

/-- A cell of a station's CONFIG space (Table BW-11). -/
def State.stationCell (s : State) (who : Option Nat) (u : Uno) (off : Nat) : Cell :=
  if off < 0x200 then s.cmpCell who (cmpKey u (8 + off / 0x40)) (off % 0x40) false
  else if off < 0x2C0 then s.chainCell who (cmpKey u ((off - 0x200) / 0x30)) ((off - 0x200) % 0x30)
  else noCell

/-- The unit at the far end of port i of a router (R420): in a cluster router the cores, and the cluster for the ports of
its DMA engines and its station; other ports as the part is wired. -/
def portTable (router i : Nat) : Nat :=
  let p := (router - 0x8000) / 128
  let c := (router - 0x8000) % 128
  if c < 40 then
    if i < 16 then coreUno p c i else if i < 18 then 0x1000 + 64 * p + c
    else if i = 18 then (Config.portFar router i).toNat else 0
  else (Config.portFar router i).toNat

/-- A cell of a router's CONFIG space: the port table of 64 entries (R420). -/
def routerCell (router off : Nat) : Cell :=
  if off < 0x100 then (some (portTable router (off / 4)), some (portTable router (off / 4 + 1))) else noCell

/-- A cell of a unit's CONFIG space: core taps, stations and routers have registers in the spec's maps. -/
def State.configCell (s : State) (who : Option Nat) (u : Uno) (off : Nat) : Cell :=
  match kindOf s.pkg.member u with
  | .core => s.tapCell who u off
  | .cluster => s.stationCell who u off
  | .cnet | .xbar => routerCell u off
  | _ => noCell

/-- Copies of a set on post p's half: keys of comparators, counters and chains. -/
def State.setCopies (s : State) (slot p : Nat) : Nat :=
  let here (k : Nat) : Bool := postOf s.pkg.member (k / 16) == some p
  (s.cmps.filter (fun e => e.2.owner == some slot && here e.1)).length +
  (s.cnts.filter (fun e => e.2.owner == some slot && here e.1)).length +
  (s.chains.filter (fun e => e.2.owner == some slot && here e.1)).length

/-- STATE of BW_SET_STAT. A one-shot set whose copies are spent shows 4 also while its HOP is not complete: Table BW-23 does
not say which of 3 and 4 goes first (DESIGN CHOICE, assumption 164). -/
def State.setStateOn (s : State) (slot p : Nat) (x : TrigSet) : Nat :=
  let cs := s.chains.filter (fun e => e.2.owner == some slot && postOf s.pkg.member (e.1 / 16) == some p)
  if s.setCopies slot p = 0 then 0
  else if x.state ≠ 2 then x.state
  else if cs.any (fun e => e.2.state == 3) then 3
  else if !cs.isEmpty && cs.all (fun e => e.2.state == 4) then 4
  else 2

/-- BW_SET_STAT, BW_SET_LAST and BW_SET_WHO of the selected set. -/
def State.bwSet (s : State) (who : Option Nat) (path : Path) (p n : Nat) : Nat :=
  let slot := s.regBits RegMap.bwSetSel (portKey path (postWindow p + 0xC300)) 0 10
  match s.trigSet slot with
  | none => 0
  | some x =>
    let v := s.bwSees who (some slot)
    let h := Tbl.get ({} : SetHalf) s.halves (slot * 128 + p)
    match n with
    | 0 => bwCut v (pack [(0, low16 (s.setCopies slot p)), (16, s.setStateOn slot p x), (20, x.ctx),
                          (32, min h.fires 4294967295)]) 0xFFFF0000
    | 1 => bwCut v h.last.toNat 0
    | _ => bwCut v h.who 0

/-- BW_RES of post p. -/
def State.bwRes (s : State) (p : Nat) : Nat :=
  let m := s.pkg.member
  let used (k : Kind) : Nat := (s.chains.filter (fun e => e.2.owner.isSome && kindOf m (e.1 / 16) == k &&
    postOf m (e.1 / 16) == some p)).length
  let scmp := (s.cmps.filter (fun e => e.2.owner.isSome && kindOf m (e.1 / 16) == .cluster &&
    postOf m (e.1 / 16) == some p)).length
  pack [(0, 160 - used .cluster), (16, 320 - scmp), (32, 16 - used .half), (40, s.placesFree p)]

/-! ### Ports and pins (Tables PT-15 to PT-20) -/

/-- The port is a scan port (ZA6400); the other members have the one-wire line. -/
def State.scanPort (s : State) : Bool := s.pkg.member == .za6400

/-- The words of the request at the head of the inbound queue: header, LEN payload words, trailer. -/
def packetLen (h : Word) : Nat := bitsOf h.toNat 16 10 + 2

/-- The words of the inbound queue after its complete packets: a partial packet, or nothing. -/
def partialOf : Nat → List Word → List Word
  | 0, ws => ws
  | n + 1, ws => match ws with
    | [] => []
    | h :: _ => if packetLen h ≤ ws.length then partialOf n (ws.drop (packetLen h)) else ws

/-- A partial packet is held (R301). -/
def Port.partialHeld (p : Port) : List Word := partialOf p.inWords.length p.inWords

/-- CMP_PT_STAT. -/
def State.ptStat (s : State) : Nat :=
  let q := s.port
  let held := ((s.session portSlot).map (fun x => x.held s.now)).getD 0
  pack [(0, min q.fails 255), (8, if s.scanPort then 0 else q.halfbit % 256), (16, 1030 - q.inWords.length), (32, held),
        (40, q.seq.toNat), (48, s.levelCode portSlot), (51, bitNat s.portLocked), (52, bitNat (!q.partialHeld.isEmpty)),
        (53, bitNat q.hunting), (54, bitNat (s.session portSlot).isSome), (55, bitNat (!s.scanPort)),
        (56, if s.scanPort then q.ir else 0)]

/-- The condition that TO_STATUS selects (R318). -/
def State.statusLevel (s : State) : Bool :=
  match s.regBits RegMap.cmpPtCfg 0x11200 32 3 with
  | 0 => s.cores.any (fun e => e.2.halted)
  | 1 => s.folios.jobs.any (fun e => match e.2 with
      | some j => j.running
      | none => false)
  | 2 => s.cart.faultn
  | 3 => s.pkg.degraded
  | 4 => (s.session portSlot).isSome
  | _ => bitAt (s.now / 1000000) 0

/-- The level of TRIG_OUT's pad: released pins rest on the pull-up, the serial output idles high (R318, R319). -/
def State.trigOutPad (s : State) : Bool :=
  let q := s.port
  let low := bitAt (s.regWord RegMap.cmpPtCfg 0x11200) 26
  if q.guardOut.on then true
  else if q.bscan then (if q.ir = 4 then true else !q.boundary.getLsbD 2 || q.boundary.getLsbD 1)
  else match q.func with
    | 1 => q.cross.isSome != low
    | 2 => s.trace.serial.level s.bitPeriod s.now
    | 3 => s.statusLevel != low
    | _ => true

/-- A source of Table CA-5 drives FAULT_N. -/
def State.faultDriven (s : State) : Bool :=
  s.pkg.bothDead || s.cart.faultn || s.life.lockdown || s.posts.any (fun e => e.2.lone)

/-- The level of the FAULT_N net: open drain, low while any driver pulls it (R212, R318, Table PT-12). -/
def State.faultNet (s : State) : Bool :=
  let q := s.port
  let own := if q.bscan then (q.ir != 4 && !q.boundary.getLsbD 5) else s.faultDriven && !q.guardFault
  !(own || q.faultExt)

/-- The boundary register as Capture-DR loads it: the pads observed, and the output cells as they stand (Table PT-9). -/
def State.boundaryCells (s : State) : Nat :=
  let b := s.port.boundary
  pack [(0, bitNat s.trigOutPad), (1, bitNat (b.getLsbD 1)), (2, bitNat (b.getLsbD 2)), (3, bitNat s.port.trigIn),
        (4, bitNat s.faultNet), (5, bitNat (b.getLsbD 5))]

/-- The data register that the scan instruction selects: its length, and what Capture-DR loads into it; for LEDGER `next` is
the word that does (Tables PT-8, PT-9). -/
def State.dataRegister (s : State) (next : Word) : Nat × Nat :=
  match s.port.ir with
  | 0 | 1 => (6, s.boundaryCells)
  | 2 => (32, 0x164005AB)
  | 0x20 => (64, next.toNat)
  | _ => (1, 0)

/-- CMP_PT_PIN. -/
def State.ptPin (s : State) : Nat :=
  let q := s.port
  pack [(0, bitNat s.faultNet), (1, bitNat q.trigIn), (2, bitNat s.trigOutPad), (4, bitNat q.bscan), (5, q.func),
        (7, bitNat (q.guardOut.on || q.guardIn || q.guardFault)), (16, q.tiCount.toNat)]

/-- CMP_PT_APR (R316). -/
def State.ptApr (s : State) : Nat :=
  let q := s.port
  pack [(0, ((q.aperture.getLast?).map (·.length)).getD 0), (13, q.aprFirst % 16), (17, min q.aperture.length 16),
        (22, bitNat (s.folios.exports.any (·.toPort))), (23, bitNat q.aprDone), (24, q.aprBase % 2 ^ 40)]

/-- A cell of the export aperture: chunk i of the ring of 16. -/
def State.aprCell (s : State) (off : Nat) : Cell :=
  let q := s.port
  let k := (off / 4096 + 16 - q.aprFirst % 16) % 16
  match q.aperture[k]? with
  | none => cell8 0
  | some c => cell8 (fieldAt c (off % 4096) 8)

/-! ### Sessions and keys (Tables AC-10 to AC-15) -/

/-- AUTH_STAT. -/
def State.authStat (s : State) : Nat :=
  pack [(0, s.auth.regGen.toNat), (32, (Tbl.keysSome s.auth.regs).length), (48, low16 s.auth.fails)]

/-- The actor reads a slot's session registers (R345). -/
def State.seesSession (s : State) (who : Option Nat) (slot : Nat) : Bool := who == some slot || s.hasPlatform who

/-- AUTH_SESS of a slot. -/
def State.authSess (s : State) (who : Option Nat) (slot : Nat) : Nat :=
  match s.session slot with
  | none => 0
  | some x =>
    if s.seesSession who slot then
      pack [(8, min x.fails 255), (16, x.held s.now), (24, s.levelCode slot), (29, bitNat (s.tokenLocked slot)),
            (30, bitNat x.isPort), (31, 1)]
    else 0

/-- Word A or B of AUTH_SESS_GRANTi: the tenant contexts that the session holds now. -/
def State.authGrant (s : State) (who : Option Nat) (slot i : Nat) (b : Bool) : Nat :=
  match s.session slot with
  | none => 0
  | some x =>
    if s.seesSession who slot then
      let gs := x.tenants.filter (fun g => decide (s.now < g.expiry.toNat ∧ 0 < g.level) || decide (0 < g.portLevel))
      match gs[i]? with
      | none => 0
      | some g =>
        if b then (if 0 < g.portLevel then 2 ^ 64 - 1 else g.expiry.toNat)
        else pack [(0, g.ctx), (12, x.tenantLevel s.now g.ctx), (32, g.seq.toNat)]
    else 0

/-- AUTH_CTX of a context. -/
def State.authCtx (s : State) (c : Ctx) : Nat :=
  match s.reg c with
  | none => 0
  | some r => pack [(0, r.regGen.toNat), (32, r.part), (62, bitNat r.sealing), (63, 1)]

/-- AUTH_CTX_KID. -/
def State.authKid (s : State) (c : Ctx) : Nat :=
  match s.reg c with
  | none => 0
  | some r => if r.sealing then r.keyId.toNat else 0

/-! ### Lifecycle and update (Tables LC-10 to LC-14, UP-12 to UP-15) -/

/-- Slots that hold a programmed bit in any copy. -/
def State.slotsUsed (s : State) : Nat := ((rangeFrom 0 48).filter (fun i => !s.recSlotFree i)).length

/-- Bit c: copy c holds no corrupt position; only dies that answer are read. -/
def State.copyBits (s : State) : Nat :=
  (s.copiesHere.map (fun c => bitNat ((rangeFrom 0 192).all (fun i => s.stepRec c i != .corrupt)) * 2 ^ c)).sum

/-- LCU_STATE. -/
def State.lcuState (s : State) : Nat :=
  let l := s.life
  if !l.decided then pack [(0, 7), (32, 0xFF)]
  else pack [(0, if l.lockdown then 7 else l.state.code), (6, bitNat s.lcBusy), (7, bitNat l.lockdown), (8, l.step),
             (16, s.testLeft), (24, s.copyBits), (32, l.slot), (40, s.slotsUsed)]

/-- KIND of a physical sector: its role by Table LC-2. -/
def sectorKind (l : Nat) : Nat :=
  if l < 3 then 0 else if l = 3 then 1 else if l = 4 then 2 else if l = 5 then 3 else if l < 8 then 4
  else if l < 24 then 5 else if l < 40 then 6 else if l < 56 then 7 else 8

/-- LCU_SECT for the selection. -/
def State.lcuSect (s : State) (sel : Nat) : Nat :=
  let p := sel % 64
  let x := s.sector (if bitAt sel 6 then 1 else 0) p
  pack [(0, min x.count 16383), (20, sectorKind p), (24, x.link), (30, bitNat x.inUse), (31, bitNat x.retired)]

/-- LCU_SPARE. -/
def State.lcuSpare (s : State) : Nat :=
  let gone (d : Nat) : Nat := ((rangeFrom 0 64).filter (fun p => (s.sector d p).retired)).length
  pack [(0, min (gone 0) 15), (4, (s.freeSpares 0).length), (8, min (gone 1) 15), (12, (s.freeSpares 1).length)]

/-- LCU_UPD_STAT. -/
def State.updStat (s : State) : Nat :=
  let u := s.upd
  pack [(0, bitNat u.trial), (1, bitNat u.reverted), (2, bitNat u.fallback), (3, bitNat s.pkg.fwRecovery),
        (4, bitNat u.owner.isSome), (5, bitNat u.confirmWait.isSome), (8, u.booted), (12, u.tries % 4), (16, u.slotA.state),
        (20, u.slotB.state), (56, u.lastStatus)]

/-! ### Queues and rings (Tables HO-13 to HO-20) -/

def State.cq (s : State) (q : Nat) : CQ := Tbl.get {} s.host.queues q

def State.setCq (s : State) (q : Nat) (v : CQ) : State :=
  { s with host := { s.host with queues := Tbl.set {} s.host.queues q v } }

/-- Entries submitted and not taken. -/
def CQ.submitted (c : CQ) : Nat := (c.prod + 64 - c.head) % 64

/-- HQ_STAT. -/
def State.hqStat (s : State) : Nat :=
  pack [(0, ((rangeFrom 0 16).map (fun q => bitNat (decide (0 < (s.cq q).submitted)) * 2 ^ q)).sum),
        (32, min s.host.inflight.length 64), (48, s.host.resets.toNat)]

/-- HQ_ER_CFG of ring r: SIZE_LOG2 and EN show what was written. -/
def State.erCfg (s : State) (r : Nat) : Nat :=
  let w := s.regWord RegMap.hqErCfg (0x22008 + 0x40 * r)
  putBits w 16 5 r

/-- HQ_ER_TAIL of ring r. -/
def State.erTail (s : State) (r : Nat) : Nat :=
  let g := s.ring r
  pack [(0, g.tail), (31, bitNat g.phase)]

/-- HQ_ER_STAT of ring r. -/
def State.erStat (s : State) (r : Nat) : Nat :=
  let g := s.ring r
  pack [(0, min g.reserved 64), (8, min g.held.length 64), (32, min g.lost 4294967295)]

/-! ### Quill engines (R72, Tables QE-9 to QE-24) -/

/-- STATE as QL_STATUS codes it. -/
def EState.code : EState → Nat
  | .resident => 0
  | .taken => 1
  | .loaded => 2
  | .running => 3
  | .waiting => 4
  | .stopped => 5
  | .faulted => 6
  | .ended => 7
  | .empty => 8
  | .restoring => 9

/-- The 64 bytes of an image header held as sixteen words (Table QE-24). -/
def hdrBytes (h : Tbl (BitVec 32)) : List Byte := (rangeFrom 0 16).flatMap (fun i => leBytes 4 (Tbl.get 0 h i).toNat)

/-- A field of the header in force: `n` bytes at byte `off` (Table QE-7). -/
def Engine.hdrField (g : Engine) (off n : Nat) : Nat := fieldAt (hdrBytes g.force) off n

def Engine.codeWords (g : Engine) : Nat := g.hdrField 0x08 4
def Engine.dataBytes (g : Engine) : Nat := g.hdrField 0x0C 4
def Engine.initBytes (g : Engine) : Nat := g.hdrField 0x10 4
def Engine.entry (g : Engine) : Nat := g.hdrField 0x14 2
def Engine.tagLimit (g : Engine) : Nat := g.hdrField 0x16 2
def Engine.depth (g : Engine) : Nat := g.hdrField 0x18 1
def Engine.ctxid (g : Engine) : Ctx := g.hdrField 0x1A 2 % 4096
def Engine.hdrBudget (g : Engine) : Nat := g.hdrField 0x1C 4
def Engine.progId (g : Engine) : Nat := g.hdrField 0x2C 4

/-- Tags held. -/
def Engine.heldTags (g : Engine) : Nat := (Tbl.keysSome g.tags).length

/-- General registers read while the engine stands still. -/
def Engine.still (g : Engine) : Bool :=
  g.state == .taken || g.state == .loaded || g.state == .stopped || g.state == .ended || g.state == .faulted

/-- QL_STATUS. -/
def Engine.statusWord (g : Engine) : Nat :=
  pack [(0, g.state.code), (8, bitNat g.stepBlocked), (16, g.stopReason), (24, g.cmdStatus)]

/-- QL_OWNER. -/
def Engine.ownerWord (g : Engine) : Nat :=
  match g.owner with
  | none => 0
  | some o => pack [(0, o % 256), (16, if g.loaded then g.ctxid else 0), (31, 1)]

/-- A cell of an engine's registers. The owner reads them all; another session reads QL_STATUS and QL_OWNER alone, and
0 elsewhere; QL_Q, QL_STACK and QL_HDR are reserved space while the engine is resident. -/
def State.qlCell (s : State) (who : Option Nat) (e off : Nat) : Cell :=
  let g := s.engine e
  let mine := g.owner.isSome && who == g.owner
  let show_ (v : Nat) : Nat := if mine then v else 0
  if off = 0 then cells 0 g.statusWord
  else if off = 0x08 then cells (show_ g.pc) (show_ (pack [(0, g.cause), (16, g.fpc)]))
  else if off = 0x10 then cell8 (show_ g.faultT.toNat)
  else if off = 0x18 then cell8 (show_ g.budget.toNat)
  else if off = 0x20 then cells (show_ (g.events.toNat % 4096)) (show_ (g.evmask.toNat % 4096))
  else if off = 0x28 then
    cells (show_ (pack [(0, g.heldTags), (16, if g.loaded then g.tagLimit else 0), (31, bitNat g.wfail)]))
      (show_ g.stack.length)
  else if off = 0x30 then cell8 (show_ g.mbox.toNat)
  else if off = 0x38 then cell4 g.ownerWord
  else if g.owner.isNone then noCell
  else if 0x40 ≤ off ∧ off < 0x80 then
    cells (show_ (g.stack.getD ((off - 0x40) / 4) 0)) (show_ (g.stack.getD ((off - 0x40) / 4 + 1) 0))
  else if 0x100 ≤ off ∧ off < 0x180 then
    cell8 (show_ (if g.still && off != 0x100 then (Tbl.get 0 g.regs ((off - 0x100) / 8)).toNat else 0))
  else if 0x200 ≤ off ∧ off < 0x240 then
    cells (show_ (Tbl.get 0 g.hdr ((off - 0x200) / 4)).toNat) (show_ (Tbl.get 0 g.hdr ((off - 0x200) / 4 + 1)).toNat)
  else noCell

/-- A cell of an engine's memory windows, program (`prog`) or data: the owner reads them, another session reads 0, and
while the engine is resident they are reserved space (R72). -/
def State.qlMemCell (s : State) (who : Option Nat) (e : Nat) (prog : Bool) (off : Nat) : Cell :=
  let g := s.engine e
  if g.owner.isNone then noCell
  else if who != g.owner then cell8 0
  else if prog then cells (Tbl.get 0 g.pmem (off / 4)).toNat (Tbl.get 0 g.pmem (off / 4 + 1)).toNat
  else cell8 (leNat (Memory.readBytes g.dmem off 8))

end Sys2Proof.Machine
end

