-- ==== Sys2Proof/Machine/HostOps.lean ====
section
/-! DEFINITION. Operations on command queues, event rings, interrupt vectors and the BAR0 binding (chapter 14). -/

namespace Sys2Proof.Machine

/-! ### Queues (R376) -/

/-- A doorbell write: the entries up to PROD are submitted; one that would submit more than 32 is ignored and sets
DB_ERR. -/
def State.doorbell (s : State) (q prod : Nat) : State :=
  let c := s.cq q
  if 32 < (prod % 64 + 64 - c.head) % 64 then s.setCq q { c with dbErr := true } else s.setCq q { c with prod := prod % 64 }

/-- DB_ERR cleared: what has not been taken is discarded. -/
def State.clearDbErr (s : State) (q : Nat) : State :=
  let c := s.cq q
  if c.dbErr then s.setCq q { c with dbErr := false, prod := c.head } else s

/-! ### Rings (R382 to R385) -/

/-- HEAD written (R383): entries up to it are consumed; held events, a LOST event and a due CARTOUCHE event follow. -/
def State.ringHead (s : State) (r head : Nat) : State :=
  let had := s.cartWaiting
  let g := s.ring r
  let g1 := { g with head := head }
  let g2 := { g1 with entries := g.entries.drop (g.entries.length - g1.used) }
  let s1 := State.drainRing r (g2.held.length + 1) (s.setRing r g2)
  if had && !s1.cartWaiting && s1.host.cartHead != s1.cart.head then s1.cartEventNow else s1

/-- EN goes from 0 to 1: BASE and SIZE_LOG2 are latched, TAIL and HEAD are 0 and PHASE is 1 (R382, Tables HO-15, HO-16). -/
def State.ringOn (s : State) (r : Nat) : State :=
  let base := s.regBits RegMap.hqErBase (0x22000 + 0x40 * r) 12 52 * 4096
  let size := s.regBits RegMap.hqErCfg (0x22008 + 0x40 * r) 0 5
  let g := { s.ring r with enabled := true, base := word base, sizeLog2 := size, tail := 0, head := 0, phase := true,
                           entries := [], unsignalled := 0 }
  State.drainRing r (g.held.length + 1) (s.setRing r g)

/-- EN goes to 0: nothing is written to the ring. -/
def State.ringOff (s : State) (r : Nat) : State := s.setRing r { s.ring r with enabled := false }

/-- LOST cleared by all-ones alone (Table HO-18). -/
def State.ringLostClear (s : State) (r : Nat) : State := s.setRing r { s.ring r with lost := 0, lostDue := false }

/-- Every ring writes what it holds, as places allow (R384, R397). -/
def State.drainRings (s : State) : State :=
  (rangeFrom 0 16).foldl (fun t r => State.drainRing r ((t.ring r).held.length + 1) t) s

/-! ### The BAR0 binding (R374) -/

/-- A session bound by its slot and check value. -/
def State.bind (s : State) (slot : Nat) (scheck : BitVec 32) : State :=
  match s.session slot with
  | some x => if !x.isPort && x.scheck == scheck then { s with host := { s.host with bound := some slot } } else s
  | none => s

def State.unbind (s : State) : State := { s with host := { s.host with bound := none } }

/-! ### Interrupts (R386) -/

/-- The mask bit of a vector's control word. -/
def State.vectorMasked (s : State) (v : Nat) : Bool :=
  bitAt (Nat.xor (Tbl.get 0 s.host.msixTable (2 * v + 1)).toNat (2 ^ 32)) 32

/-- A vector is signalled: a masked one is pending. -/
def State.signal (s : State) (v : Nat) : State :=
  if s.vectorMasked v then
    { s with host := { s.host with msixPending := s.host.msixPending ||| (1#32 <<< v) } }
  else s

/-- Ring r has what makes it signal its vector. -/
def State.signalDue (s : State) (r : Nat) : Bool :=
  let g := s.ring r
  let k := 0x22008 + 0x40 * r
  decide (0 < g.unsignalled) &&
    (decide (s.regBits RegMap.hqErCfg k 48 16 ≤ g.unsignalled) ||
     decide (g.oldestT.toNat + 1000 * s.regBits RegMap.hqErCfg k 32 16 ≤ s.now) || g.notify)

end Sys2Proof.Machine
end

