-- ==== Sys2Proof/Machine/RegRead.lean ====
section
/-! DEFINITION. Register reads: which register a BAR0 offset names, and what an access of 4 or 8 bytes returns (R11, R37,
R47, Table HO-1). -/

namespace Sys2Proof.Machine

/-! ### The Compass's own regions -/

/-- The stored word of a register with a selector of its own for the port. -/
def State.selWord (s : State) (r : RegRow) (path : Path) (off : Nat) : Nat := s.regWord r (portKey path off)

/-- The context that CMP_SW_SEL selects, and its row. -/
def State.swSel (s : State) (path : Path) : Ctx × Nat :=
  let w := s.selWord RegMap.cmpSwSel path 0x10E08
  (w % 4096, bitsOf w 12 1)

/-- CMP_FO_CFG with RESERVE_EFF. -/
def State.foCfg (s : State) : Nat := putBits (s.regWord RegMap.cmpFoCfg 0x10600) 8 8 s.folios.reserveEff

/-- CMP_IT_CFG with AREA_EFF_MB. -/
def State.itCfg (s : State) : Nat := putBits (s.regWord RegMap.cmpItCfg 0x11000) 32 9 s.trace.areaEff

/-- CMP_FO_LOSS_STAT, for sessions with platform rights (R192). -/
def State.lossStat (s : State) (who : Option Nat) : Nat :=
  if s.hasPlatform who then pack [(0, s.folios.loss.length), (16, low16 s.folios.overflow)] else 0

/-- CMP_ registers from 0x1_0000 to 0x1_0BFF: identity, start-up, the clamp log, defaults, the loss map. -/
def State.cmpCell1 (s : State) (path : Path) (who : Option Nat) (b : Nat) : Cell :=
  if b = 0x10000 then cell8 s.idWord
  else if b = 0x10100 then
    cells s.pkg.meridian.toNat (if path = .port then s.pkg.latchPort.toNat else s.pkg.latchBar.toNat)
  else if b = 0x10108 then cell4 s.bootWord
  else if b = 0x10110 then cells (s.postOn 0) (s.postOn 1)
  else if b = 0x10118 then cells (s.postOn 2) (s.postOn 3)
  else if b = 0x10120 then cell8 s.pkg.releaseT.toNat
  else if b = 0x10130 then cell4 (s.legendSel path)
  else if b = 0x10140 then cells (s.autoWord 0) (s.autoWord 1)
  else if b = 0x10148 then cells (s.autoWord 2) (s.autoWord 3)
  else if 0x10200 ≤ b ∧ b < 0x10400 then s.clampCell who 128 (b - 0x10200)
  else if b = 0x10400 then cell4 (s.clampStat 128)
  else if b = 0x10408 then cell4 0
  else if b = 0x10500 then cell8 (s.regWord RegMap.cmpChDefaults 0x10500)
  else if b = 0x10600 then cell8 s.foCfg
  else if b = 0x10608 then cells (s.lossStat who) 0
  else if 0x10640 ≤ b ∧ b < 0x10A40 then if s.hasPlatform who then s.lossCell (b - 0x10640) else cell8 0
  else noCell

/-- CMP_ registers from 0x1_0C00: cartouches, heartbeat and the watch. -/
def State.cmpCell2 (s : State) (path : Path) (who : Option Nat) (b : Nat) : Cell :=
  let seq := s.selWord RegMap.cmpCaSel path 0x10C1C
  let sw := s.swSel path
  if b = 0x10C00 then cell8 (s.regWord RegMap.cmpCaCfg 0x10C00)
  else if b = 0x10C08 then cell8 (s.caStat who)
  else if b = 0x10C10 then cells s.cart.head.toNat s.cart.tail.toNat
  else if b = 0x10C18 then cells 0 seq
  else if b = 0x10C20 then cell8 (s.caMeta who seq)
  else if 0x10C28 ≤ b ∧ b < 0x10C48 then cell8 (s.caRec who seq ((b - 0x10C28) / 8))
  else if b = 0x10C50 then cell4 s.hbStat
  else if b = 0x10C58 then cell8 s.pair.takeoverT.toNat
  else if b = 0x10E00 then cell8 (s.regWord RegMap.cmpSwCfg 0x10E00)
  else if b = 0x10E08 then cell4 (s.selWord RegMap.cmpSwSel path 0x10E08)
  else if b = 0x10E10 then cell8 (s.swPol who sw.1 sw.2)
  else if b = 0x10E18 then cell8 (s.swDlrec who sw.1)
  else if b = 0x10E20 then cell8 (s.swDlt who sw.1)
  else if 0x10E40 ≤ b ∧ b < 0x10F40 then
    cells (s.swDlobj who sw.1 ((b - 0x10E40) / 4)) (s.swDlobj who sw.1 ((b - 0x10E40) / 4 + 1))
  else if b = 0x10F40 then cell8 (pack [(0, min s.watch.joinNs 4294967295), (32, low16 s.watch.declared), (48, low16 s.watch.skipped)])
  else if b = 0x10F48 then cell8 s.watch.snapT.toNat
  else noCell

/-- CMP_ registers from 0x1_1000: trace, port and indirect window. CMP_PT_APR answers the port session alone (R321). -/
def State.cmpCell3 (s : State) (path : Path) (b : Nat) : Cell :=
  let q := s.port
  if b = 0x11000 then cell8 s.itCfg
  else if b = 0x11008 then cell8 s.itSerial
  else if b = 0x11200 then cell8 (s.regWord RegMap.cmpPtCfg 0x11200)
  else if b = 0x11208 then cell8 s.ptStat
  else if b = 0x11210 then cell8 (pack [(0, low16 q.auth), (16, low16 q.crcErr), (32, low16 q.framing), (48, low16 q.stalls)])
  else if b = 0x11218 then
    cell8 (pack [(0, low16 q.guardDrops), (16, low16 q.resets), (32, low16 q.collisions), (48, low16 q.glitches)])
  else if b = 0x11220 then cells 0 s.ptPin
  else if b = 0x11228 then if path = .port then cell8 s.ptApr else noCell
  else if b = 0x11230 then cell4 0
  else if 0x11400 ≤ b ∧ b < 0x11C00 then cell8 (s.selWord RegMap.cmpIwSel path b)
  else noCell

/-! ### Queues, MSI-X, lifecycle, keys -/

/-- A word of the MSI-X table: vector control has its mask bit set after reset. -/
def msixReset (i : Nat) : Nat := if i % 2 = 1 then 2 ^ 32 else 0

def State.msixWord (s : State) (i : Nat) : Nat := Nat.xor (Tbl.get 0 s.host.msixTable i).toNat (msixReset i)

/-- HQ_ global registers, MSI-X, event rings and queue pages (0x2_0000 to 0x3_FFFF). -/
def State.hqCell (s : State) (b : Nat) : Cell :=
  if b = 0x20000 then cell4 (s.regWord RegMap.hqCtrl 0x20000)
  else if b = 0x20008 then cell8 s.hqStat
  else if b = 0x20010 then
    cell8 (match s.host.bound with
      | some x => pack [(8, 1), (16, x)]
      | none => 0)
  else if 0x21000 ≤ b ∧ b < 0x21200 then cell8 (s.msixWord ((b - 0x21000) / 8))
  else if b = 0x21800 then cell8 s.host.msixPending.toNat
  else if 0x22000 ≤ b ∧ b < 0x22400 then
    let r := (b - 0x22000) / 0x40
    let o := (b - 0x22000) % 0x40
    if o = 0 then cell8 (s.regWord RegMap.hqErBase b)
    else if o = 8 then cell8 (s.erCfg r)
    else if o = 0x10 then cells (s.ring r).head (s.erTail r)
    else if o = 0x18 then cell8 (s.erStat r)
    else noCell
  else if 0x30000 ≤ b ∧ b < 0x40000 then
    let q := (b - 0x30000) / 0x1000
    let o := b % 0x1000
    let c := s.cq q
    if o < 0x800 then cell8 (leNat (Memory.readBytes c.mem o 8))
    else if o = 0xF00 then cells 0 c.head
    else if o = 0xF08 then cell4 (pack [(0, c.submitted), (31, bitNat c.dbErr)])
    else noCell
  else noCell

/-- LCU_ registers. -/
def State.lcuCell (s : State) (path : Path) (b : Nat) : Cell :=
  let a := s.auth
  if b = 0x40000 then cell8 s.lcuState
  else if b = 0x40008 then cell4 (s.selWord RegMap.lcuSectSel path 0x40008)
  else if b = 0x40010 then cell8 (s.lcuSect (s.selWord RegMap.lcuSectSel path 0x40008))
  else if b = 0x40018 then cell4 s.lcuSpare
  else if b = 0x40100 then cell8 a.mkKid.toNat
  else if 0x40108 ≤ b ∧ b < 0x40128 then bytesCell a.mkEph ((b - 0x40108) / 8)
  else if 0x40128 ≤ b ∧ b < 0x40150 then bytesCell a.mkWrap ((b - 0x40128) / 8)
  else if b = 0x40200 then cell8 s.updStat
  else if b = 0x40208 then cell8 (pack [(0, s.upd.received), (32, s.upd.length)])
  else if b = 0x40210 then cell8 (s.regWord RegMap.lcuUpdCfg 0x40210)
  else if b = 0x40218 then
    cell4 (match s.upd.owner with
      | some x => pack [(0, x % 256), (31, 1)]
      | none => 0)
  else noCell

/-- AUTH_ registers. -/
def State.authCell (s : State) (path : Path) (who : Option Nat) (b : Nat) : Cell :=
  let slot := s.selWord RegMap.authSessSel path 0x50010
  let c := s.selWord RegMap.authCtxSel path 0x50014
  let a := s.auth
  if b = 0x50000 then cell8 (s.regWord RegMap.authCfg 0x50000)
  else if b = 0x50008 then cell8 s.authStat
  else if b = 0x50010 then cells slot c
  else if b = 0x50018 then cell8 (s.authSess who slot)
  else if 0x50100 ≤ b ∧ b < 0x50200 then cell8 (s.authGrant who slot ((b - 0x50100) / 16) (b % 16 == 8))
  else if b = 0x50208 then cell8 (s.authCtx c)
  else if b = 0x50210 then cell8 (s.authKid c)
  else if 0x50220 ≤ b ∧ b < 0x50240 then bytesCell (((s.reg c).map (·.grantPub)).getD []) ((b - 0x50220) / 8)
  else if 0x50300 ≤ b ∧ b < 0x50320 then bytesCell a.devApub ((b - 0x50300) / 8)
  else if 0x50320 ≤ b ∧ b < 0x50340 then bytesCell a.devXpub ((b - 0x50320) / 8)
  else if b = 0x50340 then cell8 a.opKid.toNat
  else if 0x50348 ≤ b ∧ b < 0x50368 then bytesCell a.opPub ((b - 0x50348) / 8)
  else noCell

/-! ### Post windows -/

/-- SVP_LS_STAT (Table CA-18). -/
def State.lsStat (s : State) (p : Nat) : Nat :=
  let q := s.post p
  let age := match q.lastAck with | some t => (s.now - t.toNat) / 1000 | none => 0
  pack [(0, min 4294967295 age), (32, bitNat q.adopting + 2 * bitNat q.lone),
        (40, min q.loneFolios 255), (48, min q.loneLog.length 64)]

/-- Live parts in a post's region. -/
def State.regionParts (s : State) (p : Nat) : Nat :=
  (s.folios.jobs.map (fun e => match e.2 with
    | some j => (j.parts.filter (fun x => x.post == p)).length
    | none => 0)).sum

/-- A cell of a running post's window. -/
def State.postCell (s : State) (path : Path) (who : Option Nat) (p o : Nat) : Cell :=
  let w := postWindow p
  if o = 0x100 then cell8 (s.regWord RegMap.svpChDefaults (w + 0x100))
  else if o = 0x108 then
    cells (s.selWord RegMap.svpHopSel path (w + 0x108) + (s.hopRing p).newest * 2 ^ 16)
      (pack [(0, s.hopPendingBits p), (16, low16 (s.hopRing p).unrecorded)])
  else if 0x110 ≤ o ∧ o < 0x1A0 then s.hopCell who path p o
  else if o = 0x400 then cell4 (s.selWord RegMap.svpFoSel path (w + 0x400))
  else if o = 0x408 then cell8 (s.foRegion p)
  else if o = 0x410 then cell8 (pack [(0, s.regionFree p), (32, s.regionParts p)])
  else if 0x418 ≤ o ∧ o < 0x450 then cell8 (s.foReg who path p o)
  else if o = 0x500 then cell8 (s.regWord RegMap.svpLsPol0 (w + 0x500))
  else if o = 0x508 then cell4 (s.regWord RegMap.svpLsPol1 (w + 0x508))
  else if o = 0x510 then cell8 (s.lsStat p)
  else if 0x4000 ≤ o ∧ o < 0x4240 then s.qlCell who p (o - 0x4000)
  else if 0x8000 ≤ o ∧ o < 0x8200 then s.clampCell who p (o - 0x8000)
  else if o = 0x8200 then cell4 (s.clampStat p)
  else if o = 0x8208 then cell4 0
  else if 0xC000 ≤ o ∧ o < 0xC300 then s.chainCell who (cmpKey (halfUno p) ((o - 0xC000) / 0x30)) ((o - 0xC000) % 0x30)
  else if o = 0xC300 then cell4 (s.selWord RegMap.bwSetSel path (w + 0xC300))
  else if o = 0xC308 then cell8 (s.bwSet who path p 0)
  else if o = 0xC310 then cell8 (s.bwSet who path p 1)
  else if o = 0xC318 then cell4 (s.bwSet who path p 2)
  else if o = 0xC320 then cell8 (s.bwRes p)
  else if 0x10000 ≤ o ∧ o < 0x20000 then s.qlMemCell who p true (o - 0x10000)
  else if 0x20000 ≤ o ∧ o < 0x30000 then s.qlMemCell who p false (o - 0x20000)
  else if o = 0x30000 then cell8 (s.swStat p)
  else if o = 0x30008 then cell8 (s.watcher p).lastT.toNat
  else if o = 0x30010 then cell4 (s.selWord RegMap.svpSwDsel path (w + 0x30010))
  else if 0x30018 ≤ o ∧ o < 0x30038 then
    cell8 (s.swDrec who p (s.selWord RegMap.svpSwDsel path (w + 0x30010)) ((o - 0x30018) / 8))
  else if o = 0x30100 then cell8 (s.itStat p)
  else if o = 0x30108 then cell4 (s.selWord RegMap.svpItSel path (w + 0x30108))
  else if 0x30110 ≤ o ∧ o < 0x30130 then cell8 (s.itPart who p (s.itSlot path p) ((o - 0x30110) / 8))
  else if o = 0x30130 then cell4 0
  else if 0x31000 ≤ o ∧ o < 0x32000 then s.itWindow path who p (o - 0x31000)
  else noCell

/-! ### The map of BAR0 (Table HO-1) -/

/-- Eight bytes of BAR0 outside the post windows and the indirect window. -/
def State.globalCell (s : State) (path : Path) (who : Option Nat) (b : Nat) : Cell :=
  if b < 0x10000 then s.legendCell path b
  else if b < 0x10C00 then s.cmpCell1 path who b
  else if b < 0x11000 then s.cmpCell2 path who b
  else if b < 0x20000 then s.cmpCell3 path b
  else if b < 0x40000 then s.hqCell b
  else if b < 0x50000 then s.lcuCell path b
  else if b < 0x60000 then s.authCell path who b
  else if b < 0x70000 then (if b < 0x60240 then s.qlCell who 128 (b - 0x60000) else noCell)
  else if b < 0x80000 then (if path = .port then s.aprCell (b - 0x70000) else noCell)
  else if b < 0x88000 then
    (if path = .port then cell8 (leNat (Memory.readBytes s.port.staging (b - 0x80000) 8)) else noCell)
  else if 0x100000 ≤ b ∧ b < 0x110000 then s.qlMemCell who 128 true (b - 0x100000)
  else if 0x110000 ≤ b ∧ b < 0x120000 then s.qlMemCell who 128 false (b - 0x110000)
  else noCell

/-- The post whose window holds an offset. -/
def windowPost (addr : Nat) : Option Nat :=
  if 0x1000000 ≤ addr ∧ addr < 0x3000000 then some ((addr - 0x1000000) / 0x40000) else none

/-- One 4-byte word: `none` is reserved space. The window of a post that is gated, lost or restarting reads 0 (R37). -/
def State.readWord (s : State) (path : Path) (who : Option Nat) (addr : Nat) : Option Nat :=
  let b := addr / 8 * 8
  match windowPost addr with
  | some p =>
    if s.pkg.member.posts ≤ p then none
    else if s.postRuns p then (s.postCell path who p ((b - 0x1000000) % 0x40000)).half addr
    else some 0
  | none => if addr < 0x1000000 then (s.globalCell path who b).half addr else none

/-- The actor of a register access: no session judges the HQ_ region and the queue pages (R374). -/
def State.accessor (s : State) (path : Path) : Option Nat := s.actor path

/-- The log that takes clamps and reserved-space reports of an offset (R67). -/
def ownerLog (addr : Nat) : Option Nat := windowPost addr

/-- The reserved-space outcome of an access (R11). -/
def State.reservedAt (s : State) (path : Path) (addr : Nat) (ctx : Ctx) : State :=
  s.reservedReport { who := s.actor path, ctx := ctx, off := addr,
                     log := match ownerLog addr with
                       | some p => if p < s.pkg.member.posts ∧ s.postRuns p then some p else none
                       | none => none }

/-- Width in bytes. -/
def widthOf (w8 : Bool) : Nat := if w8 then 8 else 4

/-- What a read returns, or `none` for reserved space, with its effect: a 4-byte read of CMP_MERIDIAN's low word latches
the high word for the path (R47). The indirect window is apart (R375). -/
def State.readAccess (s : State) (path : Path) (addr : Nat) (w8 : Bool) : State × Option Nat :=
  let who := s.actor path
  if addr % widthOf w8 ≠ 0 then (s, none)
  else if addr = 0x10100 then
    let m := s.pkg.meridian
    if w8 then (s, some m.toNat)
    else
      let hi : BitVec 32 := m.extractLsb' 32 32
      let p := if path = .port then { s.pkg with latchPort := hi } else { s.pkg with latchBar := hi }
      ({ s with pkg := p }, some (m.toNat % 2 ^ 32))
  else if w8 then
    match s.readWord path who addr, s.readWord path who (addr + 4) with
    | some a, some b => (s, some (a + 2 ^ 32 * b))
    | _, _ => (s, none)
  else (s, s.readWord path who addr)

end Sys2Proof.Machine
end

