-- ==== Sys2Proof/Machine/TapWrite.lean ====
section
/-! DEFINITION. Unit addresses: which spaces of a unit an access reaches, under which context, and what serving it does
(R79, R80, R323, R326, R375, Tables QE-3, QE-4, AC-2). Probes and the indirect window share these. -/

namespace Sys2Proof.Machine

/-! ### Reach and access -/

/-- Bytes of a width field (Table QE-3). -/
def widthBytes (code : Nat) : Nat := 2 ^ code

/-- The unit exists and is no group, has the space and the READ or WRITE bit, and the bytes lie in the space (R80 steps 1
and 2, R375 step 1). -/
def State.unitReach (s : State) (u space off n : Nat) (write : Bool) : Bool :=
  s.exists u && !s.isHeld u && kindOf s.pkg.member u != .group &&
  (match s.spaceSize u space with
   | some size => decide (off + n ≤ size)
   | none => false) &&
  bitAt (s.capPhys false u) (if write then 5 else 4)

/-- The context of a unit address (R323): a channel's page belongs to the context that the accelerator's map gives it. -/
def State.spaceCtx (s : State) (u space off : Nat) : Ctx :=
  if kindOf s.pkg.member u = .chan ∧ space = 2 then Config.pageCtx u off s.now % 4096 else s.ctxOf u

/-- The actor holds the level of Table AC-2 on a unit address. -/
def State.mayReach (s : State) (who : Option Nat) (u space off : Nat) (write : Bool) : Bool :=
  s.mayProbe who (s.spaceCtx u space off) space write

/-! ### Serving -/

/-- The core that a STATE or MEM address reaches (Table FO-3). -/
def State.reachedCore (s : State) (u space off : Nat) : Option Uno :=
  let half0 (d : Nat) : Nat := s.stateSizePhys (halfUno (2 * d))
  let inDie (d o : Nat) : Option Uno :=
    if o < half0 d then s.coreAt (halfUno (2 * d)) o else s.coreAt (halfUno (2 * d + 1)) (o - half0 d)
  match space, kindOf s.pkg.member u with
  | 0, .die => inDie (u - 0x100) off
  | 0, .package =>
    ((rangeFrom 0 s.pkg.member.dies).foldl (fun (a : Option Uno × Nat) d =>
      let n := s.stateSizePhys (0x100 + d)
      if a.1.isNone && decide (a.2 ≤ off ∧ off < a.2 + n) then (inDie d (off - a.2), a.2 + n) else (a.1, a.2 + n))
      (none, 0)).1
  | 0, _ => s.coreAt u off
  | 2, .core => some u
  | _, _ => none

/-- Status 2 or 3 of Table QE-4 when the owning post does not serve, or the address reaches a core that runs. -/
def State.tapStatus (s : State) (u space off : Nat) : Nat :=
  let core := s.reachedCore u space off
  let served := match postOf s.pkg.member (core.getD u) with
    | some p => (s.server p).isSome
    | none => true
  let runs := match core with
    | some c => !(s.core c).halted
    | none => false
  if !served then 2 else if runs then 3 else 0

/-- A reserved-space access in the CONFIG space of a unit (R11, R66). -/
def State.configReserved (s : State) (who : Option Nat) (u off : Nat) : State :=
  s.reservedReport { who := who, ctx := s.ctxOf u, log := postOf s.pkg.member u, off := off }

/-- A CONFIG read of `n` bytes: only accesses of 4 and 8 bytes reach registers (R11). -/
def State.configRead (s : State) (who : Option Nat) (u off n : Nat) : State × Word :=
  let c := s.configCell who u (off / 8 * 8)
  let v : Option Nat := if n = 8 then (match c with
      | (some a, some b) => some (a + 2 ^ 32 * b)
      | _ => none)
    else if n = 4 then c.half off else none
  match v with
  | some x => (s, word x)
  | none => (s.configReserved who u off, 0)

/-- Non-zero bits written to reserved fields are stored as 0, logged and reported (R9, R63). -/
def State.reservedFields (s : State) (w : Writer) (fs : List (Nat × Nat)) (lo n v : Nat) : State :=
  let full := putBits 0 lo n v
  fs.foldl (fun t f =>
    let x := bitsOf full f.1 f.2
    if x = 0 then t else t.clampOne w f.1 x 0) s

/-- A CONFIG write of `n` bytes: COUNT and THRESH of a core's counters take it, where the writer may; any other write of a
break and watch register is one of reserved space (R11, R128, R150); a router's port table is RO. -/
def State.configWrite (s : State) (who : Option Nat) (u off n : Nat) (v : Word) : State :=
  let b := off / 8 * 8
  let j := (b - 0x180) / 0x20
  let c := s.configCell none u b
  let k := kindOf s.pkg.member u
  let whole := if n = 8 then c.1.isSome && c.2.isSome else n == 4 && (c.half off).isSome
  let counts := k == .core && decide (0x180 ≤ b ∧ b < 0x1C0) && (b % 0x20 == 8 || b % 0x20 == 0x10)
  if whole && counts && s.mayCount who (cmpKey u j) then
    s.cntWrite who u j (b % 0x20 == 0x10) (8 * (off % 8)) (8 * n) (v.toNat % 2 ^ (8 * n))
  else if whole && k != .core && k != .cluster then s
  else s.configReserved who u off

/-- A served read of a unit address: status and data. `ans` is what a memory of the accelerator holds there, `none` when
no answer comes. Data other than OK is 0 (R82). -/
def State.unitRead (s : State) (who : Option Nat) (u space off n : Nat) (ans : Option Word) : State × Nat × Word :=
  let st := s.tapStatus u space off
  let cut (v : Nat) : Word := word (v % 2 ^ (8 * n))
  if st ≠ 0 then (s, st, 0)
  else if space = 1 then
    let r := s.configRead who u off n
    (r.1, 0, r.2)
  else if kindOf s.pkg.member u = .obj then (s, 0, cut ((s.syncObj u).value.toNat / 2 ^ (8 * off)))
  else match ans with
    | some v => (s, 0, cut v.toNat)
    | none => (s, 1, 0)

/-- A served write of a unit address: status. A synchronisation object takes the value; a write of another memory leaves
the hub. -/
def State.unitWrite (s : State) (who : Option Nat) (u space off n : Nat) (v : Word) : State × Nat :=
  let st := s.tapStatus u space off
  if st ≠ 0 then (s, st)
  else if space = 1 then (s.configWrite who u off n v, 0)
  else if kindOf s.pkg.member u = .obj then
    (s.objWrite u (word (putBits (s.syncObj u).value.toNat (8 * off) (8 * n) v.toNat)), 0)
  else (s, 0)

end Sys2Proof.Machine
end

