-- ==== Sys2Proof/Machine/QuillOps.lean ====
section
/-! DEFINITION. The Quill engine (chapters 03 and 10): fields of an instruction word, the fetch window, faults, what
becomes of an instruction (R272, R276 to R278), probe tags and their service (R79 to R83, R283, R284, R288 to R291). -/

namespace Sys2Proof.Machine

/-! ### Fields of bits [23:0] (Table QE-2) -/

def fd (f : BitVec 24) : Nat := bitsOf f.toNat 20 4
def fa (f : BitVec 24) : Nat := bitsOf f.toNat 16 4
def fb (f : BitVec 24) : Nat := bitsOf f.toNat 12 4
def ft (f : BitVec 24) : Nat := bitsOf f.toNat 8 4
def fsp (f : BitVec 24) : Nat := bitsOf f.toNat 0 8
def flow (f : BitVec 24) : Nat := bitsOf f.toNat 0 12
def fimm (f : BitVec 24) : Nat := bitsOf f.toNat 0 16

/-- imm16, sign-extended to 64 bits. -/
def fsimm (f : BitVec 24) : Word := (BitVec.ofNat 16 (fimm f)).signExtend 64

/-- imm16 as a signed offset in words. -/
def fbranch (f : BitVec 24) : Int := (BitVec.ofNat 16 (fimm f)).toInt

/-! ### Registers and memories (R73, R78) -/

/-- Register i; q0 reads 0. -/
def Engine.q (g : Engine) (i : Nat) : Word := if i = 0 then 0 else Tbl.get 0 g.regs i

/-- Register i written; a write of q0 is discarded. -/
def Engine.setQ (g : Engine) (i : Nat) (v : Word) : Engine := if i = 0 then g else { g with regs := Tbl.set 0 g.regs i v }

/-- A program word. -/
def Engine.word (g : Engine) (w : Nat) : BitVec 32 := Tbl.get 0 g.pmem w

/-- Register i of engine e written. -/
def State.setQ (s : State) (e i : Nat) (v : Word) : State := s.setEngine e ((s.engine e).setQ i v)

/-- Bytes written to an engine's data memory. -/
def State.dmemWrite (s : State) (e x : Nat) (bs : List Byte) : State :=
  let g := s.engine e
  s.setEngine e { g with dmem := Memory.writeBytes g.dmem x bs }

/-- The meridian copy that an engine reads: its post's, or the Compass's (R279, R281). -/
def State.engineNow (s : State) (e : Nat) : Option Nat := if e = 128 then some s.now else s.copyNow (halfUno e)

/-- The count an engine's copy stands at, valid or not. -/
def State.engineCount (s : State) (e : Nat) : Nat :=
  if e = 128 then s.now else ((s.now : Int) + (s.copy (halfUno e)).skew).toNat

/-- The unit that an engine stands for: its half, or the active Compass's die. -/
def State.engineUnit (s : State) (e : Nat) : Uno := if e = 128 then s.compassDie else halfUno e

/-! ### Faults (R86, Table QE-6) -/

def Cause.undef : Nat := 1
def Cause.rsvd : Nat := 2
def Cause.field : Nat := 3
def Cause.align : Nat := 4
def Cause.pmemBound : Nat := 5
def Cause.dmemBound : Nat := 6
def Cause.unitDenied : Nat := 7
def Cause.tagExhausted : Nat := 8
def Cause.deadline : Nat := 9
def Cause.stack : Nat := 0xA
def Cause.unitAbsent : Nat := 0xB

/-- A pending program store lands (R278). -/
def Engine.land (g : Engine) : Engine :=
  match g.pst with
  | none => g
  | some (w, v) => { g with pmem := Tbl.set 0 g.pmem w v, pst := none }

/-- No instruction waits any more. -/
def Engine.unwait (g : Engine) : Engine := { g with sleepEnd := none, fendJob := none, fendDone := none }

/-- The engine faults: cause, PC and time are recorded and SEQ_FAULT is reported; folios that its program holds open end
without it (R86, R185). -/
def State.faultEngine (s : State) (e cause : Nat) : State :=
  let g := s.engine e
  let s1 := s.setEngine e { g.land.unwait with state := .faulted, cause := cause, fpc := g.pc, faultT := s.pkg.meridian }
  let detail := leBytes 1 (if e = 128 then 0x80 else e) ++ leBytes 4 g.progId ++ leBytes 2 g.pc ++ leBytes 1 cause
  (s1.report (s1.engineUnit e) Class.seqFault cause detail g.ctxid).dropEngineJobs e false

/-! ### What becomes of an instruction -/

/-- The outcome of one instruction word on the state it meets: a fault with its cause; a wait, with what the wait has
begun; completion in sequence in so many cycles; a store into program memory; SYNCP; a taken transfer; END; a reload of
the budget. -/
inductive Did where
  | fault (cause : Nat)
  | wait (s : State)
  | seq (s : State) (cycles : Nat)
  | store (w : Nat) (v : BitVec 32)
  | sync
  | jump (s : State) (target : Nat)
  | ended
  | reload (s : State) (v : Word)

/-- The checks of an instruction in the order of R272: the first that fails faults. -/
def checked (xs : List (Bool × Nat)) (d : Did) : Did :=
  match firstFail xs with
  | some c => .fault c
  | none => d

/-- The header gives a deadline (R76). -/
def Engine.timed (g : Engine) : Bool := g.hdrBudget != 0

/-- The budget cannot carry so many cycles (R76). -/
def Engine.broke (g : Engine) (cycles : Nat) : Bool := g.timed && decide (g.budget.toNat < cycles)

/-- Cycles charged against the budget, to 0 and no further. -/
def Engine.charge (g : Engine) (cycles : Nat) : Engine :=
  if g.timed then { g with budget := Machine.word (g.budget.toNat - cycles) } else g

/-- The engine goes on at the next word: the word after `pc` was fetched in the cycle that executed, before an earlier
program store lands (R278). -/
def Engine.advance (g : Engine) (old : Engine) : Engine :=
  let next := if old.state = .waiting then g.next else g.word (old.pc + 1)
  { g.land.unwait with state := .running, fetch := next, pc := old.pc + 1 }

/-- The engine goes on at a word that it fetches after earlier stores have landed. -/
def Engine.goto (g : Engine) (w : Nat) : Engine :=
  let h := g.land.unwait
  { h with state := .running, fetch := h.word w, pc := w }

/-- An engine faults in the last of so many cycles, which the budget carries as far as it goes (R76, R276). -/
def State.faultAfter (s : State) (e cycles cause : Nat) : State :=
  (s.setEngine e ((s.engine e).charge cycles)).faultEngine e cause

/-- An instruction's outcome applied (R75, R76, R272 steps 1 and 2, R276 to R278). `inSeq`: the word would continue in
sequence, so at the last word it faults before anything else. An instruction whose cycles the budget does not carry
runs it down to 0 and has no effect (R76). A wait is charged its first cycle as it begins. -/
def State.perform (s : State) (e : Nat) (inSeq : Bool) (d : Did) : State :=
  let g := s.engine e
  let last := decide (g.codeWords ≤ g.pc + 1)
  let begun : Nat := if g.state = .waiting then 1 else 0
  if g.broke 1 then s.faultEngine e Cause.deadline
  else if inSeq && last then s.faultAfter e 1 Cause.pmemBound
  else match d with
    | .fault c => s.faultAfter e (1 - begun) c
    | .wait s1 =>
      if g.state = .waiting then s
      else
        let h := s1.engine e
        s1.setEngine e { (h.charge 1).land with state := .waiting, next := h.word (g.pc + 1) }
    | .seq s1 n =>
      if last then s.faultAfter e (n - begun) Cause.pmemBound
      else if g.broke (n - begun) then s.faultAfter e n Cause.deadline
      else s1.setEngine e (((s1.engine e).charge (n - begun)).advance g)
    | .store w v => s.setEngine e { (g.charge 1).advance g with pst := some (w, v) }
    | .sync => if g.broke 2 then s.faultAfter e 2 Cause.deadline else s.setEngine e ((g.charge 2).goto (g.pc + 1))
    | .jump s1 w =>
      if g.broke 2 then s.faultAfter e 2 Cause.deadline else s1.setEngine e (((s1.engine e).charge 2).goto w)
    | .ended => s.setEngine e { (g.charge 1).land with state := .ended }
    | .reload s1 v =>
      let h := ((s1.engine e).charge 1).advance g
      s1.setEngine e { h with budget := if g.timed then v else h.budget }

/-! ### Operands -/

/-- A register that must hold a UNO (R274). -/
def unoFits (v : Word) : Bool := decide (v.toNat < 0x1000000)

/-- A taken transfer's target lies in the code (R277). -/
def Engine.inCode (g : Engine) (t : Int) : Bool := decide (0 ≤ t ∧ t < (g.codeWords : Int))

/-- Bytes [x, x + n) lie in the declared data memory (R78). -/
def Engine.inData (g : Engine) (x n : Nat) : Bool := decide (x + n ≤ g.dataBytes)

/-- The address of a local-memory instruction (R282). -/
def Engine.local_ (g : Engine) (f : BitVec 24) : Nat := (g.q (fa f) + fsimm f).toNat

/-! ### Tags (R81) -/

/-- The lowest free tag within the declared TAGS. -/
def Engine.freeTag (g : Engine) : Option Nat := firstBelow (fun i => (Tbl.get none g.tags i).isNone) g.tagLimit

/-- The operation holds its tag until a UWAIT consumes it (R283). -/
def TagOp.readType : TagOp → Bool
  | .uwrite _ | .mcast _ => false
  | _ => true

/-- The operation of a held tag. -/
def Engine.tag (g : Engine) (n : Nat) : Option Tag := Tbl.get none g.tags n

def Engine.setTag (g : Engine) (n : Nat) (t : Option Tag) : Engine := { g with tags := Tbl.set none g.tags n t }

/-- A probe: an operation that a tap serves at a unit address, in the order of R83. -/
def TagOp.isProbe : TagOp → Bool
  | .uread | .uwrite _ | .reduce _ | .mcast _ => true
  | _ => false

/-- A tagged operation issued: it takes the lowest free tag, and a read-type one writes the tag to q[d] (R81, R283). A
probe addresses its unit for the owner session (R42). -/
def State.issueTag (s : State) (e d : Nat) (t : Tag) : State :=
  let g := s.engine e
  match g.freeTag with
  | none => s
  | some n =>
    let g1 := ({ g with tagSeq := g.tagSeq + 1 }).setTag n (some { t with seq := g.tagSeq, issued := s.pkg.meridian })
    let s1 := s.setEngine e (if t.op.readType then g1.setQ d (word n) else g1)
    if t.op.isProbe then (t.unit :: t.units).foldl (fun r u => r.addresses g.owner u) s1 else s1

/-- A tagged operation after its checks: TAG_EXHAUSTED comes last (R272). -/
def State.tagged (s : State) (e : Nat) (f : BitVec 24) (checks : List (Bool × Nat)) (t : Tag) : Did :=
  checked (checks ++ [((s.engine e).freeTag.isSome, Cause.tagExhausted)]) (.seq (s.issueTag e (fd f) t) 1)

/-- Every held tag is answered: UWRITE and MCAST tags are freed, read-type ones have a response (R83). -/
def Engine.allDone (g : Engine) : Bool := g.tags.all (fun e => match e.2 with
  | some t => t.result.isSome && t.op.readType
  | none => true)

/-- Read-type tags held. -/
def Engine.readTags (g : Engine) : Nat := (g.tags.filter (fun e => match e.2 with
  | some t => t.op.readType
  | none => false)).length

/-! ### REDUCE and MCAST scopes (R290) -/

/-- The units directly below a physical unit, attached units included (R48, Table UT-1). -/
def directBelow (m : Member) (u : Uno) : List Uno :=
  match kindOf m u with
  | .package => rangeFrom 0x100 m.dies ++ [0x3000]
  | .die => rangeFrom (0x200 + 2 * (u - 0x100)) 2 ++ [0x3100 + (u - 0x100)] ++ rangeFrom (0x3200 + 2 * (u - 0x100)) 2
  | .half =>
    let p := u - 0x200
    halfClusters p ++ [0x3300 + p] ++ rangeFrom (0x8000 + 128 * p) 44 ++ rangeFrom (0x8040 + 128 * p) 32
  | .cluster => rangeFrom (0x10000 + 16 * (u - 0x1000)) 16
  | .core => rangeFrom (0x400000 + 64 * (u - 0x10000)) 64
  | .hbm => rangeFrom (0x4000 + 32 * (u - 0x3200)) 32
  | .bank => rangeFrom (0xC00000 + 1024 * (u - 0x3300)) 1024
  | _ => []

/-- A physical unit and every unit below it, through `n` levels. -/
def unitsBelow (m : Member) : Nat → Uno → List Uno
  | 0, u => [u]
  | n + 1, u => u :: (directBelow m u).flatMap (unitsBelow m n)

/-- The units of a scope. -/
def State.scopeUnits (s : State) (scope : Uno) : List Uno :=
  ((expand s 17 scope).flatMap (unitsBelow s.pkg.member 6)).eraseDups

/-- Units of a scope that have the space, the bytes and the capability bit (R290). -/
def State.netUnits (s : State) (scope space off n : Nat) (write : Bool) : List Uno :=
  (s.scopeUnits scope).filter (fun u => s.unitReach u space off n write)

/-- The order of aggregate statuses: LOST, NOT_SERVED, RUNNING, OK (R290). -/
def worseProbe (a b : Nat) : Nat :=
  let rank (x : Nat) : Nat := if x = 1 then 3 else if x = 2 then 2 else if x = 3 then 1 else 0
  if rank a < rank b then b else a

/-- The values of a REDUCE combined (Table QR-14). -/
def reduceValues (t : Nat) (vs : List Nat) : Nat :=
  match t with
  | 0 => vs.sum % 2 ^ 64
  | 1 => vs.foldl min (2 ^ 64 - 1)
  | 2 => vs.foldl max 0
  | 3 => vs.foldl Nat.lor 0
  | 4 => vs.foldl Nat.land (2 ^ 64 - 1)
  | _ => (vs.filter (fun v => v != 0)).length

/-! ### Serving a tag (R80 to R83, R283, R284, R288 to R291, R387) -/

/-- The word that an answer list gives for a unit. -/
def answerOf (as : List (Uno × Word)) (u : Uno) : Option Word := (as.find? (fun a => a.1 == u)).map (·.2)

/-- REDUCE served at every unit: the aggregate status and the values answered OK. A unit lost after issue answers LOST
(Table QE-4). -/
def State.reduceServe (who : Option Nat) (space off n : Nat) (as : List (Uno × Word)) :
    List Uno → State × Nat × List Nat → State × Nat × List Nat
  | [], r => r
  | u :: us, r =>
    let x := if r.1.present u then r.1.unitRead who u space off n (answerOf as u) else (r.1, 1, 0)
    State.reduceServe who space off n as us
      (x.1, worseProbe r.2.1 x.2.1, if x.2.1 = 0 then r.2.2 ++ [x.2.2.toNat] else r.2.2)

/-- MCAST served at every unit: the aggregate status. A unit lost after issue answers LOST (Table QE-4). -/
def State.mcastServe (who : Option Nat) (space off n : Nat) (v : Word) : List Uno → State × Nat → State × Nat
  | [], r => r
  | u :: us, r =>
    let x := if r.1.present u then r.1.unitWrite who u space off n v else (r.1, 1)
    State.mcastServe who space off n v us (x.1, worseProbe r.2 x.2)

/-- The job that a program on engine e created, in a slot (R288). -/
def State.engineJob (s : State) (e slot : Nat) : Option Job :=
  match s.job slot with
  | none => none
  | some j => if j.engine = some e then some j else none

/-- A job's mark of FSEG: its segment is to be captured now. -/
def Job.want (j : Job) (i : Nat) : Job := { j with segs := j.segs.modify i (fun g => { g with wanted := true }) }

/-- FSEG served (R161, R288): the checks at first, then OK once the segment is captured. `none`: it is still at work. -/
def State.serveFseg (s : State) (e : Nat) (t : Tag) : State × Option Nat × Bool :=
  match s.engineJob e t.unit with
  | none => (s, some Status.jobState, t.begun)
  | some j =>
    let got : Bool := ((j.segs[t.off]?).map (·.captured)).getD false
    if t.begun then
      if got then (s, some Status.ok, true) else if j.ended then (s, some Status.jobState, true) else (s, none, true)
    else if j.ended then (s, some Status.jobState, false)
    else if j.planned ≤ t.off then (s, some Status.segRange, false)
    else if got then (s, some Status.segDone, false)
    else
      match firstFail (if j.state = .created then s.startChecks j false else []) with
      | some st => (s, some st, false)
      | none =>
        let s1 := if j.state = .created then s.startJob t.unit j false false else s
        let k2 := ((s1.job t.unit).getD j).want t.off
        let k3 := (rangeFrom 0 k2.parts.length).foldl (fun a i => s1.settleSegs i (a.segs.length + 1) a) k2
        let empty : Bool := ((k3.segs[t.off]?).map (·.captured)).getD false
        (s1.setJob t.unit (some k3), if empty then some Status.ok else none, true)

/-- FBEGIN served (R158, R159, R288, R289): the engine's own post is exempt from ENGINE_BUSY; it waits for gated posts to
wake. -/
def State.serveFbegin (s : State) (e : Nat) (t : Tag) : State × Option Nat :=
  let g := s.engine e
  let owner := g.owner.getD 256
  match firstFail ((s.holdRoom owner ObjKind.job t.unit, Status.refLimit) :: s.planChecks g.owner t.unit t.arg) with
  | some st => (s, some st)
  | none =>
    let sleeping := s.planSleeping t.arg
    if !sleeping.isEmpty then (sleeping.foldl (fun r p => r.autoStart p) s, none)
    else match firstFail (s.planChecks2 t.arg (some e)) with
      | some st => (s, some st)
      | none => (((s.createJob t.unit owner (some e) t.arg).usePosts owner (s.folioPosts (parsePlan t.arg))), some Status.ok)

/-- UGROUP served (R58, R284). -/
def State.serveUgroup (s : State) (e : Nat) (t : Tag) : State × Nat :=
  let g := s.engine e
  let r := parseGroup t.arg
  let owner := g.owner.getD 256
  match firstFail ((s.holdRoom owner ObjKind.group (t.unit - 0xF00000), Status.refLimit) ::
      s.groupChecks g.owner t.unit r false) with
  | some st => (s, st)
  | none => (s.makeGroup owner t.unit r false 0, Status.ok)

/-- The UNO of child number i, all-ones beyond the last (R283). -/
def State.childWord (s : State) (u i : Nat) : Word :=
  match (s.childList u)[i]? with
  | some c => word c
  | none => BitVec.allOnes 64

/-- A tag served: the state, and its answer (status, data) once there is one. `as` holds what accelerator memories
answer; a read of one that has no answer stays unserved. -/
def State.serve (s : State) (e : Nat) (t : Tag) (as : List (Uno × Word)) : State × Option (Nat × Word) × Bool :=
  let who := (s.engine e).owner
  match t.op with
  | .uread =>
    if !s.present t.unit then (s, some (1, 0), false)
    else
      let a := answerOf as t.unit
      let local_ : Bool := t.space == 1 || kindOf s.pkg.member t.unit == .obj
      if s.tapStatus t.unit t.space t.off == 0 && !local_ && a.isNone then (s, none, false)
      else
        let r := s.unitRead who t.unit t.space t.off t.width a
        (r.1, some (r.2.1, r.2.2), false)
  | .uwrite v =>
    if !s.present t.unit then (s, some (1, 0), false)
    else
      let r := s.unitWrite who t.unit t.space t.off t.width v
      (r.1, some (r.2, 0), false)
  | .udesc _ => (s, some (0, word (fieldAt (s.descriptor t.unit) 0 8)), false)
  | .uchild n => (s, some (0, s.childWord t.unit n), false)
  | .ugroup =>
    let r := s.serveUgroup e t
    (r.1, some (0, word r.2), false)
  | .fbegin =>
    let r := s.serveFbegin e t
    (r.1, r.2.map (fun st => (0, word st)), false)
  | .fseg =>
    let r := s.serveFseg e t
    (r.1, r.2.1.map (fun st => (0, word st)), r.2.2)
  | .reduce k =>
    let r := State.reduceServe who t.space t.off t.width as t.units (s, 0, [])
    (r.1, some (r.2.1, word (reduceValues k r.2.2)), false)
  | .mcast v =>
    let r := State.mcastServe who t.space t.off t.width v t.units (s, 0)
    (r.1, some (r.2, 0), false)
  | .cart _ => (s, some (0, word (s.caMeta who t.off)), false)

/-- REDUCE or MCAST: the tag's unit is a scope (R290). -/
def TagOp.wide : TagOp → Bool
  | .reduce _ | .mcast _ => true
  | _ => false

/-- A probe goes before another of the same unit and space that was issued later (R83); a REDUCE or MCAST is ordered so with
the probes of each unit of its scope (R290). -/
def State.goesBefore (s : State) (y t : Tag) : Bool :=
  y.op.isProbe && t.op.isProbe && decide (y.seq < t.seq) && y.space == t.space &&
    (if y.op.wide || t.op.wide then s.overlap y.unit t.unit else y.unit == t.unit)

/-- An earlier probe has yet to be served (R83). -/
def State.tagBlocked (s : State) (e : Nat) (t : Tag) : Bool := (s.engine e).tags.any (fun x => match x.2 with
  | some y => y.answer.isNone && s.goesBefore y t
  | none => false)

/-- An earlier probe has yet to complete: one that holds its tag without a result (R83). -/
def State.tagAwaits (s : State) (e : Nat) (t : Tag) : Bool := (s.engine e).tags.any (fun x => match x.2 with
  | some y => y.result.isNone && s.goesBefore y t
  | none => false)

/-- What a served UDESC or CART writes to data memory, as it is served (R282, R283, R291). -/
def State.servedBytes (s : State) (e : Nat) (t : Tag) : List Byte :=
  match t.op with
  | .udesc _ => s.descriptor t.unit
  | .cart _ => (rangeFrom 0 4).flatMap (fun i => leBytes 8 (s.caRec (s.engine e).owner t.off i))
  | _ => []

/-- The bytes that an answer writes to data memory (R282, R283, R291). -/
def Tag.answerBytes (t : Tag) : Option (Nat × List Byte) :=
  match t.op with
  | .udesc x => some (x, t.bytes)
  | .cart x => some (x, t.bytes)
  | _ => none

/-- The event that a completion sets (Table QE-5). -/
def TagOp.event : TagOp → Nat
  | .reduce _ | .mcast _ => 11
  | .fseg => 2
  | _ => 0

/-- A tag completes with a status and data: a read-type slot is filled and data memory written; a write's tag is freed,
with WFAIL on a status other than OK; the event is set (R81, R82, R284, R290). -/
def State.completeTag (s : State) (e n : Nat) (t : Tag) (st : Nat) (v : Word) : State :=
  let s1 := match t.answerBytes with
    | some (x, bs) => if st = 0 then s.dmemWrite e x bs else s
    | none => s
  let g := s1.engine e
  let g1 := if t.op.readType then g.setTag n (some { t with answer := some (st, v), result := some (st, v) })
    else { g.setTag n none with wfail := g.wfail || decide (st ≠ 0) }
  (s1.setEngine e g1).engineEvent e t.op.event

end Sys2Proof.Machine
end

