-- ==== Sys2Proof/Machine/QuillDo.lean ====
section
/-! DEFINITION. What each Quill instruction does (chapter 10): for every opcode of Table QR-1, its outcome on the state it
meets, with its checks in the order of R272. -/

namespace Sys2Proof.Machine

/-! ### Control (R279, Table QR-5) -/

/-- NOP. -/
def State.doNop (s : State) (_e : Nat) (f : BitVec 24) : Did := checked [(f == 0, Cause.rsvd)] (.seq s 1)

/-- END. -/
def State.doEnd (_s : State) (_e : Nat) (f : BitVec 24) : Did := checked [(f == 0, Cause.rsvd)] .ended

/-- SYNCP. -/
def State.doSyncp (_s : State) (_e : Nat) (f : BitVec 24) : Did := checked [(f == 0, Cause.rsvd)] .sync

/-- BR. -/
def State.doBr (s : State) (e : Nat) (f : BitVec 24) : Did :=
  let g := s.engine e
  let t : Int := (g.pc : Int) + f.toInt
  checked [(g.inCode t, Cause.pmemBound)] (.jump s t.toNat)

/-- A conditional branch (BRZ, BRNZ). -/
def State.branchIf (s : State) (e : Nat) (f : BitVec 24) (taken : Bool) : Did :=
  let g := s.engine e
  let t : Int := (g.pc : Int) + fbranch f
  checked [(fd f == 0, Cause.rsvd), (!taken || g.inCode t, Cause.pmemBound)] (if taken then .jump s t.toNat else .seq s 1)

/-- BRZ. -/
def State.doBrz (s : State) (e : Nat) (f : BitVec 24) : Did := s.branchIf e f ((s.engine e).q (fa f) == 0)

/-- BRNZ. -/
def State.doBrnz (s : State) (e : Nat) (f : BitVec 24) : Did := s.branchIf e f ((s.engine e).q (fa f) != 0)

/-- CALL. -/
def State.doCall (s : State) (e : Nat) (f : BitVec 24) : Did :=
  let g := s.engine e
  let t : Int := (g.pc : Int) + f.toInt
  checked [(g.inCode t, Cause.pmemBound), (decide (g.stack.length < g.depth), Cause.stack)]
    (.jump (s.setEngine e { g with stack := g.stack ++ [g.pc + 1] }) t.toNat)

/-- RET. -/
def State.doRet (s : State) (e : Nat) (f : BitVec 24) : Did :=
  let g := s.engine e
  match g.stack.getLast? with
  | none => checked [(f == 0, Cause.rsvd)] (.fault Cause.stack)
  | some t => checked [(f == 0, Cause.rsvd), (g.inCode t, Cause.pmemBound)]
      (.jump (s.setEngine e { g with stack := g.stack.dropLast }) t)

/-- LOOP. -/
def State.doLoop (s : State) (e : Nat) (f : BitVec 24) : Did :=
  let g := s.engine e
  let v := g.q (fa f)
  let t : Int := (g.pc : Int) + fbranch f
  let taken : Bool := v != 0 && v - 1 != 0
  let s1 := if v = 0 then s else s.setQ e (fa f) (v - 1)
  checked [(fd f == 0, Cause.rsvd), (!taken || g.inCode t, Cause.pmemBound)]
    (if taken then .jump s1 t.toNat else .seq s1 1)

/-- Pending events taken: those of `r` clear and q[d] receives them. -/
def State.takeEvents (s : State) (e d : Nat) (r : BitVec 16) : State :=
  let g := s.engine e
  s.setEngine e ({ g with events := g.events &&& ~~~r }.setQ d (r.setWidth 64))

/-- WAITEV. -/
def State.doWaitev (s : State) (e : Nat) (f : BitVec 24) : Did :=
  let g := s.engine e
  let r := g.events &&& g.evmask &&& BitVec.ofNat 16 (fimm f)
  checked [(fa f == 0 && bitsOf (fimm f) 12 4 == 0, Cause.rsvd), (fimm f != 0, Cause.field)]
    (if r = 0 then .wait s else .seq (s.takeEvents e (fd f) r) 1)

/-- SLEEP: the end is fixed as it issues; the wait ends once a valid copy has reached it. -/
def State.doSleep (s : State) (e : Nat) (f : BitVec 24) : Did :=
  let g := s.engine e
  let n := (g.q (fa f)).toNat + fimm f
  let due : Nat := match g.sleepEnd with
    | some t => t.toNat
    | none => satAdd (2 ^ 64 - 1) (s.engineCount e) n
  let reached : Bool := n == 0 || (match s.engineNow e with
    | some t => decide (due ≤ t)
    | none => false)
  checked [(fd f == 0, Cause.rsvd)]
    (if reached then .seq s 1 else .wait (s.setEngine e { g with sleepEnd := some (word due) }))

/-- BUDGET. -/
def State.doBudget (s : State) (e : Nat) (f : BitVec 24) : Did :=
  let g := s.engine e
  .reload (s.setQ e (fd f) g.budget) (word (min ((g.q (fa f)).toNat + fimm f * 1024) (g.hdrBudget * 1024)))

/-- YIELD. -/
def State.doYield (s : State) (e : Nat) (f : BitVec 24) : Did :=
  let g := s.engine e
  checked [(fa f == 0 && fb f == 0 && flow f == 0, Cause.rsvd)] (.seq (s.takeEvents e (fd f) (g.events &&& g.evmask)) 1)

/-! ### Arithmetic and logic (R280, R281, Tables QR-6, QR-7) -/

/-- An A-format operation on two registers. -/
def State.binary (s : State) (e : Nat) (f : BitVec 24) (op : Word → Word → Word) : Did :=
  let g := s.engine e
  checked [(flow f == 0, Cause.rsvd)] (.seq (s.setQ e (fd f) (op (g.q (fa f)) (g.q (fb f)))) 1)

/-- An I-format operation on a register and an immediate. -/
def State.immediate (s : State) (e : Nat) (f : BitVec 24) (op : Word → Word) : Did :=
  .seq (s.setQ e (fd f) (op ((s.engine e).q (fa f)))) 1

def State.doAdd (s : State) (e : Nat) (f : BitVec 24) : Did := s.binary e f (fun a b => a + b)
def State.doSub (s : State) (e : Nat) (f : BitVec 24) : Did := s.binary e f (fun a b => a - b)
def State.doAnd (s : State) (e : Nat) (f : BitVec 24) : Did := s.binary e f (fun a b => a &&& b)
def State.doOr (s : State) (e : Nat) (f : BitVec 24) : Did := s.binary e f (fun a b => a ||| b)
def State.doXor (s : State) (e : Nat) (f : BitVec 24) : Did := s.binary e f (fun a b => a ^^^ b)
def State.doShl (s : State) (e : Nat) (f : BitVec 24) : Did := s.binary e f (fun a b => a <<< (b.toNat % 64))
def State.doShr (s : State) (e : Nat) (f : BitVec 24) : Did := s.binary e f (fun a b => a >>> (b.toNat % 64))
def State.doSar (s : State) (e : Nat) (f : BitVec 24) : Did := s.binary e f (fun a b => a.sshiftRight (b.toNat % 64))
def State.doAddi (s : State) (e : Nat) (f : BitVec 24) : Did := s.immediate e f (fun a => a + fsimm f)
def State.doAndi (s : State) (e : Nat) (f : BitVec 24) : Did := s.immediate e f (fun a => a &&& word (fimm f))
def State.doOri (s : State) (e : Nat) (f : BitVec 24) : Did := s.immediate e f (fun a => a ||| word (fimm f))

/-- LUI. -/
def State.doLui (s : State) (e : Nat) (f : BitVec 24) : Did :=
  checked [(fa f == 0, Cause.rsvd)] (.seq (s.setQ e (fd f) (word (fimm f * 65536))) 1)

def State.doCmpeq (s : State) (e : Nat) (f : BitVec 24) : Did := s.binary e f (fun a b => word (bitNat (a == b)))
def State.doCmpltu (s : State) (e : Nat) (f : BitVec 24) : Did := s.binary e f (fun a b => word (bitNat (a.ult b)))
def State.doCmplt (s : State) (e : Nat) (f : BitVec 24) : Did := s.binary e f (fun a b => word (bitNat (a.slt b)))

/-- The number of 1 bits of a word. -/
def popCount (v : Word) : Nat := ((rangeFrom 0 64).filter (fun i => v.getLsbD i)).length

/-- POPC. -/
def State.doPopc (s : State) (e : Nat) (f : BitVec 24) : Did :=
  checked [(fb f == 0 && flow f == 0, Cause.rsvd)] (.seq (s.setQ e (fd f) (word (popCount ((s.engine e).q (fa f))))) 1)

/-- CRC: the running value is q[d]. -/
def State.doCrc (s : State) (e : Nat) (f : BitVec 24) : Did :=
  let g := s.engine e
  let n := fimm f
  let r := crcUpdate ((g.q (fd f)).setWidth 32) (leBytes n (g.q (fa f)).toNat)
  checked [(n == 1 || n == 2 || n == 4 || n == 8, Cause.field)] (.seq (s.setQ e (fd f) (r.setWidth 64)) 1)

def State.doMin (s : State) (e : Nat) (f : BitVec 24) : Did := s.binary e f (fun a b => if a.ult b then a else b)
def State.doMax (s : State) (e : Nat) (f : BitVec 24) : Did := s.binary e f (fun a b => if a.ult b then b else a)

/-- MOV by its selector. -/
def State.doMov (s : State) (e : Nat) (f : BitVec 24) : Did :=
  let g := s.engine e
  let reads (v : Word) : Did := checked [(fa f == 0, Cause.rsvd)] (.seq (s.setQ e (fd f) v) 1)
  match fimm f with
  | 0 => .seq (s.setQ e (fd f) (g.q (fa f))) 1
  | 1 => reads g.mbox
  | 2 => checked [(fd f == 0, Cause.rsvd)] (.seq (s.setEngine e { g with mbox := g.q (fa f) }) 1)
  | 3 => reads (match s.engineNow e with
      | some t => word t
      | none => BitVec.allOnes 64)
  | 4 => reads g.budget
  | 5 => reads (word ((if e = 128 then 0x80 else e) * 2 ^ 24 + s.engineUnit e))
  | 6 => reads (word g.heldTags)
  | _ => .fault Cause.field

/-! ### Local memory (R282, Table QR-8) -/

/-- The checks of a data access of n bytes. -/
def Engine.dataChecks (g : Engine) (f : BitVec 24) (n : Nat) : List (Bool × Nat) :=
  [(g.local_ f % n == 0, Cause.align), (g.inData (g.local_ f) n, Cause.dmemBound)]

/-- A load of n bytes. -/
def State.loadData (s : State) (e : Nat) (f : BitVec 24) (n : Nat) : Did :=
  let g := s.engine e
  checked (g.dataChecks f n) (.seq (s.setQ e (fd f) (word (leNat (Memory.readBytes g.dmem (g.local_ f) n)))) 1)

/-- A store of n bytes. -/
def State.storeData (s : State) (e : Nat) (f : BitVec 24) (n : Nat) : Did :=
  let g := s.engine e
  checked (g.dataChecks f n) (.seq (s.dmemWrite e (g.local_ f) (leBytes n (g.q (fd f)).toNat)) 1)

def State.doLd (s : State) (e : Nat) (f : BitVec 24) : Did := s.loadData e f 8
def State.doSt (s : State) (e : Nat) (f : BitVec 24) : Did := s.storeData e f 8
def State.doLdw (s : State) (e : Nat) (f : BitVec 24) : Did := s.loadData e f 4
def State.doStw (s : State) (e : Nat) (f : BitVec 24) : Did := s.storeData e f 4

/-- The word index of PST or LDP lies in the code. -/
def Engine.progChecks (g : Engine) (f : BitVec 24) : List (Bool × Nat) :=
  [(decide (g.local_ f < g.codeWords), Cause.pmemBound)]

/-- PST. -/
def State.doPst (s : State) (e : Nat) (f : BitVec 24) : Did :=
  let g := s.engine e
  checked (g.progChecks f) (.store (g.local_ f) ((g.q (fd f)).setWidth 32))

/-- LDP: an earlier PST that has yet to land is seen (R278). -/
def State.doLdp (s : State) (e : Nat) (f : BitVec 24) : Did :=
  let g := s.engine e
  checked (g.progChecks f) (.seq (s.setQ e (fd f) ((g.land.word (g.local_ f)).setWidth 64)) 1)

/-! ### Unit probes (R79 to R83, R283, R284, Table QR-9) -/

/-- Space and width of sp. -/
def spSpace (f : BitVec 24) : Nat := bitsOf (fsp f) 4 4
def spWidth (f : BitVec 24) : Nat := widthBytes (bitsOf (fsp f) 0 4)
def spLegal (f : BitVec 24) : Bool := decide (spSpace f ≤ 2) && decide (bitsOf (fsp f) 0 4 ≤ 3)

/-- The checks of a unit address (R79, R80). -/
def State.probeChecks (s : State) (e : Nat) (f : BitVec 24) (write : Bool) : List (Bool × Nat) :=
  let g := s.engine e
  let u := g.q (fa f)
  let off := (g.q (fb f)).toNat
  [(ft f == 0, Cause.rsvd), (spLegal f, Cause.field), (off % spWidth f == 0, Cause.align),
   (unoFits u && s.unitReach u.toNat (spSpace f) off (spWidth f) write, Cause.unitAbsent),
   (s.mayReach g.owner u.toNat (spSpace f) off write, Cause.unitDenied)]

/-- A tag of a unit-address operation. -/
def Engine.unitTag (g : Engine) (f : BitVec 24) (op : TagOp) : Tag :=
  { op := op, unit := (g.q (fa f)).toNat, space := spSpace f, off := (g.q (fb f)).toNat, width := spWidth f, seq := 0 }

/-- UREAD. -/
def State.doUread (s : State) (e : Nat) (f : BitVec 24) : Did :=
  s.tagged e f (s.probeChecks e f false) ((s.engine e).unitTag f .uread)

/-- UWRITE. -/
def State.doUwrite (s : State) (e : Nat) (f : BitVec 24) : Did :=
  let g := s.engine e
  s.tagged e f (s.probeChecks e f true) (g.unitTag f (.uwrite (word ((g.q (fd f)).toNat % 2 ^ (8 * spWidth f)))))

/-- UWAIT on one tag (t = 0), or ALL (t = 1). -/
def State.doUwait (s : State) (e : Nat) (f : BitVec 24) : Did :=
  let g := s.engine e
  if ft f = 0 then
    let n := (g.q (fa f)).toNat
    let held : Option Tag := if n < g.tagLimit then (g.tag n).bind (fun t => if t.op.readType then some t else none) else none
    checked [(fsp f == 0, Cause.rsvd)]
      (match held with
       | none => .fault Cause.unitAbsent
       | some t => match t.result with
         | none => .wait s
         | some (st, v) => .seq (s.setEngine e (((g.setTag n none).setQ (fd f) v).setQ (fb f) (word st))) 1)
  else if ft f = 1 then
    checked [(fsp f == 0 && fa f == 0 && fb f == 0, Cause.rsvd)]
      (if g.allDone then .seq (s.setQ e (fd f) (word g.readTags)) 1 else .wait s)
  else .fault Cause.field

/-- A tag with plain operands. -/
def plainTag (op : TagOp) (unit off : Nat) : Tag := { op := op, unit := unit, space := 0xFF, off := off, width := 0, seq := 0 }

/-- A record of n bytes at q[b] is aligned and lies in the data memory. -/
def State.recordChecks (s : State) (e : Nat) (f : BitVec 24) (n : Nat) : List (Bool × Nat) :=
  let g := s.engine e
  let x := (g.q (fb f)).toNat
  [(ft f == 0 && fsp f == 0, Cause.rsvd), (x % 8 == 0, Cause.align), (g.inData x n, Cause.dmemBound)]

/-- UDESC. -/
def State.doUdesc (s : State) (e : Nat) (f : BitVec 24) : Did :=
  let g := s.engine e
  let u := g.q (fa f)
  s.tagged e f (s.recordChecks e f 32 ++ [(unoFits u, Cause.unitAbsent)]) (plainTag (.udesc (g.q (fb f)).toNat) u.toNat 0)

/-- UCHILD. -/
def State.doUchild (s : State) (e : Nat) (f : BitVec 24) : Did :=
  let g := s.engine e
  let u := g.q (fa f)
  s.tagged e f [(ft f == 0 && fsp f == 0, Cause.rsvd), (unoFits u, Cause.unitAbsent)]
    (plainTag (.uchild (g.q (fb f)).toNat) u.toNat 0)

/-- UGROUP: ENTRIES is read first, then the entries. -/
def State.doUgroup (s : State) (e : Nat) (f : BitVec 24) : Did :=
  let g := s.engine e
  let u := g.q (fa f)
  let x := (g.q (fb f)).toNat
  let n := groupBytes (Memory.readBytes g.dmem x 1)
  s.tagged e f (s.recordChecks e f 8 ++ [(g.inData x n, Cause.dmemBound), (unoFits u, Cause.unitAbsent)])
    { plainTag .ugroup u.toNat 0 with arg := Memory.readBytes g.dmem x n }

/-! ### Halt control (R285 to R287, Tables QR-11, QR-12) -/

/-- HALT, STEP, RESUME, FREEZE and THAW: the checks of R95, and the result word in q[d]. One that must wait for a meridian
to read waits in the engine (R97). -/
def State.doHop (s : State) (e : Nat) (f : BitVec 24) (kind : HopKind) (imm : Bool) : Did :=
  let g := s.engine e
  let u := g.q (fa f)
  let q : HopReq := { kind := kind, imm := imm, scope := u.toNat, param := (g.q (fb f)).toNat, who := g.owner, hold := none }
  let r := s.issueHop (if e = 128 then none else some e) q (.engine e)
  let w : Nat := match r.2 with
    | .error st => st * 65536
    | .ok n => ((r.1.hop n).map (fun h => h.id.toNat)).getD 0
  let used : State := match r.2, g.owner with
    | .ok _, some n => r.1.usePosts n (s.postsIn u.toNat)
    | _, _ => r.1
  let waits := s.hopWaits (if e = 128 then none else some e) kind && r.2.isOk
  checked [(fsp f == 0 && (if kind == .halt then bitsOf (ft f) 1 3 == 0 else ft f == 0), Cause.rsvd),
           (unoFits u, Cause.unitAbsent)] (if waits then .wait s else .seq (used.setQ e (fd f) (word w)) 2)

def State.doHalt (s : State) (e : Nat) (f : BitVec 24) : Did := s.doHop e f .halt (bitAt (ft f) 0)
def State.doStep (s : State) (e : Nat) (f : BitVec 24) : Did := s.doHop e f .step false
def State.doResume (s : State) (e : Nat) (f : BitVec 24) : Did := s.doHop e f .resume false
def State.doFreeze (s : State) (e : Nat) (f : BitVec 24) : Did := s.doHop e f .freeze false
def State.doThaw (s : State) (e : Nat) (f : BitVec 24) : Did := s.doHop e f .thaw false

/-- The record of a HOP ID in the ring of post p, of its own half: the one written last. -/
def State.ringRecord (s : State) (p id : Nat) : Option Hop :=
  let r := s.hopRing p
  let hit (i : Nat) : Option Hop := match Tbl.get none r.recs i with
    | some (n, false) => match s.hop n with
      | some h => if h.id.toNat = id then some h else none
      | none => none
    | _ => none
  (r.order.reverse.filterMap hit).head?

/-- The Compass's record of a HOP that 0x80 issued: the newest with the ID. -/
def State.rootRecord (s : State) (id : Nat) : Option Hop :=
  if id / 256 = 0x80 then ((s.hops.filterMap (·.2)).filter (fun h => h.id.toNat == id)).getLast? else none

/-- Four 16-bit fields summed over words, each saturating. -/
def sumFields (ws : List Nat) : Nat :=
  pack ((rangeFrom 0 4).map (fun i => (16 * i, low16 ((ws.map (fun w => bitsOf w (16 * i) 16)).sum))))

/-- A word of the Compass's record of a HOP (R287, Table QR-12). -/
def State.rootWord (s : State) (h : Hop) (i : Nat) : Nat :=
  let ps := rangeFrom 0 s.pkg.member.posts
  match i with
  | 0 => h.idWord h.status
  | 1 => pack [(0, h.scope), (32, h.ctx)]
  | 2 => h.t.toNat
  | 3 => (ps.map (fun p => (h.halfStatus p).2)).foldl max h.doneT.toNat
  | 4 => sumFields (ps.map (s.hopCounts h))
  | 5 =>
    let ws := ps.map (s.hopSpread h)
    let late := (ws.map (fun w => bitsOf w 32 24)).filter (fun u => u != 0)
    pack [(0, (ws.map (fun w => bitsOf w 0 32)).foldl max 0), (32, (late.min?).getD 0)]
  | 6 => sumFields (ps.map (s.hopMargin h))
  | 7 => h.paramWord
  | _ => 0

/-- The offset of a record word in the post window (Table QR-12). -/
def cutqOff (i : Nat) : Nat := if i < 7 then (if i = 0 then 0x110 else 0x110 + 8 * i) else if i = 7 then 0x198 else 0x148 + 8 * (i - 8)

/-- Word i of half p's record. -/
def State.halfWord (s : State) (h : Hop) (p i : Nat) : Nat :=
  match s.hopRecCell h false p (cutqOff i) with
  | (a, b) => a.getD 0 + 2 ^ 32 * b.getD 0

/-- CUTQ: with WAIT it waits while a record that the owner may read is PENDING. -/
def State.doCutq (s : State) (e : Nat) (f : BitVec 24) : Did :=
  let g := s.engine e
  let id := (g.q (fa f)).toNat
  let i := (g.q (fb f)).toNat
  let seen (h : Hop) : Bool := s.hasPlatform g.owner || decide (1 ≤ s.levelOn g.owner h.ctx)
  let h? := (if e = 128 then s.rootRecord id else s.ringRecord e id).filter seen
  let pend : Bool := match h? with
    | some h => (if e = 128 then h.status else (h.halfStatus e).1) == 1
    | none => false
  let v : Nat := match h? with
    | some h => if e = 128 then s.rootWord h i else s.halfWord h e i
    | none => 0
  checked [(fsp f == 0 && bitsOf (ft f) 1 3 == 0, Cause.rsvd), (decide (id < 65536) && decide (i ≤ 17), Cause.unitAbsent)]
    (if bitAt (ft f) 0 && pend then .wait s else .seq (s.setQ e (fd f) (word v)) 1)

/-! ### Folio (R288, R289, Table QR-13) -/

/-- A dump-job slot in q[a]. -/
def Engine.slotFits (g : Engine) (f : BitVec 24) : Bool := decide ((g.q (fa f)).toNat < 64)

/-- FBEGIN. -/
def State.doFbegin (s : State) (e : Nat) (f : BitVec 24) : Did :=
  let g := s.engine e
  let x := (g.q (fb f)).toNat
  let n := 64 + 24 * min (leNat (Memory.readBytes g.dmem (x + 8) 2)) 1024
  s.tagged e f (s.recordChecks e f 64 ++ [(g.inData x n, Cause.dmemBound), (g.slotFits f, Cause.unitAbsent)])
    { plainTag .fbegin (g.q (fa f)).toNat 0 with arg := Memory.readBytes g.dmem x n }

/-- FSEG. -/
def State.doFseg (s : State) (e : Nat) (f : BitVec 24) : Did :=
  let g := s.engine e
  s.tagged e f [(ft f == 0 && fsp f == 0, Cause.rsvd), (g.slotFits f, Cause.unitAbsent)]
    (plainTag .fseg (g.q (fa f)).toNat (g.q (fb f)).toNat)

/-- FEND completes with a status, and sets FOLIO. -/
def State.fendDid (s : State) (e d st : Nat) : Did := .seq ((s.setQ e d (word st)).engineEvent e 2) 1

/-- FEND: a job of this engine that has ended returns its outcome; else the rest of the planned segments is captured and
FEND waits for the end. -/
def State.doFend (s : State) (e : Nat) (f : BitVec 24) : Did :=
  let g := s.engine e
  let slot := (g.q (fa f)).toNat
  let d := fd f
  let waits (t : State) (j : Job) : Did :=
    let t1 := t.setJob slot (some { j with fendBegun := true })
    .wait (t1.setEngine e { t1.engine e with fendJob := some slot })
  checked [(fb f == 0 && ft f == 0 && fsp f == 0, Cause.rsvd), (g.slotFits f, Cause.unitAbsent)]
    (match g.fendDone with
     | some st => s.fendDid e d st
     | none =>
       match s.engineJob e slot with
       | none => s.fendDid e d Status.jobState
       | some j =>
         if j.ended then s.fendDid e d (if j.state = .complete then Status.ok else Status.incomplete)
         else if j.state = .created then
           match firstFail (s.startChecks j false) with
           | some st => s.fendDid e d st
           | none =>
             let t := s.startJob slot j false true
             waits t ((t.job slot).getD j)
         else waits s j)

/-- FMARK: the engine counts the marks of its job (R161, R289). -/
def State.doFmark (s : State) (e : Nat) (f : BitVec 24) : Did :=
  let g := s.engine e
  let slot := (g.q (fa f)).toNat
  let t : Time := match s.engineNow e with
    | some n => word n
    | none => BitVec.allOnes 64
  let r : State × Nat := match s.engineJob e slot with
    | none => (s, Status.jobState)
    | some j =>
      if j.ended then (s, Status.jobState)
      else if j.marksUsed < j.marksMax then
        (s.setJob slot (some { j with marks := j.marks ++ [(t, g.q (fb f))], marksUsed := j.marksUsed + 1 }), Status.ok)
      else (s, Status.marksExceeded)
  checked [(ft f == 0 && fsp f == 0, Cause.rsvd), (g.slotFits f, Cause.unitAbsent)] (.seq (r.1.setQ e (fd f) (word r.2)) 1)

/-! ### Network (R290) -/

/-- The units that a REDUCE or MCAST of engine e goes to. -/
def State.netTargets (s : State) (e : Nat) (f : BitVec 24) (write : Bool) : List Uno :=
  let g := s.engine e
  let u := g.q (fa f)
  if unoFits u then s.netUnits u.toNat (spSpace f) (g.q (fb f)).toNat (spWidth f) write else []

/-- The checks of REDUCE and MCAST: some unit qualifies, and the owner has the access on every context in the scope: that
of each unit that qualifies, and every other of the scope (R290). -/
def State.netChecks (s : State) (e : Nat) (f : BitVec 24) (write : Bool) : List (Bool × Nat) :=
  let g := s.engine e
  let u := g.q (fa f)
  let off := (g.q (fb f)).toNat
  let us := s.netTargets e f write

  [(spLegal f, Cause.field), (off % spWidth f == 0, Cause.align), (!us.isEmpty, Cause.unitAbsent),
   (us.all (fun x => s.mayReach g.owner x (spSpace f) off write) &&
      (s.ctxsIn u.toNat).all (fun c => s.mayProbe g.owner c (spSpace f) write), Cause.unitDenied)]

/-- REDUCE. -/
def State.doReduce (s : State) (e : Nat) (f : BitVec 24) : Did :=
  s.tagged e f ((decide (ft f ≤ 5), Cause.field) :: s.netChecks e f false)
    { (s.engine e).unitTag f (.reduce (ft f)) with units := s.netTargets e f false }

/-- MCAST. -/
def State.doMcast (s : State) (e : Nat) (f : BitVec 24) : Did :=
  let g := s.engine e
  s.tagged e f ((ft f == 0, Cause.rsvd) :: s.netChecks e f true)
    { g.unitTag f (.mcast (word ((g.q (fd f)).toNat % 2 ^ (8 * spWidth f)))) with units := s.netTargets e f true }

/-! ### Reports (R250, R291, Table QR-15) -/

/-- INK: an ENGINE packet of the engine's unit. -/
def State.doInk (s : State) (e : Nat) (f : BitVec 24) : Did :=
  let g := s.engine e
  let size := bitsOf (fimm f) 8 3
  let bytes := if size = 0 then 0 else 2 ^ (size - 1)
  let k : Packet := { type := .engine, t := 0, ctx := g.ctxid, uno := s.engineUnit e, chan := bitsOf (fimm f) 0 5, size := size,
                      data := word ((g.q (fd f)).toNat % 2 ^ (8 * bytes)) }
  let p := if e = 128 then 2 * (s.compassDie - 0x100) else e
  let stamp : Uno := if e = 128 then 0 else halfUno e
  checked [(fa f == 0 && bitsOf (fimm f) 5 3 == 0 && bitsOf (fimm f) 11 5 == 0, Cause.rsvd), (decide (size ≤ 4), Cause.field)]
    (.seq (s.ownPacket p stamp k) 1)

/-- CART. -/
def State.doCart (s : State) (e : Nat) (f : BitVec 24) : Did :=
  let g := s.engine e
  let n := (g.q (fa f)).toNat
  s.tagged e f (s.recordChecks e f 32 ++ [(decide (n < 2 ^ 32), Cause.unitAbsent)])
    (plainTag (.cart (g.q (fb f)).toNat) 0 n)

/-- RAISE events of an engine that its owner's ring has not yet taken. -/
def State.raisesHeld (s : State) (owner : Nat) (o : BitVec 32) : Nat :=
  match s.session owner with
  | none => 0
  | some x =>
    if x.isPort then (s.port.events.filter (fun ws => (ws.headD 0).toNat % 128 == EventType.raise &&
      (ws.headD 0).toNat / 2 ^ 32 == o.toNat)).length
    else ((s.ring x.ring).held.filter (fun v => v.type == EventType.raise && v.object == o)).length

/-- The owner's ring can take or hold one more event. -/
def State.ringRoom (s : State) (owner : Nat) : Bool :=
  match s.session owner with
  | none => false
  | some x => x.isPort || decide ((s.ring x.ring).held.length < 64) ||
      (s.ringOpen (s.ring x.ring) && decide ((s.ring x.ring).reserved < (s.ring x.ring).free))

/-- RAISE. -/
def State.doRaise (s : State) (e : Nat) (f : BitVec 24) : Did :=
  let g := s.engine e
  let owner := g.owner.getD 256
  let o := objectWord ObjKind.engine (if e = 128 then 0x80 else e)
  let ok := !s.pkg.bothDead && decide (s.raisesHeld owner o < 16) && s.ringRoom owner
  let s1 := if ok then s.emit owner (s.event EventType.raise Status.ok owner 0xFF o (g.q (fa f)) (word (fimm f))) else s
  .seq (s1.setQ e (fd f) (word (if ok then Status.ok else Status.raiseFull))) 1

/-! ### Synchronisation watch (R230, R292) -/

/-- The halves whose watchers a post engine serves: its own, and its sibling's while it adopts. -/
def State.watchHalves (s : State) (e : Nat) : List Nat := if (s.post e).adopting then [e, e ^^^ 1] else [e]

/-- WSNAP: an unscheduled snapshot at the engine's meridian + 160 ns, unless one is under way. -/
def State.doWsnap (s : State) (e : Nat) (f : BitVec 24) : Did :=
  let w := s.watcher e
  let t := word (s.engineCount e + 160)
  let r : State × Time := match w.sampling, w.unsched with
    | some x, _ => (s, x)
    | none, some x => (s, x)
    | none, none => ((s.watchHalves e).foldl (fun r p => r.setWatcher p { r.watcher p with unsched := some t }) s, t)
  checked [(fa f == 0 && fb f == 0 && flow f == 0, Cause.rsvd), (e != 128, Cause.unitAbsent)]
    (.seq (r.1.setQ e (fd f) r.2) 1)

/-- SNAP of a half's last complete snapshot, 0 when it has none (Table SW-2). -/
def Watcher.snapWord (w : Watcher) : Nat :=
  match w.snapT with
  | some t => t.toNat / 1000 % 2 ^ 32
  | none => 0

/-- The 16 bytes of the entry of object index i, counted from half e's bank on, as the owner sees it (Table SW-2). -/
def State.scanEntry (s : State) (e : Nat) (who : Option Nat) (i : Nat) : List Byte :=
  let p := if i < 1024 then e else e ^^^ 1
  let o := objUno p (i % 1024)
  let w := s.watcher p
  let none_ := leBytes 3 o ++ List.replicate 9 0
  match w.snapT with
  | none => none_ ++ leBytes 4 0
  | some _ =>
    let x : SnapEntry := (w.entries.find? (fun y => y.uno == o)).getD ⟨o, 0, 0, 0, (s.syncObj o).ctx, []⟩
    (if s.levelOn who x.ctx = 2 then
      leBytes 3 o ++ leBytes 1 x.flags ++ leBytes 2 x.waiters ++ leBytes 1 x.producers ++ leBytes 1 0 ++ leBytes 2 x.ctx ++
        leBytes 2 0
     else none_) ++ leBytes 4 w.snapWord

/-- WSCAN: 1 + n cycles. -/
def State.doWscan (s : State) (e : Nat) (f : BitVec 24) : Did :=
  let g := s.engine e
  let n := (g.q (fd f)).toNat
  let first := (g.q (fa f)).toNat
  let x := (g.q (fb f)).toNat
  let top := 1024 * (s.watchHalves e).length
  let fits : Bool := e != 128 && decide (first + n ≤ top)
  let bytes := if fits then (rangeFrom first n).flatMap (s.scanEntry e g.owner) else []
  checked (s.recordChecks e f (16 * n) ++ [(fits, Cause.unitAbsent)])
    (.seq ((s.dmemWrite e x bytes).setQ e (fd f) (word (s.watcher e).snapWord)) (1 + n))

/-! ### The opcode map (R271, Table QR-1) -/

/-- The defined opcodes. -/
def opDefined (op : Nat) : Bool :=
  decide (op ≤ 0x0C) || decide (0x20 ≤ op ∧ op ≤ 0x33) || decide (0x40 ≤ op ∧ op ≤ 0x45) || decide (0x50 ≤ op ∧ op ≤ 0x55) ||
  decide (0x70 ≤ op ∧ op ≤ 0x75) || decide (0x80 ≤ op ∧ op ≤ 0x83) || decide (0x90 ≤ op ∧ op ≤ 0x91) ||
  decide (0xA0 ≤ op ∧ op ≤ 0xA2) || decide (0xB0 ≤ op ∧ op ≤ 0xB1)

/-- A word of this opcode would continue in sequence once it starts (R277): not END, not a taken transfer, not a waiting
instruction, not an undefined word. -/
def Engine.inSequence (g : Engine) (op : Nat) (f : BitVec 24) : Bool :=
  let v := g.q (fa f)
  match op with
  | 0x01 | 0x03 | 0x06 | 0x07 | 0x09 | 0x0A | 0x52 | 0x82 => false
  | 0x04 => v != 0
  | 0x05 => v == 0
  | 0x08 => v == 0 || v == 1
  | 0x75 => !bitAt (ft f) 0
  | _ => opDefined op

/-- The outcome of an instruction word. -/
def State.doWord (s : State) (e op : Nat) (f : BitVec 24) : Did :=
  match op with
  | 0x00 => s.doNop e f
  | 0x01 => s.doEnd e f
  | 0x02 => s.doSyncp e f
  | 0x03 => s.doBr e f
  | 0x04 => s.doBrz e f
  | 0x05 => s.doBrnz e f
  | 0x06 => s.doCall e f
  | 0x07 => s.doRet e f
  | 0x08 => s.doLoop e f
  | 0x09 => s.doWaitev e f
  | 0x0A => s.doSleep e f
  | 0x0B => s.doBudget e f
  | 0x0C => s.doYield e f
  | 0x20 => s.doAdd e f
  | 0x21 => s.doSub e f
  | 0x22 => s.doAnd e f
  | 0x23 => s.doOr e f
  | 0x24 => s.doXor e f
  | 0x25 => s.doShl e f
  | 0x26 => s.doShr e f
  | 0x27 => s.doSar e f
  | 0x28 => s.doAddi e f
  | 0x29 => s.doAndi e f
  | 0x2A => s.doOri e f
  | 0x2B => s.doLui e f
  | 0x2C => s.doCmpeq e f
  | 0x2D => s.doCmpltu e f
  | 0x2E => s.doCmplt e f
  | 0x2F => s.doPopc e f
  | 0x30 => s.doCrc e f
  | 0x31 => s.doMin e f
  | 0x32 => s.doMax e f
  | 0x33 => s.doMov e f
  | 0x40 => s.doLd e f
  | 0x41 => s.doSt e f
  | 0x42 => s.doLdw e f
  | 0x43 => s.doStw e f
  | 0x44 => s.doPst e f
  | 0x45 => s.doLdp e f
  | 0x50 => s.doUread e f
  | 0x51 => s.doUwrite e f
  | 0x52 => s.doUwait e f
  | 0x53 => s.doUdesc e f
  | 0x54 => s.doUchild e f
  | 0x55 => s.doUgroup e f
  | 0x70 => s.doHalt e f
  | 0x71 => s.doStep e f
  | 0x72 => s.doResume e f
  | 0x73 => s.doFreeze e f
  | 0x74 => s.doThaw e f
  | 0x75 => s.doCutq e f
  | 0x80 => s.doFbegin e f
  | 0x81 => s.doFseg e f
  | 0x82 => s.doFend e f
  | 0x83 => s.doFmark e f
  | 0x90 => s.doReduce e f
  | 0x91 => s.doMcast e f
  | 0xA0 => s.doInk e f
  | 0xA1 => s.doCart e f
  | 0xA2 => s.doRaise e f
  | 0xB0 => s.doWsnap e f
  | 0xB1 => s.doWscan e f
  | _ => .fault Cause.undef

/-- A 32-bit word of an opcode and bits [23:0]. -/
def wordOf (op : Nat) (f : BitVec 24) : BitVec 32 := BitVec.ofNat 32 (op * 2 ^ 24 + f.toNat)

/-- An instruction of a running engine executes when its word is the one that the engine has fetched (R75): `d` is its
outcome. -/
def State.executeQ (s : State) (e op : Nat) (f : BitVec 24) (d : Did) : State :=
  let g := s.engine e
  if g.state == .running && g.fetch == wordOf op f then s.perform e (g.inSequence op f) d else s

end Sys2Proof.Machine
end

