-- ==== Sys2Proof/Machine/Quill.lean ====
section
/-! DEFINITION. The Quill commands that engines execute: one meaning per instruction word (chapter 10), the probe events
(R81 to R83, R387), the end of a wait (R84) and of the budget (R76). -/

namespace Sys2Proof.Machine

/-! ### Instructions: the word that engine `e` has fetched executes (R75, R272) -/

def execQNop (e : Nat) (f : BitVec 24) (s : State) : Out := .next (s.executeQ e 0x00 f (s.doNop e f))
def execQEnd (e : Nat) (f : BitVec 24) (s : State) : Out := .next (s.executeQ e 0x01 f (s.doEnd e f))
def execQSyncp (e : Nat) (f : BitVec 24) (s : State) : Out := .next (s.executeQ e 0x02 f (s.doSyncp e f))
def execQBr (e : Nat) (f : BitVec 24) (s : State) : Out := .next (s.executeQ e 0x03 f (s.doBr e f))
def execQBrz (e : Nat) (f : BitVec 24) (s : State) : Out := .next (s.executeQ e 0x04 f (s.doBrz e f))
def execQBrnz (e : Nat) (f : BitVec 24) (s : State) : Out := .next (s.executeQ e 0x05 f (s.doBrnz e f))
def execQCall (e : Nat) (f : BitVec 24) (s : State) : Out := .next (s.executeQ e 0x06 f (s.doCall e f))
def execQRet (e : Nat) (f : BitVec 24) (s : State) : Out := .next (s.executeQ e 0x07 f (s.doRet e f))
def execQLoop (e : Nat) (f : BitVec 24) (s : State) : Out := .next (s.executeQ e 0x08 f (s.doLoop e f))
def execQWaitev (e : Nat) (f : BitVec 24) (s : State) : Out := .next (s.executeQ e 0x09 f (s.doWaitev e f))
def execQSleep (e : Nat) (f : BitVec 24) (s : State) : Out := .next (s.executeQ e 0x0A f (s.doSleep e f))
def execQBudget (e : Nat) (f : BitVec 24) (s : State) : Out := .next (s.executeQ e 0x0B f (s.doBudget e f))
def execQYield (e : Nat) (f : BitVec 24) (s : State) : Out := .next (s.executeQ e 0x0C f (s.doYield e f))
def execQAdd (e : Nat) (f : BitVec 24) (s : State) : Out := .next (s.executeQ e 0x20 f (s.doAdd e f))
def execQSub (e : Nat) (f : BitVec 24) (s : State) : Out := .next (s.executeQ e 0x21 f (s.doSub e f))
def execQAnd (e : Nat) (f : BitVec 24) (s : State) : Out := .next (s.executeQ e 0x22 f (s.doAnd e f))
def execQOr (e : Nat) (f : BitVec 24) (s : State) : Out := .next (s.executeQ e 0x23 f (s.doOr e f))
def execQXor (e : Nat) (f : BitVec 24) (s : State) : Out := .next (s.executeQ e 0x24 f (s.doXor e f))
def execQShl (e : Nat) (f : BitVec 24) (s : State) : Out := .next (s.executeQ e 0x25 f (s.doShl e f))
def execQShr (e : Nat) (f : BitVec 24) (s : State) : Out := .next (s.executeQ e 0x26 f (s.doShr e f))
def execQSar (e : Nat) (f : BitVec 24) (s : State) : Out := .next (s.executeQ e 0x27 f (s.doSar e f))
def execQAddi (e : Nat) (f : BitVec 24) (s : State) : Out := .next (s.executeQ e 0x28 f (s.doAddi e f))
def execQAndi (e : Nat) (f : BitVec 24) (s : State) : Out := .next (s.executeQ e 0x29 f (s.doAndi e f))
def execQOri (e : Nat) (f : BitVec 24) (s : State) : Out := .next (s.executeQ e 0x2A f (s.doOri e f))
def execQLui (e : Nat) (f : BitVec 24) (s : State) : Out := .next (s.executeQ e 0x2B f (s.doLui e f))
def execQCmpeq (e : Nat) (f : BitVec 24) (s : State) : Out := .next (s.executeQ e 0x2C f (s.doCmpeq e f))
def execQCmpltu (e : Nat) (f : BitVec 24) (s : State) : Out := .next (s.executeQ e 0x2D f (s.doCmpltu e f))
def execQCmplt (e : Nat) (f : BitVec 24) (s : State) : Out := .next (s.executeQ e 0x2E f (s.doCmplt e f))
def execQPopc (e : Nat) (f : BitVec 24) (s : State) : Out := .next (s.executeQ e 0x2F f (s.doPopc e f))
def execQCrc (e : Nat) (f : BitVec 24) (s : State) : Out := .next (s.executeQ e 0x30 f (s.doCrc e f))
def execQMin (e : Nat) (f : BitVec 24) (s : State) : Out := .next (s.executeQ e 0x31 f (s.doMin e f))
def execQMax (e : Nat) (f : BitVec 24) (s : State) : Out := .next (s.executeQ e 0x32 f (s.doMax e f))
def execQMov (e : Nat) (f : BitVec 24) (s : State) : Out := .next (s.executeQ e 0x33 f (s.doMov e f))
def execQLd (e : Nat) (f : BitVec 24) (s : State) : Out := .next (s.executeQ e 0x40 f (s.doLd e f))
def execQSt (e : Nat) (f : BitVec 24) (s : State) : Out := .next (s.executeQ e 0x41 f (s.doSt e f))
def execQLdw (e : Nat) (f : BitVec 24) (s : State) : Out := .next (s.executeQ e 0x42 f (s.doLdw e f))
def execQStw (e : Nat) (f : BitVec 24) (s : State) : Out := .next (s.executeQ e 0x43 f (s.doStw e f))
def execQPst (e : Nat) (f : BitVec 24) (s : State) : Out := .next (s.executeQ e 0x44 f (s.doPst e f))
def execQLdp (e : Nat) (f : BitVec 24) (s : State) : Out := .next (s.executeQ e 0x45 f (s.doLdp e f))
def execQUread (e : Nat) (f : BitVec 24) (s : State) : Out := .next (s.executeQ e 0x50 f (s.doUread e f))
def execQUwrite (e : Nat) (f : BitVec 24) (s : State) : Out := .next (s.executeQ e 0x51 f (s.doUwrite e f))
def execQUwait (e : Nat) (f : BitVec 24) (s : State) : Out := .next (s.executeQ e 0x52 f (s.doUwait e f))
def execQUdesc (e : Nat) (f : BitVec 24) (s : State) : Out := .next (s.executeQ e 0x53 f (s.doUdesc e f))
def execQUchild (e : Nat) (f : BitVec 24) (s : State) : Out := .next (s.executeQ e 0x54 f (s.doUchild e f))
def execQUgroup (e : Nat) (f : BitVec 24) (s : State) : Out := .next (s.executeQ e 0x55 f (s.doUgroup e f))
def execQHalt (e : Nat) (f : BitVec 24) (s : State) : Out := .next (s.executeQ e 0x70 f (s.doHalt e f))
def execQStep (e : Nat) (f : BitVec 24) (s : State) : Out := .next (s.executeQ e 0x71 f (s.doStep e f))
def execQResume (e : Nat) (f : BitVec 24) (s : State) : Out := .next (s.executeQ e 0x72 f (s.doResume e f))
def execQFreeze (e : Nat) (f : BitVec 24) (s : State) : Out := .next (s.executeQ e 0x73 f (s.doFreeze e f))
def execQThaw (e : Nat) (f : BitVec 24) (s : State) : Out := .next (s.executeQ e 0x74 f (s.doThaw e f))
def execQCutq (e : Nat) (f : BitVec 24) (s : State) : Out := .next (s.executeQ e 0x75 f (s.doCutq e f))
def execQFbegin (e : Nat) (f : BitVec 24) (s : State) : Out := .next (s.executeQ e 0x80 f (s.doFbegin e f))
def execQFseg (e : Nat) (f : BitVec 24) (s : State) : Out := .next (s.executeQ e 0x81 f (s.doFseg e f))
def execQFend (e : Nat) (f : BitVec 24) (s : State) : Out := .next (s.executeQ e 0x82 f (s.doFend e f))
def execQFmark (e : Nat) (f : BitVec 24) (s : State) : Out := .next (s.executeQ e 0x83 f (s.doFmark e f))
def execQReduce (e : Nat) (f : BitVec 24) (s : State) : Out := .next (s.executeQ e 0x90 f (s.doReduce e f))
def execQMcast (e : Nat) (f : BitVec 24) (s : State) : Out := .next (s.executeQ e 0x91 f (s.doMcast e f))
def execQInk (e : Nat) (f : BitVec 24) (s : State) : Out := .next (s.executeQ e 0xA0 f (s.doInk e f))
def execQCart (e : Nat) (f : BitVec 24) (s : State) : Out := .next (s.executeQ e 0xA1 f (s.doCart e f))
def execQRaise (e : Nat) (f : BitVec 24) (s : State) : Out := .next (s.executeQ e 0xA2 f (s.doRaise e f))
def execQWsnap (e : Nat) (f : BitVec 24) (s : State) : Out := .next (s.executeQ e 0xB0 f (s.doWsnap e f))
def execQWscan (e : Nat) (f : BitVec 24) (s : State) : Out := .next (s.executeQ e 0xB1 f (s.doWscan e f))

/-- A word whose opcode Table QR-1 does not define raises UNDEF (R77); a word that the map defines is no such command. -/
def execUndefinedOpcode (e : Nat) (w : BitVec 32) (s : State) : Out :=
  let op : Nat := bitsOf w.toNat 24 8
  if opDefined op then .next s else .next (s.executeQ e op (w.setWidth 24) (.fault Cause.undef))

/-! ### Waits and the budget (R76, R84) -/

/-- The outcome of the word at the engine's fetch window, seen now. -/
def State.fetched (s : State) (e : Nat) : Did :=
  let g := s.engine e
  s.doWord e (bitsOf g.fetch.toNat 24 8) (g.fetch.setWidth 24)

/-- A waiting instruction whose condition is met completes (R84, R279); one that still waits goes on waiting. -/
def State.endWait (s : State) (e : Nat) : State :=
  if (s.engine e).state = .waiting then s.perform e false (s.fetched e) else s

/-- WAIT_COMPLETE. -/
def execWaitComplete (e : Nat) (s : State) : Out := .next (s.endWait e)

/-- BUDGET_EXPIRY: the budget is 0 at the start of a cycle of a running or waiting engine (R76). -/
def execBudgetExpiry (e : Nat) (s : State) : Out :=
  let g := s.engine e
  .next (if (g.state == .running || g.state == .waiting) && g.broke 1 then s.faultEngine e Cause.deadline else s)

/-! ### Probes (R80 to R83, R387) -/

/-- PROBE_REQUEST_SERVED: the tap, or the resident service, serves a held tag; earlier ones of the same unit and space go
first (R83). -/
def execProbeRequestServed (e tag : Nat) (answers : List (Uno × Word)) (s : State) : Out :=
  let g := s.engine e
  match g.tag tag with
  | none => .next s
  | some t =>
    if t.answer.isSome || s.tagBlocked e t then .next s
    else
      let r := s.serve e t answers
      let h := r.1.engine e
      .next (r.1.setEngine e (h.setTag tag (some { t with
        answer := r.2.1, begun := r.2.2, bytes := r.1.servedBytes e t })))

/-- PROBE_RESPONSE: the answer of a served tag arrives (R81, R82), after those of earlier probes of its unit and space
(R83). -/
def execProbeResponse (e tag : Nat) (s : State) : Out :=
  match (s.engine e).tag tag with
  | none => .next s
  | some t =>
    match t.answer with
    | none => .next s
    | some a => .next (if t.result.isSome || s.tagAwaits e t then s else s.completeTag e tag t a.1 a.2)

/-- The 8 µs bound of R82 is a probe's: of UREAD, UWRITE, UDESC, UCHILD and CART. -/
def TagOp.bounded : TagOp → Bool
  | .uread | .uwrite _ | .udesc _ | .uchild _ | .cart _ => true
  | _ => false

/-- PROBE_TIMEOUT: no answer arrived within 8 µs of issue, so the tag completes with LOST and data 0, but for a write
that its target has already taken (R82: a write that does not complete OK leaves the target unchanged). Earlier probes of
its unit and space complete first (R83). -/
def execProbeTimeout (e tag : Nat) (s : State) : Out :=
  match (s.engine e).tag tag with
  | none => .next s
  | some t =>
    .next (if t.result.isSome || !t.op.bounded || (!t.op.readType && t.answer.isSome) ||
        decide (s.now < t.issued.toNat + 8000) || s.tagAwaits e t then s
      else s.completeTag e tag t 1 0)

end Sys2Proof.Machine
end

