-- ==== Sys2Proof/Machine/QuillCtl.lean ====
section
/-! DEFINITION. Driving an engine (chapter 03): the commands of QL_CTRL (R70, R72, R85, R89 to R91), writes of an engine's
registers and memories by its owner, the return of the resident program, and the ENGINE_LOAD command. -/

namespace Sys2Proof.Machine

/-! ### Where an engine's registers and memories lie -/

/-- QL_CTRL of an engine. -/
def qlBase (e : Nat) : Nat := if e = 128 then 0x60000 else postWindow e + 0x4000

/-- The first byte of an engine's program or data memory. -/
def qlMemBase (e : Nat) (prog : Bool) : Nat :=
  (if e = 128 then 0x100000 else postWindow e + 0x10000) + (if prog then 0 else 0x10000)

/-- The engine exists. -/
def State.hasEngine (s : State) (e : Nat) : Bool := e == 128 || decide (e < s.pkg.member.posts)

/-- The window that leads to the engine answers (R37). -/
def State.engineAnswers (s : State) (e : Nat) : Bool := e == 128 || s.postRuns e

/-- The actor owns the engine (R72). -/
def State.ownsEngine (s : State) (who : Option Nat) (e : Nat) : Bool :=
  who.isSome && (s.engine e).owner == who

/-! ### TAKE (R70) -/

/-- The halves that a post engine's resident program serves: its own, and its sibling's while it has adopted that one
(Table CA-7). -/
def State.halvesServed (s : State) (e : Nat) : List Nat := if s.server (e ^^^ 1) = some e then [e, e ^^^ 1] else [e]

/-- The resident program of an engine is idle: no dump job, watcher, folio policy or capture-start action depends on it, on
any half that it serves (R70). -/
def State.residentIdle (s : State) (e : Nat) : Bool :=
  let ps := s.halvesServed e
  e == 128 ||
  !(ps.any s.watcherArmed ||
    s.folios.jobs.any (fun x => match x.2 with
      | some j => j.running && j.parts.any (fun y => ps.contains y.post)
      | none => false) ||
    s.watch.policies.any (fun (x : Nat × Policy) =>
      (x.2.dl == 2 || x.2.dm == 2) && (s.ctxPosts (x.1 / 2)).any ps.contains) ||
    s.sets.any (fun x => match x.2 with
      | some y => y.elems.any (fun k => k.action == 5 && (s.elemPosts k).any ps.contains)
      | none => false))

/-- The checks of TAKE. -/
def State.takeChecks (s : State) (who : Option Nat) (e : Nat) : List (Bool × Nat) :=
  [(s.levelOn who 0 == 2, 3), ((s.engine e).state == .resident && s.residentIdle e, 1)]

/-- A taken engine: its memories and its registers read 0, its events and its last stop stand (assumption 4). -/
def Engine.takenBy (g : Engine) (slot : Nat) : Engine :=
  { state := .taken, owner := some slot, events := g.events, evmask := g.evmask, mbox := g.mbox, stopReason := g.stopReason }

/-! ### LOAD (R88, R89) -/

/-- A field of the header in QL_HDR: `n` bytes at byte `off`. -/
def Engine.newField (g : Engine) (off n : Nat) : Nat := fieldAt (hdrBytes g.hdr) off n

/-- The stored code words as bytes. -/
def Engine.codeBytes (g : Engine) (n : Nat) : List Byte := (rangeFrom 0 n).flatMap (fun w => leBytes 4 (g.word w).toNat)

/-- Step 1 of R89: the state, and no unanswered probe. -/
def Engine.loadable (g : Engine) : Bool := g.still && g.tags.all (fun x => match x.2 with
  | some t => t.result.isSome
  | none => true)

/-- The checks of R89 after the first, in their order, with the statuses of Table HO-9. -/
def State.qlImageChecks (s : State) (e : Nat) : List (Bool × Nat) :=
  let g := s.engine e
  let f := g.newField
  let zero : List (Nat × Nat) := [(0x07, 1), (0x19, 1), (0x22, 2), (0x30, 8), (0x38, 4)]
  let cw := f 0x08 4
  let ib := f 0x10 4
  let ctx := f 0x1A 2
  [(f 0 4 == 0x4C495551 && f 4 2 == 1 && zero.all (fun z => f z.1 z.2 == 0) && decide (ctx < 4096) && decide (f 0x20 2 < 4096) &&
      f 0x3C 4 == (crc32c ((hdrBytes g.hdr).take 60)).toNat, Status.imageFormat),
   (f 6 1 == 2 || f 6 1 == (if e = 128 then 1 else 0), Status.imageTarget),
   (decide (1 ≤ cw ∧ cw ≤ 16384) && decide (f 0x0C 4 ≤ 65536 ∧ f 0x0C 4 % 8 = 0) &&
      decide (ib ≤ f 0x0C 4 ∧ ib % 8 = 0) && decide (f 0x14 2 < cw), Status.imageSize),
   (decide (f 0x16 2 ≤ 256), Status.tagDemand),
   (decide (f 0x18 1 ≤ 16), Status.depthDemand),
   (f 0x24 4 == (crc32c (g.codeBytes cw)).toNat &&
      f 0x28 4 == (if ib = 0 then 0 else (crc32c (Memory.readBytes g.dmem 0 ib)).toNat), Status.imageCrc),
   (ctx == 0 || s.levelOn g.owner ctx == 2, Status.unitDenied)]

/-- The checks of LOAD, in order, once step 1 holds: the engine is LOADED with the header in force, or TAKEN; the status
is of Table HO-9. -/
def State.loadImage (s : State) (e : Nat) : State × Nat :=
  let g := s.engine e
  match firstFail (s.qlImageChecks e) with
  | none => (s.setEngine e { g with state := .loaded, loaded := true, force := g.hdr, dirty := false }, Status.ok)
  | some st => (s.setEngine e { g with state := .taken, loaded := false, force := [] }, st)

/-- CMD_STATUS for a status of an image (Table QE-11). -/
def qlStatusOf (st : Nat) : Nat :=
  if st = Status.imageFormat then 4 else if st = Status.imageTarget then 5 else if st = Status.imageSize then 6
  else if st = Status.tagDemand then 7 else if st = Status.depthDemand then 8 else if st = Status.imageCrc then 9
  else if st = Status.unitDenied then 3 else if st = Status.wrongState then 2 else 0

/-! ### START, STOP, CONTINUE, STEP, RELEASE (R72, R85, R90, R91) -/

/-- CMD_STATUS written. -/
def State.qlStatus (s : State) (e st : Nat) : State := s.setEngine e { s.engine e with cmdStatus := st }

/-- The engine at ENTRY as START leaves it (R90). DESIGN CHOICE (assumption 151): STOP_REASON and STEP_BLOCKED of QL_STATUS
are cleared too. -/
def Engine.started (g : Engine) : Engine :=
  let n := g.dataBytes - g.initBytes
  let h : Engine := { g.land.unwait with
    regs := [], stack := [], tags := [], tagSeq := 0, events := 0
    evmask := BitVec.ofNat 16 (g.hdrField 0x20 2 % 4096)
    budget := if g.timed then Machine.word (g.hdrBudget * 1024) else BitVec.allOnes 64
    dmem := Memory.writeBytes g.dmem g.initBytes (List.replicate n 0)
    cause := 0, fpc := 0, faultT := 0, stopReason := 0, stepBlocked := false }
  h.goto h.entry

/-- The engine stands still for a reason (Table QE-10). -/
def Engine.halt (g : Engine) (reason : Nat) : Engine := { g.land.unwait with state := .stopped, stopReason := reason }

/-- STOP: after the current instruction, the one that executes in the cycle of the STOP (assumption 150). A wait that has
ended completes first, another is abandoned; an engine that faults or reaches END in that cycle does not stop (R85, R87). -/
def State.stopEngine (s : State) (e : Nat) : State :=
  let f := (s.engine e).fetch
  let s1 := if (s.engine e).state = .running then
      s.perform e ((s.engine e).inSequence (bitsOf f.toNat 24 8) (f.setWidth 24)) (s.fetched e)
    else s.endWait e
  let g := s1.engine e
  if g.state = .running ∨ g.state = .waiting then s1.setEngine e (g.halt 1) else s1

/-- STEP: one instruction of a stopped engine, refetched; one that would wait is not executed (Table QE-8). -/
def State.stepEngine (s : State) (e : Nat) : State :=
  let s1 := s.setEngine e { (s.engine e).goto (s.engine e).pc with stepBlocked := false }
  let g := s1.engine e
  match s1.fetched e with
  | .wait _ =>
    if g.broke 1 then s1.faultEngine e Cause.deadline else s.setEngine e { s.engine e with stepBlocked := true }
  | d =>
    let s2 := s1.perform e (g.inSequence (bitsOf g.fetch.toNat 24 8) (g.fetch.setWidth 24)) d
    let h := s2.engine e
    if h.state = .running then s2.setEngine e (h.halt 2) else s2

/-- The owner's commands: LOAD 2, START 4, STOP 8, CONTINUE 16, STEP 32, RELEASE 64; a TAKE of a taken engine is
refused. A command that Table QE-8 does not list for the state is refused with WRONG_STATE. -/
def State.ownerCommand (s : State) (e cmd : Nat) : State :=
  let g := s.engine e
  let wrong := s.qlStatus e 2
  let done (t : State) : State := t.qlStatus e 0
  match cmd with
  | 1 => s.qlStatus e ((firstFail (s.takeChecks g.owner e)).getD 0)
  | 2 =>
    if !g.still then wrong
    else if !g.loadable then
      (s.setEngine e { g with state := .taken, loaded := false, force := [] }).qlStatus e 2
    else
      let r := s.loadImage e
      r.1.qlStatus e (qlStatusOf r.2)
  | 4 =>
    if (g.state == .loaded || g.state == .stopped || g.state == .ended || g.state == .faulted) && g.loaded && !g.dirty then
      done (s.setEngine e g.started)
    else wrong
  | 8 =>
    if g.state = .running ∨ g.state = .waiting then
      let t := s.stopEngine e
      if (t.engine e).state = .stopped then done t else t
    else wrong
  | 16 => if g.state = .stopped then done (s.setEngine e (g.goto g.pc)) else wrong
  | 32 => if g.state = .stopped then done (s.stepEngine e) else wrong
  | 64 => done ((s.returnEngine e 0).reap)
  | _ => s

/-- A session's command to an engine that no session owns: TAKE is judged (R70); Table QE-8 lists no other (R91). -/
def State.freeCommand (s : State) (who : Option Nat) (slot e cmd : Nat) : State :=
  if cmd = 0 then s
  else if cmd ≠ 1 then s.qlStatus e 2
  else match firstFail (s.takeChecks who e) with
    | some st => s.qlStatus e st
    | none => s.setEngine e ((s.engine e).takenBy slot)

/-- A write of QL_CTRL with these bits [7:0] by an actor. More than one command is refused with CMD_FORMAT, and KICK sets
event HOST with or without one (R91, Table QE-9). A TAKE alone is judged for every session (R70); any other write by another
session than the owner is an access to reserved space (R72). -/
def State.qlCtrl (s : State) (p : Path) (e bits : Nat) : State :=
  let who := s.actor p
  let cmd := bits % 128
  let kick (t : State) : State := if bitAt bits 7 then t.engineEvent e 7 else t
  let several : Bool := decide (1 < ((rangeFrom 0 7).filter (fun i => bitAt cmd i)).length)
  if !s.hasEngine e ∨ s.barGone p then s
  else if !s.engineAnswers e then s
  else match who with
    | none => s.reservedAt p (qlBase e) 0
    | some slot =>
      if s.ownsEngine who e then if several then (kick s).qlStatus e 0xA else (kick s).ownerCommand e cmd
      else if (s.engine e).owner.isNone then
        if several then (kick s).qlStatus e 0xA else kick (s.freeCommand who slot e cmd)
      else if cmd = 1 then s.qlStatus e ((firstFail (s.takeChecks who e)).getD 1)
      else s.reservedAt p (qlBase e) 0

/-- QL_TAKE. -/
def execQlTake (p : Path) (e : Nat) (s : State) : Out := .next (s.qlCtrl p e 1)

/-- QL_LOAD. -/
def execQlLoad (p : Path) (e : Nat) (s : State) : Out := .next (s.qlCtrl p e 2)

/-- QL_START. -/
def execQlStart (p : Path) (e : Nat) (s : State) : Out := .next (s.qlCtrl p e 4)

/-- QL_STOP. -/
def execQlStop (p : Path) (e : Nat) (s : State) : Out := .next (s.qlCtrl p e 8)

/-- QL_CONTINUE. -/
def execQlContinue (p : Path) (e : Nat) (s : State) : Out := .next (s.qlCtrl p e 16)

/-- QL_STEP. -/
def execQlStep (p : Path) (e : Nat) (s : State) : Out := .next (s.qlCtrl p e 32)

/-- QL_RELEASE. -/
def execQlRelease (p : Path) (e : Nat) (s : State) : Out := .next (s.qlCtrl p e 64)

/-- QL_KICK. -/
def execQlKick (p : Path) (e : Nat) (s : State) : Out := .next (s.qlCtrl p e 128)

/-- ENGINE_RESTORE_DONE: a restoring engine runs its resident program again (R72). -/
def execEngineRestoreDone (e : Nat) (s : State) : Out :=
  .next (if (s.engine e).state = .restoring then s.setEngine e { s.engine e with state := .resident } else s)

/-! ### Memory and register writes by the owner (R72, R90) -/

/-- Program words stored from a window offset. -/
def Engine.storeWords (g : Engine) : Nat → List Nat → Engine
  | _, [] => g
  | w, v :: vs => Engine.storeWords { g with pmem := Tbl.set 0 g.pmem w (BitVec.ofNat 32 v) } (w + 1) vs

/-- A write of `n` bytes into an engine's program or data memory by its owner. -/
def State.engineMemWrite (s : State) (p : Path) (e : Nat) (prog : Bool) (off n v : Nat) : State :=
  let g := s.engine e
  let bs := leBytes n v
  if !s.hasEngine e || !s.engineAnswers e || s.barGone p then s
  else if !s.ownsEngine (s.actor p) e || off % n ≠ 0 || 65536 < off + n then s.reservedAt p (qlMemBase e prog + off) 0
  else
    let h := if prog then g.storeWords (off / 4) (numbersOf 4 (n / 4) bs)
      else { g with dmem := Memory.writeBytes g.dmem off bs }
    s.setEngine e { h with dirty := true }

/-- ENGINE_MEMORY_WRITE. -/
def execEngineMemoryWrite (p : Path) (e : Nat) (prog : Bool) (off : Nat) (w8 : Bool) (v : Word) (s : State) : Out :=
  let n := if w8 then 8 else 4
  .next (s.engineMemWrite p e prog off n (v.toNat % 2 ^ (8 * n)))

/-! ### ENGINE_LOAD -/

/-- The parts of an image placed in an engine: the header, the code words and the initial data (R88). -/
def Engine.placeImage (g : Engine) (image : List Byte) : Engine :=
  let h : Engine := { g with hdr := (rangeFrom 0 16).foldl (fun t i =>
    Tbl.set 0 t i (BitVec.ofNat 32 (fieldAt image (4 * i) 4))) [] }
  let cw := min (h.newField 0x08 4) 16384
  let ib := min (h.newField 0x10 4) 65536
  let code := slice image 64 (4 * cw)
  let h1 := h.storeWords 0 (numbersOf 4 (code.length / 4) code)
  { h1 with dmem := Memory.writeBytes h1.dmem 0 (slice image (64 + 4 * cw) ib), dirty := true }

/-- ENGINE_LOAD: owner only; LOAD's checks run on the image as it would be placed, and only an image that passes takes
effect: a refused command changes nothing (R12, R88, R89, R379). -/
def execEngineLoad (c : CmdCtx) (e : Nat) (image : List Byte) (s : State) : Out :=
  let placed := s.setEngine e ((s.engine e).placeImage image)
  .next (s.judged c
    ([(s.hasEngine e, Status.cmdFormat), (s.ownsEngine c.who e, Status.unitDenied),
      ((s.engine e).loadable, Status.wrongState)] ++ placed.qlImageChecks e)
    (fun _ => ((placed.loadImage e).1.qlStatus e 0).complete c Status.ok (objectWord ObjKind.engine e) 0))

end Sys2Proof.Machine
end

