-- ==== Sys2Proof/Machine/RegWrite.lean ====
section
/-! DEFINITION. Register writes (R9, R11, R37, R63 to R69, R72, R374, R399): which register a write reaches, who may make
it, what its fields store and what it sets off. -/

namespace Sys2Proof.Machine

/-! ### Who writes what -/

/-- Registers with a copy of their own for the port session. -/
def ownSelectors : List Nat := [0x10130, 0x10C1C, 0x10E08, 0x40008, 0x50010, 0x50014]

/-- Selectors of a post window with a copy of their own for the port session. -/
def ownPostSelectors : List Nat := [0x108, 0x400, 0xC300, 0x30010, 0x30108]

/-- The key of a stored register for an access path. -/
def regKey (path : Path) (off : Nat) : Nat :=
  let own := ownSelectors.contains off || decide (0x11400 ≤ off ∧ off < 0x11C00) ||
    (decide (0x1000000 ≤ off) && ownPostSelectors.contains ((off - 0x1000000) % 0x40000))
  if own then portKey path off else off

/-- Registers that only platform rights write (R126, R192, R225, R245, R271, R321, R345, R399). -/
def platformWords : List Nat :=
  [0x10140, 0x10144, 0x10148, 0x1014C, 0x10500, 0x10504, 0x10600, 0x10604, 0x1060C, 0x10C00, 0x10C04, 0x10E00, 0x10E04,
   0x11000, 0x11004, 0x11200, 0x11204, 0x11220, 0x50000, 0x50004]

/-- Post registers that only platform rights write. -/
def platformPostWords : List Nat := [0x100, 0x104, 0x500, 0x504, 0x508]

/-- The actor may not write the 4-byte word at an offset: the access is one to reserved space. -/
def State.writeDenied (s : State) (path : Path) (who : Option Nat) (a : Nat) : Bool :=
  if platformWords.contains a then !s.hasPlatform who
  else if 0x1000000 ≤ a then platformPostWords.contains ((a - 0x1000000) % 0x40000) && !s.hasPlatform who
  else if a = 0x11230 then path != .port
  else if 0x11208 ≤ a ∧ a < 0x11230 then true
  else if a = 0x40210 ∨ a = 0x40214 then !s.updLevel who
  else decide (0x40000 ≤ a ∧ a < 0x50000 ∧ a ≠ 0x40008)

/-! ### Fields -/

/-- The part of an access to bits [lo, lo + n) of eight bytes that falls on a register at bit d, `w` bits wide: its first
bit, its width and its value. -/
def meet (lo n v d w : Nat) : Option (Nat × Nat × Nat) :=
  let a := max lo d
  let z := min (lo + n) (d + w)
  if a < z then some (a - d, z - a, v / 2 ^ (a - lo) % 2 ^ (z - a)) else none

/-- The registers of a list that an access to the eight bytes at `b` reaches, with their offsets. -/
def rowsIn (rows : List RegRow) (base b : Nat) : List (RegRow × Nat) :=
  (rows.map (fun r => (r, base + r.off))).filter (fun x => decide (b ≤ x.2 ∧ x.2 < b + 8))

/-- Fields of stored registers written. -/
def State.writeRows (s : State) (w : Writer) (path : Path) (rows : List (RegRow × Nat)) (b lo n v : Nat) : State :=
  rows.foldl (fun t x => match meet lo n v (8 * (x.2 - b)) (8 * x.1.bytes) with
    | some m => t.writeFields { w with off := x.2 } x.1 (regKey path x.2) m.1 m.2.1 m.2.2
    | none => t) s

/-- Reserved fields alone: what is written there is stored as 0, logged and reported. -/
def State.reservedRows (s : State) (w : Writer) (rows : List (RegRow × Nat)) (b lo n v : Nat) : State :=
  rows.foldl (fun t x => match meet lo n v (8 * (x.2 - b)) (8 * x.1.bytes) with
    | some m => t.reservedFields { w with off := x.2 } ((x.1.fields.filter (fun f => f.type == .rsv)).map (fun f => (f.lsb, f.width)))
        m.1 m.2.1 m.2.2
    | none => t) s

/-- What an access writes to a 4-byte word of its eight bytes: 0 where it writes nothing. -/
def wordPart (lo n v d : Nat) : Nat :=
  match meet lo n v d 32 with
  | some m => m.2.2 * 2 ^ m.1
  | none => 0

/-- The access covers the word at bit d. -/
def covers (lo n d : Nat) : Bool := decide (lo ≤ d ∧ d < lo + n)

/-! ### What writes set off -/

/-- Entries of a clamp log cleared, those that the actor reads in full (R69). -/
def State.clampClear (s : State) (who : Option Nat) (k mask : Nat) : State :=
  let l := s.clampLog k
  let es := (rangeFrom 0 16).foldl (fun (t : Tbl (Option Clamp)) i => match Tbl.get none t i with
    | some e => if bitAt mask i && s.clampFull who e then Tbl.set none t i none else t
    | none => t) l.entries
  { s with clamps := Tbl.set {} s.clamps k { l with entries := es } }

/-- A clamp log's LOST cleared by all-ones alone (Table UT-11). -/
def State.clampLostClear (s : State) (k v : Nat) : State :=
  if bitsOf v 16 16 = 65535 then { s with clamps := Tbl.set {} s.clamps k { s.clampLog k with lost := 0 } } else s

/-- The effect of the 4-byte word `v` written at a Compass offset. -/
def State.cmpEffect (s : State) (path : Path) (who : Option Nat) (a v : Nat) : State :=
  match a with
  | 0x10400 => s.clampLostClear 128 v
  | 0x10408 => s.clampClear who 128 v
  | 0x10608 => if bitsOf v 16 16 = 65535 then { s with folios := { s.folios with overflow := 0 } } else s
  | 0x1060C => if bitAt v 0 then { s with folios := { s.folios with loss := [] } } else s
  | 0x10C08 =>
    let s1 := if bitAt v 31 then s.faultnClear who else s
    if bitAt v 30 then s1.ctxLostClear who else s1
  | 0x10C18 => s.caPop who (BitVec.ofNat 32 v)
  | 0x11220 =>
    let s1 := if bitAt v 1 then s.clearLine else s
    if bitAt v 0 then s1.clearErr else s1
  | 0x11230 => if path = .port then s.aprAck (v % 32) else s
  | _ => s

/-- The effect of the 4-byte word `v` written in post p's window. -/
def State.postEffect (s : State) (path : Path) (who : Option Nat) (p a v : Nat) : State :=
  match a with
  | 0x10C => if bitsOf v 16 16 = 65535 then s.setHopRing p { s.hopRing p with unrecorded := 0 } else s
  | 0x8200 => s.clampLostClear p v
  | 0x8208 => s.clampClear who p v
  | 0x30130 => s.itFree path p (v % 65536)
  | _ => s

/-! ### Queues, rings and vectors (judged by no session: R374, R399) -/

/-- A word of the MSI-X table: of a vector's control word the mask bit alone is kept; unmasking sends what is pending. -/
def State.msixPut (s : State) (i lo n v : Nat) : State :=
  let x := putBits (s.msixWord i) lo n v
  let y := if i % 2 = 1 then x % 2 ^ 33 else x
  let s1 : State := { s with host := { s.host with msixTable := Tbl.set 0 s.host.msixTable i (word (Nat.xor y (msixReset i))) } }
  if i % 2 = 1 ∧ !s1.vectorMasked (i / 2) then
    { s1 with host := { s1.host with msixPending := s1.host.msixPending &&& ~~~(1#32 <<< (i / 2)) } }
  else s1

/-- HQ_ER_HEAD written: a value beyond the ring is clamped (Table HO-17). -/
def State.headPut (s : State) (w : Writer) (r v : Nat) : State :=
  let top := (s.ring r).size - 1
  let x := v % 65536
  let w1 : Writer := { w with off := 0x22010 + 0x40 * r }
  let s1 := s.ringHead r (min x top)
  let s2 := if top < x then s1.clampOne w1 0 x top else s1
  if v / 65536 = 0 then s2 else s2.clampOne w1 16 (v / 65536) 0

/-- An event ring's registers written: a change of EN opens or closes the ring. -/
def State.ringPut (s : State) (w : Writer) (path : Path) (b lo n v : Nat) : Option State :=
  let r := (b - 0x22000) / 0x40
  let o := (b - 0x22000) % 0x40
  let rows := rowsIn RegMap.ringRows (0x22000 + 0x40 * r) b
  let k := 0x22008 + 0x40 * r
  if o = 0x10 then
    let s1 := if covers lo n 0 then s.headPut w r (wordPart lo n v 0) else s
    some (s1.reservedRows w (rows.drop 1) b lo n v)
  else if o = 0 ∨ o = 8 ∨ o = 0x18 then
    let old := bitAt (s.regWord RegMap.hqErCfg k) 8
    let s1 := s.writeRows w path rows b lo n v
    let new := bitAt (s1.regWord RegMap.hqErCfg k) 8
    let s2 := if !old && new then s1.ringOn r else if old && !new then s1.ringOff r else s1
    some (if o = 0x18 ∧ wordPart lo n v 32 = 0xFFFFFFFF then s2.ringLostClear r else s2)
  else none

/-- A queue page written: entries, HQ_DB, HQ_QSTAT (Table HO-19). -/
def State.queuePut (s : State) (w : Writer) (b lo n v : Nat) : Option State :=
  let q := (b - 0x30000) / 0x1000
  let o := b % 0x1000
  let rows := rowsIn RegMap.queueRows (0x30000 + 0x1000 * q) b
  if o < 0x800 then
    let c := s.cq q
    some (s.setCq q { c with mem := Memory.writeBytes c.mem (o + lo / 8) (leBytes (n / 8) v) })
  else if o = 0xF00 then
    let s1 := s.reservedRows w rows b lo n v
    some (if covers lo n 0 then s1.doorbell q (wordPart lo n v 0 % 64) else s1)
  else if o = 0xF08 ∧ lo = 0 ∧ n = 32 then
    let s1 := s.reservedRows w rows b lo n v
    some (if bitAt v 31 then s1.clearDbErr q else s1)
  else none

/-- The HQ_ region and the queue pages written. -/
def State.hqPut (s : State) (w : Writer) (path : Path) (b lo n v : Nat) : Option State :=
  if b = 0x20000 then if lo = 0 ∧ n = 32 then some (s.writeRows w path [(RegMap.hqCtrl, 0x20000)] b lo n v) else none
  else if b = 0x20008 then some (s.reservedRows w [(RegMap.hqStat, 0x20008)] b lo n v)
  else if b = 0x20010 then
    let s1 := s.reservedRows w [(RegMap.hqBarBind, 0x20010)] b lo n v
    some (if !covers lo n 0 then s1
          else if bitAt (wordPart lo n v 0) 9 then s1.unbind
          else s1.bind (wordPart lo n v 0 % 256) (BitVec.ofNat 32 (wordPart lo n v 32)))
  else if 0x21000 ≤ b ∧ b < 0x21200 then some (s.msixPut ((b - 0x21000) / 8) lo n v)
  else if b = 0x21800 then some s
  else if 0x22000 ≤ b ∧ b < 0x22400 then s.ringPut w path b lo n v
  else if 0x30000 ≤ b ∧ b < 0x40000 then s.queuePut w b lo n v
  else none

/-! ### Engine registers (R72, Tables QE-9 to QE-24) -/

/-- An engine's registers written at offset `rel` of its block by `lo`, `n`: by its owner; else a TAKE alone. -/
def State.qlPut (s : State) (w : Writer) (path : Path) (e rel lo n v : Nat) : Option State :=
  let g := s.engine e
  let b := qlBase e + rel
  let c0 := covers lo n 0
  let c1 := covers lo n 32
  let v0 := wordPart lo n v 0
  let v1 := wordPart lo n v 32
  let exists_ (c : Cell) : Bool := (!c0 || c.1.isSome) && (!c1 || c.2.isSome)
  if !s.ownsEngine (s.actor path) e then
    if rel = 0 ∧ lo = 0 ∧ n = 32 ∧ v0 % 128 = 1 ∧ (s.actor path).isSome then
      some ((s.qlCtrl path e (v0 % 256)).reservedRows w [(RegMap.qlCtrl, b)] b lo n v)
    else none
  else if !exists_ (s.qlCell (s.actor path) e rel) then none
  else if 0x100 ≤ rel ∧ rel < 0x180 then
    if g.state = .stopped then
      let i := (rel - 0x100) / 8
      some (s.setQ e i (word (putBits (g.q i).toNat lo n v)))
    else none
  else
    let s1 := s.reservedRows w (rowsIn RegMap.engineRows (qlBase e) b) b lo n v
    let h := s1.engine e
    if rel = 0 then some (if c0 then s1.qlCtrl path e (v0 % 256) else s1)
    else if rel = 0x20 then
      some (s1.setEngine e { h with
        events := if c0 then h.events &&& ~~~(BitVec.ofNat 16 (v0 % 4096)) else h.events
        evmask := if c1 then BitVec.ofNat 16 (v1 % 4096) else h.evmask })
    else if rel = 0x28 then some (s1.setEngine e { h with wfail := h.wfail && !bitAt v0 31 })
    else if rel = 0x30 then some (s1.setEngine e { h with mbox := word (putBits h.mbox.toNat lo n v) })
    else if 0x200 ≤ rel ∧ rel < 0x240 then
      let i := (rel - 0x200) / 4
      let t0 := if c0 then Tbl.set 0 h.hdr i (BitVec.ofNat 32 v0) else h.hdr
      let t1 := if c1 then Tbl.set 0 t0 (i + 1) (BitVec.ofNat 32 v1) else t0
      some (s1.setEngine e { h with hdr := t1 })
    else some s1

/-! ### The whole map -/

/-- The words of a cell that the access covers all hold registers. -/
def cellHolds (c : Cell) (lo n : Nat) : Bool := (!covers lo n 0 || c.1.isSome) && (!covers lo n 32 || c.2.isSome)

/-- A write in post p's window, the post running. Of the break and watch registers BW_SET_SEL alone takes writes (R128). -/
def State.postPut (s : State) (path : Path) (who : Option Nat) (p b lo n v : Nat) : Option State :=
  let base := postWindow p
  let o := b - base
  let w : Writer := { who := who, ctx := 0, log := some p, off := b }
  if 0x4000 ≤ o ∧ o < 0x4240 then s.qlPut w path p (o - 0x4000) lo n v
  else if 0x10000 ≤ o ∧ o < 0x30000 then
    if s.ownsEngine who p then
      some (s.engineMemWrite path p (decide (o < 0x20000)) (o % 0x10000 + lo / 8) (n / 8) v)
    else none
  else if !cellHolds (s.postCell path who p o) lo n then none
  else if 0xC000 ≤ o ∧ o < 0xC328 ∧ o ≠ 0xC300 then none
  else
    let s1 := s.writeRows w path (rowsIn RegMap.postRows base b) b lo n v
    let s2 := if covers lo n 0 then s1.postEffect path who p o (wordPart lo n v 0) else s1
    some (if covers lo n 32 then s2.postEffect path who p (o + 4) (wordPart lo n v 32) else s2)

/-- The registers of the Compass beside those of Table HO-1 that `RegMap.globalRows` lists: arrays of like registers. -/
def arrayRows (b : Nat) : List (RegRow × Nat) :=
  if b = 0x10140 ∨ b = 0x10148 then [(RegMap.cmpAutowake, b), (RegMap.cmpAutowake, b + 4)]
  else if 0x11400 ≤ b ∧ b < 0x11C00 then [(RegMap.cmpIwSel, b)]
  else if 0x10E40 ≤ b ∧ b < 0x10F40 then [(RegMap.cmpSwDlobj, b), (RegMap.cmpSwDlobj, b + 4)]
  else []

/-- A write outside the post windows and the indirect window. -/
def State.globalPut (s : State) (path : Path) (who : Option Nat) (b lo n v : Nat) : Option State :=
  let w : Writer := { who := who, ctx := 0, log := none, off := b }
  if 0x20000 ≤ b ∧ b < 0x40000 then s.hqPut { w with who := none } path b lo n v
  else if 0x60000 ≤ b ∧ b < 0x70000 then if b < 0x60240 then s.qlPut w path 128 (b - 0x60000) lo n v else none
  else if 0x100000 ≤ b ∧ b < 0x120000 then
    if s.ownsEngine who 128 then
      some (s.engineMemWrite path 128 (decide (b < 0x110000)) (b % 0x10000 + lo / 8) (n / 8) v)
    else none
  else if !cellHolds (s.globalCell path who b) lo n then none
  else if 0x80000 ≤ b ∧ b < 0x88000 then
    some { s with port := { s.port with
      staging := Memory.writeBytes s.port.staging (b - 0x80000 + lo / 8) (leBytes (n / 8) v) } }
  else
    let old := s.regWord RegMap.cmpPtCfg 0x11200
    let s1 := s.writeRows w path (rowsIn RegMap.globalRows 0 b ++ arrayRows b) b lo n v
    let s2 := if b = 0x11200 then s1.ptCfgEffect old else s1
    let s3 := if covers lo n 0 then s2.cmpEffect path who b (wordPart lo n v 0) else s2
    some (if covers lo n 32 then s3.cmpEffect path who (b + 4) (wordPart lo n v 32) else s3)

/-- A write of 4 or 8 bytes at a BAR0 offset outside the indirect window: its effect, or the outcome of reserved space
(R11). A write to the window of a post that is gated, lost or restarting has no effect (R37). -/
def State.writeAccess (s : State) (path : Path) (addr : Nat) (w8 : Bool) (v : Nat) : State :=
  let who := s.actor path
  let n := widthOf w8
  let b := addr / 8 * 8
  let lo := 8 * (addr % 8)
  let val := v % 2 ^ (8 * n)
  let no := s.reservedAt path addr 0
  if s.barGone path then s
  else if addr % n ≠ 0 then no
  else match windowPost addr with
    | some p =>
      if s.pkg.member.posts ≤ p then no
      else if !s.postRuns p then s
      else if s.writeDenied path who addr || (w8 && s.writeDenied path who (addr + 4)) then no
      else (s.postPut path who p b lo (8 * n) val).getD no
    | none =>
      if 0x1000000 ≤ addr then no
      else if s.writeDenied path who addr || (w8 && s.writeDenied path who (addr + 4)) then no
      else (s.globalPut path who b lo (8 * n) val).getD no

end Sys2Proof.Machine
end

