-- ==== Sys2Proof/Machine/RegAccess.lean ====
section
/-! DEFINITION. The register accesses of BAR0 and of port packets as commands (R11, R37, R47, R69, R375). What a read
returns stands in `host.readData`. -/

namespace Sys2Proof.Machine

/-- What an access returns. -/
def State.answerRead (s : State) (v : Nat) : State := { s with host := { s.host with readData := word v } }

/-! ### The indirect unit window (R375, Table HO-21) -/

/-- The key of aperture a's selector for a path. -/
def iwKey (path : Path) (ap : Nat) : Nat := regKey path (0x11400 + 8 * ap)

/-- LAST of an aperture, and what the access returns. -/
def State.iwEnd (s : State) (path : Path) (ap last v : Nat) : State :=
  let k := iwKey path ap
  (s.setRegWord RegMap.cmpIwSel k (putBits (s.regWord RegMap.cmpIwSel k) 56 8 last)).answerRead v

/-- An access through aperture `ap` at byte `off`: a write of `wr`, or a read; `answer` is what a memory of the
accelerator answers, `none` when no answer comes within 8 µs. The first outcome of R375 that applies. -/
def State.iwAccess (s : State) (path : Path) (ap off : Nat) (w8 : Bool) (wr : Option Word) (answer : Option Word) : State :=
  let who := s.actor path
  let sel := s.regWord RegMap.cmpIwSel (iwKey path ap)
  let u := bitsOf sel 0 24
  let space := bitsOf sel 48 2
  let n := widthOf w8
  let at_ := bitsOf sel 24 24 * 65536 + off
  let write := wr.isSome
  let here := s.present u && kindOf s.pkg.member u != .group
  let deny (last : Nat) : State :=
    (s.reservedReport { who := who, ctx := if here then s.spaceCtx u space at_ else 0,
                        log := if here then postOf s.pkg.member u else none,
                        off := 0x3000000 + 0x10000 * ap + off }).iwEnd path ap last 0
  let st := s.tapStatus u space at_
  if s.barGone path then (if write then s else s.answerRead (2 ^ (8 * n) - 1))
  else if off % n ≠ 0 ∨ !s.unitReach u space at_ n write then deny 5
  else if !s.mayReach who u space at_ write then deny 4
  else
    let s := s.addresses who u
    if st = 2 then s.iwEnd path ap 2 0
    else if st = 3 then s.iwEnd path ap 3 0
    else match wr, answer with
      | _, none => s.iwEnd path ap 1 0
      | some v, some _ => (s.unitWrite who u space at_ n v).1.iwEnd path ap 0 0
      | none, some a =>
        let r := s.unitRead who u space at_ n (some a)
        r.1.iwEnd path ap 0 r.2.2.toNat

/-- IW_ACCESS. -/
def execIwAccess (p : Path) (ap off : Nat) (w8 : Bool) (wr : Option Word) (answer : Option Word) (s : State) : Out :=
  .next (if ap < 256 ∧ off < 65536 then s.iwAccess p ap off w8 wr answer else s)

/-! ### Reads and writes -/

/-- One register read, outside the indirect window. -/
def State.readReg (s : State) (path : Path) (addr : Nat) (w8 : Bool) : State :=
  let r := s.readAccess path addr w8
  if s.barGone path then s.answerRead (2 ^ (8 * widthOf w8) - 1)
  else match r.2 with
  | some v => r.1.answerRead v
  | none => (r.1.reservedAt path addr 0).answerRead 0

/-- One register or memory read of BAR0; an accelerator memory behind the indirect window answers an opaque word, in
each read its own. -/
def State.barRead (s : State) (path : Path) (addr : Nat) (w8 : Bool) : State :=
  if 0x3000000 ≤ addr ∧ addr < 0x4000000 then
    s.draw.iwAccess path ((addr - 0x3000000) / 65536) (addr % 65536) w8 none (some (Config.accelWord s.drawn))
  else s.readReg path addr w8

/-- One register or memory write of BAR0. -/
def State.barWrite (s : State) (path : Path) (addr : Nat) (w8 : Bool) (v : Word) : State :=
  if 0x3000000 ≤ addr ∧ addr < 0x4000000 then
    s.iwAccess path ((addr - 0x3000000) / 65536) (addr % 65536) w8 (some v) (some 0)
  else s.writeAccess path addr w8 v.toNat

/-- REGISTER_WRITE. -/
def execRegisterWrite (p : Path) (addr : Nat) (w8 : Bool) (v : Word) (s : State) : Out := .next (s.barWrite p addr w8 v)

/-- RESERVED_SPACE_ACCESS: a read returns 0, a write has no effect, and the rate-limited report is raised (R11, R66). -/
def execReservedSpaceAccess (p : Path) (addr : Nat) (ctx : Ctx) (s : State) : Out :=
  .next (if s.barGone p then s.answerRead 0xFFFFFFFF else (s.reservedAt p addr ctx).answerRead 0)

/-- CMP_MERIDIAN_READ (R47): a read of the low word latches the high word for its path, which a read of the high word
returns; an 8-byte read returns the whole value. -/
def execCmpMeridianRead (p : Path) (part : MerPart) (s : State) : Out :=
  .next (match part with
    | .low => s.readReg p 0x10100 false
    | .high => s.readReg p 0x10104 false
    | .whole => s.readReg p 0x10100 true)

/-- POST_WINDOW_ACCESS: an access of a post's window; at once, and without a report, while the post is gated, lost or
restarting (R37). -/
def execPostWindowAccess (p : Path) (post off : Nat) (w8 : Bool) (wr : Option Word) (s : State) : Out :=
  if post < 128 ∧ off < 0x40000 then
    match wr with
    | some v => .next (s.writeAccess p (postWindow post + off) w8 v.toNat)
    | none => .next (s.readReg p (postWindow post + off) w8)
  else .next s

/-- POST_NO_ANSWER: a powered post does not answer within the bound of Table TP-6, so the Compass completes the access
and raises one HUB_FAILOVER report that names the post (R37). -/
def execPostNoAnswer (p : Path) (post : Nat) (s : State) : Out :=
  .next (s.onBar p <| if post < s.pkg.member.posts ∧ s.postRuns post then (s.failover s.compassDie 7 (halfUno post)).answerRead 0 else s)

/-- CLAMP_CLR (R69): the entries that the writer reads in full are cleared; a post's register is dropped while the post
does not run (R37). -/
def execClampClr (p : Path) (post : Option Nat) (mask : BitVec 16) (s : State) : Out :=
  match post with
  | none => .next (s.onBar p (s.clampClear (s.actor p) 128 mask.toNat))
  | some q => .next (s.onBar p <| if q < s.pkg.member.posts ∧ s.postRuns q then s.clampClear (s.actor p) q mask.toNat else s)

end Sys2Proof.Machine
end

