-- ==== Sys2Proof/Machine/PortOps.lean ====
section
/-! DEFINITION. The port link (R297 to R303, R306, R312): packets and their words, the judging of requests, the opening of
the port session, and the words that a scan port moves. -/

namespace Sys2Proof.Machine

/-! ### Packet words (R298, Tables PT-3, PT-5) -/

/-- PT-5: statuses of responses. -/
def Pt.ok : Nat := 0
def Pt.badRequest : Nat := 1
def Pt.seqOrder : Nat := 2
def Pt.authFailed : Nat := 3
def Pt.lockedOut : Nat := 4
def Pt.keyAbsent : Nat := 5
def Pt.nonceStale : Nat := 6
def Pt.ctxLimit : Nat := 7
def Pt.noCompass : Nat := 8
def Pt.lockdown : Nat := 0xA

/-- The response TYPE to a request whose TYPE Table PT-4 does not define. -/
def undefinedReply : Nat := 0xFF

/-- The trailer of a header and payload: CRC-32C over their bytes. -/
def trailer (ws : List Word) : Word := (crc32c (ws.flatMap (fun w => leBytes 8 w.toNat))).setWidth 64

/-- A response or event packet's words. -/
def Resp.words (r : Resp) : List Word :=
  let hdr := word (r.status % 256 * 2 ^ 8 + r.payload.length % 1024 * 2 ^ 16 + r.seq.toNat * 2 ^ 32 +
    r.type % 256 * 2 ^ 40 + 0x3CA5 * 2 ^ 48)
  let body := hdr :: r.payload
  body ++ [trailer body]

/-- An event packet: its SEQ is 0 (assumption 31). -/
def eventWords_ (ws : List Word) : List Word := Resp.words { type := 0x88, seq := 0, status := 0, payload := ws }

/-- The partial packet is discarded. -/
def Port.dropPartial (p : Port) : Port := { p with inWords := p.inWords.take (p.inWords.length - p.partialHeld.length) }

/-! ### Link failures (R301 to R304, Table PT-6) -/

/-- FRAMING: the packet in progress is discarded, counted and reported, and the hub hunts. -/
def State.framingError (s : State) : State :=
  ({ s with port := { s.port.dropPartial with framing := sat16 s.port.framing, hunting := true } }).portReport 2

/-! ### The session (R297, R312) -/

/-- The port session opens in slot 255. -/
def State.openPort (s : State) : State :=
  if (s.session portSlot).isSome then s
  else (s.setSession portSlot (some { isPort := true, ring := 0, nonce := 0, scheck := 0, openT := s.pkg.meridian })).bumpGen

/-! ### Judging a request (R299) -/

/-- A complete packet as its words say it (Tables PT-3, PT-4): `plain` that every reserved header field and STATUS are 0. -/
structure Request where
  type    : Nat
  seq     : BitVec 8
  payload : List Word
  crc     : BitVec 32
  plain   : Bool
deriving DecidableEq, Repr

/-- The packet at the head of a word list, when all of it is there. -/
def requestAt : List Word → Option Request
  | [] => none
  | h :: r =>
    let w := h.toNat
    let len := bitsOf w 16 10
    if packetLen h ≤ r.length + 1 then
      some { type := bitsOf w 40 8, seq := BitVec.ofNat 8 (bitsOf w 32 8), payload := r.take len,
             crc := (r.getD len 0).setWidth 32, plain := bitsOf w 0 16 == 0 && bitsOf w 26 6 == 0 }
    else none

/-- The request at the head of the inbound queue. -/
def Port.request (p : Port) : Option Request := requestAt p.inWords

/-- What a request does once it may begin: the packet leaves the inbound queue (R300). -/
def Port.takePacket (p : Port) : Port :=
  match p.inWords with
  | [] => p
  | h :: _ => if packetLen h ≤ p.inWords.length then { p with inWords := p.inWords.drop (packetLen h) } else p

/-- The queue without its first POLL, when it holds one; at most `n` packets deep. -/
def withoutPoll : Nat → List Word → Option (List Word)
  | 0, _ => none
  | n + 1, ws =>
    match ws, requestAt ws with
    | h :: _, some r =>
      if r.type = 3 then some (ws.drop (packetLen h))
      else (withoutPoll n (ws.drop (packetLen h))).map (fun x => ws.take (packetLen h) ++ x)
    | _, _ => none

/-- A response that is stored for retries. -/
def State.respond (s : State) (type : Nat) (status : Nat) (payload : List Word) : State :=
  { s with port := { s.port with
      response := some { type := type, seq := s.port.seq, status := status, payload := payload }, order := none, taken := false } }

/-- A response that answers a request which is not accepted, or a POLL. -/
def State.offer (s : State) (r : Resp) : State := { s with port := { s.port with order := some r, taken := false } }

/-- The previous response has been taken in full, and no command of the port is under way. -/
def State.portReady (s : State) : Bool := s.port.taken && !s.host.inflight.any (fun i => i.c.queue.isNone)

/-- LOCKDOWN serves no request but READ, POLL, CLOSE and the maker analysis challenge (Table PT-13). -/
def State.portOpen (s : State) (served : Bool) : Bool := served || !s.life.lockdown

/-- The request at the head of the queue is judged and leaves it (R299, R300): `reply` is its response TYPE, `fields` that its
fields lie within Tables PT-3 and PT-4, `served` that LOCKDOWN lets it pass. An accepted request opens the session, and
`act` executes it. -/
def State.judgeRequest (s : State) (r : Request) (reply : Nat) (fields served : Bool) (act : State → State) : State :=
  let p := s.port
  let s0 : State := { s with port := p.takePacket }
  if p.sessionFresh || (s.session portSlot).isNone || r.seq == p.seq + 1 then
    let s1 : State := { s0 with port := { s0.port with seq := r.seq, lastCrc := r.crc, lastReqT := s.pkg.meridian } }
    if s.pkg.bothDead then s1.respond reply Pt.noCompass []
    else
      let s2 := s1.openPort
      let s3 : State := { s2 with port := { s2.port with sessionFresh := false } }
      if !(r.plain && fields) then s3.respond reply Pt.badRequest []
      else if !s3.portOpen served then s3.respond reply Pt.lockdown []
      else act s3
  else if r.seq == p.seq && r.crc == p.lastCrc then { s0 with port := { s0.port with order := none, taken := false } }
  else s0.offer { type := reply, seq := r.seq, status := Pt.seqOrder, payload := [word (p.seq + 1).toNat] }

/-- A request of undefined TYPE at the head of the queue is answered as soon as it may start: TYPE 0xFF, LEN 0, BAD_REQUEST
(Table PT-4, R299 step 5). -/
def State.answerUndefined (s : State) : State :=
  match s.port.request with
  | some r => if s.portReady && !(decide (1 ≤ r.type ∧ r.type ≤ 7)) then s.judgeRequest r undefinedReply false false id else s
  | none => s

/-! ### Words of the link (R300, R302, R306) -/

/-- The words offered next: of a response not yet taken, else of the oldest event. -/
def Port.outbound (p : Port) : List Word × Bool :=
  if !p.outWords.isEmpty then (p.outWords, p.outEvent)
  else if !p.taken then (((p.order <|> p.response).map Resp.words).getD [], false)
  else match p.events with
    | e :: _ => (eventWords_ e, true)
    | [] => ([], false)

/-- The word captured outbound is consumed; a packet whose last word is consumed is taken. -/
def Port.consume (p : Port) : Port :=
  match p.outbound with
  | ([], _) => p
  | (_ :: rest, ev) =>
    let q := { p with outWords := rest, outEvent := ev }
    if !rest.isEmpty then q
    else if ev then { q with events := p.events.drop 1, outEvent := false }
    else { q with taken := true, order := none }

/-- A word may begin a packet where a header is due; hunting asks for a defined TYPE too (R302, Table PT-6). -/
def headerOk (hunting : Bool) (w : Word) : Bool :=
  bitsOf w.toNat 48 16 == 0xC35A && decide (bitsOf w.toNat 16 10 ≤ 513) &&
  (!hunting || decide (1 ≤ bitsOf w.toNat 40 8 ∧ bitsOf w.toNat 40 8 ≤ 7))

/-- One inbound word: a header where one is due, else a word of the packet in progress, whose trailer is checked; a word that
meets a full queue is discarded with the packet it belongs to (R300). A candidate that fails while hunting is searched again from the word after its header, at most `n` words deep. -/
def State.inWord : Nat → Word → State → State
  | 0, _, s => s
  | n + 1, w, s =>
    let p := s.port
    let part := p.partialHeld
    if part.isEmpty && !headerOk p.hunting w then (if p.hunting then s else s.framingError)
    else if 1030 ≤ p.inWords.length then s.framingError
    else if part.isEmpty then { s with port := { p with inWords := p.inWords ++ [w], partialT := s.pkg.meridian } }
    else
      let all := part ++ [w]
      let s1 : State := { s with port := { p with inWords := p.inWords ++ [w], partialT := s.pkg.meridian } }
      if all.length < packetLen (all.headD 0) then s1
      else if trailer all.dropLast == w then { s1 with port := { s1.port with hunting := false } }
      else if p.hunting then
        let s2 : State := { s1 with port := { s1.port with inWords := p.inWords.take (p.inWords.length - part.length) } }
        (all.drop 1).foldl (fun t x => State.inWord n x t) s2
      else
        ({ s1 with port := { p with inWords := p.inWords.take (p.inWords.length - part.length), crcErr := sat16 p.crcErr,
                                    hunting := true } }).portReport 3

/-- What the one-wire line delivers up to the end of a frame (R302, R303, R309): its words in turn, then a framing error where it
broke off. -/
def State.lineIn (s : State) (f : LineFrame) : State :=
  if s.scanPort then s
  else
    let s0 : State := { s with port := { s.port with halfbit := f.halfbit } }
    let s1 := f.words.foldl (fun t w => State.inWord 516 w t) s0
    if f.broken then s1.framingError else s1

/-- A request row of the port: the line's words come in on a one-wire member; the request at the head of the queue executes
when it is of this TYPE and the previous response has been taken (R299). A request that may not start yet stays in the
queue. -/
def State.portRequest (s : State) (f : LineFrame) (type : Nat) (fields : Request → Bool) (served : Bool)
    (act : Request → State → State) : State :=
  if !s.pkg.aonUp then s
  else
    let s0 := s.lineIn f
    let s1 := match s0.port.request with
      | some r => if r.type = type ∧ s0.portReady then s0.judgeRequest r (type + 0x80) (fields r) served (act r) else s0
      | none => s0
    s1.answerUndefined

/-- The idle word (R306): IN_FREE, the last accepted SEQ, SESSION, HUNTING and EVENT. -/
def State.idleWord (s : State) : Word :=
  let p := s.port
  word (pack [(0, 1030 - p.inWords.length), (16, p.seq.toNat), (24, bitNat (s.session portSlot).isSome), (25, bitNat p.hunting),
              (26, bitNat (!p.events.isEmpty))])

/-- The word that Capture-DR loads in LEDGER: the next outbound word, else the idle word. -/
def State.ledgerOut (s : State) : Word := (s.port.outbound.1).headD s.idleWord

/-! ### Scan instructions (R305, R307) -/

/-- EXTEST, CLAMP and HIGHZ act as in the standard. -/
def State.scanFree (s : State) : Bool := s.openState || s.hasPlatform (some portSlot)

/-- A scan instruction loaded: Capture-IR first loads 0b0000_0R01, where R says that an outbound word waits; pins that the boundary register takes or leaves pass through a guard. -/
def State.setIr (s : State) (ir : Nat) : State :=
  if !s.scanPort || !s.pkg.aonUp then s
  else
    let acts : Bool := (ir == 0 || ir == 3 || ir == 4) && s.scanFree
    let waits := bitNat (!s.port.outbound.1.isEmpty)
    let s1 : State := { s with port := { s.port with irOut := some (1 + 4 * waits), ir := ir, bscan := acts } }
    if acts = s.port.bscan then s1 else s1.guardPins

/-- Test-Logic-Reset: IDCODE; a partial packet and unread outbound words are discarded (R305, R308). -/
def State.tapReset (s : State) : State :=
  let s0 := s.setIr 2
  let s1 : State := { s0 with port := { s0.port with irOut := s.port.irOut } }
  { s1 with port := { s1.port.dropPartial with outWords := [], outEvent := false, taken := true, order := none } }

end Sys2Proof.Machine
end

