-- ==== Sys2Proof/Machine/Entry.lean ====
section
/-! DEFINITION. Command entries (R376 to R379, Tables HO-2, HO-3): their fields, the checks of R378 that every taken
command passes first, and the in-flight table. -/

namespace Sys2Proof.Machine

/-! ### Fields (Table HO-2) -/

def entryOp (e : List Byte) : Nat := fieldAt e 0 1
def entryFlags (e : List Byte) : Nat := fieldAt e 1 1
def entrySession (e : List Byte) : Nat := fieldAt e 2 1
def entryScheck (e : List Byte) : Nat := fieldAt e 4 4
def entryArgLen (e : List Byte) : Nat := fieldAt e 0x18 4
def entryResLen (e : List Byte) : Nat := fieldAt e 0x1C 4
def entryInline (e : List Byte) : List Byte := slice e 0x28 24

/-- The context that the entry's command acts with. -/
def entryCtx (q : Option Nat) (e : List Byte) : CmdCtx :=
  { session := if q.isNone then portSlot else entrySession e, queue := q, tag := word (fieldAt e 8 8),
    notify := bitAt (entryFlags e) 2, resLen := entryResLen e, resAddr := fieldAt e 0x20 8 }

/-- The argument of a port command: bytes of the staging area. -/
def State.entryArg (s : State) (e : List Byte) : List Byte :=
  Memory.readBytes s.port.staging (fieldAt e 0x10 8 % 32768) (min (entryArgLen e) 32768)

/-! ### What suits a command (Table HO-3) -/

/-- Opcodes that Table HO-3 and Table UP-4 list. -/
def opListed (op : Nat) : Bool :=
  decide (1 ≤ op ∧ op ≤ 5) || decide (0x10 ≤ op ∧ op ≤ 0x1A) || decide (0x20 ≤ op ∧ op ≤ 0x24) ||
  decide (0x30 ≤ op ∧ op ≤ 0x32) || decide (0x40 ≤ op ∧ op ≤ 0x44) || decide (0x50 ≤ op ∧ op ≤ 0x53) ||
  decide (0x60 ≤ op ∧ op ≤ 0x65)

/-- ARG_LEN suits the command: exact where the record has one length, at least the record's fixed part elsewhere, 0 where
there is no argument. -/
def argSuits (op n : Nat) : Bool :=
  match op with
  | 0x03 => n == 128
  | 0x12 => decide (8 ≤ n)
  | 0x13 => decide (136 ≤ n)
  | 0x15 => decide (64 ≤ n)
  | 0x16 => n == 32
  | 0x18 => decide (64 ≤ n)
  | 0x44 => decide (64 ≤ n)
  | 0x50 => n == 192
  | 0x51 => n == 65536
  | 0x53 => n == 16 || n == 144
  | 0x60 => n == 512
  | 0x61 => n % 16 == 0
  | _ => n == 0

/-- RES_LEN holds the result record. -/
def resSuits (op n : Nat) : Bool :=
  match op with
  | 0x01 => decide (32 ≤ n)
  | 0x04 => decide (216 ≤ n)
  | 0x52 => decide (65536 ≤ n)
  | _ => true

/-- The bits of byte k of INLINE that a command uses (Tables HO-3 and UP-4); every other bit is 0 (Table HO-2). -/
def inlineMask (op k : Nat) : Nat :=
  let whole (c : Bool) : Nat := if c then 255 else 0
  match op with
  | 0x04 => whole (decide (k < 2 ∨ 8 ≤ k))
  | 0x10 | 0x11 => whole (decide (k = 0 ∨ (4 ≤ k ∧ k < 8)))
  | 0x12 | 0x14 => whole (decide (k < 3))
  | 0x13 => whole (decide (k < 5))
  | 0x15 | 0x16 => whole (decide (k < 2))
  | 0x17 => if k = 3 then 1 else whole (decide (k < 8))
  | 0x18 | 0x19 | 0x41 | 0x44 | 0x51 | 0x52 => whole (decide (k = 0))
  | 0x1A => if k = 1 then 1 else whole (decide (k = 0 ∨ 8 ≤ k))
  | 0x20 => whole (decide (k < 4 ∨ (8 ≤ k ∧ k < 16)))
  | 0x21 | 0x22 | 0x23 | 0x24 => whole (decide (k < 3 ∨ (8 ≤ k ∧ k < 16)))
  | 0x30 => if k = 3 then 3 else whole (decide (k < 7))
  | 0x31 => 255
  | 0x32 => whole (decide (k < 3 ∨ (4 ≤ k ∧ k < 8)))
  | 0x40 => whole (decide (k < 2))
  | 0x61 => whole (decide (k < 4))
  | 0x63 => if k = 0 then 3 else 0
  | _ => 0

/-- The unused bits of INLINE are 0. -/
def inlineSuits (op : Nat) (inl : List Byte) : Bool :=
  (rangeFrom 0 24).all (fun k => Nat.land (fieldAt inl k 1) (255 - inlineMask op k) == 0)

/-- The object that an entry names: KIND and slot (Table HO-7). -/
def entryObject (op : Nat) (inl : List Byte) : Option (Nat × Nat) :=
  match op with
  | 0x10 | 0x11 => some (fieldAt inl 0 1, fieldAt inl 4 4)
  | 0x12 | 0x13 | 0x14 => some (ObjKind.group, fieldAt inl 0 3 - 0xF00000)
  | 0x15 => some (ObjKind.set, fieldAt inl 0 2)
  | 0x16 | 0x17 => some (ObjKind.stream, fieldAt inl 0 2)
  | 0x18 | 0x19 | 0x1A => some (ObjKind.job, fieldAt inl 0 1)
  | 0x30 => some (6, fieldAt inl 0 2)
  | 0x44 => some (8, fieldAt inl 0 1)
  | _ => none

/-! ### The checks of R378 -/

/-- SESSION and SCHECK: OPEN carries 0; the port session carries 255 and 0; a queue's entry names an open host session. -/
def State.entrySessionOk (s : State) (q : Option Nat) (e : List Byte) : Bool :=
  if entryOp e = 1 then true
  else match q with
    | none => entrySession e == portSlot && entryScheck e == 0 && (s.session portSlot).isSome
    | some _ => match s.session (entrySession e) with
      | some x => !x.isPort && x.scheck.toNat == entryScheck e
      | none => false

/-- The checks that a taken command passes first, in order. -/
def State.entryChecks (s : State) (q : Option Nat) (e : List Byte) (arg : ArgFetch) : List (Bool × Nat) :=
  let op := entryOp e
  let n := entryArgLen e
  [(opListed op && decide (entryFlags e < 8) && fieldAt e 3 1 == 0 && argSuits op n && resSuits op (entryResLen e) &&
      inlineSuits op (entryInline e) && (op != 1 || (entrySession e == 0 && entryScheck e == 0)), Status.cmdFormat),
   (s.entrySessionOk q e, Status.sessionInvalid),
   (entryFlags e % 4 == (if q.isNone then 3 else 0), Status.cmdFormat),
   (decide (n ≤ (if q.isNone then 32768 else 131136)), Status.argSize),
   (match arg with
    | .ok _ => true
    | .error => false, Status.argFault)]

/-- The ring that reserves a command's completion place: the session's home ring, or the ring of the queue (R382). -/
def State.entryRing (s : State) (q : Nat) (e : List Byte) : Nat :=
  if entryOp e = 1 then q
  else match s.session (entrySession e) with
    | some x => if x.isPort then q else x.ring
    | none => q

/-- An entry taken: it enters the in-flight table with a reserved place, and is refused there with the first check of
R378 that fails. -/
def State.takeEntry (s : State) (q : Option Nat) (e : List Byte) (arg : ArgFetch) : State :=
  let c := entryCtx q e
  let ring := (q.map (fun i => s.entryRing i e)).getD 0
  let i : InFlight := { c := c, ring := ring, opcode := entryOp e, inline := entryInline e,
                        arg := match arg with
                          | .ok bs => bs
                          | .error => [],
                        object := entryObject (entryOp e) (entryInline e) }
  let s1 : State := { s with host := { s.host with inflight := s.host.inflight ++ [i] } }
  let s2 := match q with
    | some _ => s1.setRing ring { s1.ring ring with reserved := (s1.ring ring).reserved + 1 }
    | none => s1
  match firstFail (s.entryChecks q e arg) with
  | some st => s2.refuse c st
  | none => s2

/-! ### Which entry is next (R376, R378, R384, R397) -/

/-- The entry at a queue's head. -/
def State.headEntry (s : State) (q : Nat) : List Byte :=
  let c := s.cq q
  Memory.readBytes c.mem (64 * (c.head % 32)) 64

/-- A waiting command of the queue names the object that the entry names. -/
def State.waitsBehind (s : State) (q : Nat) (e : List Byte) : Bool :=
  match entryObject (entryOp e) (entryInline e) with
  | none => false
  | some o => s.host.waiting.any (fun w => match heldCtx w with
    | some cw => cw.queue == some q && s.host.inflight.any (fun i => i.c == cw && i.object == some o)
    | none => false)

/-- Queue q has an entry that can be taken now: the home ring has two places beyond those reserved. -/
def State.takeable (s : State) (q : Nat) : Bool :=
  let c := s.cq q
  let e := s.headEntry q
  let g := s.ring (s.entryRing q e)
  decide (0 < c.submitted) && !c.dbErr && decide (g.reserved + 2 ≤ g.free) && g.enabled && !s.waitsBehind q e

/-- The Compass takes entries: it runs its start-up's firmware, HQ_CTRL.EN is set, the function is bus master, and the
in-flight table has a free place. -/
def State.takesEntries (s : State) : Bool :=
  decide (4 ≤ s.pkg.bootStep) && !s.life.lockdown && !s.pkg.bothDead && s.pkg.busMaster &&
  bitAt (s.regWord RegMap.hqCtrl 0x20000) 0 && decide (s.host.inflight.length < 64)

/-- The queue whose turn it is, round-robin. -/
def State.turn (s : State) : Option Nat :=
  ((rangeFrom 0 16).map (fun i => (s.host.nextQ + i) % 16)).find? s.takeable

end Sys2Proof.Machine
end

