-- ==== Sys2Proof/Machine/HostQueues.lean ====
section
/-! DEFINITION. Command queues, event rings, the BAR0 binding, interrupts and function resets (chapter 14). -/

namespace Sys2Proof.Machine

/-- HQ_DB (R376). -/
def execHqDb (q prod : Nat) (s : State) : Out := .next (s.onBar .bar (if q < 16 then s.doorbell q prod else s))

/-- DB_ERR_CLEAR (R376). -/
def execDbErrClear (q : Nat) (s : State) : Out := .next (s.onBar .bar (if q < 16 then s.clearDbErr q else s))

/-- COMMAND_TAKE (R378): the entry at the head of the queue whose turn it is. `arg` is what the argument fetch brings. A
taken command that passes is judged and completed by its own command. -/
def execCommandTake (q : Nat) (arg : ArgFetch) (s : State) : Out :=
  if s.takesEntries ∧ s.turn = some q then
    let e := s.headEntry q
    let c := s.cq q
    let s1 := s.setCq q { c with head := (c.head + 1) % 64 }
    .next (({ s1 with host := { s1.host with nextQ := (q + 1) % 16 } }).takeEntry (some q) e arg)
  else .next s

/-- HQ_ER_HEAD (R383, Table HO-17). -/
def execHqErHead (r head : Nat) (s : State) : Out :=
  .next (s.onBar .bar <| if r < 16 then s.headPut { who := none, ctx := 0, log := none, off := 0 } r head else s)

/-- RING_ENABLE (R382): EN of HQ_ER_CFG goes from 0 to 1. -/
def execRingEnable (r : Nat) (s : State) : Out :=
  let k := 0x22008 + 0x40 * r
  let w := s.regWord RegMap.hqErCfg k
  if r < 16 ∧ !bitAt w 8 ∧ !s.pkg.bothDead then .next ((s.setRegWord RegMap.hqErCfg k (putBits w 8 1 1)).ringOn r) else .next s

/-- BAR_BIND (R374, Table HO-20). -/
def execBarBind (slot : Nat) (scheck : BitVec 32) (s : State) : Out := .next (s.onBar .bar (s.bind slot scheck))

/-- UNBIND (R374). -/
def execUnbind (s : State) : Out := .next (s.onBar .bar s.unbind)

/-- MSI_X_SIGNAL (R386): ring r's vector, or vector 16 at a rising edge of FAULTN. -/
def execMsixSignal (r : Nat) (s : State) : Out :=
  if s.pkg.bothDead then .next s
  else if r = 16 then
    .next (if s.cart.faultn ∧ s.host.faultnSig = 0 then
      ({ s with host := { s.host with faultnSig := 1 } }).signal 16 else s)
  else if r < 16 ∧ s.signalDue r ∧ s.pkg.busMaster then
    let g := s.ring r
    .next ((s.setRing r { g with unsignalled := 0, notify := false, signalled := g.signalled + 1 }).signal r)
  else .next s

/-- Every ring disabled, its entries gone from the hub. -/
def State.ringsOff (s : State) : State :=
  (rangeFrom 0 16).foldl (fun t r =>
    let k := 0x22008 + 0x40 * r
    let t1 := t.setRegWord RegMap.hqErCfg k (putBits (t.regWord RegMap.hqErCfg k) 8 1 0)
    t1.setRing r { t1.ring r with enabled := false, reserved := 0, held := [], unsignalled := 0, notify := false }) s

/-- FUNCTION_RESET (R394, R397): FLR, PCIe hot reset or link down. Rings are disabled and queues empty, the host sessions
close without events, and the MSI-X registers reset; the port session is unaffected. -/
def execFunctionReset (s : State) : Out :=
  let s1 := s.ringsOff
  let h := s1.host
  let s2 : State := { s1 with host := { h with
    queues := [], nextQ := 0, msixTable := [], msixPending := 0, inflight := h.inflight.filter (fun i => i.c.queue.isNone),
    waiting := h.waiting.filter (fun w => match heldCtx w with
      | some c => c.queue.isNone
      | none => false) } }
  let s3 : State := { s2 with auth := { s2.auth with verify := s2.auth.verify.filter (fun v => v.c.queue.isNone) } }
  .next ((s3.openSlots.filter (fun k => k != portSlot)).foldl (fun t k => t.closeSession k Reason.functionReset) s3)

/-- BUS_MASTER_DISABLE (R397). -/
def execBusMasterDisable (s : State) : Out := .next { s with pkg := { s.pkg with busMaster := false } }

/-- BUS_MASTER_ENABLE (R384, R397): held events are written as places allow. -/
def execBusMasterEnable (s : State) : Out := .next ({ s with pkg := { s.pkg with busMaster := true } }).drainRings

end Sys2Proof.Machine
end

