-- ==== Sys2Proof/Machine/Pins.lean ====
section
/-! DEFINITION. The scan port's TAP, the DBGRST_N line, the trigger pins and the port's registers as commands
(R305 to R311, R316 to R321). Scan commands have no effect on a one-wire member, and line commands none on a scan member. -/

namespace Sys2Proof.Machine

/-! ### Scan instructions (Table PT-8) -/

/-- EXTEST. -/
def execExtest (s : State) : Out := .next (s.setIr 0)

/-- SAMPLE/PRELOAD. -/
def execSamplePreload (s : State) : Out := .next (s.setIr 1)

/-- IDCODE. -/
def execIdcode (s : State) : Out := .next (s.setIr 2)

/-- CLAMP. -/
def execClamp (s : State) : Out := .next (s.setIr 3)

/-- HIGHZ. -/
def execHighz (s : State) : Out := .next (s.setIr 4)

/-- LEDGER. -/
def execLedger (s : State) : Out := .next (s.setIr 0x20)

/-- BYPASS. -/
def execBypass (s : State) : Out := .next (s.setIr 0xFF)

/-- LEDGER_WORD (R306): Capture-DR loads the next outbound word or the idle word; after exactly 64 shifts it is consumed and the
shifted word arrives; after any other count nothing is delivered or consumed. -/
def execLedgerWord (shifts : Nat) (w : Word) (s : State) : Out :=
  if !s.scanPort ∨ !s.pkg.aonUp ∨ s.port.ir ≠ 0x20 then .next s
  else
    let s0 : State := { s with port := { s.port with drOut := some s.ledgerOut } }
    if shifts ≠ 64 then .next s0.framingError
    else .next (State.inWord 516 w { s0 with port := s0.port.consume }).answerUndefined

/-- TEST_LOGIC_RESET by TMS (R303, R308, Table PT-6): the partial packet is discarded and the hub hunts; the session stays open. -/
def execTestLogicReset (s : State) : Out :=
  if s.scanPort ∧ s.pkg.aonUp then
    let t := s.tapReset
    .next { t with port := { t.port with hunting := true } }
  else .next s

/-- TRST_N low (R308, R312, Table TP-7): the TAP is reset, the Ledger framing and SEQ are cleared, and the session closes. -/
def execTrstN (s : State) : Out :=
  if s.scanPort ∧ s.pkg.aonUp then
    let s1 := s.tapReset.closeSession portSlot Reason.trst
    .next { s1 with port := { s1.port with
      seq := 0, lastCrc := 0, sessionFresh := true, response := none, inWords := [], hunting := false, events := [] } }
  else .next s

/-! ### DBGRST_N (R309, Table PT-10) -/

/-- Until AON reset is released a low of the line is taken as package reset, held until the line returns high (Table PT-1). -/
def State.earlyReset (s : State) : State :=
  if s.pkg.powered && !s.pkg.warmHeld then
    let s1 := s.packageWarm
    { s1 with pkg := { s1.pkg with warmHeld := true } }
  else s

/-- DBGRST_N_GLITCH: a low of 8 µs begins to count: a packet in progress is discarded under Table PT-6 (R303), and the hub
drives nothing any more. -/
def execDbgrstGlitch (s : State) : Out :=
  if s.scanPort then .next s
  else if !s.pkg.aonUp then .next s.earlyReset
  else
    let s1 := if s.port.partialHeld.isEmpty then s else s.framingError
    .next { s1 with port := { s1.port with lineLow := some s.pkg.meridian, driving := false, pollOpen := false } }

/-- DBGRST_N_RESET: at 100 µs the package warm reset is asserted, and held until the line returns high. -/
def execDbgrstReset (s : State) : Out :=
  if s.scanPort then .next s
  else if !s.pkg.aonUp then .next s.earlyReset
  else if s.pkg.warmHeld then .next s
  else
    let s1 := s.packageWarm
    .next { s1 with pkg := { s1.pkg with warmHeld := true } }

/-- DBGRST_N_HIGH: the line returns high after a long low: a reset interval ends, or a glitch is counted. No sampler counts
before AON reset is released. -/
def execDbgrstHigh (s : State) : Out :=
  let p := s.port
  if s.scanPort then .next s
  else if !s.pkg.aonUp then .next { s with pkg := { s.pkg with warmHeld := false } }
  else if s.pkg.warmHeld then
    .next { s with port := { p with resets := sat16 p.resets, lineLow := none }, pkg := { s.pkg with warmHeld := false } }
  else if p.lineLow.isSome then .next { s with port := { p with glitches := sat16 p.glitches, lineLow := none } }
  else .next s

/-! ### Trigger pins (R317 to R319, Table PT-12) -/

/-- TRIG_IN_ASSERTION: while TI_EN is set, the assertion reaches every post and the root engine: event TRIG and source 21; during the pin's
guard it is ignored and counted. -/
def execTrigInAssertion (s : State) : Out :=
  let w := s.regWord RegMap.cmpPtCfg 0x11200
  if !s.pkg.aonUp then .next s
  else
    let s1 : State := { s with port := { s.port with trigIn := !bitAt w 2 } }
    if !bitAt w 0 then .next s1
    else if s.port.guardIn then .next { s1 with port := { s1.port with guardDrops := sat16 s.port.guardDrops } }
    else
      let s2 : State := { s1 with port := { s1.port with tiCount := s.port.tiCount + 1 } }
      .next (((rangeFrom 0 s.pkg.member.posts).foldl (fun t p => t.trigAt p 21) s2).engineEvent 128 8)

/-- CROSS_PULSE_END: TO_PULSE cycles after the last arrival. -/
def execCrossPulseEnd (s : State) : Out :=
  match s.port.cross with
  | some t => .next (if t.toNat ≤ s.now then { s with port := { s.port with cross := none } } else s)
  | none => .next s

/-- GUARD_INTERVAL_END. -/
def execGuardIntervalEnd (s : State) : Out := .next s.guardEnds

/-! ### Port registers (R321) -/

/-- CMP_PT_CFG_WRITE: an 8-byte write. -/
def execCmpPtCfgWrite (p : Path) (v : Word) (s : State) : Out := .next (s.writeAccess p 0x11200 true v.toNat)

/-- PT_CLR_LINE: CMP_PT_CLR with LINE set. -/
def execPtClrLine (p : Path) (s : State) : Out := .next (s.writeAccess p 0x11220 false 2)

/-- PT_CLR_ERR: CMP_PT_CLR with ERR set. -/
def execPtClrErr (p : Path) (s : State) : Out := .next (s.writeAccess p 0x11220 false 1)

/-- CMP_PT_APR_ACK: written by the port session (R316). -/
def execCmpPtAprAck (n : Nat) (s : State) : Out := .next (s.writeAccess .port 0x11230 false n)

end Sys2Proof.Machine
end

