-- ==== Sys2Proof/Machine/Ports.lean ====
section
/-! DEFINITION. Port packets (R297 to R316, Table PT-4) and the events of the port link. -/

namespace Sys2Proof.Machine

/-! ### READ and WRITE -/

/-- COUNT registers read in turn, each as BAR0 reads it (R297, R298). -/
def State.readMany (off : Nat) (w8 : Bool) : Nat → Nat → State → State × List Word
  | 0, _, s => (s, [])
  | n + 1, i, s =>
    let s1 := s.barRead .port (off + i * widthOf w8) w8
    let r := State.readMany off w8 n (i + 1) s1
    (r.1, s1.host.readData :: r.2)

/-- Values written in turn. -/
def State.writeMany (off : Nat) (w8 : Bool) : Nat → List Word → State → State
  | _, [], s => s
  | i, v :: vs, s => State.writeMany off w8 (i + 1) vs (s.barWrite .port (off + i * widthOf w8) w8 v)

/-- An access word of READ and WRITE: OFFSET, COUNT and WIDTH (R298). -/
def accessOff (w : Word) : Nat := bitsOf w.toNat 0 26
def accessCount (w : Word) : Nat := bitsOf w.toNat 48 10
def accessWide (w : Word) : Bool := w.getLsbD 60

/-- The access word's reserved bits are 0 and COUNT lies in 1 to 512. -/
def accessLegal (w : Word) : Bool :=
  bitsOf w.toNat 26 22 == 0 && bitsOf w.toNat 58 2 == 0 && bitsOf w.toNat 61 3 == 0 &&
  decide (1 ≤ accessCount w ∧ accessCount w ≤ 512)

/-- LEN and the access word of a READ. -/
def readFields (r : Request) : Bool :=
  match r.payload with
  | [w] => accessLegal w
  | _ => false

/-- LEN, the access word and the values of a WRITE, a 4-byte value in bits [31:0] with [63:32] 0 (assumption 175). -/
def writeFields (r : Request) : Bool :=
  match r.payload with
  | w :: vs => accessLegal w && vs.length == accessCount w && (accessWide w || vs.all (fun v => decide (v.toNat < 2 ^ 32)))
  | [] => false

/-- PORT_READ. -/
def execPortRead (f : LineFrame) (s : State) : Out :=
  .next (s.portRequest f 1 readFields true (fun r s =>
    let w := r.payload.headD 0
    let x := State.readMany (accessOff w) (accessWide w) (accessCount w) 0 s
    x.1.respond 0x81 Pt.ok x.2))

/-- PORT_WRITE. -/
def execPortWrite (f : LineFrame) (s : State) : Out :=
  .next (s.portRequest f 2 writeFields false (fun r s =>
    let w := r.payload.headD 0
    (State.writeMany (accessOff w) (accessWide w) 0 (r.payload.drop 1) s).respond 0x82 Pt.ok []))

/-! ### POLL and response slots (R299, R310, R311) -/

/-- SEQ and LEN of a POLL are 0 (assumption 175). -/
def pollFields (r : Request) : Bool := r.plain && r.seq == 0 && r.payload.isEmpty

/-- POLL: never judged for SEQ and never stored. On the one-wire line it opens a response slot, whatever request waits in the
queue; on the scan port its response has LEN 0. -/
def execPoll (f : LineFrame) (s : State) : Out :=
  if !s.pkg.aonUp then .next s
  else if !s.scanPort then
    let s0 := s.lineIn f
    match withoutPoll s0.port.inWords.length s0.port.inWords with
    | some ws => .next ({ s0 with port := { s0.port with inWords := ws, pollOpen := true } } : State).answerUndefined
    | none => .next s0.answerUndefined
  else match s.port.request with
    | some r =>
      if r.type = 3 ∧ s.portReady then
        .next (({ s with port := s.port.takePacket }).offer
          { type := 0x83, seq := 0, status := if pollFields r then Pt.ok else Pt.badRequest, payload := [] })
      else .next s
    | none => .next s

/-- RESPONSE_SLOT: the hub drives one packet: the response not yet sent in a slot, the oldest event, or an empty POLL
response. It is taken as its frame ends. -/
def execResponseSlot (s : State) : Out :=
  let p := s.port
  if s.scanPort ∨ !p.pollOpen then .next s
  else
    let q := { p with pollOpen := false, driving := true }
    let s1 : State := { s with port :=
      if !p.taken then
        { q with outWords := (((p.order <|> p.response).map Resp.words).getD []), outEvent := false, taken := true }
      else match p.events with
        | e :: es => { q with outWords := eventWords_ e, outEvent := true, events := es }
        | [] => { q with outWords := Resp.words { type := 0x83, seq := 0, status := Pt.ok, payload := [] }, outEvent := false } }
    .next s1

/-- LINE_COLLISION: another driver holds the line; the hub stops, counts it, and the slot's packet is offered again. -/
def execLineCollision (s : State) : Out :=
  let p := s.port
  if s.scanPort ∨ !p.driving then .next s
  else
    let q := { p with driving := false, collisions := sat16 p.collisions, outWords := [], outEvent := false }
    .next { s with port :=
      if p.outEvent then { q with events := (p.outWords.drop 1).dropLast :: p.events }
      else if bitsOf (p.outWords.headD 0).toNat 40 8 = 0x83 then q
      else { q with taken := false } }

/-- DRIVER_RELEASE: a low that the hub has held for 2 µs is released (R311). -/
def execDriverRelease (s : State) : Out :=
  .next (if s.scanPort then s else { s with port := { s.port with driving := false } })

/-! ### CHALLENGE and RESPOND (R313 to R315, Table PT-11) -/

/-- KEY, LEVEL and CTXID fit the table. -/
def challengeFields (key level : Nat) (ctx : Ctx) : Bool :=
  match key with
  | 1 => level == 3 && ctx == 0
  | 2 => (level == 1 || level == 2) && decide (ctx < 4096)
  | 3 | 4 | 5 => level == 4 && ctx == 0
  | _ => false

/-- The class is accepted in the lifecycle state and its key is registered. -/
def State.portKeyOk (s : State) (key : Nat) (ctx : Ctx) : Bool :=
  match key with
  | 2 => !s.life.lockdown && s.life.state == .production && (s.reg ctx).isSome
  | _ => (s.life.lockdown && key == 5) || s.keyAccepted key

/-- KEY, LEVEL and CTXID of a CHALLENGE, `none` for another LEN or a reserved bit that is set (Table PT-4). -/
def challengeArgs (r : Request) : Option (Nat × Nat × Ctx) :=
  match r.payload with
  | [w] => if w.toNat < 2 ^ 28 then some (bitsOf w.toNat 0 8, bitsOf w.toNat 8 8, bitsOf w.toNat 16 12) else none
  | _ => none

/-- The answer to an accepted CHALLENGE: a nonce that lives 10 s, unless a lockout runs (R313, R315). -/
def State.challenge (s : State) (key level : Nat) (ctx : Ctx) : State :=
  let s1 : State := { s with port := { s.port with chall := none } }
  if s.portLocked then s1.respond 0x84 Pt.lockedOut []
  else if !s.portKeyOk key ctx then s1.respond 0x84 Pt.keyAbsent []
  else
    let nonce := Config.drbg256 s.drawn
    let c : Challenge := { nonce := nonce, key := key, level := level, ctx := ctx, endT := word (s.now + 10000000000) }
    ({ s1.draw with port := { s1.port with chall := some c } }).respond 0x84 Pt.ok
      ((rangeFrom 0 4).map (fun i => nonce.extractLsb' (64 * i) 64))

/-- The head of the queue is a CHALLENGE of the maker analysis class, which LOCKDOWN serves (Table PT-13). -/
def State.analysisChallenge (s : State) : Bool :=
  match s.port.request.bind challengeArgs with
  | some (key, _, _) => key == 5
  | none => false

/-- CHALLENGE. -/
def execChallenge (f : LineFrame) (s : State) : Out :=
  let fields (r : Request) : Bool := match challengeArgs r with
    | some (key, level, ctx) => challengeFields key level ctx
    | none => false
  .next (s.portRequest f 4 fields (s.lineIn f).analysisChallenge (fun r s => match challengeArgs r with
    | some (key, level, ctx) => s.challenge key level ctx
    | none => s))

/-- A challenge's grant in the port session. -/
def Session.challengeGrant (x : Session) (now : Nat) (c : Challenge) : Session :=
  if c.key = 2 then
    let g : CtxGrant := match x.tenants.find? (fun g => g.ctx == c.ctx) with
      | some g => { g with portLevel := c.level }
      | none => { ctx := c.ctx, level := 0, seq := 0, expiry := 0, portLevel := c.level }
    { x with tenants := putTenant now g x.tenants }
  else x.setKeyGrant c.key { x.keyGrant c.key with viaPort := true }

/-- The answer to an accepted RESPOND: the signature is judged against the live nonce, and each success adds its grant.
`sigOk` is the verdict (R313, R314). -/
def State.respondTo (s : State) (sigOk : Bool) : State :=
  let gone : State := { s with port := { s.port with chall := none } }
  match s.port.chall, s.session portSlot with
  | some c, some x =>
    if c.endT.toNat ≤ s.now then gone.respond 0x85 Pt.nonceStale []
    else if !s.portKeyOk c.key c.ctx then gone.respond 0x85 Pt.keyAbsent []
    else if !sigOk then gone.portFail.respond 0x85 Pt.authFailed []
    else if c.key == 2 && !x.ctxRoom s.now c.ctx then gone.portPass.respond 0x85 Pt.ctxLimit []
    else
      let s1 := gone.portPass.setSession portSlot (some (x.challengeGrant s.now c))
      let held := ((s1.session portSlot).map (fun y => y.held s1.now)).getD 0
      s1.respond 0x85 Pt.ok [word (s1.levelCode portSlot + 256 * held)]
  | _, _ => gone.respond 0x85 Pt.nonceStale []

/-- RESPOND: LOCKDOWN serves the one that answers a maker analysis challenge. -/
def execRespond (f : LineFrame) (sigOk : Bool) (s : State) : Out :=
  let maker : Bool := match s.port.chall with
    | some c => c.key == 5
    | none => true
  .next (s.portRequest f 5 (fun r => r.payload.length == 8) maker (fun _ s => s.respondTo sigOk))

/-! ### COMMAND and CLOSE -/

/-- PORT_COMMAND: one command entry is delivered; it is judged as a taken entry (R377, R378), and its completion is the
response. -/
def execPortCommand (f : LineFrame) (s : State) : Out :=
  .next (s.portRequest f 6 (fun r => r.payload.length == 8) false (fun r s =>
    let entry := r.payload.flatMap (fun w => leBytes 8 w.toNat)
    s.takeEntry none entry (.ok (s.entryArg entry))))

/-- PORT_CLOSE: the session closes after the response is formed (R312). -/
def execPortClose (f : LineFrame) (s : State) : Out :=
  .next (s.portRequest f 7 (fun r => r.payload.isEmpty) true (fun _ s => (s.respond 0x87 Pt.ok []).closeSession portSlot Reason.close))

/-! ### Time-outs (R301, R312, R313, R315) -/

/-- PARTIAL_PACKET_STALL: 1 s after the last word of a partial packet. -/
def execPartialPacketStall (s : State) : Out :=
  let p := s.port
  if p.partialHeld.isEmpty || decide (s.now < p.partialT.toNat + 1000000000) || !s.pkg.aonUp then .next s
  else .next (({ s with port := { p.dropPartial with stalls := sat16 p.stalls, hunting := true } }).portReport 1)

/-- NONCE_EXPIRY. -/
def execNonceExpiry (s : State) : Out :=
  match s.port.chall with
  | some c => .next (if c.endT.toNat ≤ s.now then { s with port := { s.port with chall := none } } else s)
  | none => .next s

/-- LOCKOUT_EXPIRY. -/
def execLockoutExpiry (s : State) : Out :=
  match s.port.lockEnd with
  | some t => .next (if t.toNat ≤ s.now then { s with port := { s.port with lockEnd := none } } else s)
  | none => .next s

/-- IDLE_CLOSE: no request accepted for IDLE_S seconds. -/
def execIdleClose (s : State) : Out :=
  let idle := s.regBits RegMap.cmpPtCfg 0x11200 48 16
  if (s.session portSlot).isSome ∧ !s.pkg.bothDead ∧ s.port.lastReqT.toNat + idle * 1000000000 ≤ s.now then
    .next ((s.portReport 6).closeSession portSlot Reason.idle)
  else .next s

end Sys2Proof.Machine
end

