-- ==== Sys2Proof/Machine/Dispatch.lean ====
section
/-! DEFINITION. One arm per command: the call of its meaning. -/

namespace Sys2Proof.Machine

/-- What a command does to everything but the queue. -/
def exec (i : Instr) (s : State) : Host.Outcome State Fault Refusal :=
  match i with
  | .registerWrite p addr w8 v => Sys2Proof.Machine.execRegisterWrite p addr w8 v s
  | .reservedSpaceAccess p addr ctx => Sys2Proof.Machine.execReservedSpaceAccess p addr ctx s
  | .cmpMeridianRead p part => Sys2Proof.Machine.execCmpMeridianRead p part s
  | .postWindowAccess p post off w8 wr => Sys2Proof.Machine.execPostWindowAccess p post off w8 wr s
  | .postNoAnswer p post => Sys2Proof.Machine.execPostNoAnswer p post s
  | .iwAccess p ap off w8 wr answer => Sys2Proof.Machine.execIwAccess p ap off w8 wr answer s
  | .packagePowerOn => Sys2Proof.Machine.execPackagePowerOn s
  | .aonResetRelease => Sys2Proof.Machine.execAonResetRelease s
  | .lifecycleDecide => Sys2Proof.Machine.execLifecycleDecide s
  | .bootSelfTest okA okB => Sys2Proof.Machine.execBootSelfTest okA okB s
  | .bootSlotSelect verifyA verifyB => Sys2Proof.Machine.execBootSlotSelect verifyA verifyB s
  | .hbmReady ctrl bad => Sys2Proof.Machine.execHbmReady ctrl bad s
  | .hbmReadyTimeout ctrl => Sys2Proof.Machine.execHbmReadyTimeout ctrl s
  | .enumerationClose dead => Sys2Proof.Machine.execEnumerationClose dead s
  | .coreRelease => Sys2Proof.Machine.execCoreRelease s
  | .hubColdReset c undrained => Sys2Proof.Machine.execHubColdReset c undrained s
  | .hubWarmReset c undrained => Sys2Proof.Machine.execHubWarmReset c undrained s
  | .postRestart c post undrained => Sys2Proof.Machine.execPostRestart c post undrained s
  | .postRestartDone post pass => Sys2Proof.Machine.execPostRestartDone post pass s
  | .packageWarmReset => Sys2Proof.Machine.execPackageWarmReset s
  | .coreSleep core => Sys2Proof.Machine.execCoreSleep core s
  | .coreWakeRequest core => Sys2Proof.Machine.execCoreWakeRequest core s
  | .creditRefill => Sys2Proof.Machine.execCreditRefill s
  | .epoch => Sys2Proof.Machine.execEpoch s
  | .meridianLoadFlit die value => Sys2Proof.Machine.execMeridianLoadFlit die value s
  | .linkRetrain near far failed => Sys2Proof.Machine.execLinkRetrain near far failed s
  | .pllUnlock die => Sys2Proof.Machine.execPllUnlock die s
  | .pllRelock die => Sys2Proof.Machine.execPllRelock die s
  | .relockReport die => Sys2Proof.Machine.execRelockReport die s
  | .meridianWrap => Sys2Proof.Machine.execMeridianWrap s
  | .latticeHaltPulse chan die sentT => Sys2Proof.Machine.execLatticeHaltPulse chan die sentT s
  | .xtrigPulse die => Sys2Proof.Machine.execXtrigPulse die s
  | .postPower c post action => Sys2Proof.Machine.execPostPower c post action s
  | .postWakeDone post pass => Sys2Proof.Machine.execPostWakeDone post pass s
  | .updActivate c manual force => Sys2Proof.Machine.execUpdActivate c manual force s
  | .heldRequestResume ix => Sys2Proof.Machine.execHeldRequestResume ix s
  | .clampClr p post mask => Sys2Proof.Machine.execClampClr p post mask s
  | .groupCreate c slot arg => Sys2Proof.Machine.execGroupCreate c slot arg s
  | .qlTake p e => Sys2Proof.Machine.execQlTake p e s
  | .qlLoad p e => Sys2Proof.Machine.execQlLoad p e s
  | .qlStart p e => Sys2Proof.Machine.execQlStart p e s
  | .qlStop p e => Sys2Proof.Machine.execQlStop p e s
  | .qlContinue p e => Sys2Proof.Machine.execQlContinue p e s
  | .qlStep p e => Sys2Proof.Machine.execQlStep p e s
  | .qlRelease p e => Sys2Proof.Machine.execQlRelease p e s
  | .qlKick p e => Sys2Proof.Machine.execQlKick p e s
  | .engineRestoreDone e => Sys2Proof.Machine.execEngineRestoreDone e s
  | .engineMemoryWrite p e prog off w8 v => Sys2Proof.Machine.execEngineMemoryWrite p e prog off w8 v s
  | .probeRequestServed e tag answers => Sys2Proof.Machine.execProbeRequestServed e tag answers s
  | .probeResponse e tag => Sys2Proof.Machine.execProbeResponse e tag s
  | .probeTimeout e tag => Sys2Proof.Machine.execProbeTimeout e tag s
  | .waitComplete e => Sys2Proof.Machine.execWaitComplete e s
  | .budgetExpiry e => Sys2Proof.Machine.execBudgetExpiry e s
  | .qNop e f => Sys2Proof.Machine.execQNop e f s
  | .qEnd e f => Sys2Proof.Machine.execQEnd e f s
  | .qSyncp e f => Sys2Proof.Machine.execQSyncp e f s
  | .qBr e f => Sys2Proof.Machine.execQBr e f s
  | .qBrz e f => Sys2Proof.Machine.execQBrz e f s
  | .qBrnz e f => Sys2Proof.Machine.execQBrnz e f s
  | .qCall e f => Sys2Proof.Machine.execQCall e f s
  | .qRet e f => Sys2Proof.Machine.execQRet e f s
  | .qLoop e f => Sys2Proof.Machine.execQLoop e f s
  | .qWaitev e f => Sys2Proof.Machine.execQWaitev e f s
  | .qSleep e f => Sys2Proof.Machine.execQSleep e f s
  | .qBudget e f => Sys2Proof.Machine.execQBudget e f s
  | .qYield e f => Sys2Proof.Machine.execQYield e f s
  | .qAdd e f => Sys2Proof.Machine.execQAdd e f s
  | .qSub e f => Sys2Proof.Machine.execQSub e f s
  | .qAnd e f => Sys2Proof.Machine.execQAnd e f s
  | .qOr e f => Sys2Proof.Machine.execQOr e f s
  | .qXor e f => Sys2Proof.Machine.execQXor e f s
  | .qShl e f => Sys2Proof.Machine.execQShl e f s
  | .qShr e f => Sys2Proof.Machine.execQShr e f s
  | .qSar e f => Sys2Proof.Machine.execQSar e f s
  | .qAddi e f => Sys2Proof.Machine.execQAddi e f s
  | .qAndi e f => Sys2Proof.Machine.execQAndi e f s
  | .qOri e f => Sys2Proof.Machine.execQOri e f s
  | .qLui e f => Sys2Proof.Machine.execQLui e f s
  | .qCmpeq e f => Sys2Proof.Machine.execQCmpeq e f s
  | .qCmpltu e f => Sys2Proof.Machine.execQCmpltu e f s
  | .qCmplt e f => Sys2Proof.Machine.execQCmplt e f s
  | .qPopc e f => Sys2Proof.Machine.execQPopc e f s
  | .qCrc e f => Sys2Proof.Machine.execQCrc e f s
  | .qMin e f => Sys2Proof.Machine.execQMin e f s
  | .qMax e f => Sys2Proof.Machine.execQMax e f s
  | .qMov e f => Sys2Proof.Machine.execQMov e f s
  | .qLd e f => Sys2Proof.Machine.execQLd e f s
  | .qSt e f => Sys2Proof.Machine.execQSt e f s
  | .qLdw e f => Sys2Proof.Machine.execQLdw e f s
  | .qStw e f => Sys2Proof.Machine.execQStw e f s
  | .qPst e f => Sys2Proof.Machine.execQPst e f s
  | .qLdp e f => Sys2Proof.Machine.execQLdp e f s
  | .qUread e f => Sys2Proof.Machine.execQUread e f s
  | .qUwrite e f => Sys2Proof.Machine.execQUwrite e f s
  | .qUwait e f => Sys2Proof.Machine.execQUwait e f s
  | .qUdesc e f => Sys2Proof.Machine.execQUdesc e f s
  | .qUchild e f => Sys2Proof.Machine.execQUchild e f s
  | .qUgroup e f => Sys2Proof.Machine.execQUgroup e f s
  | .qHalt e f => Sys2Proof.Machine.execQHalt e f s
  | .qStep e f => Sys2Proof.Machine.execQStep e f s
  | .qResume e f => Sys2Proof.Machine.execQResume e f s
  | .qFreeze e f => Sys2Proof.Machine.execQFreeze e f s
  | .qThaw e f => Sys2Proof.Machine.execQThaw e f s
  | .qCutq e f => Sys2Proof.Machine.execQCutq e f s
  | .qFbegin e f => Sys2Proof.Machine.execQFbegin e f s
  | .qFseg e f => Sys2Proof.Machine.execQFseg e f s
  | .qFend e f => Sys2Proof.Machine.execQFend e f s
  | .qFmark e f => Sys2Proof.Machine.execQFmark e f s
  | .qReduce e f => Sys2Proof.Machine.execQReduce e f s
  | .qMcast e f => Sys2Proof.Machine.execQMcast e f s
  | .qInk e f => Sys2Proof.Machine.execQInk e f s
  | .qCart e f => Sys2Proof.Machine.execQCart e f s
  | .qRaise e f => Sys2Proof.Machine.execQRaise e f s
  | .qWsnap e f => Sys2Proof.Machine.execQWsnap e f s
  | .qWscan e f => Sys2Proof.Machine.execQWscan e f s
  | .haltCommand c scope mode param => Sys2Proof.Machine.execHaltCommand c scope mode param s
  | .stepCommand c scope param => Sys2Proof.Machine.execStepCommand c scope param s
  | .resumeCommand c scope param => Sys2Proof.Machine.execResumeCommand c scope param s
  | .freezeCommand c scope param => Sys2Proof.Machine.execFreezeCommand c scope param s
  | .thawCommand c scope param => Sys2Proof.Machine.execThawCommand c scope param s
  | .hopMulticast hop unit => Sys2Proof.Machine.execHopMulticast hop unit s
  | .targetTimeMatch core d => Sys2Proof.Machine.execTargetTimeMatch core d s
  | .classFreeze hop unit => Sys2Proof.Machine.execClassFreeze hop unit s
  | .classThaw hop unit => Sys2Proof.Machine.execClassThaw hop unit s
  | .flitParked router port flit => Sys2Proof.Machine.execFlitParked router port flit s
  | .boundaryHoldStart hop router cluster => Sys2Proof.Machine.execBoundaryHoldStart hop router cluster s
  | .coreSettled core => Sys2Proof.Machine.execCoreSettled core s
  | .hopConfirmation hop unit => Sys2Proof.Machine.execHopConfirmation hop unit s
  | .hopDeadline hop => Sys2Proof.Machine.execHopDeadline hop s
  | .stepStart hop core => Sys2Proof.Machine.execStepStart hop core s
  | .stepEnd core => Sys2Proof.Machine.execStepEnd core s
  | .resumeRelease hop stage d => Sys2Proof.Machine.execResumeRelease hop stage d s
  | .boundaryRelease hop => Sys2Proof.Machine.execBoundaryRelease hop s
  | .setLoad c slot arg => Sys2Proof.Machine.execSetLoad c slot arg s
  | .setArm slot => Sys2Proof.Machine.execSetArm slot s
  | .setDisarm slot => Sys2Proof.Machine.execSetDisarm slot s
  | .iacMatch core n tg addr => Sys2Proof.Machine.execIacMatch core n tg addr s
  | .dacMatch core n tg store lanes => Sys2Proof.Machine.execDacMatch core n tg store lanes s
  | .scmpMatch cluster n ev cyc => Sys2Proof.Machine.execScmpMatch cluster n ev cyc s
  | .counterEvent core n amount => Sys2Proof.Machine.execCounterEvent core n amount s
  | .stageSourceArrival h chain src units cyc => Sys2Proof.Machine.execStageSourceArrival h chain src units cyc s
  | .chainWindowExpiry h chain => Sys2Proof.Machine.execChainWindowExpiry h chain s
  | .countWrite p core n v => Sys2Proof.Machine.execCountWrite p core n v s
  | .fetchMatchDiscarded core => Sys2Proof.Machine.execFetchMatchDiscarded core s
  | .jobCreate c slot arg => Sys2Proof.Machine.execJobCreate c slot arg s
  | .jobStart c slot => Sys2Proof.Machine.execJobStart c slot s
  | .queuedPartStart post => Sys2Proof.Machine.execQueuedPartStart post s
  | .captureBlock job post seg src foreign refEcc coded => Sys2Proof.Machine.execCaptureBlock job post seg src foreign refEcc coded s
  | .committedPointer job post => Sys2Proof.Machine.execCommittedPointer job post s
  | .partEnd job post => Sys2Proof.Machine.execPartEnd job post s
  | .jobDone job => Sys2Proof.Machine.execJobDone job s
  | .folioExport c job render off len => Sys2Proof.Machine.execFolioExport c job render off len s
  | .exportChunk ix eccBlocks damaged => Sys2Proof.Machine.execExportChunk ix eccBlocks damaged s
  | .exportDone ix => Sys2Proof.Machine.execExportDone ix s
  | .exportPauseTimeout ix => Sys2Proof.Machine.execExportPauseTimeout ix s
  | .pwrWarn undrained => Sys2Proof.Machine.execPwrWarn undrained s
  | .pwrWarnDeassert => Sys2Proof.Machine.execPwrWarnDeassert s
  | .cartoucheReport reporter cls code detail ctx => Sys2Proof.Machine.execCartoucheReport reporter cls code detail ctx s
  | .cartoucheArrival router r => Sys2Proof.Machine.execCartoucheArrival router r s
  | .closeTime router ix => Sys2Proof.Machine.execCloseTime router ix s
  | .intakeArrival r => Sys2Proof.Machine.execIntakeArrival r s
  | .collectorWrite => Sys2Proof.Machine.execCollectorWrite s
  | .cmpCaPop p v => Sys2Proof.Machine.execCmpCaPop p v s
  | .faultnRelease p => Sys2Proof.Machine.execFaultnRelease p s
  | .ctxLostClear p => Sys2Proof.Machine.execCtxLostClear p s
  | .heartbeatFrame atB => Sys2Proof.Machine.execHeartbeatFrame atB s
  | .mirrorFrame => Sys2Proof.Machine.execMirrorFrame s
  | .heartbeatMiss atB => Sys2Proof.Machine.execHeartbeatMiss atB s
  | .peerProbeAnswer => Sys2Proof.Machine.execPeerProbeAnswer s
  | .peerProbeTimeout => Sys2Proof.Machine.execPeerProbeTimeout s
  | .takeoverMulticast unit => Sys2Proof.Machine.execTakeoverMulticast unit s
  | .postHeartbeat post => Sys2Proof.Machine.execPostHeartbeat post s
  | .postHeartbeatArrival post => Sys2Proof.Machine.execPostHeartbeatArrival post s
  | .heartbeatAck post => Sys2Proof.Machine.execHeartbeatAck post s
  | .postLost post => Sys2Proof.Machine.execPostLost post s
  | .postMemoryError post => Sys2Proof.Machine.execPostMemoryError post s
  | .adopt post undrained => Sys2Proof.Machine.execAdopt post undrained s
  | .postRestored post => Sys2Proof.Machine.execPostRestored post s
  | .loneSurvey post => Sys2Proof.Machine.execLoneSurvey post s
  | .snapshotTime env => Sys2Proof.Machine.execSnapshotTime env s
  | .snap post queued => Sys2Proof.Machine.execSnap post queued s
  | .joinComplete => Sys2Proof.Machine.execJoinComplete s
  | .policy c ctx row cycleEn quiescentEn dl dm job => Sys2Proof.Machine.execPolicy c ctx row cycleEn quiescentEn dl dm job s
  | .policyHaltIssue ix => Sys2Proof.Machine.execPolicyHaltIssue ix s
  | .deadlineSet c jobId row obj target t => Sys2Proof.Machine.execDeadlineSet c jobId row obj target t s
  | .deadlineClear c ctx row jobId => Sys2Proof.Machine.execDeadlineClear c ctx row jobId s
  | .deadlineMet post ix value => Sys2Proof.Machine.execDeadlineMet post ix value s
  | .deadlineMissed post ix => Sys2Proof.Machine.execDeadlineMissed post ix s
  | .synchronisationWait group obj objCtx => Sys2Proof.Machine.execSynchronisationWait group obj objCtx s
  | .producerRegistration obj group objCtx => Sys2Proof.Machine.execProducerRegistration obj group objCtx s
  | .inkwellStore group lanes => Sys2Proof.Machine.execInkwellStore group lanes s
  | .stationDropReport cluster => Sys2Proof.Machine.execStationDropReport cluster s
  | .funnelPacket post => Sys2Proof.Machine.execFunnelPacket post s
  | .lossPacket post slot => Sys2Proof.Machine.execLossPacket post slot s
  | .lineCommit post slot => Sys2Proof.Machine.execLineCommit post slot s
  | .streamCreate c slot arg => Sys2Proof.Machine.execStreamCreate c slot arg s
  | .streamExport c slot post consume pages => Sys2Proof.Machine.execStreamExport c slot post consume pages s
  | .svpItFree p post count => Sys2Proof.Machine.execSvpItFree p post count s
  | .streamEnded slot => Sys2Proof.Machine.execStreamEnded slot s
  | .serialWord => Sys2Proof.Machine.execSerialWord s
  | .portRead f => Sys2Proof.Machine.execPortRead f s
  | .portWrite f => Sys2Proof.Machine.execPortWrite f s
  | .poll f => Sys2Proof.Machine.execPoll f s
  | .responseSlot => Sys2Proof.Machine.execResponseSlot s
  | .lineCollision => Sys2Proof.Machine.execLineCollision s
  | .driverRelease => Sys2Proof.Machine.execDriverRelease s
  | .challenge f => Sys2Proof.Machine.execChallenge f s
  | .respond f sigOk => Sys2Proof.Machine.execRespond f sigOk s
  | .portCommand f => Sys2Proof.Machine.execPortCommand f s
  | .portClose f => Sys2Proof.Machine.execPortClose f s
  | .partialPacketStall => Sys2Proof.Machine.execPartialPacketStall s
  | .nonceExpiry => Sys2Proof.Machine.execNonceExpiry s
  | .lockoutExpiry => Sys2Proof.Machine.execLockoutExpiry s
  | .idleClose => Sys2Proof.Machine.execIdleClose s
  | .extest => Sys2Proof.Machine.execExtest s
  | .samplePreload => Sys2Proof.Machine.execSamplePreload s
  | .idcode => Sys2Proof.Machine.execIdcode s
  | .clamp => Sys2Proof.Machine.execClamp s
  | .highz => Sys2Proof.Machine.execHighz s
  | .ledger => Sys2Proof.Machine.execLedger s
  | .bypass => Sys2Proof.Machine.execBypass s
  | .ledgerWord shifts w => Sys2Proof.Machine.execLedgerWord shifts w s
  | .testLogicReset => Sys2Proof.Machine.execTestLogicReset s
  | .trstN => Sys2Proof.Machine.execTrstN s
  | .dbgrstGlitch => Sys2Proof.Machine.execDbgrstGlitch s
  | .dbgrstReset => Sys2Proof.Machine.execDbgrstReset s
  | .dbgrstHigh => Sys2Proof.Machine.execDbgrstHigh s
  | .trigInAssertion => Sys2Proof.Machine.execTrigInAssertion s
  | .crossPulseEnd => Sys2Proof.Machine.execCrossPulseEnd s
  | .cmpPtCfgWrite p v => Sys2Proof.Machine.execCmpPtCfgWrite p v s
  | .guardIntervalEnd => Sys2Proof.Machine.execGuardIntervalEnd s
  | .ptClrLine p => Sys2Proof.Machine.execPtClrLine p s
  | .ptClrErr p => Sys2Proof.Machine.execPtClrErr p s
  | .cmpPtAprAck n => Sys2Proof.Machine.execCmpPtAprAck n s
  | .openSession c => Sys2Proof.Machine.execOpenSession c s
  | .closeSession c => Sys2Proof.Machine.execCloseSession c s
  | .grant c arg => Sys2Proof.Machine.execGrant c arg s
  | .grantVerifyDone sigOk => Sys2Proof.Machine.execGrantVerifyDone sigOk s
  | .grantLapse session => Sys2Proof.Machine.execGrantLapse session s
  | .tokenLockoutExpiry session => Sys2Proof.Machine.execTokenLockoutExpiry session s
  | .attest c ctx challenge => Sys2Proof.Machine.execAttest c ctx challenge s
  | .cert c => Sys2Proof.Machine.execCert c s
  | .acquire c kind slot => Sys2Proof.Machine.execAcquire c kind slot s
  | .release c kind slot => Sys2Proof.Machine.execRelease c kind slot s
  | .partitionCreate c slot freezeSet lonePolicy arg pointOk unwrapOk => Sys2Proof.Machine.execPartitionCreate c slot freezeSet lonePolicy arg pointOk unwrapOk s
  | .partitionDestroy c slot => Sys2Proof.Machine.execPartitionDestroy c slot s
  | .engineLoad c e image => Sys2Proof.Machine.execEngineLoad c e image s
  | .opkey c arg pointOk unwrapOk sigOk => Sys2Proof.Machine.execOpkey c arg pointOk unwrapOk sigOk s
  | .uflashWrite c sector data => Sys2Proof.Machine.execUflashWrite c sector data s
  | .uflashRead c sector => Sys2Proof.Machine.execUflashRead c sector s
  | .lifecycle c arg pointOk unwrapOk => Sys2Proof.Machine.execLifecycle c arg pointOk unwrapOk s
  | .wipeComplete => Sys2Proof.Machine.execWipeComplete s
  | .hqDb q prod => Sys2Proof.Machine.execHqDb q prod s
  | .dbErrClear q => Sys2Proof.Machine.execDbErrClear q s
  | .commandTake q arg => Sys2Proof.Machine.execCommandTake q arg s
  | .hqErHead r head => Sys2Proof.Machine.execHqErHead r head s
  | .ringEnable r => Sys2Proof.Machine.execRingEnable r s
  | .barBind slot scheck => Sys2Proof.Machine.execBarBind slot scheck s
  | .unbind => Sys2Proof.Machine.execUnbind s
  | .msixSignal r => Sys2Proof.Machine.execMsixSignal r s
  | .functionReset => Sys2Proof.Machine.execFunctionReset s
  | .busMasterDisable => Sys2Proof.Machine.execBusMasterDisable s
  | .busMasterEnable => Sys2Proof.Machine.execBusMasterEnable s
  | .updBegin c header sigOk => Sys2Proof.Machine.execUpdBegin c header sigOk s
  | .updData c off arg => Sys2Proof.Machine.execUpdData c off arg s
  | .updVerify c sigOk digestOk => Sys2Proof.Machine.execUpdVerify c sigOk digestOk s
  | .updConfirm c => Sys2Proof.Machine.execUpdConfirm c s
  | .updAbort c => Sys2Proof.Machine.execUpdAbort c s
  | .builtInSelfTest pass => Sys2Proof.Machine.execBuiltInSelfTest pass s
  | .trialConfirmTimeout => Sys2Proof.Machine.execTrialConfirmTimeout s
  | .linkTrainingEnd near far delay => Sys2Proof.Machine.execLinkTrainingEnd near far delay s
  | .undefinedOpcode e w => Sys2Proof.Machine.execUndefinedOpcode e w s

end Sys2Proof.Machine
end

