-- ==== Sys2Proof/Machine/Tick.lean ====
section
/-! DEFINITION. One tick of the meridian: what happens when no command waits (assumption 1). -/

namespace Sys2Proof.Machine

/-- HCLK cycles that begin in a tick: four in every 5 ns (Table SC-4). -/
def hclkIn (t : Nat) : Nat := if t % 5 = 0 then 0 else 1

/-- A waiting engine's budget counts down with HCLK, to 0 and no further (R76). -/
def Engine.waitFor (g : Engine) (n : Nat) : Engine :=
  if g.state = .waiting ∧ g.timed then { g with budget := Machine.word (g.budget.toNat - n) } else g

/-- The meridian counts by 1 while AON runs, short of the wrap that MERIDIAN_WRAP stands for (R28); unscheduled
snapshots that are due sample (R230), and the tap queues of the trace path empty into their stations (R252). -/
def State.tick (s : State) : State :=
  if s.pkg.aonUp ∧ s.pkg.meridian ≠ BitVec.allOnes 64 then
    { s with pkg := { s.pkg with meridian := s.pkg.meridian + 1 }
             engines := Tbl.mapVals {} (fun _ g => g.waitFor (hclkIn s.now)) s.engines }.sampleDue.drainTaps
  else s

end Sys2Proof.Machine
end

