-- ==== Sys2Proof/Safety.lean ====
section
/-! DEFINITION. What counts as a safe run, and the words that the claims share: runs that never stop, commands that touch
one part of the state, and states in which an engine is ready to execute a word. -/

namespace Sys2Proof.Machine

/-- A step that goes on: no fault and no refusal. -/
def StepsOn (s : State) : Prop := ∃ t, step s = .next t

/-- `n` steps go on. -/
def RunsOn (s : State) : Nat → Prop
  | 0 => True
  | n + 1 => ∃ t, step s = .next t ∧ RunsOn t n

/-- The tables whose canonical form the claims speak of are in it: keys rise, no entry equals the default. -/
def State.canonical (s : State) : Prop :=
  Tbl.wf {} s.engines = true ∧ Tbl.wf {} s.cores = true ∧ Tbl.wf {} s.posts = true ∧ Tbl.wf 0 s.regs = true

/-- `t` differs from `s` in engine `e` alone, which stands as `g`. -/
structure OnlyEngine (s t : State) (e : Nat) (g : Engine) : Prop where
  rest   : t = { s with engines := t.engines }
  here   : t.engine e = g
  others : ∀ k, k ≠ e → t.engine k = s.engine k

/-- Engine `e` runs, has fetched this word, has budget for its first cycle, and the word is not the last of the code
(R75, R76, R277). -/
def QuillReady (s : State) (e op : Nat) (f : BitVec 24) : Prop :=
  (s.engine e).state = .running ∧ (s.engine e).fetch = wordOf op f ∧ (s.engine e).broke 1 = false ∧
  (s.engine e).pc + 1 < (s.engine e).codeWords

/-- The engine after a word that completes in one cycle and writes `v` to q[d]. -/
def Engine.retired (g : Engine) (d : Nat) (v : Word) : Engine := ((g.setQ d v).charge 1).advance g

end Sys2Proof.Machine
end

