-- ==== Sys2Proof/WellFormed.lean ====
section
/-! DEFINITION. Well-formed commands: every operand within the field that carries it. A command whose operand lies
outside is no command of this block; the machine judges legal values of a field (Tables CH-9, HO-13, …), not this. -/

namespace Sys2Proof

/-- A unit number (R50). -/
def isUno (u : Nat) : Bool := decide (u < 2 ^ 24)

/-- A context number (R322). -/
def isCtx (c : Nat) : Bool := decide (c < 4096)

/-- An engine: a survey post's index, or 128 for the root engine (R70). -/
def isEngine (e : Nat) : Bool := decide (e ≤ 128)

/-- A survey post's index (R5). -/
def isPost (p : Nat) : Bool := decide (p < 128)

/-- A die's index (R3). -/
def isDie (d : Nat) : Bool := decide (d < 64)

/-- An offset of the 64 MB BAR0 (Table HO-1). -/
def isBar (a : Nat) : Bool := decide (a < 2 ^ 26)

/-- A slot of the session table, of queues and of rings. -/
def isSlot (n k : Nat) : Bool := decide (k < n)

/-- An argument area's bytes (Table HO-2, ARG_LEN). -/
def isArg (a : List Byte) : Bool := decide (a.length ≤ 131136)

/-- The sender of a host or port command (R377, R379). -/
def CmdCtx.wellFormed (c : CmdCtx) : Bool :=
  isSlot 256 c.session && (match c.queue with | none => true | some q => isSlot 16 q) &&
  isSlot (2 ^ 32) c.resLen && isSlot (2 ^ 64) c.resAddr

/-- A cartouche record's fields (Table CA-3). -/
def Rec.wellFormed (r : Rec) : Bool :=
  isSlot 256 r.cls && isSlot 32 r.spanE && isSlot 16 r.spanM && isSlot 65536 r.code && isSlot 65536 r.count &&
  isUno r.first && isUno r.last && isCtx r.ctx

/-- A flit's fields. -/
def Flit.wellFormed (x : Flit) : Bool := isUno x.src && isUno x.dst && isSlot 256 x.vc

/-- A lane's access is 1, 2, 4, 8 or 16 bytes of a 48-bit address (R132). -/
def Lane.wellFormed (x : Lane) : Bool := isSlot (2 ^ 48) x.addr && [1, 2, 4, 8, 16].contains x.width

/-- A chain's holder. -/
def Holder.wellFormed : Holder → Bool
  | .tap core => isUno core
  | .station cluster => isUno cluster
  | .post p => isPost p

/-- What a station comparator is offered. -/
def ScmpEvent.wellFormed : ScmpEvent → Bool
  | .issue core tg addr => isSlot 16 core && isSlot 64 tg && isSlot (2 ^ 48) addr
  | .access core tg _ lanes => isSlot 16 core && isSlot 64 tg && lanes.all Lane.wellFormed
  | .dma _ lane => lane.wellFormed

/-- What a drain left of one post's buffer: at most its 64 entries (R187). -/
def Undrained.wellFormed (u : Undrained) : Bool := isPost u.post && decide (u.lines ≤ 64)

/-- Every operand of a command lies within its field. -/
def Instr.wellFormed : Instr → Bool
  -- register access and start-up
  | .registerWrite _ addr _ _ => isBar addr
  | .reservedSpaceAccess _ addr ctx => isBar addr && isCtx ctx
  | .postWindowAccess _ post off _ _ => isPost post && isSlot 0x40000 off
  | .postNoAnswer _ post => isPost post
  | .iwAccess _ ap off _ _ _ => isSlot 256 ap && isSlot 65536 off
  | .cmpMeridianRead _ _ | .packagePowerOn | .aonResetRelease | .lifecycleDecide | .bootSelfTest _ _
  | .bootSlotSelect _ _ | .coreRelease | .packageWarmReset | .creditRefill | .epoch | .meridianWrap => true
  | .hbmReady ctrl _ | .hbmReadyTimeout ctrl => isPost ctrl
  | .enumerationClose dead => dead.all isUno
  | .hubColdReset c us | .hubWarmReset c us => c.wellFormed && us.all Undrained.wellFormed
  | .postRestart c post n => c.wellFormed && isSlot 256 post && decide (n ≤ 64)
  | .postRestartDone post _ | .postWakeDone post _ => isPost post
  | .coreSleep core | .coreWakeRequest core => isUno core
  | .meridianLoadFlit die _ | .pllUnlock die | .pllRelock die | .relockReport die | .xtrigPulse die => isDie die
  | .linkRetrain near far _ => isDie near && isDie far
  | .latticeHaltPulse chan die _ => isSlot 16 chan && isDie die
  | .postPower c post action => c.wellFormed && isSlot 256 post && isSlot 256 action
  | .updActivate c _ _ => c.wellFormed
  | .heldRequestResume _ => true
  | .clampClr _ post _ => (match post with | none => true | some p => isPost p)
  | .groupCreate c slot arg => c.wellFormed && isUno slot && isArg arg
  -- Quill
  | .qlTake _ e | .qlLoad _ e | .qlStart _ e | .qlStop _ e | .qlContinue _ e | .qlStep _ e | .qlRelease _ e
  | .qlKick _ e | .engineRestoreDone e | .waitComplete e | .budgetExpiry e | .undefinedOpcode e _ => isEngine e
  | .engineMemoryWrite _ e _ off _ _ => isEngine e && isSlot 65536 off
  | .probeRequestServed e tag answers => isEngine e && isSlot 256 tag && answers.all (fun a => isUno a.1)
  | .probeResponse e tag | .probeTimeout e tag => isEngine e && isSlot 256 tag
  | .qNop e _ | .qEnd e _ | .qSyncp e _ | .qBr e _ | .qBrz e _ | .qBrnz e _ | .qCall e _ | .qRet e _ | .qLoop e _
  | .qWaitev e _ | .qSleep e _ | .qBudget e _ | .qYield e _ | .qAdd e _ | .qSub e _ | .qAnd e _ | .qOr e _
  | .qXor e _ | .qShl e _ | .qShr e _ | .qSar e _ | .qAddi e _ | .qAndi e _ | .qOri e _ | .qLui e _ | .qCmpeq e _
  | .qCmpltu e _ | .qCmplt e _ | .qPopc e _ | .qCrc e _ | .qMin e _ | .qMax e _ | .qMov e _ | .qLd e _ | .qSt e _
  | .qLdw e _ | .qStw e _ | .qPst e _ | .qLdp e _ | .qUread e _ | .qUwrite e _ | .qUwait e _ | .qUdesc e _
  | .qUchild e _ | .qUgroup e _ | .qHalt e _ | .qStep e _ | .qResume e _ | .qFreeze e _ | .qThaw e _ | .qCutq e _
  | .qFbegin e _ | .qFseg e _ | .qFend e _ | .qFmark e _ | .qReduce e _ | .qMcast e _ | .qInk e _ | .qCart e _
  | .qRaise e _ | .qWsnap e _ | .qWscan e _ => isEngine e
  -- halt operations
  | .haltCommand c scope mode _ => c.wellFormed && isUno scope && isSlot 256 mode
  | .stepCommand c scope _ | .resumeCommand c scope _ | .freezeCommand c scope _ | .thawCommand c scope _ =>
    c.wellFormed && isUno scope
  | .hopMulticast _ u | .classFreeze _ u | .classThaw _ u | .hopConfirmation _ u | .stepStart _ u => isUno u
  | .targetTimeMatch core _ | .coreSettled core | .stepEnd core => isUno core
  | .flitParked router port flit => isUno router && isSlot 256 port && flit.wellFormed
  | .boundaryHoldStart _ router cluster => isUno router && isUno cluster
  | .hopDeadline _ | .boundaryRelease _ => true
  | .resumeRelease _ stage _ => isSlot 5 stage
  -- break and watch
  | .setLoad c slot arg => c.wellFormed && isSlot 65536 slot && isArg arg
  | .setArm slot | .setDisarm slot => isSlot 1024 slot
  | .iacMatch core n tg addr => isUno core && isSlot 4 n && isSlot 64 tg && isSlot (2 ^ 48) addr
  | .dacMatch core n tg _ lanes => isUno core && isSlot 4 n && isSlot 64 tg && lanes.all Lane.wellFormed
  | .scmpMatch cluster n ev _ => isUno cluster && isSlot 8 n && ev.wellFormed
  | .counterEvent core n _ => isUno core && isSlot 2 n
  | .stageSourceArrival h chain src us _ => h.wellFormed && isSlot 16 chain && isSlot 32 src && us.all isUno
  | .chainWindowExpiry h chain => h.wellFormed && isSlot 16 chain
  | .countWrite _ core n _ => isUno core && isSlot 2 n
  | .fetchMatchDiscarded core => isUno core
  -- folios
  | .jobCreate c slot arg => c.wellFormed && isSlot 256 slot && isArg arg
  | .jobStart c slot => c.wellFormed && isSlot 256 slot
  | .queuedPartStart post => isPost post
  | .captureBlock job post _ _ _ _ _ | .committedPointer job post | .partEnd job post => isSlot 64 job && isPost post
  | .jobDone job => isSlot 64 job
  | .folioExport c job _ off len => c.wellFormed && isSlot 256 job && isSlot (2 ^ 64) off && isSlot (2 ^ 64) len
  | .exportChunk _ _ _ | .exportDone _ | .exportPauseTimeout _ | .pwrWarnDeassert => true
  | .pwrWarn us => us.all Undrained.wellFormed
  -- cartouches and failover
  | .cartoucheReport reporter cls code _ ctx => isUno reporter && isSlot 16 cls && isSlot 65536 code && isCtx ctx
  | .cartoucheArrival router r => isUno router && r.wellFormed
  | .closeTime router _ => isUno router
  | .intakeArrival r => r.wellFormed
  | .collectorWrite | .cmpCaPop _ _ | .faultnRelease _ | .ctxLostClear _ | .heartbeatFrame _ | .mirrorFrame
  | .heartbeatMiss _ | .peerProbeAnswer | .peerProbeTimeout => true
  | .takeoverMulticast u => isUno u
  | .postHeartbeat post | .postHeartbeatArrival post | .heartbeatAck post | .postLost post | .postMemoryError post
  | .adopt post _ | .postRestored post | .loneSurvey post => isPost post
  -- synchronisation watch
  | .snapshotTime _ | .joinComplete | .policyHaltIssue _ => true
  | .snap post _ => isPost post
  | .policy c ctx row _ _ dl dm job =>
    c.wellFormed && isSlot 65536 ctx && isSlot 256 row && isSlot 256 dl && isSlot 256 dm && isSlot 256 job
  | .deadlineSet c _ row obj _ _ => c.wellFormed && isSlot 256 row && isUno obj
  | .deadlineClear c ctx row _ => c.wellFormed && isSlot 65536 ctx && isSlot 256 row
  | .deadlineMet post i _ | .deadlineMissed post i => isPost post && isSlot 64 i
  | .synchronisationWait group obj objCtx => isUno group && (match obj with | none => true | some o => isUno o) && isCtx objCtx
  | .producerRegistration obj group objCtx => isUno obj && isUno group && isCtx objCtx
  -- inkwells and trace
  | .inkwellStore group lanes => isUno group && lanes.all (fun st => isSlot 4096 st.off && [0, 1, 2, 4, 8].contains st.width)
  | .stationDropReport cluster => isUno cluster
  | .funnelPacket post => isPost post
  | .lossPacket post slot | .lineCommit post slot => isPost post && isSlot 512 slot
  | .streamCreate c slot arg => c.wellFormed && isSlot 65536 slot && isArg arg
  | .streamExport c slot post _ pages => c.wellFormed && isSlot 65536 slot && isSlot 256 post && isSlot (2 ^ 32) pages
  | .svpItFree _ post n => isPost post && isSlot 65536 n
  | .streamEnded slot => isSlot 512 slot
  | .serialWord => true
  -- external ports and pins
  | .portRead f | .portWrite f | .poll f | .challenge f | .respond f _ | .portCommand f | .portClose f => isSlot 64 f.halfbit
  | .responseSlot | .lineCollision | .driverRelease | .partialPacketStall
  | .nonceExpiry | .lockoutExpiry | .idleClose | .extest | .samplePreload | .idcode | .clamp | .highz | .ledger
  | .bypass | .testLogicReset | .trstN | .dbgrstGlitch | .dbgrstReset | .dbgrstHigh | .trigInAssertion
  | .crossPulseEnd | .cmpPtCfgWrite _ _ | .guardIntervalEnd | .ptClrLine _ | .ptClrErr _ => true
  | .cmpPtAprAck n => isSlot 32 n
  | .ledgerWord shifts _ => decide (shifts ≤ 65)
  -- access and sessions
  | .openSession c | .closeSession c | .cert c => c.wellFormed
  | .grant c arg => c.wellFormed && isArg arg
  | .grantVerifyDone _ => true
  | .grantLapse slot | .tokenLockoutExpiry slot => isSlot 256 slot
  | .attest c ctx ch => c.wellFormed && isSlot 65536 ctx && decide (ch.length = 16)
  | .acquire c kind slot | .release c kind slot => c.wellFormed && isSlot 256 kind && isSlot (2 ^ 32) slot
  | .partitionCreate c slot freezeSet lp arg _ _ =>
    c.wellFormed && isUno slot && isSlot 256 freezeSet && isSlot 256 lp && isArg arg
  | .partitionDestroy c slot => c.wellFormed && isUno slot
  | .engineLoad c e image => c.wellFormed && isSlot 256 e && isArg image
  | .opkey c arg _ _ _ => c.wellFormed && isArg arg
  -- lifecycle
  | .uflashWrite c sector data => c.wellFormed && isSlot 256 sector && isArg data
  | .uflashRead c sector => c.wellFormed && isSlot 256 sector
  | .lifecycle c arg _ _ => c.wellFormed && isArg arg
  | .wipeComplete => true
  -- host queues
  | .hqDb q prod => isSlot 16 q && isSlot 64 prod
  | .dbErrClear q => isSlot 16 q
  | .commandTake q arg => isSlot 16 q && (match arg with | .ok bs => isArg bs | .error => true)
  | .hqErHead r head => isSlot 16 r && isSlot 65536 head
  | .ringEnable r => isSlot 16 r
  | .barBind slot _ => isSlot 256 slot
  | .unbind | .functionReset | .busMasterDisable | .busMasterEnable => true
  | .msixSignal r => isSlot 17 r
  -- firmware update
  | .updBegin c header _ => c.wellFormed && isArg header
  | .updData c off arg => c.wellFormed && isSlot (2 ^ 32) off && isArg arg
  | .updVerify c _ _ => c.wellFormed
  | .updConfirm c | .updAbort c => c.wellFormed
  | .builtInSelfTest _ | .trialConfirmTimeout => true
  | .linkTrainingEnd near far delay => isDie near && isDie far && isSlot 65536 delay

end Sys2Proof
end

