-- ==== Sys2Proof/Certificates/Slice0/Obligations.lean ====
section
/-! DEFINITION. The statements for the provers, by chapter of the spec. -/

section Claims

open Sys2Proof Sys2Proof.Machine

/-! ### Quill instructions (chapters 03 and 10) -/

/-- The register operations of Table QR-6 on two registers: command, opcode and value. -/
def Sys2Proof.Claims.binaryOps : List ((Nat → BitVec 24 → Instr) × Nat × (Word → Word → Word)) :=
  [(.qAdd, 0x20, fun a b => a + b), (.qSub, 0x21, fun a b => a - b), (.qAnd, 0x22, fun a b => a &&& b),
   (.qOr, 0x23, fun a b => a ||| b), (.qXor, 0x24, fun a b => a ^^^ b),
   (.qShl, 0x25, fun a b => word (a.toNat * 2 ^ (b.toNat % 64))),
   (.qShr, 0x26, fun a b => word (a.toNat / 2 ^ (b.toNat % 64))),
   (.qSar, 0x27, fun a b => BitVec.ofInt 64 (a.toInt / 2 ^ (b.toNat % 64)))]

/-- The comparisons of Table QR-6. -/
def Sys2Proof.Claims.compareOps : List ((Nat → BitVec 24 → Instr) × Nat × (Word → Word → Word)) :=
  [(.qCmpeq, 0x2C, fun a b => if a = b then 1 else 0), (.qCmpltu, 0x2D, fun a b => if a.toNat < b.toNat then 1 else 0),
   (.qCmplt, 0x2E, fun a b => if a.toInt < b.toInt then 1 else 0),
   (.qMin, 0x31, fun a b => word (min a.toNat b.toNat)), (.qMax, 0x32, fun a b => word (max a.toNat b.toNat))]

/-- The instructions of Table QR-6 with an immediate, a count or a selector, POPC, and the seven selectors of MOV (Table
QR-7): each completes a ready engine's word in one cycle, with its value in q[d]. -/
def Sys2Proof.Claims.ImmediateOps (s : State) (e : Nat) (f : BitVec 24) : Prop :=
    let g := s.engine e
    let done (i : Instr) (v : Word) : Prop := ∃ t, exec i s = .next t ∧ OnlyEngine s t e (g.retired (fd f) v)
    (QuillReady s e 0x28 f → done (.qAddi e f) (g.q (fa f) + BitVec.ofInt 64 (BitVec.ofNat 16 (fimm f)).toInt)) ∧
    (QuillReady s e 0x29 f → done (.qAndi e f) (g.q (fa f) &&& word (fimm f))) ∧
    (QuillReady s e 0x2A f → done (.qOri e f) (g.q (fa f) ||| word (fimm f))) ∧
    (QuillReady s e 0x2B f → fa f = 0 → done (.qLui e f) (word (65536 * fimm f))) ∧
    (QuillReady s e 0x2F f → fb f = 0 → flow f = 0 →
      done (.qPopc e f) (word ((rangeFrom 0 64).map (fun i => bitsOf (g.q (fa f)).toNat i 1)).sum)) ∧
    (QuillReady s e 0x30 f → fimm f ∈ [1, 2, 4, 8] →
      done (.qCrc e f) ((crcUpdate ((g.q (fd f)).setWidth 32) (leBytes (fimm f) (g.q (fa f)).toNat)).setWidth 64)) ∧
    (QuillReady s e 0x33 f →
      (fimm f = 0 → done (.qMov e f) (g.q (fa f))) ∧
      (fimm f = 1 → fa f = 0 → done (.qMov e f) g.mbox) ∧
      (fimm f = 2 → fd f = 0 → ∃ t, exec (.qMov e f) s = .next t ∧
        OnlyEngine s t e (({ g with mbox := g.q (fa f) }.charge 1).advance g)) ∧
      (fimm f = 3 → fa f = 0 → ∀ n, s.engineNow e = some n → done (.qMov e f) (word n)) ∧
      (fimm f = 3 → fa f = 0 → s.engineNow e = none → done (.qMov e f) (BitVec.allOnes 64)) ∧
      (fimm f = 4 → fa f = 0 → done (.qMov e f) g.budget) ∧
      (fimm f = 5 → fa f = 0 → done (.qMov e f) (word (e * 2 ^ 24 + s.engineUnit e))) ∧
      (fimm f = 6 → fa f = 0 → done (.qMov e f) (word (Tbl.keysSome g.tags).length)))

/-- A command faults an engine with a cause and without an effect on what the program sees (R86). -/
def Sys2Proof.Claims.Faulted (s : State) (e : Nat) (i : Instr) (c : Nat) : Prop :=
  let g := s.engine e
  ∃ t, exec i s = .next t ∧
    (t.engine e).state = .faulted ∧ (t.engine e).cause = c ∧ (t.engine e).fpc = g.pc ∧ (t.engine e).faultT = s.pkg.meridian ∧
    (t.engine e).regs = g.regs ∧ (t.engine e).dmem = g.dmem ∧ (t.engine e).pmem = g.land.pmem ∧
    (t.engine e).tags = g.tags ∧ (t.engine e).stack = g.stack ∧ (t.engine e).budget = (g.charge 1).budget ∧ (t.engine e).pc = g.pc ∧
    g.events &&& (t.engine e).events = g.events

/-- Every instruction of Table QR-6 on an engine that is ready: it completes in one cycle, q[d] takes the table's value, and no other
engine and no other part of the state changes. The register operations have bits [11:0] clear, POPC also q[b]'s field, LUI q[a]'s,
CRC one of its four counts, and MOV a selector of Table QR-7 with that selector's zero fields. -/
def Obligations.QuillRegisterOperations : Prop :=
  (∀ x ∈ Sys2Proof.Claims.binaryOps ++ Sys2Proof.Claims.compareOps, ∀ (s : State) (e : Nat) (f : BitVec 24),
    QuillReady s e x.2.1 f → flow f = 0 →
    ∃ t, exec (x.1 e f) s = .next t ∧
      OnlyEngine s t e ((s.engine e).retired (fd f) (x.2.2 ((s.engine e).q (fa f)) ((s.engine e).q (fb f))))) ∧
  (∀ (s : State) (e : Nat) (f : BitVec 24), (s.engine e).broke 1 = false → Sys2Proof.Claims.ImmediateOps s e f)

/-- The forms of LUI, POPC, CRC and MOV that Tables QR-6 and QR-7 do not list fault, and nothing that the program sees changes: RSVD for
a zero field that is not zero, FIELD for a CRC of another count than 1, 2, 4 or 8 and for a MOV of another selector than 0 to 6. -/
def Obligations.QuillImmediateOperations : Prop :=
  ∀ (s : State) (e : Nat) (f : BitVec 24), s.folios.jobs = [] →
    (QuillReady s e 0x2B f → fa f ≠ 0 → Sys2Proof.Claims.Faulted s e (.qLui e f) Cause.rsvd) ∧
    (QuillReady s e 0x2F f → fb f ≠ 0 ∨ flow f ≠ 0 → Sys2Proof.Claims.Faulted s e (.qPopc e f) Cause.rsvd) ∧
    (QuillReady s e 0x30 f → fimm f ∉ [1, 2, 4, 8] → Sys2Proof.Claims.Faulted s e (.qCrc e f) Cause.field) ∧
    (QuillReady s e 0x33 f →
      (fimm f ∈ [1, 3, 4, 5, 6] → fa f ≠ 0 → Sys2Proof.Claims.Faulted s e (.qMov e f) Cause.rsvd) ∧
      (fimm f = 2 → fd f ≠ 0 → Sys2Proof.Claims.Faulted s e (.qMov e f) Cause.rsvd) ∧
      (6 < fimm f → Sys2Proof.Claims.Faulted s e (.qMov e f) Cause.field))

/-- q[0] reads 0 whatever the registers hold, a write to it is discarded, and a write of another register is read back and
leaves every other register alone. -/
def Obligations.QuillRegisterZero : Prop :=
  ∀ (g : Engine) (i j : Nat) (v : Word),
    g.q 0 = 0 ∧ g.setQ 0 v = g ∧ (i ≠ 0 → (g.setQ i v).q i = v) ∧ (j ≠ i → (g.setQ i v).q j = g.q j)

/-- NOP, END, SYNCP, BR, BRZ, BRNZ, CALL, RET and LOOP (Table QR-5). A taken transfer needs budget for two cycles and
resumes at its target; a word that goes on in sequence is not the last of the code. -/
def Obligations.QuillTransfers : Prop :=
  ∀ (s : State) (e : Nat) (f : BitVec 24),
    let g := s.engine e
    let runs (op : Nat) : Prop := g.state = .running ∧ g.fetch = wordOf op f ∧ g.broke 1 = false
    let twice : Prop := g.broke 2 = false
    let becomes (i : Instr) (h : Engine) : Prop := ∃ t, exec i s = .next t ∧ OnlyEngine s t e h
    let goes (i : Instr) (h : Engine) (w : Int) : Prop := becomes i ((h.charge 2).goto w.toNat)
    let near : Int := (g.pc : Int) + (BitVec.ofNat 16 (fimm f)).toInt
    let far : Int := (g.pc : Int) + f.toInt
    (QuillReady s e 0x00 f → f = 0 → becomes (.qNop e f) ((g.charge 1).advance g)) ∧
    (runs 0x01 → f = 0 → becomes (.qEnd e f) { (g.charge 1).land with state := .ended }) ∧
    (QuillReady s e 0x02 f → f = 0 → twice → goes (.qSyncp e f) g (g.pc + 1)) ∧
    (runs 0x03 → g.inCode far = true → twice → goes (.qBr e f) g far) ∧
    (runs 0x04 → fd f = 0 → g.q (fa f) = 0 → g.inCode near = true → twice → goes (.qBrz e f) g near) ∧
    (QuillReady s e 0x04 f → fd f = 0 → g.q (fa f) ≠ 0 → becomes (.qBrz e f) ((g.charge 1).advance g)) ∧
    (runs 0x05 → fd f = 0 → g.q (fa f) ≠ 0 → g.inCode near = true → twice → goes (.qBrnz e f) g near) ∧
    (QuillReady s e 0x05 f → fd f = 0 → g.q (fa f) = 0 → becomes (.qBrnz e f) ((g.charge 1).advance g)) ∧
    (runs 0x06 → g.inCode far = true → g.stack.length < g.depth → twice →
      goes (.qCall e f) { g with stack := g.stack ++ [g.pc + 1] } far) ∧
    (∀ st r, runs 0x07 → f = 0 → g.stack = st ++ [r] → r < g.codeWords → twice → goes (.qRet e f) { g with stack := st } r) ∧
    (QuillReady s e 0x08 f → fd f = 0 → g.q (fa f) = 0 → becomes (.qLoop e f) ((g.charge 1).advance g)) ∧
    (QuillReady s e 0x08 f → fd f = 0 → g.q (fa f) = 1 → becomes (.qLoop e f) (g.retired (fa f) 0)) ∧
    (runs 0x08 → fd f = 0 → 1 < (g.q (fa f)).toNat → g.inCode near = true → twice →
      goes (.qLoop e f) (g.setQ (fa f) (g.q (fa f) - 1)) near)

/-- WAITEV takes the enabled pending events that its mask names, or waits, its first cycle charged; SLEEP of duration 0 completes in its own cycle,
a longer one waits until the engine's meridian has reached its end; BUDGET reads REMAIN and, under a deadline, sets it to at
most the header's; YIELD takes every enabled event. -/
def Obligations.QuillEventsAndBudget : Prop :=
  ∀ (s : State) (e : Nat) (f : BitVec 24),
    let g := s.engine e
    let taken (r : BitVec 16) : Engine := { g with events := g.events &&& ~~~r }.retired (fd f) (r.setWidth 64)
    let becomes (i : Instr) (h : Engine) : Prop := ∃ t, exec i s = .next t ∧ OnlyEngine s t e h
    let r := g.events &&& g.evmask &&& BitVec.ofNat 16 (fimm f)
    let n := (g.q (fa f)).toNat + fimm f
    let cap := min ((g.q (fa f)).toNat + fimm f * 1024) (g.hdrBudget * 1024)
    (QuillReady s e 0x09 f → fa f = 0 → fimm f < 4096 → r ≠ 0 → becomes (.qWaitev e f) (taken r)) ∧
    (QuillReady s e 0x09 f → fa f = 0 → fimm f < 4096 → fimm f ≠ 0 → r = 0 →
      becomes (.qWaitev e f) { (g.charge 1).land with state := .waiting, next := g.word (g.pc + 1) }) ∧
    (QuillReady s e 0x0A f → fd f = 0 → n = 0 → becomes (.qSleep e f) ((g.charge 1).advance g)) ∧
    (QuillReady s e 0x0A f → fd f = 0 → n ≠ 0 → g.sleepEnd = none → s.engineNow e = some (s.engineCount e) →
      s.engineCount e + n < 2 ^ 64 →
      becomes (.qSleep e f) { (g.charge 1).land with state := .waiting, next := g.word (g.pc + 1)
                                                     sleepEnd := some (word (s.engineCount e + n)) }) ∧
    (QuillReady s e 0x0B f → g.timed = true → ∃ t, exec (.qBudget e f) s = .next t ∧
      OnlyEngine s t e { g.retired (fd f) g.budget with budget := word cap }) ∧
    (QuillReady s e 0x0B f → g.timed = false → becomes (.qBudget e f) (g.retired (fd f) g.budget)) ∧
    (QuillReady s e 0x0C f → fa f = 0 → fb f = 0 → flow f = 0 → becomes (.qYield e f) (taken (g.events &&& g.evmask)))

/-- LD and LDW of an aligned address within DATA_BYTES write the little-endian value to q[d]; ST and STW change exactly the
8 or 4 bytes at the address; PST leaves a store that lands after the next word; LDP reads a program word, an earlier PST
included. The address is q[a] + imm16, modulo 2^64, as the meanings compute it. -/
def Obligations.QuillLocalMemory : Prop :=
  ∀ (s : State) (e : Nat) (f : BitVec 24),
    let g := s.engine e
    let x := g.local_ f
    let fits (n : Nat) : Prop := x % n = 0 ∧ x + n ≤ g.dataBytes
    let loads (i : Instr) (n : Nat) : Prop := ∃ t, exec i s = .next t ∧
      OnlyEngine s t e (g.retired (fd f) (word (leNat ((rangeFrom x n).map (Memory.read g.dmem)))))
    let stores (i : Instr) (n : Nat) : Prop := ∃ t, exec i s = .next t ∧
      OnlyEngine s t e (({ g with dmem := (t.engine e).dmem }.charge 1).advance g) ∧
      (∀ k, k < n → Memory.read (t.engine e).dmem (x + k) = BitVec.ofNat 8 ((g.q (fd f)).toNat / 256 ^ k)) ∧
      (∀ a, a < x ∨ x + n ≤ a → Memory.read (t.engine e).dmem a = Memory.read g.dmem a)
    (QuillReady s e 0x40 f → fits 8 → loads (.qLd e f) 8) ∧
    (QuillReady s e 0x42 f → fits 4 → loads (.qLdw e f) 4) ∧
    (QuillReady s e 0x41 f → fits 8 → stores (.qSt e f) 8) ∧
    (QuillReady s e 0x43 f → fits 4 → stores (.qStw e f) 4) ∧
    (QuillReady s e 0x44 f → x < g.codeWords → ∃ t, exec (.qPst e f) s = .next t ∧
      OnlyEngine s t e { (g.charge 1).advance g with pst := some (x, (g.q (fd f)).setWidth 32) }) ∧
    (QuillReady s e 0x45 f → x < g.codeWords → ∃ t, exec (.qLdp e f) s = .next t ∧
      OnlyEngine s t e (g.retired (fd f) ((Tbl.get 0 g.land.pmem x).setWidth 64)))

/-- UREAD, UWRITE, UDESC, UCHILD, UGROUP, FBEGIN, FSEG, REDUCE, MCAST and CART on a ready engine with a free tag: the tag
that is held is the lowest free one, it records the operation and the time, a read-type operation writes its number to q[d],
and no unit, no job and no other engine changes at issue. A probe marks the posts of the units that it addresses as used by the
owner's session (R42); no other part of the state changes. -/
def Obligations.QuillTaggedInstructionsIssue : Prop :=
  ∀ (s : State) (e : Nat) (f : BitVec 24) (n : Nat),
    let g := s.engine e
    let u := (g.q (fa f)).toNat
    let x := (g.q (fb f)).toNat
    let held (t : Tag) : Engine := { g with
      tagSeq := g.tagSeq + 1
      tags := Tbl.set none g.tags n (some { t with seq := g.tagSeq, issued := s.pkg.meridian }) }
    let probed (us : List Uno) : State := us.foldl (fun r y => r.addresses g.owner y) s
    let reads (i : Instr) (us : List Uno) (t : Tag) : Prop := ∃ t', exec i s = .next t' ∧
      OnlyEngine (probed us) t' e ((held t).retired (fd f) (word n))
    let writes (i : Instr) (us : List Uno) (t : Tag) : Prop := ∃ t', exec i s = .next t' ∧
      OnlyEngine (probed us) t' e (((held t).charge 1).advance g)
    let probe (w : Bool) : Prop := spLegal f = true ∧ x % spWidth f = 0 ∧ u < 2 ^ 24 ∧
      s.unitReach u (spSpace f) x (spWidth f) w = true ∧ s.mayReach g.owner u (spSpace f) x w = true
    let net (w : Bool) : Prop := spLegal f = true ∧ x % spWidth f = 0 ∧ u < 2 ^ 24 ∧
      s.netUnits u (spSpace f) x (spWidth f) w ≠ [] ∧
      (∀ y ∈ s.netUnits u (spSpace f) x (spWidth f) w, s.mayReach g.owner y (spSpace f) x w = true) ∧
      ∀ k ∈ s.ctxsIn u, s.mayProbe g.owner k (spSpace f) w = true
    let units (w : Bool) : List Uno := s.netUnits u (spSpace f) x (spWidth f) w
    let low : Word := word ((g.q (fd f)).toNat % 2 ^ (8 * spWidth f))
    let record (k : Nat) : Prop := ft f = 0 ∧ fsp f = 0 ∧ x % 8 = 0 ∧ x + k ≤ g.dataBytes
    let groupLen := groupBytes (Memory.readBytes g.dmem x 1)
    let planLen := 64 + 24 * min (leNat (Memory.readBytes g.dmem (x + 8) 2)) 1024
    g.freeTag = some n →
    (QuillReady s e 0x50 f → ft f = 0 → probe false → reads (.qUread e f) [u] (g.unitTag f .uread)) ∧
    (QuillReady s e 0x51 f → ft f = 0 → probe true → writes (.qUwrite e f) [u] (g.unitTag f (.uwrite low))) ∧
    (QuillReady s e 0x53 f → record 32 → u < 2 ^ 24 → reads (.qUdesc e f) [] (plainTag (.udesc x) u 0)) ∧
    (QuillReady s e 0x54 f → ft f = 0 → fsp f = 0 → u < 2 ^ 24 → reads (.qUchild e f) [] (plainTag (.uchild x) u 0)) ∧
    (QuillReady s e 0x55 f → record 8 → x + groupLen ≤ g.dataBytes → u < 2 ^ 24 →
      reads (.qUgroup e f) [] { plainTag .ugroup u 0 with arg := Memory.readBytes g.dmem x groupLen }) ∧
    (QuillReady s e 0x80 f → record 64 → x + planLen ≤ g.dataBytes → u < 64 →
      reads (.qFbegin e f) [] { plainTag .fbegin u 0 with arg := Memory.readBytes g.dmem x planLen }) ∧
    (QuillReady s e 0x81 f → ft f = 0 → fsp f = 0 → u < 64 → reads (.qFseg e f) [] (plainTag .fseg u x)) ∧
    (QuillReady s e 0x90 f → ft f ≤ 5 → net false → 
      reads (.qReduce e f) (u :: units false) { g.unitTag f (.reduce (ft f)) with units := units false }) ∧
    (QuillReady s e 0x91 f → ft f = 0 → net true → 
      writes (.qMcast e f) (u :: units true) { g.unitTag f (.mcast low) with units := units true }) ∧
    (QuillReady s e 0xA1 f → record 32 → u < 2 ^ 32 → reads (.qCart e f) [] (plainTag (.cart x) 0 u))

/-- UWAIT of one held read-type tag with a response frees the tag, writes the data to q[d] and the status to q[b]; without
one it waits. With ALL it completes once every write tag is freed and every read-type tag is answered, consumes nothing and
returns the number of tags held. -/
def Obligations.QuillUwait : Prop :=
  ∀ (s : State) (e : Nat) (f : BitVec 24) (t : Tag),
    let g := s.engine e
    let n := (g.q (fa f)).toNat
    QuillReady s e 0x52 f → fsp f = 0 →
    (∀ st v, ft f = 0 → n < g.tagLimit → g.tag n = some t → t.op.readType = true → t.result = some (st, v) →
      ∃ t', exec (.qUwait e f) s = .next t' ∧
        OnlyEngine s t' e (((((g.setTag n none).setQ (fd f) v).setQ (fb f) (word st)).charge 1).advance g)) ∧
    (ft f = 0 → n < g.tagLimit → g.tag n = some t → t.op.readType = true → t.result = none →
      ∃ t', exec (.qUwait e f) s = .next t' ∧
        OnlyEngine s t' e { (g.charge 1).land with state := .waiting, next := g.word (g.pc + 1) }) ∧
    (ft f = 1 → fa f = 0 → fb f = 0 → g.allDone = true →
      ∃ t', exec (.qUwait e f) s = .next t' ∧ OnlyEngine s t' e (g.retired (fd f) (word g.readTags)))

/-- HALT, STEP, RESUME, FREEZE and THAW: an accepted request stands under the next serial number with the engine as its
issuer, q[d] holds its HOP ID, and the posts of its scope are used by the owner's session; a refused one writes its status to
bits [23:16] of q[d] and changes nothing but the engine. Both take two cycles. One that R97 makes wait waits in the engine. -/
def Obligations.QuillHaltControl : Prop :=
  ∀ (s : State) (e : Nat) (f : BitVec 24) (st : Nat),
    let g := s.engine e
    let issuer : Option Nat := if e = 128 then none else some e
    let q (k : HopKind) (imm : Bool) : HopReq :=
      { kind := k, imm := imm, scope := (g.q (fa f)).toNat, param := (g.q (fb f)).toNat, who := g.owner, hold := none }
    let both (i : Instr) (op : Nat) (k : HopKind) (imm : Bool) : Prop := QuillReady s e op f → g.broke 2 = false →
      (s.hopCheck issuer (q k imm) = some st → ∃ t, exec i s = .next t ∧
        OnlyEngine s t e (((g.setQ (fd f) (word (st * 65536))).charge 2).advance g)) ∧
      (s.hopCheck issuer (q k imm) = none → s.hopWaits issuer k = true → ∃ t, exec i s = .next t ∧
        OnlyEngine s t e { (g.charge 1).land with state := .waiting, next := g.word (g.pc + 1) }) ∧
      (s.hopCheck issuer (q k imm) = none → s.hopWaits issuer k = false → ∃ t h, exec i s = .next t ∧ t.hop s.hopNext = some h ∧
        h.kind = k ∧ h.scope = (g.q (fa f)).toNat ∧ h.origin = .engine e ∧ h.status = 1 ∧ t.hopNext = s.hopNext + 1 ∧
        h.id = BitVec.ofNat 16 (256 * issuerByte issuer + Tbl.get 0 s.hopSeq (issuerByte issuer)) ∧
        t = { s with engines := t.engines, hops := t.hops, hopNext := t.hopNext, hopSeq := t.hopSeq, posts := t.posts } ∧
        (∀ p, t.post p = { s.post p with users := (t.post p).users }) ∧
        t.engine e = ((g.setQ (fd f) (word h.id.toNat)).charge 2).advance g ∧ ∀ n, n ≠ s.hopNext → t.hop n = s.hop n)
    (g.q (fa f)).toNat < 2 ^ 24 → fsp f = 0 →
    (bitsOf (ft f) 1 3 = 0 → both (.qHalt e f) 0x70 .halt (bitAt (ft f) 0)) ∧
    (ft f = 0 → both (.qStep e f) 0x71 .step false) ∧
    (ft f = 0 → both (.qResume e f) 0x72 .resume false) ∧
    (ft f = 0 → both (.qFreeze e f) 0x73 .freeze false) ∧
    (ft f = 0 → both (.qThaw e f) 0x74 .thaw false)

/-- CUTQ on a post's engine: q[d] is 0 when its ring holds no record of the HOP, the word asked for when one stands that
the owner may read, and with WAIT the engine waits while it is PENDING. FEND on a job that this engine's program did not
create returns JOB_STATE, and on its own ended job the outcome, and sets event FOLIO. -/
def Obligations.QuillCutqAndFend : Prop :=
  ∀ (s : State) (e : Nat) (f : BitVec 24),
    let g := s.engine e
    let id := (g.q (fa f)).toNat
    let i := (g.q (fb f)).toNat
    let slot := (g.q (fa f)).toNat
    let done (k : Instr) (h : Engine) : Prop := ∃ t, exec k s = .next t ∧ OnlyEngine s t e h
    let folio (st : Nat) : Engine :=
      ({ g.setQ (fd f) (word st) with events := g.events ||| 4 }.charge 1).advance g
    (QuillReady s e 0x75 f → e < 128 → fsp f = 0 → bitsOf (ft f) 1 3 = 0 → id < 65536 → i ≤ 17 →
      (s.ringRecord e id = none → done (.qCutq e f) (g.retired (fd f) 0)) ∧
      (∀ h, s.ringRecord e id = some h → (s.hasPlatform g.owner = true ∨ 1 ≤ s.levelOn g.owner h.ctx) →
        ((h.halfStatus e).1 ≠ 1 ∨ bitAt (ft f) 0 = false → done (.qCutq e f) (g.retired (fd f) (word (s.halfWord h e i)))) ∧
        ((h.halfStatus e).1 = 1 → bitAt (ft f) 0 = true →
          done (.qCutq e f) { (g.charge 1).land with state := .waiting, next := g.word (g.pc + 1) }))) ∧
    (QuillReady s e 0x82 f → fb f = 0 → ft f = 0 → fsp f = 0 → slot < 64 → g.fendDone = none →
      (s.engineJob e slot = none → done (.qFend e f) (folio Status.jobState)) ∧
      (∀ j, s.engineJob e slot = some j → j.state = .complete → done (.qFend e f) (folio Status.ok)) ∧
      (∀ j, s.engineJob e slot = some j → j.state = .incomplete → done (.qFend e f) (folio Status.incomplete)))

/-- FMARK appends the meridian and q[b] to the marks of the engine's own open job, or refuses at MARKS; INK passes one ENGINE
packet to the trace; RAISE posts one event to the owner's ring and returns OK, or RAISE_FULL; WSNAP returns the time of the
snapshot under way, or asks for one 160 ns ahead; WSCAN of no entries copies nothing and returns SNAP. -/
def Obligations.QuillReportsAndWatch : Prop :=
  ∀ (s : State) (e : Nat) (f : BitVec 24),
    let g := s.engine e
    let slot := (g.q (fa f)).toNat
    let owner := g.owner.getD 256
    let obj := objectWord ObjKind.engine (if e = 128 then 0x80 else e)
    let ok := !s.pkg.bothDead && decide (s.raisesHeld owner obj < 16) && s.ringRoom owner
    let ev := s.event EventType.raise Status.ok owner 0xFF obj (g.q (fa f)) (word (fimm f))
    (QuillReady s e 0x83 f → ft f = 0 → fsp f = 0 → slot < 64 → ∀ j n, s.engineJob e slot = some j → j.ended = false →
      s.engineNow e = some n →
      (j.marksUsed < j.marksMax → ∃ t j', exec (.qFmark e f) s = .next t ∧ t.job slot = some j' ∧
        j'.marks = j.marks ++ [(word n, g.q (fb f))] ∧ j'.marksUsed = j.marksUsed + 1 ∧
        t = { s with engines := t.engines, folios := t.folios } ∧ t.engine e = g.retired (fd f) (word Status.ok)) ∧
      (j.marksMax ≤ j.marksUsed → ∃ t, exec (.qFmark e f) s = .next t ∧
        OnlyEngine s t e (g.retired (fd f) (word Status.marksExceeded)))) ∧
    (QuillReady s e 0xA0 f → fa f = 0 → bitsOf (fimm f) 5 3 = 0 → bitsOf (fimm f) 11 5 = 0 → bitsOf (fimm f) 8 3 ≤ 4 →
      ∃ t, exec (.qInk e f) s = .next t ∧ t = { s with engines := t.engines, trace := t.trace } ∧
        t.engine e = (g.charge 1).advance g ∧
        (∀ q n, e < 128 → s.server e = some q → s.copyNow (halfUno e) = some n → (s.funnel q).length < 256 →
          ∃ k, t.funnel q = s.funnel q ++ [k] ∧ k.type = .engine ∧ k.t = word n ∧ k.uno = halfUno e ∧
            k.chan = bitsOf (fimm f) 0 5 ∧ k.size = bitsOf (fimm f) 8 3)) ∧
    (QuillReady s e 0xA2 f →
      (ok = true → ∃ t, exec (.qRaise e f) s = .next t ∧
        OnlyEngine (s.emit owner ev) t e (g.retired (fd f) (word Status.ok))) ∧
      (ok = false → ∃ t, exec (.qRaise e f) s = .next t ∧
        OnlyEngine s t e (g.retired (fd f) (word Status.raiseFull)))) ∧
    (QuillReady s e 0xB0 f → e < 128 → fa f = 0 → fb f = 0 → flow f = 0 →
      (∀ x, (s.watcher e).sampling = some x → ∃ t, exec (.qWsnap e f) s = .next t ∧
        OnlyEngine s t e (g.retired (fd f) x)) ∧
      ((s.watcher e).sampling = none → (s.watcher e).unsched = none → (s.post e).adopting = false →
        ∃ t, exec (.qWsnap e f) s = .next t ∧ t = { s with engines := t.engines, watch := t.watch } ∧
          (t.watcher e).unsched = some (word (s.engineCount e + 160)) ∧
          t.engine e = g.retired (fd f) (word (s.engineCount e + 160)))) ∧
    (QuillReady s e 0xB1 f → e < 128 → ft f = 0 → fsp f = 0 → g.q (fd f) = 0 → (g.q (fb f)).toNat % 8 = 0 →
      (g.q (fb f)).toNat ≤ g.dataBytes → (g.q (fa f)).toNat ≤ 1024 →
      ∃ t, exec (.qWscan e f) s = .next t ∧ OnlyEngine s t e (g.retired (fd f) (word (s.watcher e).snapWord)))

/-- An undefined opcode (UNDEF), a register operation with a non-zero reserved bit (RSVD), a budget of 0 (DEADLINE) and an
instruction at the last word that would go on in sequence (PMEM_BOUND): the engine is FAULTED with that cause, FPC holds the
instruction and FAULT_T the meridian; registers, data memory, tags and stack keep their values, the faulting cycle is charged as
far as the budget goes, program memory keeps what earlier stores made of it, and pending events lose nothing. -/
def Obligations.QuillFaults : Prop :=
  ∀ (s : State) (e : Nat) (f : BitVec 24) (w : BitVec 32),
    let g := s.engine e
    let faults (i : Instr) (c : Nat) : Prop := Sys2Proof.Claims.Faulted s e i c
    s.folios.jobs = [] →
    (g.state = .running → g.fetch = w → g.broke 1 = false → opDefined (w.toNat / 2 ^ 24) = false →
      faults (.undefinedOpcode e w) Cause.undef) ∧
    (∀ x ∈ Sys2Proof.Claims.binaryOps ++ Sys2Proof.Claims.compareOps, QuillReady s e x.2.1 f → flow f ≠ 0 →
      faults (x.1 e f) Cause.rsvd) ∧
    (∀ x ∈ Sys2Proof.Claims.binaryOps ++ Sys2Proof.Claims.compareOps, g.state = .running → g.fetch = wordOf x.2.1 f →
      (g.broke 1 = true → faults (x.1 e f) Cause.deadline) ∧
      (g.broke 1 = false → g.codeWords = g.pc + 1 → faults (x.1 e f) Cause.pmemBound)) ∧
    (g.state = .running ∨ g.state = .waiting → g.broke 1 = true → faults (.budgetExpiry e) Cause.deadline)

/-- A waiting WAITEV whose events have come completes with them, its cycle charged as the wait began, and goes on at the word
fetched before the wait; a response fills the tag of a read and frees that of a write, which records a status other than OK in
WFAIL, once no earlier probe of its unit and space waits for one; a probe without answer completes with LOST and data 0 after
8 µs, and not before; a probe is served once, in its order, and its answer is kept for delivery. -/
def Obligations.QuillWaitsAndProbes : Prop :=
  ∀ (s : State) (e tag : Nat) (f : BitVec 24) (t : Tag) (answers : List (Uno × Word)),
    let g := s.engine e
    let r := g.events &&& g.evmask &&& BitVec.ofNat 16 (fimm f)
    (g.state = .waiting → g.fetch = wordOf 0x09 f → g.broke 1 = false → g.pc + 1 < g.codeWords → fa f = 0 → fimm f < 4096 →
      r ≠ 0 → ∃ t', exec (.waitComplete e) s = .next t' ∧
        OnlyEngine s t' e (({ g with events := g.events &&& ~~~r }.setQ (fd f) (r.setWidth 64)).advance g) ∧
        (t'.engine e).fetch = g.next ∧ (t'.engine e).state = .running) ∧
    (g.tag tag = some t → (∀ a v, t.op = .uread → t.answer = some (a, v) → t.result = none →
      s.tagAwaits e t = false →
      ∃ t', exec (.probeResponse e tag) s = .next t' ∧
        OnlyEngine s t' e { g.setTag tag (some { t with result := some (a, v) }) with events := g.events ||| 1 })) ∧
    (g.tag tag = some t → (∀ a v d, t.op = .uwrite d → t.answer = some (a, v) → t.result = none →
      s.tagAwaits e t = false →
      ∃ t', exec (.probeResponse e tag) s = .next t' ∧
        OnlyEngine s t' e { g.setTag tag none with events := g.events ||| 1, wfail := g.wfail || decide (a ≠ 0) })) ∧
    (g.tag tag = some t → s.now < t.issued.toNat + 8000 → exec (.probeTimeout e tag) s = .next s) ∧
    (g.tag tag = some t → t.op = .uread → t.result = none → t.issued.toNat + 8000 ≤ s.now → s.tagAwaits e t = false →
      ∃ t', exec (.probeTimeout e tag) s = .next t' ∧
        OnlyEngine s t' e { g.setTag tag (some { t with answer := some (1, 0), result := some (1, 0) }) with
                            events := g.events ||| 1 }) ∧
    (∀ n, g.tag tag = some t → t.op = .uchild n → t.answer = none → s.tagBlocked e t = false →
      ∃ t', exec (.probeRequestServed e tag answers) s = .next t' ∧
        OnlyEngine s t' e (g.setTag tag (some { t with answer := some (0, s.childWord t.unit n), begun := false,
                                                           bytes := [] })))

/-- TAKE by a session at FULL on context 0 of an idle resident engine; LOAD of an image that passes its checks; START, which
clears registers, tags, stack and events and begins at ENTRY; STOP of an engine that runs, after the instruction of its cycle
(the model's reading, assumption 150), or that waits; CONTINUE; STEP of one instruction; RELEASE; KICK; and the end of a restore. The path's session is the owner in all but TAKE. CMD_STATUS is 0. -/
def Obligations.QuillControl : Prop :=
  ∀ (s : State) (p : Path) (e slot : Nat),
    let g := s.engine e
    let becomes (i : Instr) (h : Engine) : Prop := ∃ t, exec i s = .next t ∧ OnlyEngine s t e { h with cmdStatus := 0 }
    let owned : Prop := g.owner = some slot
    s.hasEngine e = true → s.engineAnswers e = true → s.barGone p = false → s.actor p = some slot →
    (g.owner = none → g.state = .resident → s.residentIdle e = true → s.levelOn (some slot) 0 = 2 →
      ∃ t, exec (.qlTake p e) s = .next t ∧ OnlyEngine s t e
        { state := .taken, owner := some slot, events := g.events, evmask := g.evmask, mbox := g.mbox,
          stopReason := g.stopReason }) ∧
    (owned → g.loadable = true → firstFail (s.qlImageChecks e) = none →
      becomes (.qlLoad p e) { g with state := .loaded, loaded := true, force := g.hdr, dirty := false }) ∧
    (owned → g.state = .loaded → g.loaded = true → g.dirty = false →
      ∃ t h, exec (.qlStart p e) s = .next t ∧ OnlyEngine s t e h ∧ h.state = .running ∧ h.pc = g.entry ∧
        h.fetch = g.land.word g.entry ∧ h.regs = [] ∧ h.tags = [] ∧ h.stack = [] ∧ h.events = 0 ∧ h.cmdStatus = 0) ∧
    (owned → g.state = .running → g.fetch = 0 → g.broke 1 = false → g.pc + 1 < g.codeWords →
      ∃ t, exec (.qlStop p e) s = .next t ∧
        OnlyEngine s t e { ((g.charge 1).advance g).land.unwait with state := .stopped, stopReason := 1, cmdStatus := 0 }) ∧
    (owned → g.state = .waiting → s.fetched e = .wait s → g.broke 1 = false → ∃ t, exec (.qlStop p e) s = .next t ∧
      OnlyEngine s t e { g.land.unwait with state := .stopped, stopReason := 1, cmdStatus := 0 }) ∧
    (owned → g.state = .stopped → becomes (.qlContinue p e) (g.goto g.pc)) ∧
    (owned → g.state = .stopped → g.broke 1 = false → g.pc + 1 < g.codeWords → g.land.word g.pc = 0 →
      ∃ t h, exec (.qlStep p e) s = .next t ∧ OnlyEngine s t e h ∧ h.state = .stopped ∧ h.stopReason = 2 ∧
        h.pc = g.pc + 1 ∧ h.regs = g.regs ∧ h.cmdStatus = 0) ∧
    (owned → s.folios.jobs = [] → s.host.refs = [] → ∃ t, exec (.qlRelease p e) s = .next t ∧ (t.engine e).state = .restoring ∧
      (t.engine e).owner = none ∧ (t.engine e).tags = []) ∧
    (owned → ∃ t, exec (.qlKick p e) s = .next t ∧ OnlyEngine s t e { g with events := g.events ||| 128 }) ∧
    (g.state = .restoring → ∃ t, exec (.engineRestoreDone e) s = .next t ∧ OnlyEngine s t e { g with state := .resident })

/-- ENGINE_MEMORY_WRITE by the owner: 4 or 8 aligned bytes of data memory, or the program words, change and nothing else but
the mark that START asks for a new LOAD. ENGINE_LOAD by the owner of an image that passes the checks of LOAD places it and leaves
the engine LOADED; one that fails them is refused with its status and changes nothing. -/
def Obligations.EngineMemoryAndLoad : Prop :=
  ∀ (s : State) (p : Path) (e off slot : Nat) (w8 : Bool) (v : Word) (c : CmdCtx) (image : List Byte),
    let g := s.engine e
    let n := if w8 then 8 else 4
    (s.hasEngine e = true → s.engineAnswers e = true → s.barGone p = false → s.actor p = some slot → g.owner = some slot →
      off % n = 0 → off + n ≤ 65536 →
      (∃ t, exec (.engineMemoryWrite p e false off w8 v) s = .next t ∧
        OnlyEngine s t e { g with dmem := (t.engine e).dmem, dirty := true } ∧
        (∀ k, k < n → Memory.read (t.engine e).dmem (off + k) = BitVec.ofNat 8 (v.toNat / 256 ^ k)) ∧
        (∀ a, a < off ∨ off + n ≤ a → Memory.read (t.engine e).dmem a = Memory.read g.dmem a)) ∧
      (∃ t, exec (.engineMemoryWrite p e true off w8 v) s = .next t ∧
        OnlyEngine s t e { g with pmem := (t.engine e).pmem, dirty := true } ∧
        (t.engine e).word (off / 4) = BitVec.ofNat 32 v.toNat ∧
        (w8 = true → (t.engine e).word (off / 4 + 1) = BitVec.ofNat 32 (v.toNat / 2 ^ 32)) ∧
        (∀ w, w < off / 4 ∨ off / 4 + n / 4 ≤ w → (t.engine e).word w = g.word w))) ∧
    ((s.session c.session).isSome = true → s.pkg.bothDead = false → s.pkg.fwRecovery = false → s.hasEngine e = true → g.owner = some c.session →
      g.loadable = true →
      let s1 := s.setEngine e (g.placeImage image)
      (firstFail (s1.qlImageChecks e) = none → ∃ t, exec (.engineLoad c e image) s = .next t ∧
        t = ((s1.loadImage e).1.qlStatus e 0).complete c Status.ok (objectWord ObjKind.engine e) 0 ∧
        (t.engine e).state = .loaded ∧ (t.engine e).cmdStatus = 0) ∧
      (∀ st, firstFail (s1.qlImageChecks e) = some st → exec (.engineLoad c e image) s = .next (s.refuse c st)))

/-! ### Power, start-up and resets (chapters 01 and 13) -/

/-- The command's session is open, a Compass lives and the hub is not in firmware recovery (R378, R409). -/
def Sys2Proof.Claims.Heard (s : State) (c : CmdCtx) : Prop :=
  (s.session c.session).isSome = true ∧ s.pkg.bothDead = false ∧ s.pkg.fwRecovery = false

/-- The command is heard, no LOCKDOWN stands, and its session holds platform rights. -/
def Sys2Proof.Claims.Platform (s : State) (c : CmdCtx) : Prop :=
  Sys2Proof.Claims.Heard s c ∧ s.life.lockdown = false ∧ s.hasPlatform c.who = true

/-- PACKAGE_POWER_ON clears everything but both flashes and what the outside drives; AON_RESET_RELEASE starts the meridian at 0;
LIFECYCLE_DECIDE takes the state that the record gives, or LOCKDOWN with DEGRADED; BOOT_SELF_TEST makes Compass A active unless
it is dead, leaves the standby's engine EMPTY, and goes no further when both are dead or in LOCKDOWN. Each goes on only from its
own step. -/
def Obligations.StartUpToFirmware : Prop :=
  ∀ s : State,
    (∃ t, exec .packagePowerOn s = .next t ∧ t.pkg = { member := s.pkg.member, powered := true } ∧
      t.life.copies = s.life.copies ∧ t.life.sectors = s.life.sectors ∧ t.life.user = s.life.user ∧
      t.upd.slotA = s.upd.slotA ∧ t.upd.slotB = s.upd.slotB ∧ t.upd.rollback = s.upd.rollback ∧
      t.regs = [] ∧ t.cores = [] ∧ t.engines = [] ∧ t.hops = [] ∧ t.sets = [] ∧ t.folios = {} ∧ t.cart = {} ∧ t.watch = {} ∧
      t.trace = {} ∧ t.auth = {} ∧ t.host = {} ∧ t.groups = [] ∧ t.dies = [] ∧ t.pending = s.pending) ∧
    (s.pkg.powered = true → s.pkg.aonUp = false → exec .aonResetRelease s =
      .next { s with pkg := { s.pkg with aonUp := true, meridian := 0, bootStep := 1 } }) ∧
    (s.pkg.bootStep = 1 → s.pkg.aonUp = true →
      (∀ st pend slot step, s.derive = .decided st pend slot step → ∃ t, exec .lifecycleDecide s = .next t ∧
        t.pkg = { s.pkg with bootStep := 2 } ∧ t.life.decided = true ∧ t.life.lockdown = false ∧ t.life.state = st ∧
        t.life.pending = pend ∧ t.life.slot = slot ∧ t.auth.devApub = t.life.devApub) ∧
      (∀ i, s.derive = .locked i → ∃ t, exec .lifecycleDecide s = .next t ∧
        t.pkg = { s.pkg with bootStep := 2, degraded := true } ∧ t.life.lockdown = true)) ∧
    (s.pkg.bootStep = 2 → s.life.lockdown = false → s.pkg.bothDead = false →
      exec (.bootSelfTest true true) s = .next (({ s with pkg := { s.pkg with
        activeB := false, standbyOk := true, healthA := 1, healthB := 1, bootStep := 3 } } : State).setEngine standbyEngine
          { state := .empty }) ∧
      (∀ okA : Bool, ∃ t, exec (.bootSelfTest okA (!okA)) s = .next t ∧ t.pkg = { s.pkg with
        activeB := !okA, standbyOk := false, healthA := if okA then 1 else 6, healthB := if okA then 6 else 1
        degraded := true, bootStep := 3 }) ∧
      exec (.bootSelfTest false false) s = .next { s with pkg := { s.pkg with
        activeB := true, standbyOk := false, healthA := 6, healthB := 6, bothDead := true, degraded := true } }) ∧
    (s.pkg.powered = false → exec .aonResetRelease s = .next s) ∧
    (s.pkg.bootStep ≠ 1 → exec .lifecycleDecide s = .next s) ∧
    (s.pkg.bootStep ≠ 2 ∨ s.life.lockdown = true → ∀ a b, exec (.bootSelfTest a b) s = .next s)

/-- HBM_READY maps out the channels of its bad-channel map and no others, HBM_READY_TIMEOUT all 32 with DEGRADED, and step 5
ends with the last controller; ENUMERATION_CLOSE holds a dead cluster or core in reset, loads the copies of every locked die and
builds the Legend; CORE_RELEASE lets the cores run from the present meridian once the links can carry its two flits. -/
def Obligations.StartUpToCores : Prop :=
  ∀ (s : State) (k : Nat) (bad : BitVec 32) (dead : List Uno),
    let took (t : State) (map : Nat → Bool) : Prop :=
      t.pkg.hbmDone = s.pkg.hbmDone ++ [k] ∧ t.regs = s.regs ∧ t.cores = s.cores ∧
      t.pkg.bootStep = (if s.pkg.hbmDone.length + 1 = s.pkg.member.posts then 5 else 4) ∧
      (∀ n, n < 32 → Tbl.get false t.held (0x4000 + 32 * k + n) = (Tbl.get false s.held (0x4000 + 32 * k + n) || map n)) ∧
      (∀ u, u < 0x4000 + 32 * k ∨ 0x4000 + 32 * k + 32 ≤ u → Tbl.get false t.held u = Tbl.get false s.held u)
    (s.pkg.bootStep = 4 → s.pkg.fwRecovery = false → k < s.pkg.member.posts → k ∉ s.pkg.hbmDone →
      (∃ t, exec (.hbmReady k bad) s = .next t ∧ took t bad.getLsbD ∧ t.pkg.degraded = s.pkg.degraded) ∧
      (∃ t, exec (.hbmReadyTimeout k) s = .next t ∧ took t (fun _ => true) ∧ t.pkg.degraded = true)) ∧
    (s.pkg.bootStep = 5 → ∃ t, exec (.enumerationClose dead) s = .next t ∧
      (t.pkg.bootStep = 6 ∨ t.pkg.bootStep = 7) ∧ t.legend.enumT = s.pkg.meridian ∧ t.legend.changeT = s.pkg.meridian ∧
      (∀ u ∈ dead, (kindOf s.pkg.member u = .cluster ∨ kindOf s.pkg.member u = .core) → t.isHeld u = true) ∧
      (∀ d, d < s.pkg.member.dies → (s.die d).pllLocked = true → (t.die d).copy.valid = true)) ∧
    (s.pkg.bootStep = 7 → s.pkg.warmRerun = false → s.upd.trial = false →
      (∀ t, s.sendUrg 2 (treeLinks s.pkg.member s.homeDie) = some t → exec .coreRelease s =
        .next { t with pkg := { s.pkg with bootStep := 8, releaseT := s.pkg.meridian, coresHeld := false } }) ∧
      (s.sendUrg 2 (treeLinks s.pkg.member s.homeDie) = none → exec .coreRelease s = .next s))

/-- HUB_COLD_RESET clears both HUB domains and every tap and holds the cores; HUB_WARM_RESET clears the hub's registers, queues,
sets and comparators and starts the boot again, but leaves the cores' run state, holds and queues; PACKAGE_WARM_RESET resets the cores
(a held core stays stopped), discards flits and lets no thread group wait. Member, meridian and the dies' copies stand through all three. -/
def Obligations.Resets : Prop :=
  ∀ (s : State) (c : CmdCtx) (us : List Undrained),
    let stands (t : State) : Prop := t.pkg.member = s.pkg.member ∧ t.pkg.meridian = s.pkg.meridian ∧ t.dies = s.dies
    (Sys2Proof.Claims.Platform s c → ∃ t, exec (.hubColdReset c us) s = .next t ∧ stands t ∧ t.pkg.bootStep = 1 ∧
      t.pkg.coresHeld = true ∧ t.cores = [] ∧ t.insts = [] ∧ t.engines = [] ∧ t.regs = [] ∧ t.hops = [] ∧ t.sets = [] ∧
      t.cmps = [] ∧ t.trace = {} ∧ t.auth = {} ∧ t.cart = {} ∧ t.host.queues = [] ∧ t.host.rings = [] ∧ t.host.inflight = [] ∧
      t.groups = [] ∧ t.legend = {}) ∧
    (Sys2Proof.Claims.Platform s c → s.lcBusy = false → s.canonical → s.host.refs = [] → ∃ t, exec (.hubWarmReset c us) s = .next t ∧ stands t ∧
      t.pkg.bootStep = 1 ∧ t.pkg.warmRerun = true ∧ t.sets = [] ∧ t.cmps = [] ∧ t.chains = [] ∧ t.rings = [] ∧ t.clamps = [] ∧
      t.trace.streams = [] ∧ t.host.queues = [] ∧ t.host.rings = [] ∧ t.host.resets = s.host.resets + 1 ∧
      (∀ u, t.core u = { s.core u with lmask := 0, fmd := 0 }) ∧ t.pkg.coresHeld = s.pkg.coresHeld) ∧
    (s.pkg.aonUp = true → s.canonical → s.host.refs = [] → ∃ t, exec .packageWarmReset s = .next t ∧ stands t ∧ t.rports = [] ∧ t.watch.records = [] ∧
      (∀ u, t.waiter u = { s.waiter u with obj := none }) ∧
      (∀ u, (t.core u).run = (if (s.core u).free then .running else .stopped) ∧ (t.core u).holdP = (s.core u).holdP ∧
        (t.core u).holdC = (s.core u).holdC ∧ (t.core u).asleep = false))

/-! ### The meridian's copies, links and posts (chapters 01 and 07) -/

/-- Command `i` completes with OK once the state stands as `u`. -/
def Sys2Proof.Claims.Done (i : Instr) (s : State) (c : CmdCtx) (object : BitVec 32) (data : Word) (u : State) : Prop :=
  exec i s = .next (u.complete c Status.ok object data)

/-- EPOCH: a die that a load flit has reached takes its value, any other compares its copy, is out of bound beyond 2 ticks and
closes by one tick, or by two beyond 2; a die behind a cut EPOCH line keeps its copy. MERIDIAN_LOAD_FLIT, which spends a credit on
each link that it crosses, PLL_UNLOCK, PLL_RELOCK and
RELOCK_REPORT change their die alone. MERIDIAN_WRAP sets the master to 0. -/
def Obligations.MeridianCopies : Prop :=
  ∀ (s : State) (d : Nat) (v : Time),
    let x := s.die d
    (s.now % 1024 = 0 → s.pkg.aonUp = true → s.pkg.bothDead = false → d < s.pkg.member.dies →
      ∃ t, exec .epoch s = .next t ∧ t.pkg = s.pkg ∧ t.regs = s.regs ∧
        (s.epochCut d = true → t.die d = x) ∧
        (∀ w, s.epochCut d = false → x.pending = some w → w.toNat ≤ s.now →
          t.die d = { x with copy := { valid := true, skew := (w.toNat : Int) - s.now }, pending := none, episode := false }) ∧
        (s.epochCut d = false → x.pending = none → x.copy.valid = true →
          (t.die d).copy.valid = true ∧ (t.die d).copy.oob = decide (2 < x.copy.skew.natAbs) ∧
          (t.die d).copy.skew.natAbs = x.copy.skew.natAbs - (if 2 < x.copy.skew.natAbs then 2 else 1))) ∧
    (d < s.pkg.member.dies → 5 ≤ s.pkg.bootStep → x.pllLocked = true → x.copy.valid = false → s.now < v.toNat →
      v.toNat % 1024 = 0 → (x.reloadAt = none ∨ x.reloadAt = some v) →
      (∀ t, s.sendUrg 1 (crossing s.pkg.member s.homeDie d) = some t →
        exec (.meridianLoadFlit d v) s = .next (t.setDie d { x with pending := some v, reloadAt := none })) ∧
      (s.sendUrg 1 (crossing s.pkg.member s.homeDie d) = none → exec (.meridianLoadFlit d v) s = .next s)) ∧
    (d < s.pkg.member.dies → x.pllLocked = true → ∃ t, exec (.pllUnlock d) s = .next t ∧ t.pkg = s.pkg ∧
      (t.die d).copy.valid = false ∧ (t.die d).pllLocked = false ∧ (t.die d).pending = none ∧
      (∀ k, k ≠ d → t.die k = s.die k)) ∧
    (d < s.pkg.member.dies → x.pllLocked = false → exec (.pllRelock d) s =
      .next (s.setDie d { x with pllLocked := true, relockWait := true })) ∧
    (x.relockWait = true → s.pkg.bothDead = false → 3 ≤ s.pkg.bootStep → exec (.relockReport d) s =
      .next (s.setDie d { x with relockWait := false, reloadAt := some (word ((s.now / 1024 + 2) * 1024)) })) ∧
    (s.pkg.meridian = BitVec.allOnes 64 → ∃ t, exec .meridianWrap s = .next t ∧ t.pkg = { s.pkg with meridian := 0 } ∧
      t.dies = s.dies)

/-- CREDIT_REFILL adds one urgent credit up to 64 and one other (15 while the link is raised) up to 32 to every link direction; a flit that leaves on a link spends one of its urgent credits and leaves only where one is held;
LINK_RETRAIN marks its direction as training or down; LINK_TRAINING_END takes the measured delay; XTRIG_PULSE reaches the engines
of the die's posts with event TRIG. -/
def Obligations.LinksAndPulses : Prop :=
  ∀ (s : State) (a b delay n : Nat) (failed : Bool),
    (∀ k, (n ≤ (s.meter k).urg → ∃ t, s.sendUrg n [k] = some t ∧ t = { s with links := t.links } ∧
        t.meter k = { s.meter k with urg := (s.meter k).urg - n } ∧ ∀ j, j ≠ k → t.meter j = s.meter j) ∧
      ((s.meter k).urg < n → s.sendUrg n [k] = none)) ∧
    ((a, b) ∈ allLinks s.pkg.member →
      (∃ t, exec .creditRefill s = .next t ∧ t = { s with links := t.links } ∧
        t.link a b = { s.link a b with urg := min 64 ((s.link a b).urg + 1)
                                       reqRsp := min 32 ((s.link a b).reqRsp + if s.raisedLink (linkKey a b) then 15 else 1) }) ∧
      (∃ t, exec (.linkRetrain a b failed) s = .next t ∧ t.pkg = s.pkg ∧
        t.link a b = { s.link a b with retraining := !failed, down := failed } ∧
        (∀ c d, linkKey c d ≠ linkKey a b → t.link c d = s.link c d)) ∧
      ((s.link a b).retraining = true → exec (.linkTrainingEnd a b delay) s =
        .next (s.setLink a b { s.link a b with retraining := false, delay := delay }))) ∧
    (a ∈ s.xtrig → s.chains = [] → ∃ t, exec (.xtrigPulse a) s = .next t ∧ t.xtrig = s.xtrig.erase a ∧
      (∀ p q, (p = 2 * a ∨ p = 2 * a + 1) → s.server p = some q → (t.engine q).events.getLsbD 8 = true))

/-- POST_POWER gates a running post that nothing uses and starts the wake of a gated one; POST_WAKE_DONE after start-up makes it
run with fresh clocks, or lost; POST_RESTART makes a running or lost post RESTARTING; POST_RESTART_DONE makes it run, or
lost, or, while its sibling keeps the half, re-homed; a held command is judged again as it stands. -/
def Obligations.PostsSleepAndRestart : Prop :=
  ∀ (s : State) (c : CmdCtx) (p n i : Nat),
    let q := s.post p
    (Sys2Proof.Claims.Platform s c → p < s.pkg.member.posts →
      (q.health = Health.ok → s.postInUse p = false → ∃ u, Sys2Proof.Claims.Done (.postPower c p 0) s c noObject 0 u ∧
        (u.post p).health = Health.gated ∧ u.hopRing p = {} ∧ u.clampLog p = {} ∧ (∀ k, k ≠ p → (u.post k).health = (s.post k).health)) ∧
      (q.health = Health.gated → ∃ u, Sys2Proof.Claims.Done (.postPower c p 1) s c noObject 0 u ∧
        (u.post p).health = Health.waking ∧ (∀ k, k ≠ p → u.post k = s.post k)) ∧
      ((q.health = Health.ok ∨ q.health = Health.lost) → ∃ u, Sys2Proof.Claims.Done (.postRestart c p n) s c noObject 0 u ∧
        (u.post p).health = Health.restarting ∧ (u.post p).restored = false)) ∧
    (q.health = Health.waking → 7 ≤ s.pkg.bootStep → p < s.pkg.member.posts → s.isHeld (halfUno p) = false →
      (∃ t, exec (.postWakeDone p true) s = .next t ∧ (t.post p).health = Health.ok ∧ (t.post p).hbT = s.pkg.meridian ∧
        (t.post p).ackT = s.pkg.meridian) ∧
      (∃ t, exec (.postWakeDone p false) s = .next t ∧ (t.post p).health = Health.lost ∧ (t.post p).adoptWanted = true)) ∧
    (q.health = Health.restarting →
      (q.restored = false → ∃ t, exec (.postRestartDone p true) s = .next t ∧ (t.post p).health = Health.ok ∧
        (t.post p).hbT = s.pkg.meridian ∧ (t.post p).adoptWanted = false) ∧
      (q.restored = false → ∃ t, exec (.postRestartDone p false) s = .next t ∧ (t.post p).health = Health.lost) ∧
      (q.restored = true → ∃ t, exec (.postRestartDone p true) s = .next t ∧ (t.post p).health = Health.adopted ∧
        (t.post p).rehomed = true)) ∧
    (∀ w, s.host.waiting[i]? = some w → (heldCtx w).isSome = true → s.pkg.bothDead = false →
      ∃ t, exec (.heldRequestResume i) s = .next t ∧
        exec w { s with host := { s.host with waiting := s.host.waiting.eraseIdx i } } = .next t) ∧
    (s.host.waiting[i]? = none → exec (.heldRequestResume i) s = .next s)

/-- A heartbeat frame carries its sender's role, the sender's frame count and the last mirror frame that it has received, and resets
the miss count of the Compass that takes it; the standby counts mirror frames; the eighth miss in a row sends a probe, its answer moves the heartbeats
to DBG-REQ, and its time-out makes the standby active and the root engine RESIDENT, or leaves the active Compass without a standby;
TAKEOVER then reaches each unit once. -/
def Obligations.CompassPair : Prop :=
  ∀ (s : State) (atB : Bool) (u : Uno),
    let q := s.pair
    (s.paired = true →
      exec .mirrorFrame s = .next { s with pair := { q with mirrored := q.mirrored + 1 } } ∧
      exec (.heartbeatFrame true) s = .next { s with pair := { q with
        sentA := q.sentA + 1, missB := 0
        seenB := some { active := !s.pkg.activeB, count := q.sentA + 1, mirror := if s.pkg.activeB then q.mirrored else 0 } } } ∧
      exec (.heartbeatFrame false) s = .next { s with pair := { q with
        sentB := q.sentB + 1, missA := 0
        seenA := some { active := s.pkg.activeB, count := q.sentB + 1, mirror := if s.pkg.activeB then 0 else q.mirrored } } } ∧
      (∃ t, exec (.heartbeatMiss atB) s = .next t ∧ t = { s with pair := t.pair } ∧
        (7 ≤ (if atB then q.missB else q.missA) → (if atB then t.pair.probeB else t.pair.probeA) = true) ∧
        (if atB then t.pair.missA = q.missA else t.pair.missB = q.missB)) ∧
      (q.probeA = true ∨ q.probeB = true →
        (∃ t, exec .peerProbeAnswer s = .next t ∧ t.pkg = s.pkg ∧ t.pair.onReq = true ∧ t.pair.missA = 0 ∧ t.pair.missB = 0 ∧
          t.pair.probeA = false ∧ t.pair.probeB = false ∧ t.pair.linkFaults = min 255 (q.linkFaults + 1)) ∧
        ((if s.pkg.activeB then q.probeA else q.probeB) = true → ∃ t, exec .peerProbeTimeout s = .next t ∧
          t.pkg.activeB = !s.pkg.activeB ∧ t.pkg.standbyOk = false ∧ t.pkg.meridian = s.pkg.meridian ∧
          t.pair.takeovers = min 255 (q.takeovers + 1) ∧ t.pair.takeoverT = s.pkg.meridian ∧
          (t.engine 128).state = .resident ∧ t.session portSlot = none) ∧
        ((if s.pkg.activeB then q.probeA else q.probeB) = false → ∃ t, exec .peerProbeTimeout s = .next t ∧
          t.pkg.activeB = s.pkg.activeB ∧ t.pkg.standbyOk = false ∧ t.pair.takeovers = q.takeovers))) ∧
    (s.pkg.standbyOk = false → q.takeoverT ≠ 0 → Tbl.get false q.routed u = false →
      let routed : State := { s with pair := { q with routed := Tbl.set false q.routed u true } }
      (kindOf s.pkg.member u = .cnet ∨ kindOf s.pkg.member u = .hostIf → exec (.takeoverMulticast u) s = .next routed) ∧
      (kindOf s.pkg.member u = .half → s.postRuns (u - 0x200) = true → ∃ t, exec (.takeoverMulticast u) s = .next t ∧
        (t.post (u - 0x200)).ackT = s.pkg.meridian ∧ (t.engine (u - 0x200)).events.getLsbD 10 = true) ∧
      (kindOf s.pkg.member u = .die → u = s.standbyDie → exec (.takeoverMulticast u) s = .next
        { routed with pkg := { s.pkg with fencedA := s.pkg.fencedA || s.pkg.activeB
                                          fencedB := s.pkg.fencedB || !s.pkg.activeB } }))

/-- A running post's heartbeat arrives once and is acknowledged once, each as a flit that spends a credit on every link it crosses;
30 µs of silence or a memory error make it lost; its running
sibling adopts the half with event REHOME and serves it; POST_RESTORED hands the half back; 40 µs without acknowledgement begin
lone survey, and both Compasses count as lost (the model's reading, assumption 129). -/
def Obligations.PostHeartbeatsAndAdoption : Prop :=
  ∀ (s : State) (p : Nat),
    let q := s.post p
    (s.postRuns p = true →
      exec (.postHeartbeat p) s = .next (s.setPost p { q with hbOut := true }) ∧
      (s.pkg.bothDead = false → q.hbT.toNat + 30000 ≤ s.now → ∃ t, exec (.postLost p) s = .next t ∧
        (t.post p).health = Health.lost ∧ (t.post p).adoptWanted = true ∧ t.host = s.host) ∧
      (s.pkg.bothDead = false → ∃ t, exec (.postMemoryError p) s = .next t ∧ (t.post p).health = Health.lost ∧
        (t.post p).memError = true) ∧
      (q.lone = false → q.ackT.toNat + 40000 ≤ s.now → ∃ t, exec (.loneSurvey p) s = .next t ∧ (t.post p).lone = true ∧
        t.pkg.bothDead = true)) ∧
    (q.hbOut = true → s.pkg.bothDead = false → ∀ t, s.sendUrg 1 (crossing s.pkg.member (p / 2) s.homeDie) = some t →
      exec (.postHeartbeatArrival p) s =
        .next (t.setPost p { q with hbOut := false, hbT := s.pkg.meridian, ackDue := true })) ∧
    (q.ackDue = true → ∀ t, s.sendUrg 1 (crossing s.pkg.member s.homeDie (p / 2)) = some t → exec (.heartbeatAck p) s =
      .next (t.setPost p { q with ackDue := false, ackT := s.pkg.meridian, lastAck := some s.pkg.meridian })) ∧
    (q.health = Health.lost → q.adoptWanted = true → s.postRuns (p ^^^ 1) = true → ∀ n, ∃ t, exec (.adopt p n) s = .next t ∧
      (t.post p).health = Health.adopted ∧ (t.post (p ^^^ 1)).adopting = true ∧ t.server p = some (p ^^^ 1) ∧
      (t.engine (p ^^^ 1)).events.getLsbD 10 = true) ∧
    (q.rehomed = true → s.partsEnded p = true → ∃ t, exec (.postRestored p) s = .next t ∧ (t.post p).health = Health.ok ∧
      (t.post p).rehomed = false ∧ (t.post (p ^^^ 1)).adopting = false ∧ t.server p = some p)

/-! ### Halt operations (chapter 04) -/

/-- The request that a halt, step, resume, freeze or thaw command makes. -/
def Sys2Proof.Claims.request (c : CmdCtx) (kind : HopKind) (imm : Bool) (scope : Uno) (param : Word) : HopReq :=
  { kind := kind, imm := imm, scope := scope, param := param.toNat, who := c.who, hold := none }

/-- The hold bit of a class set on a core. -/
def Sys2Proof.Claims.held (c : Core) (platform : Bool) : Core :=
  { c with holdP := c.holdP || platform, holdC := c.holdC || !platform }

/-- The HOP stands under the next serial number with its kind and scope, the cores in scope, the Compass's next ID, and a target
time of now plus its lead (none for an immediate halt); the command completes with its ID. A request that R95 turns away completes
with the status of the first failing check; a MODE that Table HO-3 does not list is refused with CMD_FORMAT. -/
def Obligations.HopCommands : Prop :=
  ∀ (s : State) (c : CmdCtx) (v : Uno) (m : Word) (mode : Nat),
    Sys2Proof.Claims.Heard s c →
    (1 < mode → exec (.haltCommand c v mode m) s = .next (s.refuse c Status.cmdFormat)) ∧
    (mode ≤ 1 → ∀ x ∈ [(Instr.haltCommand c v mode m, HopKind.halt, mode == 1), (.stepCommand c v m, .step, false),
           (.resumeCommand c v m, .resume, false), (.freezeCommand c v m, .freeze, false), (.thawCommand c v m, .thaw, false)],
    let q := Sys2Proof.Claims.request c x.2.1 x.2.2 v m
    (∀ st, s.hopCheck none q = some st → exec x.1 s = .next (s.refuse c st)) ∧
    (s.hopCheck none q = none → ∃ u h,
      Sys2Proof.Claims.Done x.1 s c (objectWord ObjKind.hop h.id.toNat) 0 u ∧ u.hop s.hopNext = some h ∧
      u.hopNext = s.hopNext + 1 ∧ (∀ n, n ≠ s.hopNext → u.hop n = s.hop n) ∧ u.cores = s.cores ∧ u.insts = s.insts ∧
      h.kind = x.2.1 ∧ h.scope = v ∧ h.status = 1 ∧ h.codes = [] ∧ h.steps = bitsOf m.toNat 48 16 ∧
      h.id = BitVec.ofNat 16 (0x8000 + Tbl.get 0 s.hopSeq 0x80) ∧
      h.cores = s.coresIn v ∧
      (x.2.2 = true → h.mode = .urgent ∧ h.t = s.pkg.meridian) ∧
      (x.2.2 = false → h.mode = .contour ∧ h.t = word (s.now + h.lead))))

/-- For a core that runs with an empty tap queue and a valid copy within its bound: HOP_MULTICAST of a contour HALT whose time is ahead queues it;
of an immediate one it stops the core now with code IMMEDIATE; TARGET_TIME_MATCH stops it at T + d with code STOPPED and LATTICE_HALT_PULSE at
once. The hold bit of the HOP's class is set, and the cut record keeps code, S and T. CORE_SLEEP and CORE_WAKE_REQUEST set and
clear sleep, unless holds keep the wake back. -/
def Obligations.HaltAtTheTap : Prop :=
  ∀ (s : State) (n x d chan die : Nat) (u : Uno) (h : Hop),
    let c := s.core u
    let stopped (code : Nat) (at_ : Time) : Core := { Sys2Proof.Claims.held c h.platform with
      queue := [], run := .stopped, settled := false, s := at_, cutCode := code, cutS := at_, cutT := h.t
      stops := c.stops.filter (· != n) ++ [n] }
    (c.run = .running → c.asleep = false → c.preciseFor h = false → (s.copy u).oob = false → c.absorbed = [] → s.copyNow u = some x → s.hop n = some h →
      h.kind = .halt → h.status = 1 → u ∈ h.cores → (h.at u).phase = 0 → (∀ p k, h.origin ≠ .lone p k) →
      s.pkg.bothDead = false →
      (c.queue = [] → s.present u = true → s.reached h u = [u] → (s.sendUrg 2 (s.hopLinks h u)).isSome = true →
        (h.mode = .contour → x + 2 < h.t.toNat → ∃ t, exec (.hopMulticast n u) s = .next t ∧
          t.core u = { c with queue := [{ hop := n, kind := .halt, t := h.t }] } ∧ t.insts = s.insts) ∧
        (h.mode = .urgent → ∃ t, exec (.hopMulticast n u) s = .next t ∧ t.core u = stopped 6 (word x) ∧
          ∃ h', t.hop n = some h' ∧ (h'.at u).code = 6 ∧ (h'.at u).phase = 2)) ∧
      (c.queue = [{ hop := n, kind := .halt, t := h.t }] → h.t.toNat ≤ x + 2 → d ≤ 2 →
        ∃ t, exec (.targetTimeMatch u d) s = .next t ∧ t.core u = stopped 0 (h.t + BitVec.ofNat 64 d) ∧
          ∃ h', t.hop n = some h' ∧ (h'.at u).code = 0 ∧ (h'.at u).phase = 2) ∧
      (c.queue = [] → s.hops = [(n, some h)] → h.mode = .lattice → s.laneHop h chan = true → c.lmask.getLsbD chan = true →
        chan < 16 → dieOf s.pkg.member u = some die → die < s.pkg.member.dies →
        ∃ t, exec (.latticeHaltPulse chan die h.t) s = .next t ∧ t.core u = stopped 6 (word x))) ∧
    (kindOf s.pkg.member u = .core → s.present u = true → c.asleep = false → c.run = .running → c.queue = [] → c.absorbed = [] →
      s.copyNow u = some x → exec (.coreSleep u) s = .next (s.setCore u { c with asleep := true, sleepT := word x })) ∧
    (c.asleep = true →
      (c.free = true → exec (.coreWakeRequest u) s =
        .next (s.setCore u { c with asleep := false, wakeHeld := false, run := .running })) ∧
      (c.free = false → exec (.coreWakeRequest u) s = .next (s.setCore u { c with wakeHeld := true })))

/-- CLASS_FREEZE sets the hold bit of its HOP's class on every instance that the unit acts on, CLASS_THAW clears it (and with
PLATFORM the context's too), once the unit holds the request, its time has come and no other operation comes first; no other
instance changes, and those are awaited no more. A core tap whose queue a FREEZE or THAW heads takes it and runs on; a HALT leaves
the cores alone. -/
def Obligations.ClassFreezeAndThaw : Prop :=
  ∀ (s : State) (n : Nat) (u : Uno) (h : Hop), s.hop n = some h → s.classDue n h u = true →
    let frozen (t : State) (f : Hold → Hold) : Prop :=
      (∀ k, t.inst (k / 2 ^ 24) (k % 2 ^ 24) = if k ∈ s.actedBy h u then f (s.inst (k / 2 ^ 24) (k % 2 ^ 24)) else
        s.inst (k / 2 ^ 24) (k % 2 ^ 24)) ∧
      ∃ h', t.hop n = some h' ∧ h'.iwait = h.iwait.filter (fun k => !(s.actedBy h u).contains k) ∧
        (h.kind = .halt ∨ s.reached h u = [] → h' = { h with iwait := h'.iwait } ∧ t.cores = s.cores) ∧
        (∀ v o r, h.kind ≠ .halt → s.reached h u = [v] → (s.core v).queue = o :: r → o.hop = n →
          t.core v = { s.core v with queue := r } ∧ (h'.at v).phase = 3)
    (h.kind = .halt ∨ h.kind = .freeze → ∃ t, exec (.classFreeze n u) s = .next t ∧ frozen t (fun x =>
      { x with platform := x.platform || h.platform, context := x.context || !h.platform })) ∧
    (h.kind = .thaw → ∃ t, exec (.classThaw n u) s = .next t ∧ frozen t (fun x =>
      { x with platform := x.platform && !h.platform, context := false }))

/-- A flit for a stopped core enters its port's margin buffer, or waits in place behind 64; a holding boundary queue takes the flits
that reach it; BOUNDARY_HOLD_START begins the hold at T, and BOUNDARY_RELEASE ends it for clusters that run again. -/
def Obligations.RoutersAndBoundaries : Prop :=
  ∀ (s : State) (r port n : Nat) (u cl : Uno) (f : Flit) (h : Hop),
    let b := boundKey r ((clusterOf s.pkg.member f.dst).getD 0)
    ((s.bound b).holding = true → exec (.flitParked r port f) s =
      .next (s.setBound b { s.bound b with flits := (s.bound b).flits ++ [f] })) ∧
    ((s.bound b).holding = false → portCore s.pkg.member r port = some u → s.present u = true → s.parks u = true →
      coreOf s.pkg.member f.dst = some u →
      let q := s.rport r port
      (q.margin.length < 64 → exec (.flitParked r port f) s = .next (s.setRport r port { q with margin := q.margin ++ [f] })) ∧
      (64 ≤ q.margin.length → exec (.flitParked r port f) s =
        .next (s.setRport r port { q with inPlace := q.inPlace ++ [f] }))) ∧
    (s.hop n = some h → h.kind = .halt → (kindOf s.pkg.member r = .xbar ∨ kindOf s.pkg.member r = .cnet) → s.present r = true →
      kindOf s.pkg.member cl = .cluster → s.inScope h.scope cl = true →
      (h.mode ≠ .contour ∨ s.reachedTime r h.t.toNat = true) → (s.bound (boundKey r cl)).holding = false →
      exec (.boundaryHoldStart n r cl) s = .next (s.setBound (boundKey r cl) { holding := true, hop := n })) ∧
    (s.hop n = some h → h.kind = .resume → ∃ t, exec (.boundaryRelease n) s = .next t ∧ t.cores = s.cores ∧
      ∀ e ∈ s.bounds, e.2.holding = true → s.inScope h.scope (e.1 % 0x10000) = true →
        (∀ k ∈ s.clusterCores (e.1 % 0x10000), (s.core k).run = .running ∧
          ∀ y ∈ corePorts s.pkg.member k, s.rport y.1 y.2 = {}) → t.bound e.1 = {})

/-- CORE_SETTLED confirms each HOP at which the stopped core waited; STEP_START delivers its parked flits and runs it, STEP_END stops
it with S of its copy once its boundaries can have run (assumption 161), not before; RESUME_RELEASE frees the classes of its stage, and at T_r runs a core whose holds it clears. -/
def Obligations.SettleStepResume : Prop :=
  ∀ (s : State) (n x stage d : Nat) (u : Uno) (h : Hop) (o : TimedOp), s.hop n = some h →
    let c := s.core u
    (c.run = .stopped → c.settled = false → ∃ t h', exec (.coreSettled u) s = .next t ∧ (t.core u).settled = true ∧
      t.hop n = some h' ∧ ((h.at u).phase = 2 → (h'.at u).phase = 3) ∧ ((h.at u).phase ≠ 2 → h' = h)) ∧
    (h.kind = .step → s.dueOp u n = some o → c.asleep = false → c.run = .stopped → (h.platform = true ∨ c.holdP = false) →
      ∃ t, exec (.stepStart n u) s = .next t ∧
        t.core u = { c with queue := c.queue.drop 1, run := .stepping n, settled := false } ∧
        (∀ k ∈ corePorts s.pkg.member u, t.rport k.1 k.2 = {})) ∧
    (c.run = .stepping n → s.copyNow u = some x → x < h.t.toNat + stepTime h.steps → exec (.stepEnd u) s = .next s) ∧
    (c.run = .stepping n → s.copyNow u = some x → h.t.toNat + stepTime h.steps ≤ x → ∃ t, exec (.stepEnd u) s = .next t ∧ (t.core u).run = .stopped ∧
      (t.core u).settled = false ∧ (t.core u).s = word x ∧ (t.core u).cutT = h.t) ∧
    (h.kind = .resume → s.stageDue h.t stage = true →
      (∃ t, exec (.resumeRelease n stage d) s = .next t ∧ (stage ≠ 3 → t.cores = s.cores) ∧
        ∀ k ∈ h.iwait, (stageClasses stage).contains (k / 2 ^ 24) = true → (t.inst (k / 2 ^ 24) (k % 2 ^ 24)).context = false ∧
          (h.platform = true → (t.inst (k / 2 ^ 24) (k % 2 ^ 24)).platform = false)) ∧
      (stage = 3 → h.cores = [u] → s.dueOp u n = some o → c.asleep = false → c.run = .stopped →
        (h.platform = true ∨ c.holdP = false) → ∃ t, exec (.resumeRelease n stage d) s = .next t ∧
          (t.core u).run = .running ∧ (t.core u).holdP = false ∧ (t.core u).holdC = false ∧ (t.core u).precise = none))

/-- For a command's HOP: the last core's confirmation completes it with OK (LATE or PARTIAL as its code says) and sets HALTED at a
settled stopped core; at DEADLINE, cores whose confirmation the issuer has not taken are UNCONFIRMED, one that has stopped but not
settled keeps its code, and the HOP completes with DEADLINE and DONE time 0. -/
def Obligations.HopCompletion : Prop :=
  ∀ (s : State) (n sess : Nat) (tag : Word) (qq : Option Nat) (u : Uno) (h : Hop), s.hop n = some h → h.status = 1 →
    s.pkg.bothDead = false → h.origin = .command sess tag qq →
    (h.cores = [u] → s.reached h u = [u] → (h.at u).phase = 3 → (h.at u).own = none → h.iwait = [] →
      ∃ t h', exec (.hopConfirmation n u) s = .next t ∧
      t.hop n = some h' ∧
      ((h.at u).code ≠ 8 → h'.doneT = s.pkg.meridian ∧
        h'.status = if codePartial (h.at u).code then 5 else if codeLate (h.at u).code then 3 else 2) ∧
      (h.kind = .halt → (s.core u).run = .stopped → (s.core u).settled = true → (t.core u).halted = true)) ∧
    (h.deadlineFrom + 1000 * h.deadline ≤ s.now → ∃ t h', exec (.hopDeadline n) s = .next t ∧ t.hop n = some h' ∧
      h'.status = 4 ∧ h'.doneT = 0 ∧
      (∀ k ∈ h.cores, ((h.at k).phase < 2 ∨ (h.at k).phase = 3) → (h'.at k).code = 8) ∧
      (∀ k ∈ h.cores, (h.at k).phase = 2 → (h'.at k).code = (h.at k).code))

/-! ### Break and watch (chapter 05) -/

/-- SET_LOAD that passes R146 places the set for T_arm = now + the default lead and gives its creator one reference; SET_ARM at T_arm sets EN of
its comparators and arms its chains; SET_DISARM of an unloading set leaves no copy of it and frees the slot. A set refused changes nothing
but its completion. -/
def Obligations.TriggerSets : Prop :=
  ∀ (s : State) (c : CmdCtx) (slot : Nat) (arg : List Byte),
    let x0 := setOf c.session (s.setPlatform c.who (fieldAt arg 0x0C 2)) arg (word (s.now + s.defLead none))
    let checks := [(decide (slot < 1024), Status.cmdFormat), (s.holdRoom c.session ObjKind.set slot, Status.holdFull)] ++
      s.setChecks c slot arg x0
    (Sys2Proof.Claims.Heard s c →
      (∀ st, firstFail checks = some st → exec (.setLoad c slot arg) s = .next (s.refuse c st)) ∧
      (firstFail checks = none → (s.setWakePosts x0).all (fun p => !s.postAsleep p) = true →
        (∀ st, firstFail (s.setChecks2 x0) = some st → exec (.setLoad c slot arg) s = .next (s.refuse c st)) ∧
        (firstFail (s.setChecks2 x0) = none → ∃ u x, Sys2Proof.Claims.Done (.setLoad c slot arg) s c
          (objectWord ObjKind.set slot) 0 u ∧ u.trigSet slot = some x ∧ x.state = 1 ∧ x.owner = c.session ∧
          x.tArm = word (s.now + s.defLead none) ∧ x.scope = fieldAt arg 8 3 ∧ (u.refs ObjKind.set slot).live = true ∧
          (∀ k, k ≠ slot → u.trigSet k = s.trigSet k) ∧ u.pkg = s.pkg))) ∧
    (∀ x, s.trigSet slot = some x →
      (x.state = 1 → x.tArm.toNat ≤ s.now → Tbl.wf {} s.cmps = true → Tbl.wf {} s.chains = true →
        ∃ t, exec (.setArm slot) s = .next t ∧ t.trigSet slot = some { x with state := 2 } ∧
          (∀ k, t.cmp k = if (s.cmp k).owner = some slot then { s.cmp k with ctl := (s.cmp k).ctl ||| 1 } else s.cmp k) ∧
          (∀ k, t.chain k = if (s.chain k).owner = some slot then { s.chain k with state := 2 } else s.chain k)) ∧
      (x.state = 5 → s.pkg.bothDead = false → s.host.refs = [] → x.job = none → ∃ t, exec (.setDisarm slot) s = .next t ∧
        t.trigSet slot = none ∧ (∀ k, (t.cmp k).owner ≠ some slot) ∧ (∀ k, (t.cnt k).owner ≠ some slot) ∧
        (∀ k, (t.chain k).owner ≠ some slot) ∧ t.pkg = s.pkg))

/-- A permitted write stores COUNT, clears SAT and leaves the threshold; any other changes no counter. One to a half that no post
serves is dropped. -/
def Sys2Proof.Claims.CountWrite : Prop :=
  ∀ (s : State) (p : Path) (u : Uno) (n : Nat) (v : Word), n < 2 → s.present u = true → kindOf s.pkg.member u = .core →
    s.barGone p = false →
    (((halfOf s.pkg.member u).bind s.server).isSome = false → exec (.countWrite p u n v) s = .next s) ∧
    (((halfOf s.pkg.member u).bind s.server).isSome = true → s.mayCount (s.actor p) (cmpKey u n) = true → ∃ t, exec (.countWrite p u n v) s = .next t ∧
      t.cnt (cmpKey u n) = { s.cnt (cmpKey u n) with count := v.setWidth 48
                                                     ctl := (s.cnt (cmpKey u n)).ctl &&& ~~~0x100 } ∧
      (∀ k, k ≠ cmpKey u n → t.cnt k = s.cnt k)) ∧
    (s.mayCount (s.actor p) (cmpKey u n) = false → ∃ t, exec (.countWrite p u n v) s = .next t ∧ t.cnts = s.cnts)

/-- In a state without chains: a match of an armed IAC or DAC (range, inversion, access kind, value, context and thread group) adds one to the
core's counters that count it and changes nothing else; COUNTER_EVENT adds the cycle's events, at most 64; a count stays at 2^48 − 1 and sets
SAT. A match or event whose condition does not hold changes nothing. FETCH_MATCH_DISCARDED counts in BW_FMD. A permitted write stores COUNT,
clears SAT and leaves the threshold; any other changes no counter. -/
def Obligations.MatchesAndCounters : Prop :=
  Sys2Proof.Claims.CountWrite ∧
  ∀ (s : State) (u : Uno) (n tg a k : Nat) (store : Bool) (ls : List Lane), s.executes u = true →
    let added (x : Cnt) (m : Nat) : Cnt := if x.count.toNat + m < 2 ^ 48 then { x with count := BitVec.ofNat 48 (x.count.toNat + m) }
      else { x with count := BitVec.allOnes 48, ctl := x.ctl ||| 0x100 }
    let counted (t : State) (ev : Nat) : Prop := t = { s with cnts := t.cnts } ∧ ∀ j, j < 2 →
      let x := s.cnt (cmpKey u j)
      t.cnt (cmpKey u j) = if cntEvsel x.ctl.toNat = ev ∧ cntSrc x.ctl.toNat = n ∧ s.acts x.ctl.toNat u = true then added x 1 else x
    let ci := s.cmp (cmpKey u n)
    let cd := s.cmp (cmpKey u (4 + n))
    (s.chains = [] → n < 4 →
      (s.acts ci.ctl.toNat u = true → tgOk ci.ctl.toNat tg = true → ctlInv ci.ctl.toNat = false →
        (ci.lo.toNat / 4 ≤ bitsOf a 2 46 → bitsOf a 2 46 ≤ ci.hi.toNat / 4 →
          ∃ t, exec (.iacMatch u n tg a) s = .next t ∧ counted t 7) ∧
        (bitsOf a 2 46 < ci.lo.toNat / 4 → exec (.iacMatch u n tg a) s = .next s)) ∧
      (s.acts cd.ctl.toNat u = true → tgOk cd.ctl.toNat tg = true → cd.accessHit store ls = true →
        ∃ t, exec (.dacMatch u n tg store ls) s = .next t ∧ counted t 8)) ∧
    (s.chains = [] → n < 2 → s.acts (s.cnt (cmpKey u n)).ctl.toNat u = true → cntEvsel (s.cnt (cmpKey u n)).ctl.toNat ≤ 6 →
      exec (.counterEvent u n k) s = .next (s.setCnt (cmpKey u n) (added (s.cnt (cmpKey u n))
        (if cntEvsel (s.cnt (cmpKey u n)).ctl.toNat = 0 then min k 1 else min k 64)))) ∧
    (n < 4 → s.acts ci.ctl.toNat u = true → exec (.fetchMatchDiscarded u) s = .next (s.setCore u
      { s.core u with fmd := BitVec.ofNat 32 (min 4294967295 ((s.core u).fmd.toNat + 1)) }))

/-- A source meets the stage that names it unless a stage was met in the same cycle; the last stage fires: FIRES and the half's record
count it, the owner's engines see CHAIN for the event action, and the chain restarts. A window that passes returns the chain to stage 0. SCMP_MATCH
offers its element to the station's chains, STAGE_SOURCE_ARRIVAL to one chain, once for all the units that match in the cycle: the
matched unit is the lowest-numbered. -/
def Obligations.Chains : Prop :=
  ∀ (s : State) (cl : Uno) (n k slot src p cyc : Nat) (u : Uno) (us : List Uno) (ev : ScmpEvent) (x : TrigSet) (h : Holder),
    let met (key : Nat) : Prop := (s.chain key).owner = some slot ∧ (s.chain key).watching = true ∧
      stageSrc (s.chain key).stageWord = src ∧ (s.chain key).metT ≠ some (s.pkg.meridian, cyc) ∧
      s.cntCond (key / 16) (s.chain key) slot = true
    let key := (holderUnit h).1 * 16 + k
    let g := s.chain key
    (n < 8 → kindOf s.pkg.member cl = .cluster → s.present cl = true →
      let c := s.cmp (cmpKey cl (8 + n))
      s.acts c.ctl.toNat cl = true → s.scmpHit cl c ev = some u → c.owner = some slot → c.elem = src → k < 4 →
      (∀ j, j < 4 → j ≠ k → (s.chain (cl * 16 + j)).owner = none) → met (cl * 16 + k) →
      (s.chain (cl * 16 + k)).stage + 1 ≠ actStages (s.chain (cl * 16 + k)).act.toNat →
      exec (.scmpMatch cl n ev cyc) s = .next (s.setChain (cl * 16 + k) { s.chain (cl * 16 + k) with
        stage := (s.chain (cl * 16 + k)).stage + 1, metT := some (s.pkg.meridian, cyc) })) ∧
    (k < (holderUnit h).2 → (us.filter (s.arrives h slot src)).min? = some u → met key →
      (g.stage + 1 ≠ actStages g.act.toNat → exec (.stageSourceArrival h k src us cyc) s =
        .next (s.setChain key { g with stage := g.stage + 1, metT := some (s.pkg.meridian, cyc) })) ∧
      (g.stage + 1 = actStages g.act.toNat → actAction g.act.toNat = 6 → actRearm g.act.toNat = true → s.trigSet slot = some x →
        postOf s.pkg.member (key / 16) = some p → ∃ t, exec (.stageSourceArrival h k src us cyc) s = .next t ∧
          t.chain key = { g with fires := min 4294967295 (g.fires + 1), stage := 0, metT := some (s.pkg.meridian, cyc) } ∧
          (Tbl.get {} t.halves (slot * 128 + p)).who = u ∧ (Tbl.get {} t.halves (slot * 128 + p)).last = s.pkg.meridian ∧
          (∀ e, (s.engine e).owner = some x.owner → (t.engine e).events.getLsbD 3 = true))) ∧
    (k < (holderUnit h).2 → g.watching = true → 0 < g.stage → stageWindow g.stageWord ≠ 0 →
      (∀ core, h = .tap core → s.executes core = true) →
      exec (.chainWindowExpiry h k) s = .next (s.setChain key { g with stage := 0, metT := none }))

/-! ### Folios (chapter 06) -/

/-- JOB_CREATE of a plan that passes R158 makes a CREATED job with the next SERIAL, owned by the session, which holds its first
reference; JOB_START of a CREATED job whose scope is halted makes it CAPTURING, each part at once or behind every part that holds its
post's engine or waits for it, ADOPTED where a sibling serves the half, with one hub reference more; a part that waits starts when the
engine is free. A refused command changes nothing but its completion. -/
def Obligations.JobsCreateAndStart : Prop :=
  ∀ (s : State) (c : CmdCtx) (slot post : Nat) (arg : List Byte) (j : Job) (x : Part),
    let checks := [(decide (slot < 64), Status.cmdFormat), (s.holdRoom c.session ObjKind.job slot, Status.holdFull)] ++
      s.planChecks c.who slot arg
    (Sys2Proof.Claims.Heard s c →
      (∀ st, firstFail checks = some st → exec (.jobCreate c slot arg) s = .next (s.refuse c st)) ∧
      (firstFail checks = none → s.planSleeping arg = [] → firstFail (s.planChecks2 arg none) = none →
        ∃ u j', Sys2Proof.Claims.Done (.jobCreate c slot arg) s c (objectWord ObjKind.job slot) 0 u ∧
          u.job slot = some j' ∧ j'.state = .created ∧ j'.owner = c.session ∧ j'.serial = s.folios.serial ∧
          j'.beginT = s.pkg.meridian ∧ u.folios.serial = nextSerial s.folios.serial ∧
          (u.refs ObjKind.job slot).live = true ∧ (∀ k, k ≠ slot → u.job k = s.job k) ∧ u.cores = s.cores) ∧
      (s.job slot = some j → slot < 64 → s.mayFolio c.who j.ctx = true → j.state = .created → s.pkg.pwrWarn = false →
        s.haltedUnit j.scope = true → ∃ u j', Sys2Proof.Claims.Done (.jobStart c slot) s c (objectWord ObjKind.job slot) 0 u ∧
          u.job slot = some j' ∧ j'.state = .capturing ∧ j'.fendBegun = true ∧ j'.segs = j.segs ∧
          j'.parts = j.parts.map (fun y => { y with
            state := (if s.engineClaimed y.post then 2 else 3)
            adopted := (y.adopted || ((s.server y.post).getD y.post != y.post)) }) ∧
          (u.refs ObjKind.job slot).hub = (s.refs ObjKind.job slot).hub + 1)) ∧
    (s.folios.jobs = [(slot, some j)] → j.parts = [x] → x.post = post → x.state = 2 →
      exec (.queuedPartStart post) s = .next (s.setJob slot (some { j with parts := [{ x with state := 3 }] })))

/-- CAPTURE_BLOCK appends one block of at most 4 KB to its part and advances the segment by it: an unreadable source is coded 7 with no
bytes, a block of a page or a core that may not be read is coded 6 or 8, plain data without a reference or Stroke is coded 1 as it is with the
L2 lines of another owner as zeros, and zeros are coded 0. COMMITTED_POINTER moves by 64 KB, PART_END marks the
part done, and JOB_DONE makes the job COMPLETE when all of it was captured, else INCOMPLETE, and erases its key. -/
def Obligations.CaptureAndEnd : Prop :=
  ∀ (s : State) (slot post k seg : Nat) (src : BlockSource) (bs : List Byte) (foreign : List Nat) (ecc : Bool) (j : Job) (x : Part)
      (g : Seg),
    s.job slot = some j →
    let n := min 4096 (g.len - g.done)
    let kept (i : Nat) : Bool := !(s.deniable j && s.inL2 g && foreign.contains (i / 64))
    (j.running = true → j.partAt post = some k → j.parts[k]? = some x → (s.server post).isSome = true →
      (x.state = 3 → s.pkg.pwrWarn = false → j.segs[seg]? = some g → j.curSeg k = some seg → seg < j.planned → g.len ≠ 0 →
        ∃ t j' y b g', exec (.captureBlock slot post seg src foreign ecc none) s = .next t ∧ t.job slot = some j' ∧
          j'.parts[k]? = some y ∧ y.blocks = x.blocks ++ [b] ∧ y.bytes = x.bytes + storedSize b.coded.length ∧
          b.seg = seg ∧ b.num = x.blocks.length ∧ b.raw.length = n ∧
          j'.segs[seg]? = some g' ∧ g'.done = g.done + n ∧ g'.captured = decide (g.len ≤ g.done + n) ∧
          (src = .eccError → b.coding = 7 ∧ b.coded = []) ∧
          (src = .bytes bs → s.deniedAt j g = true → b.coding = 6 ∧ b.coded = []) ∧
          (src = .bytes bs → s.deniedAt j g = false → s.notHaltedAt j g = true → b.coding = 8 ∧ b.coded = []) ∧
          (src = .bytes bs → s.deniedAt j g = false → s.notHaltedAt j g = false → j.refJob = none →
            (∀ i, i < n → b.raw.getD i 0 = if kept i then (slice bs 0 n).getD i 0 else 0) ∧
            (b.raw.any (fun v => v != 0) = true → b.coding = 1 ∧ b.coded = b.raw) ∧
            (b.raw.any (fun v => v != 0) = false → b.coding = 0 ∧ b.coded = []))) ∧
      (x.state = 3 ∨ x.state = 4 → j.curSeg k = none → j.fendBegun = true →
        ∃ t j' y, exec (.partEnd slot post) s = .next t ∧ t.job slot = some j' ∧ j'.parts[k]? = some y ∧
          y.state = (if j.cutShort then 6 else 5) ∧ y.committed = x.bytes ∧ y.blocks = x.blocks ∧ j'.segs = j.segs)) ∧
    (j.partAt post = some k → j.parts[k]? = some x → x.state = 3 ∨ x.state = 4 → x.committed + 65536 ≤ x.bytes →
      ∃ t j', exec (.committedPointer slot post) s = .next t ∧ t.job slot = some j' ∧
        j'.parts[k]? = some { x with
          committed := x.committed + 65536, wcb := min x.wcb (min 64 ((x.bytes + 255) / 256 - (x.committed + 65536) / 256)) } ∧
        j'.segs = j.segs) ∧
    (j.running = true → j.fendBegun = true → j.parts.all (fun y => y.state == 5 || y.state == 6) = true →
      (s.server j.leadPost).isSome = true → s.pkg.bothDead = false → s.host.refs = [] →
      ∃ t j', exec (.jobDone slot) s = .next t ∧ t.job slot = some j' ∧ j'.key = none ∧ j'.endT = s.pkg.meridian ∧
        j'.state = (if j.whole then .complete else .incomplete) ∧ j'.parts = j.parts)

/-- FOLIO_EXPORT of an ended job within its length begins one export; EXPORT_CHUNK moves the next bytes of the stream to the
host, ends the export when its session no longer may read it, and DAMAGED metadata with FOLIO_DAMAGED; EXPORT_DONE removes the export
once all has moved or it was stopped, and a pause of 1 s stops it with DEST_GONE. -/
def Obligations.FolioExports : Prop :=
  ∀ (s : State) (c : CmdCtx) (slot off len i : Nat) (j : Job) (x : Export) (t0 : Time),
    (Sys2Proof.Claims.Heard s c → slot < 64 → (c.queue = none ∨ len ≤ c.resLen) → s.taken 128 = false → s.job slot = some j →
      s.mayExport c.who j false = true → 0 < len →
      j.ended = true → s.folios.exports = [] → off + len ≤ j.total → ∃ u e,
        Sys2Proof.Claims.Done (.folioExport c slot false off len) s c (objectWord ObjKind.job slot) 0 u ∧ u.folios.exports = [e] ∧
        e.job = some slot ∧ e.off = off ∧ e.len = len ∧ e.moved = 0 ∧ e.session = c.session ∧
        (u.refs ObjKind.job slot).hub = (s.refs ObjKind.job slot).hub + 1 ∧ u.folios.jobs = s.folios.jobs) ∧
    (s.folios.exports[i]? = some x → s.pkg.bothDead = false →
      (x.status = 0 → x.moved < x.len →
        (s.exportAllowed x = false → exec (.exportChunk i 0 false) s = .next (s.setExport i { x with status := Status.unitDenied })) ∧
        (s.exportAllowed x = true → x.toPort = false → s.pkg.busMaster = true → x.job = some slot →
          (∃ t, exec (.exportChunk i 0 false) s = .next t ∧ t.host.result = s.exportBytes x ∧
            (∀ y, s.job slot = some y → y.hint ≠ 2 → t.folios.jobs = s.folios.jobs) ∧ (∀ k, k ≠ slot → t.job k = s.job k) ∧
            t.folios.exports[i]? = some { x with moved := x.moved + (s.exportBytes x).length, paused := none }) ∧
          (∃ t, exec (.exportChunk i 0 true) s = .next t ∧
            t.folios.exports[i]? = some { x with status := Status.folioDamaged })) ∧
        (x.paused = some t0 → t0.toNat + 1000000000 ≤ s.now → exec (.exportPauseTimeout i) s =
          .next (s.setExport i { x with status := Status.destGone }))) ∧
      (x.status ≠ 0 ∨ x.len ≤ x.moved → s.host.refs = [] → ∃ t, exec (.exportDone i) s = .next t ∧
        t.folios.exports = s.folios.exports.eraseIdx i ∧ t.folios.jobs = s.folios.jobs))

/-- Each engine of the member and the root engine take event PWR_WARN, and a job that ran is INCOMPLETE; PWR_WARN_DEASSERT lets plans be accepted again. -/
def Obligations.PowerWarning : Prop :=
  ∀ (s : State) (us : List Undrained),
    (s.pkg.pwrWarn = false → ∃ t, exec (.pwrWarn us) s = .next t ∧ t.pkg = { s.pkg with pwrWarn := true } ∧
      (∀ e, e < s.pkg.member.posts ∨ e = 128 → (t.engine e).events.getLsbD 9 = true) ∧
      (s.host.refs = [] → Tbl.wf none s.folios.jobs = true → ∀ slot j, s.job slot = some j → j.running = true →
        ∃ j', t.job slot = some j' ∧ j'.state = .incomplete ∧ j'.cutShort = true)) ∧
    exec .pwrWarnDeassert s = .next { s with pkg := { s.pkg with pwrWarn := false } }

/-! ### Cartouches (chapter 07) -/

/-- A core's exception report reaches its cluster's hashing point: with a place free it is held as a record of count 1 stamped with reporter
and meridian; one with an equal signature takes it, its count one higher up to 65,535; with four others held it folds into the STORM
accumulator and the context's lost bit is set. Nothing but the cartouche path and event CART changes. -/
def Obligations.CartoucheReports : Prop :=
  ∀ (s : State) (u cl : Uno) (code : Nat) (detail : List Byte) (ctx : Ctx) (e : Rec),
    kindOf s.pkg.member u = .core → cl = parentOf s.pkg.member u → kindOf s.pkg.member cl = .cluster → s.present u = true →
    1 ≤ code → code ≤ 6 → detail.length = 8 →
    let r := s.formRec u cl Class.coreExc code detail (s.ctxOf u)
    (r.cls = Class.coreExc ∧ r.code = code ∧ r.count = 1 ∧ r.first = u ∧ r.last = u ∧ recSpan r = 0 ∧
      r.firstT = s.pkg.meridian.setWidth 60 ∧ r.ctx = s.boundCtx (s.ctxOf u)) ∧
    ∃ t, exec (.cartoucheReport u Class.coreExc code detail ctx) s = .next t ∧
      t = { s with cart := t.cart, engines := t.engines } ∧ (∀ k, k ≠ cl → t.point k = s.point k) ∧
      ((s.point cl).held.any (sameSignature r) = false → (s.point cl).held.length < 4 →
        t.point cl = { s.point cl with held := (s.point cl).held ++ [r] }) ∧
      ((s.point cl).held = [e] → sameSignature r e = true → sameSignature e r = true → ∃ m, (t.point cl).held = [m] ∧
        m.count = min 65535 (e.count + 1) ∧ m.cls = e.cls ∧ m.hash = e.hash) ∧
      ((s.point cl).held.any (sameSignature r) = false → 4 ≤ (s.point cl).held.length → (s.point cl).acc = none → ∃ a, (t.point cl).acc = some a ∧
        a.cls = Class.storm ∧ (t.point cl).held = (s.point cl).held ∧ Tbl.get false t.cart.lost r.ctx = true)

/-- A CNET router takes the first record of a staging queue on its die into a free place of its merge table, or merges it into an entry of
its signature; CLOSE_TIME sends the entry on with 4 credits while the link's meter holds 12 and the staging queue at the far end has a place,
and keeps it otherwise; the collector queues up to 64 arrivals and writes the head of its queue to the ring at HEAD, which counts up, but for
the time in which no Compass lives. -/
def Obligations.CartouchePath : Prop :=
  ∀ (s : State) (router src i : Nat) (r : Rec) (e : Merge) (rest : List Rec),
    let tb := s.mergeTable router
    let lk := s.meter router
    (kindOf s.pkg.member router = .cnet →
      s.cart.wire.find? (fun x => x.2 == r && s.cart.atHead x && s.onWay x.1 router) = some (src, r) →
      dieOf s.pkg.member src = dieOf s.pkg.member router →
      (tb.any (fun x => sameSignature x.r r) = false → s.now ≤ fullTime s.now r.firstT + 4 * s.mergeWindow → tb.length < 16 →
        ∃ t m, exec (.cartoucheArrival router r) s = .next t ∧ t.cart.wire = s.cart.wire.erase (src, r) ∧
          t.mergeTable router = tb ++ [m] ∧ m.r = r ∧ t.cart.intake = s.cart.intake) ∧
      (tb = [e] → sameSignature e.r r = true → ∃ t, exec (.cartoucheArrival router r) s = .next t ∧
        t.cart.wire = s.cart.wire.erase (src, r) ∧ t.mergeTable router = [{ e with r := mergeRec e.r r }])) ∧
    (tb[i]? = some e → e.close.toNat ≤ s.now →
      (s.loneRoute router = none → s.stagingFree router = true → 12 ≤ lk.urg →
        ∃ t, exec (.closeTime router i) s = .next t ∧ t.mergeTable router = tb.eraseIdx i ∧
          t.cart.wire = s.cart.wire ++ [(router, e.r)] ∧ t.meter router = { lk with urg := lk.urg - 4 }) ∧
      (lk.urg < 12 → exec (.closeTime router i) s = .next s) ∧
      (s.loneRoute router = none → s.stagingFree router = false → exec (.closeTime router i) s = .next s)) ∧
    (s.pkg.bothDead = false → s.cart.intake.length < 64 →
      s.cart.wire.find? (fun x => x.2 == r && s.cart.atHead x && dieOf s.pkg.member x.1 == some s.homeDie) = some (src, r) →
      ∃ t, exec (.intakeArrival r) s = .next t ∧ t.cart.intake = s.cart.intake ++ [r] ∧
        t.cart.wire = s.cart.wire.erase (src, r) ∧ (t.engine 128).events.getLsbD 4 = true) ∧
    (s.pkg.bothDead = true → exec (.intakeArrival r) s = .next s ∧ exec .collectorWrite s = .next s) ∧
    (s.pkg.bothDead = false → s.cart.intake = r :: rest → s.cart.unread < 4095 → s.cart.intakeAcc = none → ∃ t, exec .collectorWrite s = .next t ∧
      t.cart.intake = rest ∧ t.cart.head = s.cart.head + 1 ∧ t.cart.tail = s.cart.tail ∧
      t.cart.ring.getLast? = some { seq := s.cart.head, r := r, isOpen := false } ∧
      (s.faultnClass r.cls = true → t.cart.faultn = true)) ∧
    (s.cart.intake = [] → exec .collectorWrite s = .next s)

/-- CMP_CA_POP by a session with platform rights pops one entry when it names TAIL and nothing otherwise; FAULTN falls for platform rights
alone; CTX_LOST_CLEAR clears exactly the bits of the contexts that the session sees. -/
def Obligations.CollectorReadOut : Prop :=
  ∀ (s : State) (p : Path) (v : BitVec 32), s.barGone p = false →
    let who := s.actor p
    (s.hasPlatform who = true →
      (v = s.cart.tail → 0 < s.cart.unread → ∃ t, exec (.cmpCaPop p v) s = .next t ∧ t = { s with cart := t.cart } ∧
        t.cart.tail = s.cart.tail + 1 ∧ t.cart.head = s.cart.head ∧ t.cart.faultn = s.cart.faultn) ∧
      (v ≠ s.cart.tail ∨ s.cart.unread = 0 → exec (.cmpCaPop p v) s = .next s) ∧
      exec (.faultnRelease p) s = .next { s with cart := { s.cart with faultn := false }
                                                 host := { s.host with faultnSig := 0 } }) ∧
    (s.hasPlatform who = false → exec (.cmpCaPop p v) s = .next s ∧ exec (.faultnRelease p) s = .next s) ∧
    (∃ t, exec (.ctxLostClear p) s = .next t ∧ t = { s with cart := t.cart } ∧
      (Tbl.wf false s.cart.lost = true → ∀ c, Tbl.get false t.cart.lost c =
        (if s.seesLost who c then false else Tbl.get false s.cart.lost c)))

/-! ### Synchronisation watch, deadlines and trace (chapters 08 and 09) -/

/-- A wait that begins names its object and raises the wait generation, one that ends names none; a registration joins the object's
producers up to 8, and the bank's up to 4,096, and marks the group PRODUCER, and REMOTE from another half. -/
def Obligations.WaitsAndProducers : Prop :=
  ∀ (s : State) (g o : Uno) (c : Ctx),
    kindOf s.pkg.member g = .tg → kindOf s.pkg.member o = .obj → s.present o = true → c < 4096 →
    let core := parentOf s.pkg.member g
    let w := s.waiter g
    let x := s.syncObj o
    (s.present core = true → ∃ t, exec (.synchronisationWait g none c) s = .next t ∧ t.waiter g = { w with obj := none } ∧
      (∀ k, k ≠ g → t.waiter k = s.waiter k) ∧ t.cores = s.cores) ∧
    (s.executes core = true → ∃ t, exec (.synchronisationWait g (some o) c) s = .next t ∧
      t.waiter g = { w with obj := some o, gen := w.gen + 1 } ∧ t.syncObj o = { x with ctx := c } ∧
      (∀ k, k ≠ g → t.waiter k = s.waiter k)) ∧
    (s.present g = true → x.producers.contains g = false → x.producers.length < 8 →
      s.bankProducers ((postOf s.pkg.member o).getD 0) < 4096 → ∃ t, exec (.producerRegistration o g c) s = .next t ∧
        t.syncObj o = { x with ctx := c, producers := x.producers ++ [g] } ∧ (t.waiter g).producer = true ∧
        (postOf s.pkg.member g ≠ postOf s.pkg.member o → (t.waiter g).remote = true) ∧ (t.waiter g).obj = w.obj) ∧
    (s.present g = true → 8 ≤ x.producers.length → ∃ t, exec (.producerRegistration o g c) s = .next t ∧
      t.syncObj o = { x with ctx := c } ∧ t.watch.waiters = s.watch.waiters)

/-- At a multiple of the interval every armed, served half samples, or the snapshot is skipped while the one before is being joined; SNAP
closes a half's sample with event SNAP; JOIN_COMPLETE makes a context with a closed cycle SUSPECT, and DECLARED when the snapshot before
found one and confirms it; one without a finding goes to NONE. -/
def Obligations.SnapshotsAndJudgement : Prop :=
  ∀ (s : State) (env : AccelSample) (p q : Nat) (t0 : Time) (v : Uno) (gr : Group) (c : Ctx),
    let w := s.watcher p
    let g := s.joined
    let d := s.deadlock c
    (s.now % s.snapInterval = 0 → p < s.pkg.member.posts → s.watcherArmed p = true → s.pkg.bothDead = false →
      (s.watch.joining = none → (s.server p).isSome = true → ∃ t, exec (.snapshotTime env) s = .next t ∧
        t.watch.joining = some s.pkg.meridian ∧ (t.watcher p).sampling = some s.pkg.meridian ∧
        (t.watcher p).newEntries = s.sampleBank p env.queued ∧ (t.watcher p).newGroups = s.groupsOf p ∧ t.cores = s.cores) ∧
      (s.watch.joining = some t0 → t0 ≠ s.pkg.meridian → exec (.snapshotTime env) s =
        .next (s.setWatch { s.watch with skipped := min 65535 (s.watch.skipped + 1) }))) ∧
    (s.server p = some q → w.sampling = some t0 → ∃ t, exec (.snap p []) s = .next t ∧ (t.watcher p).sampling = none ∧
      (t.watcher p).entries = w.newEntries ∧ (t.watcher p).snapT = some t0 ∧ (t.watcher p).snaps = w.snaps + 1 ∧
      (t.engine q).events.getLsbD 5 = true) ∧
    (s.watch.joining = some t0 → s.pkg.bothDead = false → (∀ e ∈ s.watch.watchers, e.2.sampling = none) →
      ∃ t, exec .joinComplete s = .next t ∧ t.watch.joining = none ∧ t.watch.snapT = t0 ∧
        (s.watched = [c] → s.partOfCtx c = some (v, gr) → (s.ctxPosts c).any (fun k => (s.watcher k).bad) = false →
          s.watch.barred.contains c = false → (s.policy c 0).cycleEn = true → (s.policy c 0).quiescEn = false →
          (s.policy c 1).quiescEn = false →
          (s.closedSet g c ≠ [] → d.state = 0 → (t.deadlock c).state = 1 ∧ (t.deadlock c).sCycle = true) ∧
          (s.closedSet g c ≠ [] → d.state = 1 → d.sCycle = true →
            s.confirms (g.cycleGroups (s.closedSet g c)) (s.closedSet g c) = true →
            (t.deadlock c).state = 2 ∧ (t.deadlock c).objects = s.closedSet g c ∧
            t.watch.declared = min 65535 (s.watch.declared + 1)) ∧
          (s.closedSet g c = [] → d.state ≠ 2 → t.deadlock c = {})))

/-- POLICY replaces its row; a policy HALT that waits issues once its issuer has a place; DEADLINE_SET arms the first comparator of the object's
bank that is not ARMED, DEADLINE_CLEAR frees it; a value that reaches the target by the deadline makes the record MET at the bank's time, and
a copy past the deadline makes it MISSED one tick after it. -/
def Obligations.PoliciesAndDeadlines : Prop :=
  ∀ (s : State) (c : CmdCtx) (x : Ctx) (row i p : Nat) (ce qe : Bool) (jobId : BitVec 32) (o v : Uno) (gr : Group)
    (target value : Word) (t0 : Time) (n : Nat) (h : PolHalt),
    let d := s.deadline p i
    (Sys2Proof.Claims.Heard s c → s.host.refs = [] → firstFail (s.policyChecks c.who x row (ce || qe) 1 0 0xFF) = none →
      (s.ctxPosts x).all (fun k => !s.postAsleep k) = true → firstFail (s.policyChecks2 x row (ce || qe) 1 0 0xFF) = none →
      (s.policy x row).job = none → Sys2Proof.Claims.Done (.policy c x row ce qe 1 0 0xFF) s c (objectWord ObjKind.context x) 0
        ((s.setPolicy x row { set := true, cycleEn := ce, quiescEn := qe, dl := 1, dm := 0 }).usePosts c.session (s.ctxPosts x))) ∧
    (s.watch.halts[i]? = some h → s.hopsPending (issuerOf h.issuer) < 16 → (s.post h.issuer).lone = false → s.pkg.bothDead = false →
      s.partOfCtx h.ctx = some (v, gr) →
      ∃ t k, exec (.policyHaltIssue i) s = .next t ∧ t.watch.halts = s.watch.halts.eraseIdx i ∧ t.hop s.hopNext = some k ∧
        k.kind = .halt ∧ k.scope = v ∧ k.status = 1 ∧ k.platform = (h.row == 0)) ∧
    (Sys2Proof.Claims.Platform s c → s.present o = true → kindOf s.pkg.member o = .obj → s.ctxOf o = x → row ≤ 1 →
      (s.partOfCtx x).isSome = true → s.mayDeadline c.who x row = true → s.now + 1000 < t0.toNat →
      s.armedDeadline x row jobId = none → postOf s.pkg.member o = some p → s.bankAsleep p = false → s.freeDeadline p = some i →
      ∃ u, Sys2Proof.Claims.Done (.deadlineSet c jobId row o target t0) s c (objectWord ObjKind.context x) 0 u ∧ (u.deadline p i).state = 1 ∧
        (u.deadline p i).jobId = jobId ∧ (u.deadline p i).target = target ∧ (u.deadline p i).t = t0 ∧
        (u.deadline p i).ctx = x ∧ u.watch.objs = s.watch.objs) ∧
    (Sys2Proof.Claims.Heard s c → s.life.lockdown = false → x < 4096 → row ≤ 1 → s.mayDeadline c.who x row = true →
      s.armedDeadline x row jobId = some (64 * p + i) → i < 64 →
      ∃ u, Sys2Proof.Claims.Done (.deadlineClear c x row jobId) s c (objectWord ObjKind.context x) 0 u ∧ u.deadline p i = {} ∧ u.cores = s.cores) ∧
    (d.state = 1 → i < 64 → s.present (objUno p d.obj) = true → (s.inst 4 (objUno p d.obj)).any = false →
      (s.inst 6 (objUno p d.obj)).any = false → postOf s.pkg.member (objUno p d.obj) = some p → d.target.toNat ≤ value.toNat →
      s.copyNow (0x3300 + p) = some n → n ≤ d.t.toNat → ∃ t, exec (.deadlineMet p i value) s = .next t ∧
        (t.deadline p i).state = 2 ∧ (t.deadline p i).doneT = word n ∧ (t.syncObj (objUno p d.obj)).value = value) ∧
    (d.state = 1 → i < 64 → s.copyNow (0x3300 + p) = some n → d.t.toNat < n → ∃ t, exec (.deadlineMissed p i) s = .next t ∧
      (t.deadline p i).state = 3 ∧ (t.deadline p i).doneT = d.t + 1 ∧ (s.server p = none → (t.deadline p i).owed = true))

/-- Of a store instruction the lowest-numbered lane in the region counts: 1, 2, 4 or 8 bytes at offset 0 of a slot by a core that executes are
queued at the core's tap, stamped by the core's copy, with the slot's channel and the bytes right-aligned; a tap queue of 4 drops more, a frozen
instance drops all, each drop counted; a store elsewhere or of another width emits nothing. The station reports the drops of its cluster and
counts anew. -/
def Obligations.InkwellStores : Prop :=
  ∀ (s : State) (g : Uno) (lanes : List InkStore) (st : InkStore) (n : Nat),
    let core := parentOf s.pkg.member g
    let cl := parentOf s.pkg.member core
    let q := s.station cl
    let tq := s.tapQ core
    (kindOf s.pkg.member g = .tg → kindOf s.pkg.member core = .core → s.executes core = true →
      (st ∈ lanes → st.off < 512 → (∀ y ∈ lanes, y.off < 512 → y ≠ st → st.lane < y.lane) →
        (st.off % 16 = 0 → st.width ∈ [1, 2, 4, 8] →
          ((s.inst 5 core).any = false → s.copyNow core = some n →
            (tq.queue.length < 4 → exec (.inkwellStore g lanes) s = .next (s.setTapQ core { tq with queue := tq.queue ++ [
              { type := .data, t := word n, ctx := s.ctxOf core, uno := g, chan := st.off / 16
                size := if st.width = 1 then 1 else if st.width = 2 then 2 else if st.width = 4 then 3 else 4
                data := word (st.data.toNat % 2 ^ (8 * st.width)) }] })) ∧
            (4 ≤ tq.queue.length → ∃ t, exec (.inkwellStore g lanes) s = .next t ∧ t = { s with trace := t.trace } ∧
              (t.tapQ core).queue = tq.queue ∧ (t.tapQ core).drops.count = sat32 tq.drops.count 1)) ∧
          ((s.inst 5 core).any = true → ∃ t, exec (.inkwellStore g lanes) s = .next t ∧ t = { s with trace := t.trace } ∧
            (t.station cl).queue = q.queue ∧ (t.station cl).drops.count = sat32 q.drops.count 1 ∧ t.trace.taps = s.trace.taps)) ∧
        (st.off % 16 ≠ 0 ∨ st.width ∉ [0, 1, 2, 4, 8] → exec (.inkwellStore g lanes) s = .next s)) ∧
      ((∀ y ∈ lanes, 512 ≤ y.off) → exec (.inkwellStore g lanes) s = .next s)) ∧
    (kindOf s.pkg.member cl = .cluster → (s.stationDrops cl).count ≠ 0 → q.lastReport = none →
      (s.server ((postOf s.pkg.member cl).getD 0)).isSome = true → ∃ t, exec (.stationDropReport cl) s = .next t ∧
        t.station cl = { q with drops := {}, lastReport := some s.pkg.meridian } ∧ t = { s with trace := t.trace } ∧
        ∀ u ∈ s.clusterCores cl, (t.tapQ u).drops = {} ∧ (t.tapQ u).queue = (s.tapQ u).queue)

/-- FUNNEL_PACKET writes the funnel's first packet into a part that takes it, as header and payload with the time since the base;
LOSS_PACKET writes the LOSS packet and clears the counter; LINE_COMMIT brings WR_OFF to the last word placed; SERIAL_WORD sends the first
queued word in a frame of 66 bit periods once the frame before it has ended, a TIME packet after 80 idle bit periods more. -/
def Obligations.TraceParts : Prop :=
  ∀ (s : State) (post p i : Nat) (k : Packet) (r : List Packet) (x : Stream) (t0 : Time) (w : Bool × Word) (ws : List (Bool × Word)),
    let T := s.tpart p i
    (s.postRuns post = true → s.trace.stations = [] → s.funnel post = k :: r → s.trace.streams = [(i, some x)] →
      postOf s.pkg.member k.uno = some p → s.takes x k = true → T.state = 2 → T.lossCount = 0 → T.unknown = false →
      T.startT.toNat ≤ k.t.toNat → k.old = false → T.base.toNat ≤ k.t.toNat → k.t.toNat - T.base.toNat ≤ 16383 →
      T.words.length + 2 ≤ 512 → ∃ t, exec (.funnelPacket post) s = .next t ∧ t.funnel post = r ∧
        (t.tpart p i).words = T.words ++ k.words (k.t.toNat - T.base.toNat : Nat) ∧
        (t.tpart p i).packets = min 4294967295 (T.packets + 1) ∧ t.cores = s.cores) ∧
    (s.stream i = some x → T.state = 2 → (s.server p).isSome = true → T.lossCount ≠ 0 → T.lossT = some t0 →
      t0.toNat + 1000 ≤ s.now → T.base.toNat ≤ s.now → s.now - T.base.toNat ≤ 16383 → T.words.length + 2 ≤ 512 →
      ∃ t, exec (.lossPacket p i) s = .next t ∧ (t.tpart p i).lossCount = 0 ∧ (t.tpart p i).lossT = none ∧
        (t.tpart p i).words = T.words ++ lossWords p (if x.anyCtx then 0 else x.ctx) (s.now - T.base.toNat : Nat) T.lossCount
          T.upper T.unknown T.reasons ∧
        (t.tpart p i).lost = min 4294967295 (T.lost + T.lossCount)) ∧
    (T.state ≠ 0 → T.state ≠ 5 → (s.server p).isSome = true → T.wrOff < T.words.length * 8 →
      ∃ t, exec (.lineCommit p i) s = .next t ∧ (t.tpart p i).wrOff = T.words.length * 8 ∧ (t.tpart p i).words = T.words ∧
        (t.tpart p i).packets = T.packets ∧ t.trace.stations = s.trace.stations) ∧
    (s.port.func = 2 → s.pkg.bothDead = false → s.trace.serial.queue = w :: ws →
      let due := s.trace.serial.freeT.toNat + (if w.1 then 80 * s.bitPeriod else 0)
      (due ≤ s.now → ∃ t, exec .serialWord s = .next t ∧ t.trace.serial.queue = ws ∧ t.trace.serial.sent = some w.2 ∧
        t.trace.serial.startT = s.pkg.meridian ∧ t.trace.serial.freeT = word (s.now + 66 * s.bitPeriod) ∧
        t.trace.serial.lost = s.trace.serial.lost ∧ t = { s with trace := t.trace } ∧ t.trace.parts = s.trace.parts) ∧
      (s.now < due → exec .serialWord s = .next s))

/-- STREAM_CREATE starts page 0 of a part on every served post of the scope and gives the session its reference; STREAM_EXPORT
of unread pages begins an export; SVP_IT_FREE releases the oldest pages but the one being written; STREAM_ENDED of an ending stream frees its parts
and slot. -/
def Obligations.Streams : Prop :=
  ∀ (s : State) (c : CmdCtx) (slot post n : Nat) (arg : List Byte) (x : Stream) (p : Path),
    let y := streamOf c.session arg
    let ps := s.streamPosts y.scope
    (Sys2Proof.Claims.Platform s c → s.holdRoom c.session ObjKind.stream slot = true → s.stream slot = none → slot < 512 →
      streamLegal arg = true → s.present y.scope = true → y.ctx = 0 → y.anyCtx = false → y.serial = false →
      s.noneGated ps = true → s.noneUnserved ps = true → s.capableRun y.scope 8 = true →
      (ps.all fun q => decide (s.partsOf q < 32)) = true → (ps.all fun q => decide (y.pages ≤ s.freePages q)) = true →
      ∃ u, Sys2Proof.Claims.Done (.streamCreate c slot arg) s c (objectWord ObjKind.stream slot) 0 u ∧
        u.stream slot = some y ∧ (u.refs ObjKind.stream slot).live = true ∧ u.cores = s.cores ∧
        ∀ q ∈ ps, ((s.server q).isSome = true → (u.tpart q slot).state = 2 ∧ (u.tpart q slot).startT = s.pkg.meridian ∧
            (u.tpart q slot).words = timeWords q 0 s.pkg.meridian) ∧
          (s.server q = none → (u.tpart q slot).state = 1)) ∧
    (s.stream slot = some x →
      (Sys2Proof.Claims.Heard s c → slot < 512 → post < s.pkg.member.posts → (c.queue = none ∨ 4096 * n ≤ c.resLen) →
        s.taken 128 = false → (s.tpart post slot).state ≠ 0 → x.ending = 0 →
        s.mayStream c.who x = true → 0 < n → s.folios.exports = [] → n ≤ (s.tpart post slot).unread →
        ∃ u e, Sys2Proof.Claims.Done (.streamExport c slot post false n) s c (objectWord ObjKind.stream slot) 0 u ∧ u.folios.exports = [e] ∧
          e.job = none ∧ e.stream = slot ∧ e.post = post ∧ e.len = n ∧ e.moved = 0 ∧ u.trace = s.trace) ∧
      (s.barGone p = false → s.postRuns post = true → s.mayStream (s.actor p) x = true → (s.tpart post slot).state ≠ 0 →
        s.regBits RegMap.svpItSel (portKey p (postWindow post + 0x30108)) 0 9 = slot → n < 65536 →
        ∃ t, exec (.svpItFree p post n) s = .next t ∧
          (t.tpart post slot).unread = (s.tpart post slot).unread - min n ((s.tpart post slot).unread - 1) ∧
          (t.tpart post slot).wrPage = (s.tpart post slot).wrPage ∧ t = { s with trace := t.trace }) ∧
      (x.ending ≠ 0 → ∃ t, exec (.streamEnded slot) s = .next t ∧ t.stream slot = none ∧
        (∀ q, q < s.pkg.member.posts → t.tpart q slot = {}) ∧ (∀ k, k ≠ slot → t.stream k = s.stream k)))

/-! ### The debug port and its pins (chapter 11) -/

/-- The request at the head of the inbound queue may execute (R299): the previous response has been taken, its SEQ is the next one or
the session's first, and a Compass lives. `s` is the state once the row's line words have come in. -/
def Sys2Proof.Claims.Accepted (s : State) (r : Request) : Prop :=
  s.pkg.aonUp = true ∧ s.port.request = some r ∧ s.portReady = true ∧ s.pkg.bothDead = false ∧
  (s.port.sessionFresh = true ∨ s.session portSlot = none ∨ r.seq = s.port.seq + 1)

/-- The session that the port opens (R312). -/
def Sys2Proof.Claims.portSession (s : State) : Session :=
  { isPort := true, ring := 0, nonce := 0, scheck := 0, openT := s.pkg.meridian }

/-- The state in which an accepted request executes: its packet has left the inbound queue, SEQ and CRC are kept, and the port
session is open (R299, R300, R312). -/
def Sys2Proof.Claims.opened (s : State) (r : Request) : State :=
  { s with
    port := { s.port.takePacket with sessionFresh := false, seq := r.seq, lastCrc := r.crc, lastReqT := s.pkg.meridian }
    auth := match s.session portSlot with
      | some _ => s.auth
      | none => { s.auth with sessions := Tbl.set none s.auth.sessions portSlot (some (Sys2Proof.Claims.portSession s)) }
    legend := match s.session portSlot with
      | some _ => s.legend
      | none => { s.legend with gen := s.legend.gen + 2, changeT := s.pkg.meridian } }

/-- The request rows of a port with their TYPE codes (Table PT-4). -/
def Sys2Proof.Claims.requests (f : LineFrame) (ok : Bool) : List (Instr × Nat) :=
  [(.portRead f, 1), (.portWrite f, 2), (.challenge f, 4), (.respond f ok, 5), (.portCommand f, 6), (.portClose f, 7)]

/-- READ answers COUNT values, each as BAR0 reads it; WRITE writes and answers LEN 0; CHALLENGE answers a nonce that lives 10 s, or
LOCKED_OUT; RESPOND with a good signature adds the operator grant and clears FAILS, with a bad one counts FAILS and from the fourth on starts
a lockout; COMMAND delivers its entry; CLOSE answers and closes the session. Each executes the request of its TYPE at the head of the
queue, and nothing while another request stands there. -/
def Obligations.PortRequests : Prop :=
  ∀ (s0 : State) (f : LineFrame) (r : Request),
    let s := s0.lineIn f
    Sys2Proof.Claims.Accepted s r → r.plain = true → s.life.lockdown = false →
    let u := Sys2Proof.Claims.opened s r
    let bare : State := { u with port := { u.port with chall := none } }
    (∀ x ∈ Sys2Proof.Claims.requests f true, 1 ≤ r.type → r.type ≤ 7 → r.type ≠ x.2 → exec x.1 s0 = .next s) ∧
    (∀ w, r.type = 1 → r.payload = [w] → accessLegal w = true →
      (∃ t a, exec (.portRead f) s0 = .next t ∧ t.port.response = some a ∧ a.type = 0x81 ∧ a.status = 0 ∧
        a.payload.length = accessCount w ∧ t.port.taken = false) ∧
      (accessCount w = 1 → exec (.portRead f) s0 = .next ((u.barRead .port (accessOff w) (accessWide w)).respond 0x81 0
        [(u.barRead .port (accessOff w) (accessWide w)).host.readData]))) ∧
    (∀ w v vs, r.type = 2 → r.payload = w :: v :: vs → writeFields r = true →
      (∃ t a, exec (.portWrite f) s0 = .next t ∧ t.port.response = some a ∧ a.type = 0x82 ∧ a.status = 0 ∧
        a.payload = [] ∧ t.port.taken = false) ∧
      (vs = [] → exec (.portWrite f) s0 = .next ((u.barWrite .port (accessOff w) (accessWide w) v).respond 0x82 0 []))) ∧
    (∀ key level ctx, r.type = 4 → challengeArgs r = some (key, level, ctx) → challengeFields key level ctx = true →
      (s.portLocked = true → exec (.challenge f) s0 = .next (bare.respond 0x84 4 [])) ∧
      (s.portLocked = false → s.portKeyOk key ctx = true → ∃ ch, ch.key = key ∧ ch.level = level ∧ ch.ctx = ctx ∧
        ch.endT = word (s.now + 10000000000) ∧
        exec (.challenge f) s0 = .next (({ u with drawn := u.drawn + 1, port := { u.port with chall := some ch } } :
          State).respond 0x84 0 ((rangeFrom 0 4).map (fun i => ch.nonce.extractLsb' (64 * i) 64))))) ∧
    (∀ ch x, r.type = 5 → r.payload.length = 8 → s.port.chall = some ch → s.session portSlot = some x → s.now < ch.endT.toNat →
      s.portKeyOk ch.key ch.ctx = true →
      (ch.key = 1 → exec (.respond f true) s0 = .next
        (let v := ({ u with port := { u.port with chall := none, fails := 0, nextLock := 1 } } : State).setSession portSlot
           (some { x with operator := { x.operator with viaPort := true } })
         v.respond 0x85 0 [word (v.levelCode portSlot + 256 * x.held s.now)])) ∧
      ∃ t, exec (.respond f false) s0 = .next t ∧ t.port.chall = none ∧ t.port.fails = min 255 (s.port.fails + 1) ∧
        t.port.response = some { type := 0x85, seq := r.seq, status := 3, payload := [] } ∧ t.auth = s.auth ∧
        (3 ≤ s.port.fails → t.port.lockEnd = some (word (s.now + s.port.nextLock * 1000000000)) ∧
          t.port.nextLock = min 64 (2 * s.port.nextLock)) ∧
        (s.port.fails < 3 → t.port.lockEnd = s.port.lockEnd ∧ t.port.nextLock = s.port.nextLock)) ∧
    (r.type = 6 → r.payload.length = 8 →
      let entry := r.payload.flatMap (fun w => leBytes 8 w.toNat)
      let a := u.entryArg entry
      let i : InFlight := { c := entryCtx none entry, ring := 0, opcode := entryOp entry, inline := entryInline entry, arg := a,
                            object := entryObject (entryOp entry) (entryInline entry) }
      let v : State := { u with host := { u.host with inflight := u.host.inflight ++ [i] } }
      (firstFail (u.entryChecks none entry (.ok a)) = none → exec (.portCommand f) s0 = .next v) ∧
      (∀ st, firstFail (u.entryChecks none entry (.ok a)) = some st →
        exec (.portCommand f) s0 = .next (v.refuse (entryCtx none entry) st))) ∧
    (r.type = 7 → r.payload = [] → ∃ t, exec (.portClose f) s0 = .next t ∧ t.session portSlot = none ∧ t.port.sessionFresh = true ∧
      t.port.chall = none ∧ t.port.aperture = [] ∧ t.port.staging = [] ∧
      (s.host.waiting = [] → s.auth.verify = [] → s.host.refs = [] → s.engines = [] → s.trace.streams = [] →
        s.upd.owner ≠ some portSlot →
        t.port.response = some { type := 0x87, seq := r.seq, status := 0, payload := [] }))

/-- On the one-wire line a frame with a right trailer is one packet of the empty queue and ends the hunt, and one with a wrong trailer is
counted, discarded and starts the hunt. A retry offers the stored response again; any other SEQ is answered with SEQ_ORDER and the
expected SEQ; a request out of Table PT-4 is BAD_REQUEST, one of an undefined TYPE answered with TYPE 0xFF. No one of them executes.
PARTIAL_PACKET_STALL counts and hunts; NONCE_EXPIRY, LOCKOUT_EXPIRY and IDLE_CLOSE end what they name once its time has come. -/
def Obligations.PortSequenceAndTimeouts : Prop :=
  ∀ (s : State) (f : LineFrame) (r : Request) (ok : Bool) (h : Word) (ps : List Word) (c : Word),
    s.pkg.aonUp = true →
    let v := s.lineIn f
    (s.scanPort = false → s.port.inWords = [] → headerOk s.port.hunting h = true → ps.length = bitsOf h.toNat 16 10 →
      f.words = h :: ps ++ [c] → f.broken = false →
      (c = trailer (h :: ps) → v = { s with port := { s.port with
        halfbit := f.halfbit, inWords := f.words, partialT := s.pkg.meridian, hunting := false } } ∧
        v.port.request = some { type := bitsOf h.toNat 40 8, seq := BitVec.ofNat 8 (bitsOf h.toNat 32 8), payload := ps,
                                crc := c.setWidth 32, plain := bitsOf h.toNat 0 16 == 0 && bitsOf h.toNat 26 6 == 0 }) ∧
      (c ≠ trailer (h :: ps) → s.port.hunting = false → v.port.inWords = [] ∧ v.port.hunting = true ∧
        v.port.crcErr = sat16 s.port.crcErr ∧ v.port.response = s.port.response ∧ v.port.seq = s.port.seq ∧ v.auth = s.auth ∧
        v.host = s.host ∧ v.regs = s.regs)) ∧
    (∀ x ∈ Sys2Proof.Claims.requests f ok,
      (v.port.request = some r → r.type = x.2 → v.portReady = true → v.port.sessionFresh = false →
        (v.session portSlot).isSome = true → r.seq ≠ v.port.seq + 1 →
        (r.seq = v.port.seq → r.crc = v.port.lastCrc → ∃ t, exec x.1 s = .next t ∧ t.port.taken = false ∧ t.port.order = none ∧
          t.port.response = v.port.response ∧ t.port.seq = v.port.seq ∧ t = { v with port := t.port }) ∧
        (¬ (r.seq = v.port.seq ∧ r.crc = v.port.lastCrc) → ∃ t, exec x.1 s = .next t ∧ t.port.taken = false ∧
          t.port.order = some { type := x.2 + 0x80, seq := r.seq, status := 2, payload := [word (v.port.seq + 1).toNat] } ∧
          t.port.response = v.port.response ∧ t.port.seq = v.port.seq ∧ t = { v with port := t.port })) ∧
      (Sys2Proof.Claims.Accepted v r →
        (r.type = x.2 → r.plain = false → exec x.1 s = .next ((Sys2Proof.Claims.opened v r).respond (x.2 + 0x80) 1 [])) ∧
        (r.type = 0 ∨ 7 < r.type → exec x.1 s = .next ((Sys2Proof.Claims.opened v r).respond 0xFF 1 [])))) ∧
    (s.port.partialHeld ≠ [] → s.port.partialT.toNat + 1000000000 ≤ s.now →
      ∃ t, exec .partialPacketStall s = .next t ∧ t.port.stalls = sat16 s.port.stalls ∧ t.port.hunting = true ∧
        t.port.inWords = s.port.inWords.take (s.port.inWords.length - s.port.partialHeld.length) ∧ t.auth = s.auth) ∧
    (∀ c, s.port.chall = some c → c.endT.toNat ≤ s.now →
      exec .nonceExpiry s = .next { s with port := { s.port with chall := none } }) ∧
    (∀ e, s.port.lockEnd = some e → e.toNat ≤ s.now →
      exec .lockoutExpiry s = .next { s with port := { s.port with lockEnd := none } }) ∧
    ((s.session portSlot).isSome = true → s.pkg.bothDead = false →
      s.port.lastReqT.toNat + s.regBits RegMap.cmpPtCfg 0x11200 48 16 * 1000000000 ≤ s.now →
      ∃ t, exec .idleClose s = .next t ∧ t.session portSlot = none ∧ t.port.sessionFresh = true)

/-- Each scan instruction loads the instruction register, from which Capture-IR first shifts out whether a word waits; EXTEST, CLAMP and HIGHZ put the pins under the boundary register in an open
state or with platform rights, and a change passes the pins through a guard. LEDGER moves one word on 64 shifts and counts a framing error
on any other number. Test-Logic-Reset keeps the session and starts the hunt; TRST_N closes it and clears the link. -/
def Obligations.ScanPort : Prop :=
  ∀ s : State, s.scanPort = true → s.pkg.aonUp = true →
    (∀ x ∈ [(Instr.extest, 0), (.samplePreload, 1), (.idcode, 2), (.clamp, 3), (.highz, 4), (.ledger, 0x20), (.bypass, 0xFF)],
      let acts : Bool := (x.2 == 0 || x.2 == 3 || x.2 == 4) && s.scanFree
      (acts = s.port.bscan → exec x.1 s = .next { s with port := { s.port with
        ir := x.2, irOut := some (1 + 4 * bitNat (!s.port.outbound.1.isEmpty)) } }) ∧
      (acts ≠ s.port.bscan → ∃ t, exec x.1 s = .next t ∧ t.port.ir = x.2 ∧ t.port.bscan = acts ∧ t.port.guardOut.on = true ∧
        t.port.guardIn = true ∧ t.port.guardFault = true ∧ t.port.func = 0 ∧ t.port.cross = none ∧ t.auth = s.auth ∧
        t.host = s.host ∧ t.port.response = s.port.response)) ∧
    (∀ n w, s.port.ir = 0x20 →
      (n ≠ 64 → ∃ t, exec (.ledgerWord n w) s = .next t ∧ t.port.framing = sat16 s.port.framing ∧ t.port.hunting = true ∧
        t.port.outWords = s.port.outWords ∧ t.port.taken = s.port.taken ∧ t.port.drOut = some s.ledgerOut ∧
        t.port.inWords = s.port.inWords.take (s.port.inWords.length - s.port.partialHeld.length)) ∧
      (s.port.inWords = [] → headerOk s.port.hunting w = true →
        exec (.ledgerWord 64 w) s = .next { s with port := { ({ s.port with drOut := some s.ledgerOut } : Port).consume with
          inWords := [w], partialT := s.pkg.meridian } })) ∧
    (∃ t, exec .testLogicReset s = .next t ∧ t.port.ir = 2 ∧ t.port.outWords = [] ∧ t.port.taken = true ∧ t.port.bscan = false ∧
      t.port.hunting = true ∧
      t.port.inWords = s.port.inWords.take (s.port.inWords.length - s.port.partialHeld.length) ∧ t.auth = s.auth ∧
      t.port.seq = s.port.seq) ∧
    (∃ t, exec .trstN s = .next t ∧ t.session portSlot = none ∧ t.port.seq = 0 ∧ t.port.response = none ∧ t.port.inWords = [] ∧
      t.port.events = [] ∧ t.port.sessionFresh = true) ∧
    (∀ f r, s.port.request = some r → r.type = 3 → s.portReady = true → ∃ t, exec (.poll f) s = .next t ∧ t.port.taken = false ∧
      t.port.response = s.port.response ∧ t = { s with port := t.port } ∧
      t.port.order = some { type := 0x83, seq := 0, status := if pollFields r then 0 else 1, payload := [] })

/-- On a one-wire member POLL opens a slot, which sends the response not yet taken, else the oldest event, else an empty response; a
collision is counted and the packet offered again; a long low holds the package warm reset, a shorter one counts as a glitch. TRIG_IN sets
event TRIG of the root engine unless its guard runs; CROSS and the guards end; CMP_PT_CLR clears its counts; CMP_PT_APR releases chunks. -/
def Obligations.OneWireAndPins : Prop :=
  ∀ s : State, s.pkg.aonUp = true →
    (s.scanPort = false →
      (∀ f h c, (s.lineIn f).port.inWords = [h, c] → bitsOf h.toNat 16 10 = 0 → bitsOf h.toNat 40 8 = 3 →
        let v := s.lineIn f
        exec (.poll f) s = .next { v with port := { v.port with inWords := [], pollOpen := true } }) ∧
      (s.port.pollOpen = true → ∃ t, exec .responseSlot s = .next t ∧ t.port.pollOpen = false ∧ t.port.driving = true ∧
        t = { s with port := t.port } ∧
        (∀ r, s.port.taken = false → s.port.order = none → s.port.response = some r →
          t.port.outWords = r.words ∧ t.port.taken = true ∧ t.port.outEvent = false) ∧
        (∀ e es, s.port.taken = true → s.port.events = e :: es →
          t.port.outWords = eventWords_ e ∧ t.port.outEvent = true ∧ t.port.events = es) ∧
        (s.port.taken = true → s.port.events = [] →
          t.port.outWords = Resp.words { type := 0x83, seq := 0, status := 0, payload := [] } ∧ t.port.outEvent = false)) ∧
      (s.port.driving = true → ∃ t, exec .lineCollision s = .next t ∧ t.port.driving = false ∧
        t.port.collisions = sat16 s.port.collisions ∧ t.port.outWords = [] ∧
        (s.port.outEvent = false → bitsOf (s.port.outWords.headD 0).toNat 40 8 ≠ 0x83 → t.port.taken = false)) ∧
      exec .driverRelease s = .next { s with port := { s.port with driving := false } } ∧
      (s.port.partialHeld = [] → exec .dbgrstGlitch s = .next { s with port := { s.port with
        lineLow := some s.pkg.meridian, driving := false, pollOpen := false } }) ∧
      (s.pkg.warmHeld = false → ∀ u, exec .packageWarmReset s = .next u →
        exec .dbgrstReset s = .next { u with pkg := { u.pkg with warmHeld := true } }) ∧
      (s.pkg.warmHeld = true → ∃ t, exec .dbgrstHigh s = .next t ∧ t.pkg.warmHeld = false ∧ t.port.resets = sat16 s.port.resets ∧
        t.cores = s.cores) ∧
      (s.pkg.warmHeld = false → s.port.lineLow.isSome = true → exec .dbgrstHigh s = .next { s with port := { s.port with
        glitches := sat16 s.port.glitches, lineLow := none } })) ∧
    (bitAt (s.regWord RegMap.cmpPtCfg 0x11200) 0 = true →
      (s.port.guardIn = true → ∃ t, exec .trigInAssertion s = .next t ∧ t.port.guardDrops = sat16 s.port.guardDrops ∧
        t.port.tiCount = s.port.tiCount ∧ t.engines = s.engines) ∧
      (s.port.guardIn = false → s.chains = [] → ∃ t, exec .trigInAssertion s = .next t ∧ t.port.tiCount = s.port.tiCount + 1 ∧
        (∀ p q, p < s.pkg.member.posts → s.server p = some q → (t.engine q).events.getLsbD 8 = true) ∧
        (t.engine 128).events.getLsbD 8 = true ∧ t.auth = s.auth)) ∧
    (∀ e, s.port.cross = some e → e.toNat ≤ s.now →
      exec .crossPulseEnd s = .next { s with port := { s.port with cross := none } }) ∧
    (∃ t, exec .guardIntervalEnd s = .next t ∧ t.port.guardOut = {} ∧ t.port.guardIn = false ∧ t.port.guardFault = false ∧
      (s.port.guardOut.on = true → t.port.func = s.port.guardOut.next) ∧
      (s.port.guardOut.on = false → t.port.func = s.port.func) ∧ t = { s with port := t.port }) ∧
    (∀ p, s.barGone p = false → s.hasPlatform (s.actor p) = true →
      (∃ t, exec (.ptClrLine p) s = .next t ∧ t.port.glitches = 0 ∧ t.port.collisions = 0 ∧ t.port.resets = 0 ∧
        t.port.guardDrops = 0 ∧ t.port.crcErr = s.port.crcErr) ∧
      (∃ t, exec (.ptClrErr p) s = .next t ∧ t.port.stalls = 0 ∧ t.port.framing = 0 ∧ t.port.crcErr = 0 ∧ t.port.auth = 0 ∧
        t.port.glitches = s.port.glitches) ∧
      (∀ v : Word, (v &&& 0x0000000000000001) = 1 → bitAt (s.regWord RegMap.cmpPtCfg 0x11200) 0 = false →
        ∃ t, exec (.cmpPtCfgWrite p v) s = .next t ∧ bitAt (t.regWord RegMap.cmpPtCfg 0x11200) 0 = true ∧ t.port.guardIn = true)) ∧
    ((s.session portSlot).isSome = true → ∀ n, n < 32 → ∃ t, exec (.cmpPtAprAck n) s = .next t ∧
      t.port.aperture = s.port.aperture.drop (min n s.port.aperture.length) ∧
      t.port.aprFirst = (s.port.aprFirst + min n s.port.aperture.length) % 16)

/-! ### Sessions, tokens, shared objects and groups (chapters 02, 12 and 14) -/

/-- OPEN takes the lowest free slot and returns nonce, time and SCHECK; CLOSE completes and frees the slot with a SESSION_CLOSED event. A
GRANT that passes steps 1 to 8 of R331 waits for its verification, which adds the grant or counts the failure; a tenant level is gone at
its EXPIRY. ATTEST and CERT return their records; OPKEY installs new operator keys. -/
def Obligations.SessionsAndTokens : Prop :=
  ∀ (s : State) (c : CmdCtx) (slot : Nat) (x : Session), s.pkg.bothDead = false →
    (∀ q, c.queue = some q → 32 ≤ c.resLen →
      (s.life.lockdown = true → exec (.openSession c) s = .next (s.refuse c Status.lockdown)) ∧
      (s.life.lockdown = false → (∀ i, i < 255 → (s.session i).isSome = true) →
        exec (.openSession c) s = .next (s.refuse c Status.sessionFull)) ∧
      (s.life.lockdown = false → slot < 255 → s.session slot = none → (∀ i, i < slot → (s.session i).isSome = true) →
        ∃ (u : State) (y : Session), exec (.openSession c) s = .next (u.completeFor c slot Status.ok (objectWord ObjKind.session slot) 0) ∧
          u.session slot = some y ∧ (∀ j, j ≠ slot → u.session j = s.session j) ∧ y.isPort = false ∧ y.ring = q ∧
          y.openT = s.pkg.meridian ∧ y.operator = {} ∧ y.provision = {} ∧ y.makerTest = {} ∧ y.analysis = {} ∧ y.tenants = [] ∧
          y.holds = [] ∧ u.host.result = leBytes 16 y.nonce.toNat ++ leBytes 8 s.now ++ leBytes 4 y.scheck.toNat ++ leBytes 4 0 ∧
          u.host.rings = s.host.rings ∧ u.engines = s.engines)) ∧
    (s.session c.session = some x →
      (∃ t, exec (.closeSession c) s = .next t ∧ t.session c.session = none ∧
        (x.isPort = false → c.session ≠ portSlot → x.holds = [] → s.host.waiting = [] → s.auth.verify = [] → s.host.refs = [] →
          s.engines = [] → s.trace.streams = [] → s.upd.owner ≠ some c.session →
          let v := s.complete c Status.ok noObject 0
          t.host.rings = (v.pushEvent x.ring (v.event EventType.sessionClosed Reason.close c.session 0xFF
            (objectWord ObjKind.session c.session) 0 0)).host.rings)) ∧
      (∀ arg, 
        (∀ st, firstFail (s.tokenChecks x c.session arg) = some st → exec (.grant c arg) s = .next (s.refuse c st)) ∧
        (firstFail (s.tokenChecks x c.session arg) = none →
          (8 ≤ s.auth.verify.length → exec (.grant c arg) s = .next { s with
            host := { s.host with waiting := s.host.waiting ++ [.grant c arg] } }) ∧
          (s.auth.verify.length < 8 → exec (.grant c arg) s = .next { s with auth := { s.auth with verify := s.auth.verify ++
            [{ c := c, level := fieldAt arg 6 1, key := fieldAt arg 7 1, ctx := fieldAt arg 8 2,
               seq := BitVec.ofNat 32 (fieldAt arg 0x0C 4), expiry := word (fieldAt arg 0x10 8),
               regGen := ((s.reg (fieldAt arg 8 2)).map (·.regGen)).getD 0 }] } })))) ∧
    (∀ v r, s.auth.verify = v :: r → s.session v.c.session = some x → v.c.session ≠ portSlot → s.trace.streams = [] →
      x.lastSeq v.key v.ctx < v.seq.toNat →
      let b : State := { s with auth := { s.auth with verify := r } }
      (v.key = 1 → exec (.grantVerifyDone true) s = .next ((b.setSession v.c.session (some { x with
        fails := 0, nextLock := 1, operator := { x.operator with on := v.level != 0, seq := v.seq, expiry := v.expiry } })).complete v.c
          Status.ok (objectWord ObjKind.context v.ctx) (word v.level))) ∧
      (v.key = 2 → (s.reg v.ctx).map (·.regGen) = some v.regGen → x.tenants = [] →
        exec (.grantVerifyDone true) s = .next ((b.setSession v.c.session (some { x with
          fails := 0, nextLock := 1, tenants := [{ ctx := v.ctx, level := v.level, seq := v.seq, expiry := v.expiry }] })).complete v.c
            Status.ok (objectWord ObjKind.context v.ctx) (word v.level))) ∧
      (v.key = 2 → (s.reg v.ctx).map (·.regGen) ≠ some v.regGen →
        exec (.grantVerifyDone true) s = .next (b.refuse v.c Status.ctxUnbound)) ∧
      (v.key ≠ 2 → ∃ (u : State) (y : Session), exec (.grantVerifyDone false) s = .next (u.refuse v.c Status.grantSignature) ∧
        u.session v.c.session = some y ∧ y.fails = min 255 (x.fails + 1) ∧ y.operator = x.operator ∧ y.tenants = x.tenants ∧
        u.auth.fails = sat16 s.auth.fails ∧
        (3 ≤ x.fails → y.lockEnd = some (word (s.now + x.nextLock * 1000000000)) ∧ y.nextLock = min 64 (2 * x.nextLock)))) ∧
    (s.session slot = some x → s.life.state = .production → x.provision.live s.now = false → x.makerTest.live s.now = false →
      x.analysis.live s.now = false →
      (∀ cx, cx ≠ 0 → (∀ g ∈ x.tenants, g.ctx = cx → g.portLevel = 0 ∧ g.expiry.toNat ≤ s.now) → s.levelOn (some slot) cx = 0) ∧
      ∃ t, exec (.grantLapse slot) s = .next t ∧ t.auth = s.auth ∧
        (∀ i y, s.trace.streams = [(i, some y)] → y.owner = slot → y.ending = 0 → s.mayStream (some slot) y = false →
          ∃ z, t.stream i = some z ∧ z.isCut = true)) ∧
    (s.session slot = some x → slot ≠ portSlot → ∀ e, x.lockEnd = some e → e.toNat ≤ s.now →
      exec (.tokenLockoutExpiry slot) s = .next (s.setSession slot (some { x with lockEnd := none }))) ∧
    (Sys2Proof.Claims.Heard s c → ∀ q, c.queue = some q →
      (∀ ctx ch, ctx < 4096 → 216 ≤ c.resLen → ∃ sig, sig.length = 64 ∧ Sys2Proof.Claims.Done (.attest c ctx ch) s c (objectWord ObjKind.context ctx) 0
        { s with host := { s.host with result := s.attestBody ctx ch ++ sig } }) ∧
      (s.life.certChain.length ≤ c.resLen → Sys2Proof.Claims.Done (.cert c) s c noObject (word s.life.certChain.length)
        { s with host := { s.host with result := s.life.certChain } })) ∧
    (∀ arg, Sys2Proof.Claims.Platform s c → arg.length = 192 → s.lcBusy = false → s.auth.opKeys = true →
      regLegal (arg.take 128) = true → regCtx (arg.take 128) = 0 → regBare (arg.take 128) = false →
      s.canWrite [(s.nextOpSector, 1)] = true → s.life.state = .production →
      ∃ u, Sys2Proof.Claims.Done (.opkey c arg true true true) s c noObject 0 u ∧ u.life.opGen = s.life.opGen + 1 ∧
        u.life.opSector = s.nextOpSector ∧ u.auth.opPub = regPub (arg.take 128) ∧ u.life.opRecPub = regPub (arg.take 128) ∧
        u.auth.sessions = s.auth.sessions)

/-- ACQUIRE adds a hold of the session and answers the new count; at the limit it is refused with the count unchanged. RELEASE drops one,
NOT_HELD for a session without one, and at zero the object dies. GROUP_CREATE and PARTITION_CREATE fill their slot with one reference and
the members that are live as it is made;
PARTITION_DESTROY unbinds the context and drops one reference of the group. -/
def Obligations.SharedObjects : Prop :=
  ∀ (s : State) (c : CmdCtx) (kind slot : Nat) (x : Session), s.session c.session = some x → s.pkg.bothDead = false →
    s.pkg.fwRecovery = false →
    (kindSlotOk kind slot = true → counted kind = true → s.refLive kind slot = true →
      (s.observes c.who (s.objCtx kind slot) = false → exec (.acquire c kind slot) s = .next (s.refuse c Status.unitDenied)) ∧
      (s.observes c.who (s.objCtx kind slot) = true → s.holdRoom c.session kind slot = true → (s.refs kind slot).kept = 0 →
        (s.refCount kind slot < refTop kind → Tbl.wf none s.auth.sessions = true →
          Sys2Proof.Claims.Done (.acquire c kind slot) s c (objectWord kind slot) (word (s.refCount kind slot + 1))
            (s.setSession c.session (some { x with holds := addHold kind slot x.holds }))) ∧
        (refTop kind ≤ s.refCount kind slot → exec (.acquire c kind slot) s = .next (s.refuse c Status.refLimit))) ∧
      (x.holdOf kind slot = 0 → exec (.release c kind slot) s = .next (s.refuse c Status.notHeld)) ∧
      (0 < x.holdOf kind slot →
        ∃ u d, u = s.setSession c.session (some { x with holds := dropHold kind slot x.holds }) ∧
          exec (.release c kind slot) s = .next (u.complete c Status.ok (objectWord kind slot) d).reap ∧
          d = word (u.refCount kind slot)) ∧
      (∀ r, kind = ObjKind.job → s.host.refs = [(refKey kind slot, r)] → s.auth.sessions = [(c.session, some x)] →
        x.holds = [(kind, slot, 1)] → r.hub = 0 → r.kept = 0 →
        ∃ t, exec (.release c kind slot) s = .next t ∧ t.job slot = none ∧ (t.refs kind slot).live = false)) ∧
    (∀ v arg, let g := parseGroup arg
      arg.length = groupBytes arg → s.holdRoom c.session ObjKind.group (v - 0xF00000) = true →
      (∀ st, firstFail (s.groupChecks c.who v g false) = some st → exec (.groupCreate c v arg) s = .next (s.refuse c st)) ∧
      (firstFail (s.groupChecks c.who v g false) = none → ∃ u,
        Sys2Proof.Claims.Done (.groupCreate c v arg) s c (objectWord ObjKind.group (v - 0xF00000)) 0 u ∧
        u.group v = some { members := g.members.flatMap s.closeRange, ctx := g.ctx, level := s.newLevel g.members, partition := false,
                           freezeSet := 0 } ∧
        (∀ w, (g.members.flatMap s.closeRange).any (fun m => memberHas m w) = true →
          g.members.any (fun m => memberHas m w) = true ∧ (0xF00000 ≤ w → w < 0xF01000 → (s.group w).isSome = true)) ∧
        (∀ w, w ≠ v → u.group w = s.group w) ∧ (u.refs ObjKind.group (v - 0xF00000)).live = true ∧
        u.legend.gen = s.legend.gen + 2 ∧ u.cores = s.cores ∧ u.auth.regs = s.auth.regs)) ∧
    (∀ v arg fs lp, let g := parseGroup arg
      let r := slice arg (groupBytes arg) 128
      arg.length = groupBytes arg + 128 → fs < 64 → lp ≤ 2 → s.holdRoom c.session ObjKind.group (v - 0xF00000) = true →
      g.ctx = regCtx r → firstFail (s.groupChecks c.who v g true) = none → firstFail (s.regChecks c.who r true true) = none →
      ∃ u y, Sys2Proof.Claims.Done (.partitionCreate c v fs lp arg true true) s c (objectWord ObjKind.group (v - 0xF00000)) 0 u ∧
        u.group v = some { members := g.members.flatMap s.closeRange, ctx := g.ctx, level := s.newLevel g.members, partition := true,
                           freezeSet := fs, lonePolicy := lp } ∧
        u.reg g.ctx = some y ∧ y.part = v ∧ y.grantPub = regPub r ∧ y.sealing = !regBare r ∧ y.regGen = s.auth.regGen + 1 ∧
        u.auth.regGen = s.auth.regGen + 1 ∧ (∀ w, w ≠ v → u.group w = s.group w)) ∧
    (∀ v g r, Sys2Proof.Claims.Platform s c → 0xF00000 ≤ v → v < 0xF01000 → s.group v = some g → g.partition = true →
      s.captures v = false → s.sets = [] → s.trace.streams = [] → s.watch = {} →
      s.host.refs = [(refKey ObjKind.group (v - 0xF00000), r)] → r.live = true → r.dying = false → s.session r.creator = none →
      0 < r.kept → r.hub = 0 → s.holdsOn ObjKind.group (v - 0xF00000) = 0 → s.memberGroups g = [] →
      ∃ t, exec (.partitionDestroy c v) s = .next t ∧ t.reg g.ctx = none ∧
        (r.kept = 1 → t.group v = none) ∧
        (1 < r.kept → t.group v = some { g with partition := false, ctx := 0, freezeSet := 0 }))

/-! ### Lifecycle flash and hub firmware (chapters 13 and 15) -/

/-- UFLASH_WRITE stores a user sector and leaves the others; UFLASH_READ returns one, an erased one as all ones. An accepted LIFECYCLE
command writes INTENT in every reachable copy, closes every session and holds the cores; without a free record slot it is FLASH_WORN.
WIPE_COMPLETE erases the user sectors and ends in a hub-cold reset, or commits what start-up found pending. -/
def Obligations.LifecycleFlash : Prop :=
  ∀ (s : State) (c : CmdCtx) (k : Nat),
    (Sys2Proof.Claims.Platform s c → s.lcBusy = false → k < 16 →
      (∀ data : List Byte, data.length = 65536 → s.canWrite [(40 + k, 1)] = true →
        ∃ u, Sys2Proof.Claims.Done (.uflashWrite c k data) s c noObject 0 u ∧
          Tbl.get [] u.life.user k = (if data.all (fun b => b == 0xFF) then [] else data) ∧
          (∀ j, j ≠ k → Tbl.get [] u.life.user j = Tbl.get [] s.life.user j) ∧ u.life.copies = s.life.copies ∧
          u.life.state = s.life.state ∧ u.auth = s.auth ∧ u.upd = s.upd) ∧
      (∀ data : List Byte, data.length = 65536 → s.canWrite [(40 + k, 1)] = false →
        ∃ u : State, exec (.uflashWrite c k data) s = .next (u.refuse c Status.flashWorn) ∧ u.life = s.life) ∧
      (∀ q, c.queue = some q → 65536 ≤ c.resLen →
        let d := Tbl.get [] s.life.user k
        Sys2Proof.Claims.Done (.uflashRead c k) s c noObject 0
          { s with host := { s.host with result := if d.isEmpty then List.replicate 65536 0xFF else d } })) ∧
    (∀ arg n, Sys2Proof.Claims.Heard s c → firstFail (s.transitionChecks c arg true true) = none →
      (s.freeRecSlot = none → ∃ u : State, exec (.lifecycle c arg true true) s = .next (u.refuse c Status.flashWorn) ∧ u.life = s.life) ∧
      (s.freeRecSlot = some n → s.canWrite (s.transitionWrites s.life.state.code (fieldAt arg 4 1)) = true →
        ∃ t, exec (.lifecycle c arg true true) s = .next t ∧ t.life.slot = n ∧ t.life.step = 1 ∧ t.life.running = true ∧
          t.pkg.coresHeld = true ∧ (∀ j, t.session j = none) ∧ t.life.state = s.life.state ∧
          ∀ i ∈ s.copiesHere, Tbl.get .erased t.life.copies (i * 192 + 4 * n) =
            .valid 0xA1 s.life.state.code (fieldAt arg 4 1) n s.pkg.meridian)) ∧
    (s.pkg.bothDead = false →
      (s.life.running = true → ∃ t, exec .wipeComplete s = .next t ∧ t.life.user = [] ∧ t.life.running = false ∧
        t.pkg.bootStep = 1 ∧ (∀ j, t.session j = none) ∧ t.folios.exports = [] ∧ t.regs = []) ∧
      (s.life.running = false → s.life.pending = true → ∃ t, exec .wipeComplete s = .next t ∧ t.life.user = [] ∧
        t.life.pending = false ∧ t.life.step = 4 ∧ t.life.state = s.life.state ∧ t.pkg = s.pkg))

/-- An update command is heard, a Compass living, at the level of Table UP-5. -/
def Sys2Proof.Claims.Updater (s : State) (c : CmdCtx) : Prop :=
  (s.session c.session).isSome = true ∧ s.pkg.bothDead = false ∧ s.life.lockdown = false ∧ s.updLevel c.who = true

/-- The slot on trial is CONFIRMED, the other is PREVIOUS, and the anti-rollback counter has advanced (R410, R411). -/
def Sys2Proof.Claims.Confirmed (s t : State) (i : Nat) : Prop :=
  (t.fwSlot i).state = SlotState.confirmed ∧ (t.fwSlot (1 - i)).state = SlotState.previous ∧ t.upd.trial = false ∧
  t.upd.confirmWait = none ∧ t.upd.rollback = max s.upd.rollback (min 256 (s.fwSlot i).secver)

/-- The update commands take the inactive slot through DOWNLOADING, DOWNLOADED, VERIFIED and TRIAL; one that fails verification is
INVALID; activation ends in a hub-warm reset but in firmware recovery. The boot choice takes a TRIAL slot with tries left, else the
CONFIRMED one, else firmware recovery. A self-test that passes confirms, or waits under MANUAL; a trial that fails or is late resets. -/
def Obligations.FirmwareUpdate : Prop :=
  ∀ (s : State) (c : CmdCtx),
    let i := s.inactiveSlot
    (Sys2Proof.Claims.Updater s c →
      (∀ h : List Byte, h.length = 512 → s.upd.owner = none → s.slotIn SlotState.trial = none → s.pkg.pwrWarn = false →
        headerLegal s.pkg.member h = true → fieldAt h 0x10 4 ≤ Config.bootRom.toNat →
        firstFail (s.imageChecks (headerSlot h) true) = none → s.canWrite (updateWrites i (imageLen h)) = true →
        ∃ u, Sys2Proof.Claims.Done (.updBegin c h true) s c noObject 0 u ∧ u.upd.owner = some c.session ∧
          u.upd.length = imageLen h ∧ u.upd.received = 512 ∧ u.fwSlot i = headerSlot h ∧ u.fwSlot (1 - i) = s.fwSlot (1 - i) ∧
          u.upd.lastStatus = 0 ∧ u.upd.rollback = s.upd.rollback) ∧
      (s.upd.owner = none → ∀ off arg, ∃ u : State, exec (.updData c off arg) s = .next (u.refuse c Status.wrongState) ∧
        u.fwSlot = s.fwSlot) ∧
      (s.upd.owner = some c.session →
        (∀ off (arg : List Byte), arg.length % 16 = 0 → 0 < arg.length → off = s.upd.received → off + arg.length ≤ s.upd.length →
          ∃ u, Sys2Proof.Claims.Done (.updData c off arg) s c noObject (word (off + arg.length)) u ∧
            u.upd.received = off + arg.length ∧
            (off + arg.length = s.upd.length → (u.fwSlot i).state = SlotState.downloaded) ∧
            (off + arg.length ≠ s.upd.length → u.fwSlot = s.fwSlot) ∧ u.fwSlot (1 - i) = s.fwSlot (1 - i)) ∧
        ((s.fwSlot i).state = SlotState.downloaded → firstFail (s.imageChecks (s.fwSlot i) true) = none →
          (s.canWrite [(3, 1)] = true → ∃ u, Sys2Proof.Claims.Done (.updVerify c true true) s c noObject 0 u ∧
            (u.fwSlot i).state = SlotState.verified ∧ u.fwSlot (1 - i) = s.fwSlot (1 - i)) ∧
          (∃ u : State, exec (.updVerify c true false) s = .next (u.refuse c Status.updDigest) ∧
            (u.fwSlot i).state = SlotState.invalid ∧ u.upd.owner = none)) ∧
        (∃ u, Sys2Proof.Claims.Done (.updAbort c) s c noObject 0 u ∧ u.upd.owner = none ∧
          (u.fwSlot i).state = SlotState.invalid ∧ u.fwSlot (1 - i) = s.fwSlot (1 - i))) ∧
      ((s.fwSlot i).state = SlotState.verified → s.lcBusy = false → s.pkg.pwrWarn = false → s.canWrite [(3, 1)] = true →
        ∀ manual,
        (s.pkg.fwRecovery = true → ∃ u, Sys2Proof.Claims.Done (.updActivate c manual true) s c noObject 0 u ∧
          (u.fwSlot i).state = SlotState.trial ∧ u.upd.tries = 3 ∧ u.upd.manual = manual ∧ u.upd.owner = none ∧ u.pkg = s.pkg) ∧
        (s.pkg.fwRecovery = false → ∃ t, exec (.updActivate c manual true) s = .next t ∧ (t.fwSlot i).state = SlotState.trial ∧
          t.upd.tries = 3 ∧ t.upd.manual = manual ∧ t.pkg.bootStep = 1 ∧ (∀ j, t.session j = none))) ∧
      (∀ t0 k, s.upd.confirmWait = some t0 → s.slotIn SlotState.trial = some k →
        ∃ u, Sys2Proof.Claims.Done (.updConfirm c) s c noObject 0 u ∧ Sys2Proof.Claims.Confirmed s u k)) ∧
    (s.pkg.bootStep = 3 → ∀ vA vB : Bool,
      (∀ k, s.slotIn SlotState.trial = none → s.slotIn SlotState.confirmed = some k → s.fwKeyOk (s.fwSlot k).key = true →
        s.upd.rollback ≤ (s.fwSlot k).secver → (s.fwSlot k).secver ≤ 256 → (if k = 0 then vA else vB) = true →
        ∃ t, exec (.bootSlotSelect vA vB) s = .next t ∧ t.pkg.bootStep = 4 ∧ t.upd.booted = k ∧ t.upd.trial = false ∧
          t.upd.fallback = false ∧ t.upd.rollback = (s.fwSlot k).secver ∧ t.fwSlot = s.fwSlot) ∧
      (∀ k, s.slotIn SlotState.trial = some k → s.slotIn SlotState.confirmed = none → 0 < s.upd.tries →
        s.fwKeyOk (s.fwSlot k).key = true → s.upd.rollback ≤ (s.fwSlot k).secver → (if k = 0 then vA else vB) = true →
        ∃ t, exec (.bootSlotSelect vA vB) s = .next t ∧ t.pkg.bootStep = 4 ∧ t.upd.booted = k ∧ t.upd.trial = true ∧
          t.upd.trialT = s.pkg.meridian ∧ t.upd.tries = s.upd.tries - 1 ∧ t.upd.rollback = s.upd.rollback) ∧
      (s.slotIn SlotState.trial = none → s.slotIn SlotState.confirmed = none → s.slotIn SlotState.previous = none →
        ∃ t, exec (.bootSlotSelect vA vB) s = .next t ∧ t.pkg.bootStep = 4 ∧ t.pkg.fwRecovery = true ∧ t.pkg.degraded = true ∧
          t.upd.trial = false)) ∧
    (∀ k, s.slotIn SlotState.trial = some k → s.upd.trial = true → s.pkg.bothDead = false →
      (7 ≤ s.pkg.bootStep → s.upd.confirmWait = none →
        (s.pkg.postsLost ≤ s.upd.postsLostBefore →
          (s.upd.manual = true → exec (.builtInSelfTest true) s = .next { s with upd := { s.upd with
            confirmWait := some s.pkg.meridian } }) ∧
          (s.upd.manual = false → ∃ t, exec (.builtInSelfTest true) s = .next t ∧ Sys2Proof.Claims.Confirmed s t k)) ∧
        (∃ t, exec (.builtInSelfTest false) s = .next t ∧ t.pkg.bootStep = 1 ∧ t.pkg.warmRerun = true ∧ ∀ j, t.session j = none)) ∧
      (s.upd.manual = false → s.upd.confirmWait = none → s.upd.trialT.toNat + 2000000000 ≤ s.now →
        ∃ t, exec .trialConfirmTimeout s = .next t ∧ t.pkg.bootStep = 1 ∧ t.pkg.warmRerun = true ∧ ∀ j, t.session j = none))

/-! ### Host queues and register accesses (chapters 00, 01, 02 and 14) -/

/-- HQ_DB submits at most 32 entries, else sets DB_ERR; COMMAND_TAKE takes the entry of the queue whose turn it is with a reserved
completion place, or refuses it there; HQ_ER_HEAD consumes entries and lets a held event in; RING_ENABLE starts a ring empty at PHASE 1;
BAR_BIND needs the matching SCHECK; a masked vector is pending; a function reset closes the host sessions and disables the rings. -/
def Obligations.HostQueues : Prop :=
  ∀ (s : State) (q n : Nat), q < 16 → s.pkg.bothDead = false →
    let c := s.cq q
    let g := s.ring q
    (32 < (n % 64 + 64 - c.head) % 64 → exec (.hqDb q n) s = .next (s.setCq q { c with dbErr := true })) ∧
    ((n % 64 + 64 - c.head) % 64 ≤ 32 → exec (.hqDb q n) s = .next (s.setCq q { c with prod := n % 64 })) ∧
    (c.dbErr = true → exec (.dbErrClear q) s = .next (s.setCq q { c with dbErr := false, prod := c.head })) ∧
    (c.dbErr = false → exec (.dbErrClear q) s = .next s) ∧
    (∀ arg, s.takesEntries = true → s.turn = some q →
      let e := s.headEntry q
      let b := s.setCq q { c with head := (c.head + 1) % 64 }
      let i : InFlight := { c := entryCtx (some q) e, ring := s.entryRing q e, opcode := entryOp e, inline := entryInline e,
                            arg := (match arg with | .ok bs => bs | .error => []), object := entryObject (entryOp e) (entryInline e) }
      let u : State := { b with host := { b.host with nextQ := (q + 1) % 16, inflight := b.host.inflight ++ [i] } }
      let v := u.setRing (s.entryRing q e) { s.ring (s.entryRing q e) with reserved := (s.ring (s.entryRing q e)).reserved + 1 }
      (firstFail (s.entryChecks (some q) e arg) = none → exec (.commandTake q arg) s = .next v) ∧
      (∀ st, firstFail (s.entryChecks (some q) e arg) = some st →
        exec (.commandTake q arg) s = .next (v.refuse (entryCtx (some q) e) st))) ∧
    (n < 65536 → n < g.size → s.cartWaiting = false → g.lostDue = false →
      let g1 : Ring := { g with head := n }
      let es := g.entries.drop (g.entries.length - g1.used)
      (g.held = [] → exec (.hqErHead q n) s = .next (s.setRing q { g1 with entries := es })) ∧
      (∀ e, g.held = [e] → g.enabled = true → s.pkg.busMaster = true → g.reserved < g1.free →
        ∃ t, exec (.hqErHead q n) s = .next t ∧ (t.ring q).held = [] ∧ (t.ring q).entries = es ++ [(g.phase, e)] ∧
          (t.ring q).tail = (g.tail + 1) % g.size ∧ ∀ k, k ≠ q → t.ring k = s.ring k)) ∧
    (bitAt (s.regWord RegMap.hqErCfg (0x22008 + 0x40 * q)) 8 = false → g.held = [] → g.lostDue = false →
      ∃ t, exec (.ringEnable q) s = .next t ∧ (t.ring q).enabled = true ∧ (t.ring q).tail = 0 ∧ (t.ring q).head = 0 ∧
        (t.ring q).phase = true ∧ (t.ring q).entries = [] ∧ (t.ring q).reserved = g.reserved ∧
        (t.ring q).sizeLog2 = t.regBits RegMap.hqErCfg (0x22008 + 0x40 * q) 0 5 ∧ ∀ k, k ≠ q → t.ring k = s.ring k) ∧
    (∀ slot check x, s.session slot = some x →
      (x.isPort = false → x.scheck = check → exec (.barBind slot check) s = .next { s with host := { s.host with
        bound := some slot } }) ∧
      (x.scheck ≠ check → exec (.barBind slot check) s = .next s)) ∧
    exec .unbind s = .next { s with host := { s.host with bound := none } } ∧
    (s.signalDue q = true → s.pkg.busMaster = true → ∃ t, exec (.msixSignal q) s = .next t ∧ (t.ring q).unsignalled = 0 ∧
      (t.ring q).signalled = g.signalled + 1 ∧
      (s.vectorMasked q = false → t.host.msixPending = s.host.msixPending) ∧
      (s.vectorMasked q = true → t.host.msixPending = s.host.msixPending ||| (1#32 <<< q))) ∧
    (s.cart.faultn = true → s.host.faultnSig = 0 → ∃ t, exec (.msixSignal 16) s = .next t ∧ t.host.faultnSig = 1 ∧
      t.host.rings = s.host.rings) ∧
    (∃ t, exec .functionReset s = .next t ∧ (∀ j, j ≠ portSlot → t.session j = none) ∧ t.host.queues = [] ∧ t.host.msixPending = 0 ∧
      (s.engines = [] → s.host.refs = [] → s.trace.streams = [] → s.upd.owner = none → s.host.inflight = [] →
        s.host.waiting = [] → s.auth.verify = [] → ∀ k, k < 16 → (t.ring k).enabled = false)) ∧
    exec .busMasterDisable s = .next { s with pkg := { s.pkg with busMaster := false } } ∧
    (∀ e, (∀ k, k ≠ q → (s.ring k).held = [] ∧ (s.ring k).lostDue = false) → g.held = [e] → g.lostDue = false → g.enabled = true →
      g.reserved < g.free → exec .busMasterEnable s = .next (({ s with pkg := { s.pkg with busMaster := true } } : State).setRing q
        ({ g with held := [] }.push e s.pkg.meridian)))

/-- A register write stores its field, one out of range the nearest legal value with a clamp in the log; a misaligned access and reserved
space read 0 and change nothing but the report; CMP_MERIDIAN's low word latches the high one for its path; the window of a post that does
not run reads 0 and takes no write; the indirect window ends with its outcome in LAST; a clamp log is cleared where it is read in full. -/
def Obligations.RegisterAccess : Prop :=
  ∀ (s : State) (p : Path), s.barGone p = false →
    let who := s.actor p
    (∀ v : Word, s.hasPlatform who = true →
      (∃ t, exec (.registerWrite p 0x10140 false v) s = .next t ∧ t = { s with regs := t.regs } ∧
        t.regWord RegMap.cmpAutowake 0x10140 = v.toNat % 2 ^ 32 ∧
        ∀ k, k ≠ 0x10140 → Tbl.get 0 t.regs k = Tbl.get 0 s.regs k) ∧
      (s.regWord RegMap.authCfg 0x50000 < 2 ^ 14 → v.toNat < 2 ^ 14 →
        (1 ≤ v.toNat → v.toNat ≤ 0x2760 → ∃ t, exec (.registerWrite p 0x50000 false v) s = .next t ∧
          t = { s with regs := t.regs } ∧ t.regBits RegMap.authCfg 0x50000 0 14 = v.toNat) ∧
        (0x2760 < v.toNat → ∃ t e i, exec (.registerWrite p 0x50000 false v) s = .next t ∧
          t.regBits RegMap.authCfg 0x50000 0 14 = 0x2760 ∧
          ((s.clampLog 128).entries = [] → i = 0 ∧ Tbl.get none (t.clampLog 128).entries i = some e ∧ e.written = v ∧
            e.stored = 0x2760 ∧ e.t = s.pkg.meridian ∧ e.unbound = who.isNone)))) ∧
    (∀ v : Word, s.hasPlatform who = false → exec (.registerWrite p 0x10140 false v) s = .next (s.reservedAt p 0x10140 0)) ∧
    (∀ addr w8 v, addr < 0x3000000 → addr % widthOf w8 ≠ 0 → exec (.registerWrite p addr w8 v) s = .next (s.reservedAt p addr 0)) ∧
    (∀ addr ctx, 
      (∃ t, exec (.reservedSpaceAccess p addr ctx) s = .next t ∧ t.host.readData = 0 ∧ t.regs = s.regs ∧ t.pkg = s.pkg ∧
        t.cores = s.cores ∧ t.auth = s.auth ∧ t.port = s.port) ∧
      (∀ t0, Tbl.get none s.reports (who.getD 256) = some t0 → s.now < t0.toNat + 1000000000 →
        exec (.reservedSpaceAccess p addr ctx) s = .next (s.answerRead 0)) ∧
      (Tbl.get none s.reports (who.getD 256) = none → ∃ t, exec (.reservedSpaceAccess p addr ctx) s = .next t ∧
        Tbl.get none t.reports (who.getD 256) = some s.pkg.meridian)) ∧
    (∃ t, exec (.cmpMeridianRead p .low) s = .next t ∧ t.host.readData = word (s.now % 2 ^ 32) ∧
      t = { s with pkg := t.pkg, host := t.host } ∧
      (p = .bar → t.pkg = { s.pkg with latchBar := s.pkg.meridian.extractLsb' 32 32 }) ∧
      (p = .port → t.pkg = { s.pkg with latchPort := s.pkg.meridian.extractLsb' 32 32 })) ∧
    exec (.cmpMeridianRead p .high) s = .next (s.answerRead (match p with
      | .bar => s.pkg.latchBar.toNat
      | .port => s.pkg.latchPort.toNat)) ∧
    exec (.cmpMeridianRead p .whole) s = .next (s.answerRead s.now) ∧
    (∀ post, post < s.pkg.member.posts →
      (s.postRuns post = false → ∀ off w8 v, off < 0x40000 → off % widthOf w8 = 0 →
        exec (.postWindowAccess p post off w8 none) s = .next (s.answerRead 0) ∧
        exec (.postWindowAccess p post off w8 (some v)) s = .next s) ∧
      (s.postRuns post = true →
        exec (.postWindowAccess p post 0x100 true none) s =
          .next (s.answerRead (s.regWord RegMap.svpChDefaults (postWindow post + 0x100))) ∧
        (∀ v : Word, v.toNat < 16 → ∃ t, exec (.postWindowAccess p post 0x108 false (some v)) s = .next t ∧
          t = { s with regs := t.regs } ∧
          t.regBits RegMap.svpHopSel (regKey p (postWindow post + 0x108)) 0 4 = v.toNat) ∧
        (∃ t, exec (.postNoAnswer p post) s = .next t ∧ t.host.readData = 0 ∧
          t = ((s.failover s.compassDie 7 (halfUno post)).answerRead 0)))) ∧
    (∀ ap off w8 wr, ap < 256 → off < 65536 →
      let sel := s.regWord RegMap.cmpIwSel (iwKey p ap)
      let u := bitsOf sel 0 24
      let space := bitsOf sel 48 2
      let a := bitsOf sel 24 24 * 65536 + off
      let n := widthOf w8
      let ends (i : Instr) (last v : Nat) : Prop := ∃ t, exec i s = .next t ∧
        t.regBits RegMap.cmpIwSel (iwKey p ap) 56 8 = last ∧ t.host.readData = word v ∧ t.cores = s.cores ∧ t.pkg = s.pkg
      (off % n ≠ 0 ∨ s.unitReach u space a n wr.isSome = false → ∀ x, ends (.iwAccess p ap off w8 wr x) 5 0) ∧
      (off % n = 0 → s.unitReach u space a n wr.isSome = true →
        (s.mayReach who u space a wr.isSome = false → ∀ x, ends (.iwAccess p ap off w8 wr x) 4 0) ∧
        (s.mayReach who u space a wr.isSome = true →
          (s.tapStatus u space a = 2 → ∀ x, ends (.iwAccess p ap off w8 wr x) 2 0) ∧
          (s.tapStatus u space a = 3 → ∀ x, ends (.iwAccess p ap off w8 wr x) 3 0) ∧
          (s.tapStatus u space a = 0 → ends (.iwAccess p ap off w8 wr none) 1 0) ∧
          (s.tapStatus u space a = 0 → wr = none → space = 0 → kindOf s.pkg.member u ≠ .obj → ∀ x : Word,
            ends (.iwAccess p ap off w8 wr (some x)) 0 (x.toNat % 2 ^ (8 * n)))))) ∧
    (∀ mask : BitVec 16, ∃ t, exec (.clampClr p none mask) s = .next t ∧ (t.clampLog 128).lost = (s.clampLog 128).lost ∧
      (∀ k, k ≠ 128 → t.clampLog k = s.clampLog k) ∧
      ∀ i, i < 16 → Tbl.get none (t.clampLog 128).entries i = (match Tbl.get none (s.clampLog 128).entries i with
        | some e => if mask.getLsbD i && s.clampFull who e then none else some e
        | none => none))

/-! ### The machine as a whole -/

/-- A step with command c at the front executes c with the rest of the queue. With no command waiting, AON running and the master short of its
wrap, the meridian advances by one, a waiting engine's budget counts down, unscheduled snapshots that are due sample and the taps' packets
move on to their stations; nothing else changes. -/
def Obligations.StepTakesTheFront : Prop :=
  ∀ (s : State) (c : Instr) (q : List Instr),
    step { s with pending := c :: q } = exec c { s with pending := q } ∧
    (s.pending = [] → s.pkg.aonUp = true → s.pkg.meridian ≠ BitVec.allOnes 64 → Tbl.wf {} s.engines = true →
      Tbl.wf {} s.watch.watchers = true → Tbl.wf {} s.trace.taps = true →
      ∃ t, step s = .next t ∧ t = { s with pkg := { s.pkg with meridian := s.pkg.meridian + 1 }, engines := t.engines,
                                           watch := { s.watch with watchers := t.watch.watchers }
                                           trace := { s.trace with taps := t.trace.taps, stations := t.trace.stations } } ∧
        (∀ e, (s.engine e).state ≠ .waiting → t.engine e = s.engine e) ∧
        (∀ e, (s.engine e).state = .waiting → (s.engine e).timed = true →
          t.engine e = { s.engine e with budget := word ((s.engine e).budget.toNat - if s.now % 5 = 0 then 0 else 1) }) ∧
        (∀ p, (s.watcher p).unsched = none → t.watcher p = s.watcher p) ∧
        (∀ u, t.tapQ u = { s.tapQ u with queue := [] }) ∧
        (s.trace.taps = [] → t.trace = s.trace)) ∧
    (s.pending = [] → s.pkg.aonUp = false → step s = .next s)

/-- Before power is applied: the queue is empty, no unit, session, job, set or stream is live, the lifecycle record is erased and derives
BLANK, and the configuration registers hold the values of their tables; the rollback counter meets the invariant of EveryStepKeeps. -/
def Obligations.ResetState : Prop :=
  let s := State.reset
  s.pending = [] ∧ s.pkg.powered = false ∧ s.pkg.bootStep = 0 ∧ s.pkg.coresHeld = true ∧ s.auth.sessions = [] ∧ s.folios.jobs = [] ∧
  s.sets = [] ∧ s.trace.streams = [] ∧ s.groups = [] ∧ s.host.inflight = [] ∧ s.upd.rollback ≤ 256 ∧ s.canonical ∧
  (s.engine 0).state = .restoring ∧ (s.post 0).health = Health.waking ∧ s.port.ir = 2 ∧ s.life.state = .blank ∧
  s.position 0 = .absent ∧
  s.regWord RegMap.cmpChDefaults 0x10500 = 0x003F000A000000A0 ∧
  s.regBits RegMap.cmpPtCfg 0x11200 48 16 = 60 ∧ s.regBits RegMap.cmpPtCfg 0x11200 40 8 = 10 ∧ s.toFunc = 0 ∧
  s.regBits RegMap.authCfg 0x50000 0 14 = 60 ∧ s.mergeWindow = 4000 ∧ s.regBits RegMap.lcuUpdCfg 0x40210 0 12 = 600 ∧
  (s.ring 0).enabled = false ∧ (s.ring 0).phase = true ∧ s.regBits RegMap.hqErCfg 0x22008 0 5 = 6

/-- The host and port commands that a session sends with context `c` and that firmware recovery does not serve (R379, R409). -/
def Sys2Proof.Claims.sentBy (c : CmdCtx) : Instr → Prop
  | .hubWarmReset d _ | .postRestart d _ _ | .postPower d _ _ | .groupCreate d _ _ | .haltCommand d _ _ _ | .stepCommand d _ _
  | .resumeCommand d _ _ | .freezeCommand d _ _ | .thawCommand d _ _ | .setLoad d _ _ | .jobCreate d _ _ | .jobStart d _
  | .folioExport d _ _ _ _ | .policy d _ _ _ _ _ _ _ | .deadlineSet d _ _ _ _ _ | .deadlineClear d _ _ _ | .streamCreate d _ _
  | .streamExport d _ _ _ _ | .attest d _ _ | .cert d | .acquire d _ _ | .release d _ _ | .partitionCreate d _ _ _ _ _ _
  | .partitionDestroy d _ | .engineLoad d _ _ | .opkey d _ _ _ _ | .uflashWrite d _ _ | .uflashRead d _ | .lifecycle d _ _ _ => d = c
  | _ => False

/-- A command whose session is not open is refused with SESSION_INVALID, and in firmware recovery every command but those that the boot ROM
serves is refused with WRONG_STATE, with no change but the completion. A completion leaves the in-flight table and enters its ring on the
reserved place with the command's TAG, or waits held while the ring is closed; a port command's is the port's response. Its OBJECT
names the session where the command names no object (the model's choice: assumption 152). -/
def Obligations.CompletionsAndRefusals : Prop :=
  ∀ (s : State) (c : CmdCtx),
    (s.pkg.bothDead = false → ∀ i, Sys2Proof.Claims.sentBy c i →
      (s.session c.session = none → exec i s = .next (s.refuse c Status.sessionInvalid)) ∧
      ((s.session c.session).isSome = true → s.pkg.fwRecovery = true → exec i s = .next (s.refuse c Status.wrongState))) ∧
    (s.pkg.bothDead = false → s.session c.session = none → exec (.closeSession c) s = .next (s.refuse c Status.sessionInvalid) ∧
      (∀ d, exec (.hubColdReset c d) s = .next (s.refuse c Status.sessionInvalid)) ∧
      (∀ a, exec (.grant c a) s = .next (s.refuse c Status.sessionInvalid))) ∧
    (∀ (st : Nat) (obj : BitVec 32) (data : Word),
      let e : Event := { type := 1, status := st, session := c.session, queue := c.queue.getD 0xFF
                         object := if obj = noObject then objectWord ObjKind.session c.session else obj
                         value := c.tag, data := data, t := s.pkg.meridian }
      let t := s.complete c st obj data
      t.host.inflight = s.host.inflight.eraseP (fun i => i.c == c) ∧
      (∀ q i, c.queue = some q → s.inflightOf c = some i →
        let g := s.ring i.ring
        let h : Ring := { g with reserved := g.reserved - 1, notify := g.notify || c.notify }
        t = { s with host := t.host } ∧ (∀ k, k ≠ i.ring → t.ring k = s.ring k) ∧
        (g.enabled = true → s.pkg.busMaster = true → t.ring i.ring = h.push e s.pkg.meridian) ∧
        (g.enabled = false → t.ring i.ring = { h with held := g.held ++ [e] })) ∧
      (c.queue = none → t.host.rings = s.host.rings ∧ t.port.taken = false ∧ t.port.response =
        some { type := 0x86, seq := s.port.seq, status := if st = Status.hubReset then 9 else 0, payload := eventWords false e }))

/-- Every 32-bit word spells exactly one Quill command: the one that its opcode's table gives with all of the word's other bits, and UNDEFINED_OPCODE
where no table gives the opcode; decoding the word of a command gives the command back. A Quill command changes the machine only if
its engine runs and has fetched exactly its word. -/
def Obligations.QuillWordsAndFetch : Prop :=
  (∀ (e : Nat) (w : BitVec 32) (i : Instr), quillDecode e w = some i → quillWord i = some (e, w)) ∧
  (∀ (e : Nat) (w : BitVec 32) (i : Instr), quillWord i = some (e, w) → (∀ v, i ≠ .undefinedOpcode e v) → quillDecode e w = some i) ∧
  (∀ (e : Nat) (w : BitVec 32), quillDecode e w = none ↔ opDefined (bitsOf w.toNat 24 8) = false) ∧
  (∀ (e : Nat) (w : BitVec 32) (i : Instr) (s : State), quillWord i = some (e, w) →
    ((s.engine e).state ≠ .running ∨ (s.engine e).fetch ≠ w) → exec i s = .next s) ∧
  (∀ (e : Nat) (w : BitVec 32) (s : State), (quillDecode e w).isSome = true → exec (.undefinedOpcode e w) s = .next s)

/-- From every state a step answers a next state, whose queue is the one before without its front command, of the same family member, with an
anti-rollback counter that has not fallen and that stays within its 256 bits if it was. That every command goes on is the model's choice
where the condition of an event does not hold (assumption 2). -/
def Obligations.EveryStepKeeps : Prop :=
  ∀ s : State, ∃ t, step s = .next t ∧ t.pending = s.pending.tail ∧ t.pkg.member = s.pkg.member ∧
    s.upd.rollback ≤ t.upd.rollback ∧ (s.upd.rollback ≤ 256 → t.upd.rollback ≤ 256)

end Claims
end

