-- ==== Sys2Proof/Laws/Tbl.lean ====
section
/-! SUPPORT. Laws of sparse tables and byte memories: a read after a write, and the canonical form. -/

namespace Sys2Proof.Machine

variable {α : Type}

@[simp] theorem Tbl.get_nil (d : α) (k : Nat) : Tbl.get d [] k = d := rfl

@[simp] theorem Tbl.get_put_self (d : α) (t : Tbl α) (k : Nat) (v : α) : Tbl.get d (Tbl.put t k v) k = v := by
  induction t with
  | nil => simp [Tbl.put, Tbl.get]
  | cons e r ih =>
    obtain ⟨k', v'⟩ := e
    simp only [Tbl.put]
    split
    · simp [Tbl.get]
    · split
      · simp [Tbl.get]
      · next h => simp [Tbl.get, Ne.symm h, ih]

theorem Tbl.get_put_ne (d : α) (t : Tbl α) (k j : Nat) (v : α) (h : j ≠ k) :
    Tbl.get d (Tbl.put t k v) j = Tbl.get d t j := by
  induction t with
  | nil => simp [Tbl.put, Tbl.get, Ne.symm h]
  | cons e r ih =>
    obtain ⟨k', v'⟩ := e
    simp only [Tbl.put]
    split
    · simp [Tbl.get, Ne.symm h]
    · split
      · next hk => subst hk; simp [Tbl.get, Ne.symm h]
      · simp [Tbl.get, ih]

@[simp] theorem Tbl.get_drop_self (d : α) (t : Tbl α) (k : Nat) : Tbl.get d (Tbl.drop t k) k = d := by
  induction t with
  | nil => rfl
  | cons e r ih =>
    obtain ⟨k', v'⟩ := e
    simp only [Tbl.drop]
    split
    · exact ih
    · next h => simp [Tbl.get, h, ih]

theorem Tbl.get_drop_ne (d : α) (t : Tbl α) (k j : Nat) (h : j ≠ k) :
    Tbl.get d (Tbl.drop t k) j = Tbl.get d t j := by
  induction t with
  | nil => rfl
  | cons e r ih =>
    obtain ⟨k', v'⟩ := e
    simp only [Tbl.drop]
    split
    · next hk => subst hk; simp [Tbl.get, Ne.symm h, ih]
    · simp [Tbl.get, ih]

/-- A read of the key just written. -/
@[simp] theorem Tbl.get_set_self [DecidableEq α] (d : α) (t : Tbl α) (k : Nat) (v : α) :
    Tbl.get d (Tbl.set d t k v) k = v := by
  unfold Tbl.set
  split
  · next h => simp [h]
  · simp

/-- A read of any other key. -/
theorem Tbl.get_set_ne [DecidableEq α] (d : α) (t : Tbl α) (k j : Nat) (v : α) (h : j ≠ k) :
    Tbl.get d (Tbl.set d t k v) j = Tbl.get d t j := by
  unfold Tbl.set
  split
  · exact Tbl.get_drop_ne d t k j h
  · exact Tbl.get_put_ne d t k j v h

/-! ### The canonical form -/

theorem Tbl.wfFrom_weaken [DecidableEq α] (d : α) (a b : Nat) (h : a ≤ b) (t : Tbl α)
    (w : Tbl.wfFrom d (some b) t = true) : Tbl.wfFrom d (some a) t = true := by
  cases t with
  | nil => rfl
  | cons e r =>
    obtain ⟨k, v⟩ := e
    simp only [Tbl.wfFrom, Bool.and_eq_true, decide_eq_true_eq] at w ⊢
    exact ⟨⟨by omega, w.1.2⟩, w.2⟩

theorem Tbl.wfFrom_drop [DecidableEq α] (d : α) (t : Tbl α) (lo : Option Nat) (k : Nat)
    (w : Tbl.wfFrom d lo t = true) : Tbl.wfFrom d lo (Tbl.drop t k) = true := by
  induction t generalizing lo with
  | nil => rfl
  | cons e r ih =>
    obtain ⟨k', v'⟩ := e
    simp only [Tbl.wfFrom, Bool.and_eq_true] at w
    simp only [Tbl.drop]
    split
    · cases lo with
      | none =>
        have := ih (some k') w.2
        cases hr : Tbl.drop r k with
        | nil => rfl
        | cons e' r' =>
          rw [hr] at this
          obtain ⟨k2, v2⟩ := e'
          simp only [Tbl.wfFrom, Bool.and_eq_true] at this ⊢
          exact ⟨⟨trivial, this.1.2⟩, this.2⟩
      | some l =>
        have h1 := w.1.1
        simp only [decide_eq_true_eq] at h1
        exact Tbl.wfFrom_weaken d l k' (Nat.le_of_lt h1) _ (ih (some k') w.2)
    · simp only [Tbl.wfFrom, Bool.and_eq_true]
      exact ⟨w.1, ih (some k') w.2⟩

theorem Tbl.wfFrom_put [DecidableEq α] (d : α) (t : Tbl α) (lo : Option Nat) (k : Nat) (v : α) (hv : v ≠ d)
    (hlo : ∀ l, lo = some l → l < k) (w : Tbl.wfFrom d lo t = true) : Tbl.wfFrom d lo (Tbl.put t k v) = true := by
  induction t generalizing lo with
  | nil =>
    cases lo with
    | none => simp [Tbl.put, Tbl.wfFrom, hv]
    | some l => simp [Tbl.put, Tbl.wfFrom, hv, hlo l rfl]
  | cons e r ih =>
    obtain ⟨k', v'⟩ := e
    simp only [Tbl.wfFrom, Bool.and_eq_true] at w
    simp only [Tbl.put]
    split
    · next h =>
      simp only [Tbl.wfFrom, Bool.and_eq_true]
      refine ⟨⟨?_, by simp [hv]⟩, ⟨by simp [h], w.1.2⟩, w.2⟩
      cases lo with
      | none => rfl
      | some l => simp [hlo l rfl]
    · split
      · next h =>
        subst h
        simp only [Tbl.wfFrom, Bool.and_eq_true]
        exact ⟨⟨w.1.1, by simp [hv]⟩, w.2⟩
      · next h1 h2 =>
        simp only [Tbl.wfFrom, Bool.and_eq_true]
        refine ⟨w.1, ih (some k') (fun l hl => ?_) w.2⟩
        cases hl
        omega

/-- A write keeps the canonical form. -/
theorem Tbl.wf_set [DecidableEq α] (d : α) (t : Tbl α) (k : Nat) (v : α) (w : Tbl.wf d t = true) :
    Tbl.wf d (Tbl.set d t k v) = true := by
  unfold Tbl.set Tbl.wf at *
  split
  · exact Tbl.wfFrom_drop d t none k w
  · next h => exact Tbl.wfFrom_put d t none k v h (by intro l hl; cases hl) w

theorem Tbl.wfFrom_mapVals [DecidableEq α] (d : α) (f : Nat → α → α) (t : Tbl α) (lo : Option Nat)
    (w : Tbl.wfFrom d lo t = true) : Tbl.wfFrom d lo (Tbl.mapVals d f t) = true := by
  induction t generalizing lo with
  | nil => rfl
  | cons e r ih =>
    obtain ⟨k, v⟩ := e
    simp only [Tbl.wfFrom, Bool.and_eq_true] at w
    simp only [Tbl.mapVals]
    split
    · have h2 := ih (some k) w.2
      cases lo with
      | none =>
        cases hr : Tbl.mapVals d f r with
        | nil => rfl
        | cons e' r' =>
          rw [hr] at h2
          obtain ⟨k2, v2⟩ := e'
          simp only [Tbl.wfFrom, Bool.and_eq_true] at h2 ⊢
          exact ⟨⟨trivial, h2.1.2⟩, h2.2⟩
      | some l =>
        have h1 := w.1.1
        simp only [decide_eq_true_eq] at h1
        exact Tbl.wfFrom_weaken d l k (Nat.le_of_lt h1) _ h2
    · next h =>
      simp only [Tbl.wfFrom, Bool.and_eq_true]
      exact ⟨⟨w.1.1, by simp [h]⟩, ih (some k) w.2⟩

/-- A change of every value keeps the canonical form. -/
theorem Tbl.wf_mapVals [DecidableEq α] (d : α) (f : Nat → α → α) (t : Tbl α) (w : Tbl.wf d t = true) :
    Tbl.wf d (Tbl.mapVals d f t) = true := Tbl.wfFrom_mapVals d f t none w

/-! ### Byte memories -/

@[simp] theorem Memory.read_write_self (m : List Host.Cell) (a : Nat) (b : Byte) :
    Memory.read (Memory.write m a b) a = b := Tbl.get_set_self _ _ _ _

theorem Memory.read_write_ne (m : List Host.Cell) (a x : Nat) (b : Byte) (h : x ≠ a) :
    Memory.read (Memory.write m a b) x = Memory.read m x := Tbl.get_set_ne _ _ _ _ _ h

theorem Memory.wf_write (m : List Host.Cell) (a : Nat) (b : Byte) (w : Memory.wf m = true) :
    Memory.wf (Memory.write m a b) = true := Tbl.wf_set _ _ _ _ w

/-- Bytes written leave every address outside them alone. -/
theorem Memory.read_writeBytes_out (bs : List Byte) (m : List Host.Cell) (a x : Nat) (h : x < a ∨ a + bs.length ≤ x) :
    Memory.read (Memory.writeBytes m a bs) x = Memory.read m x := by
  induction bs generalizing m a with
  | nil => rfl
  | cons b r ih =>
    simp only [List.length_cons] at h
    rw [Memory.writeBytes, ih _ _ (by omega), Memory.read_write_ne _ _ _ _ (by omega)]

/-- Bytes written are read back. -/
theorem Memory.read_writeBytes_in (bs : List Byte) (m : List Host.Cell) (a i : Nat) (h : i < bs.length) :
    Memory.read (Memory.writeBytes m a bs) (a + i) = bs[i] := by
  induction bs generalizing m a i with
  | nil => simp at h
  | cons b r ih =>
    cases i with
    | zero =>
      rw [Memory.writeBytes, Memory.read_writeBytes_out _ _ _ _ (by omega)]
      simp
    | succ j =>
      simp only [List.length_cons] at h
      have := ih (Memory.write m a b) (a + 1) j (by omega)
      rw [Memory.writeBytes, show a + (j + 1) = a + 1 + j by omega, this]
      rfl

theorem Memory.wf_writeBytes (bs : List Byte) (m : List Host.Cell) (a : Nat) (w : Memory.wf m = true) :
    Memory.wf (Memory.writeBytes m a bs) = true := by
  induction bs generalizing m a with
  | nil => exact w
  | cons b r ih => exact ih _ _ (Memory.wf_write m a b w)

end Sys2Proof.Machine
end

