-- ==== Sys2Proof/Laws/State.lean ====
section
/-! SUPPORT. What each update of one part of the state leaves as it was, and what it makes its part read as. -/

namespace Sys2Proof.Machine

/-! ### setEngine -/

@[simp] theorem State.setEngine_self (s : State) (e : Nat) (v : Engine) : (s.setEngine e v).engine e = v := Tbl.get_set_self _ _ _ _

theorem State.setEngine_ne (s : State) (e : Nat) (v : Engine) (j : Nat) (h : j ≠ e) : (s.setEngine e v).engine j = s.engine j :=
  Tbl.get_set_ne _ _ _ _ _ h

@[simp] theorem State.setEngine_pkg (s : State) (e : Nat) (v : Engine) : (s.setEngine e v).pkg = s.pkg := rfl
@[simp] theorem State.setEngine_dies (s : State) (e : Nat) (v : Engine) : (s.setEngine e v).dies = s.dies := rfl
@[simp] theorem State.setEngine_copies (s : State) (e : Nat) (v : Engine) : (s.setEngine e v).copies = s.copies := rfl
@[simp] theorem State.setEngine_links (s : State) (e : Nat) (v : Engine) : (s.setEngine e v).links = s.links := rfl
@[simp] theorem State.setEngine_posts (s : State) (e : Nat) (v : Engine) : (s.setEngine e v).posts = s.posts := rfl
@[simp] theorem State.setEngine_held (s : State) (e : Nat) (v : Engine) : (s.setEngine e v).held = s.held := rfl
@[simp] theorem State.setEngine_unobs (s : State) (e : Nat) (v : Engine) : (s.setEngine e v).unobs = s.unobs := rfl
@[simp] theorem State.setEngine_groups (s : State) (e : Nat) (v : Engine) : (s.setEngine e v).groups = s.groups := rfl
@[simp] theorem State.setEngine_clamps (s : State) (e : Nat) (v : Engine) : (s.setEngine e v).clamps = s.clamps := rfl
@[simp] theorem State.setEngine_reports (s : State) (e : Nat) (v : Engine) : (s.setEngine e v).reports = s.reports := rfl
@[simp] theorem State.setEngine_legend (s : State) (e : Nat) (v : Engine) : (s.setEngine e v).legend = s.legend := rfl
@[simp] theorem State.setEngine_regs (s : State) (e : Nat) (v : Engine) : (s.setEngine e v).regs = s.regs := rfl
@[simp] theorem State.setEngine_hops (s : State) (e : Nat) (v : Engine) : (s.setEngine e v).hops = s.hops := rfl
@[simp] theorem State.setEngine_hopNext (s : State) (e : Nat) (v : Engine) : (s.setEngine e v).hopNext = s.hopNext := rfl
@[simp] theorem State.setEngine_hopSeq (s : State) (e : Nat) (v : Engine) : (s.setEngine e v).hopSeq = s.hopSeq := rfl
@[simp] theorem State.setEngine_cores (s : State) (e : Nat) (v : Engine) : (s.setEngine e v).cores = s.cores := rfl
@[simp] theorem State.setEngine_insts (s : State) (e : Nat) (v : Engine) : (s.setEngine e v).insts = s.insts := rfl
@[simp] theorem State.setEngine_rports (s : State) (e : Nat) (v : Engine) : (s.setEngine e v).rports = s.rports := rfl
@[simp] theorem State.setEngine_bounds (s : State) (e : Nat) (v : Engine) : (s.setEngine e v).bounds = s.bounds := rfl
@[simp] theorem State.setEngine_rings (s : State) (e : Nat) (v : Engine) : (s.setEngine e v).rings = s.rings := rfl
@[simp] theorem State.setEngine_cmps (s : State) (e : Nat) (v : Engine) : (s.setEngine e v).cmps = s.cmps := rfl
@[simp] theorem State.setEngine_cnts (s : State) (e : Nat) (v : Engine) : (s.setEngine e v).cnts = s.cnts := rfl
@[simp] theorem State.setEngine_chains (s : State) (e : Nat) (v : Engine) : (s.setEngine e v).chains = s.chains := rfl
@[simp] theorem State.setEngine_sets (s : State) (e : Nat) (v : Engine) : (s.setEngine e v).sets = s.sets := rfl
@[simp] theorem State.setEngine_places (s : State) (e : Nat) (v : Engine) : (s.setEngine e v).places = s.places := rfl
@[simp] theorem State.setEngine_halves (s : State) (e : Nat) (v : Engine) : (s.setEngine e v).halves = s.halves := rfl
@[simp] theorem State.setEngine_xtrig (s : State) (e : Nat) (v : Engine) : (s.setEngine e v).xtrig = s.xtrig := rfl
@[simp] theorem State.setEngine_folios (s : State) (e : Nat) (v : Engine) : (s.setEngine e v).folios = s.folios := rfl
@[simp] theorem State.setEngine_cart (s : State) (e : Nat) (v : Engine) : (s.setEngine e v).cart = s.cart := rfl
@[simp] theorem State.setEngine_pair (s : State) (e : Nat) (v : Engine) : (s.setEngine e v).pair = s.pair := rfl
@[simp] theorem State.setEngine_watch (s : State) (e : Nat) (v : Engine) : (s.setEngine e v).watch = s.watch := rfl
@[simp] theorem State.setEngine_trace (s : State) (e : Nat) (v : Engine) : (s.setEngine e v).trace = s.trace := rfl
@[simp] theorem State.setEngine_port (s : State) (e : Nat) (v : Engine) : (s.setEngine e v).port = s.port := rfl
@[simp] theorem State.setEngine_auth (s : State) (e : Nat) (v : Engine) : (s.setEngine e v).auth = s.auth := rfl
@[simp] theorem State.setEngine_life (s : State) (e : Nat) (v : Engine) : (s.setEngine e v).life = s.life := rfl
@[simp] theorem State.setEngine_host (s : State) (e : Nat) (v : Engine) : (s.setEngine e v).host = s.host := rfl
@[simp] theorem State.setEngine_upd (s : State) (e : Nat) (v : Engine) : (s.setEngine e v).upd = s.upd := rfl
@[simp] theorem State.setEngine_drawn (s : State) (e : Nat) (v : Engine) : (s.setEngine e v).drawn = s.drawn := rfl
@[simp] theorem State.setEngine_pending (s : State) (e : Nat) (v : Engine) : (s.setEngine e v).pending = s.pending := rfl

/-! ### setPost -/

@[simp] theorem State.setPost_self (s : State) (p : Nat) (v : Post) : (s.setPost p v).post p = v := Tbl.get_set_self _ _ _ _

theorem State.setPost_ne (s : State) (p : Nat) (v : Post) (j : Nat) (h : j ≠ p) : (s.setPost p v).post j = s.post j :=
  Tbl.get_set_ne _ _ _ _ _ h

@[simp] theorem State.setPost_pkg (s : State) (p : Nat) (v : Post) : (s.setPost p v).pkg = s.pkg := rfl
@[simp] theorem State.setPost_dies (s : State) (p : Nat) (v : Post) : (s.setPost p v).dies = s.dies := rfl
@[simp] theorem State.setPost_copies (s : State) (p : Nat) (v : Post) : (s.setPost p v).copies = s.copies := rfl
@[simp] theorem State.setPost_links (s : State) (p : Nat) (v : Post) : (s.setPost p v).links = s.links := rfl
@[simp] theorem State.setPost_held (s : State) (p : Nat) (v : Post) : (s.setPost p v).held = s.held := rfl
@[simp] theorem State.setPost_unobs (s : State) (p : Nat) (v : Post) : (s.setPost p v).unobs = s.unobs := rfl
@[simp] theorem State.setPost_groups (s : State) (p : Nat) (v : Post) : (s.setPost p v).groups = s.groups := rfl
@[simp] theorem State.setPost_clamps (s : State) (p : Nat) (v : Post) : (s.setPost p v).clamps = s.clamps := rfl
@[simp] theorem State.setPost_reports (s : State) (p : Nat) (v : Post) : (s.setPost p v).reports = s.reports := rfl
@[simp] theorem State.setPost_legend (s : State) (p : Nat) (v : Post) : (s.setPost p v).legend = s.legend := rfl
@[simp] theorem State.setPost_regs (s : State) (p : Nat) (v : Post) : (s.setPost p v).regs = s.regs := rfl
@[simp] theorem State.setPost_engines (s : State) (p : Nat) (v : Post) : (s.setPost p v).engines = s.engines := rfl
@[simp] theorem State.setPost_hops (s : State) (p : Nat) (v : Post) : (s.setPost p v).hops = s.hops := rfl
@[simp] theorem State.setPost_hopNext (s : State) (p : Nat) (v : Post) : (s.setPost p v).hopNext = s.hopNext := rfl
@[simp] theorem State.setPost_hopSeq (s : State) (p : Nat) (v : Post) : (s.setPost p v).hopSeq = s.hopSeq := rfl
@[simp] theorem State.setPost_cores (s : State) (p : Nat) (v : Post) : (s.setPost p v).cores = s.cores := rfl
@[simp] theorem State.setPost_insts (s : State) (p : Nat) (v : Post) : (s.setPost p v).insts = s.insts := rfl
@[simp] theorem State.setPost_rports (s : State) (p : Nat) (v : Post) : (s.setPost p v).rports = s.rports := rfl
@[simp] theorem State.setPost_bounds (s : State) (p : Nat) (v : Post) : (s.setPost p v).bounds = s.bounds := rfl
@[simp] theorem State.setPost_rings (s : State) (p : Nat) (v : Post) : (s.setPost p v).rings = s.rings := rfl
@[simp] theorem State.setPost_cmps (s : State) (p : Nat) (v : Post) : (s.setPost p v).cmps = s.cmps := rfl
@[simp] theorem State.setPost_cnts (s : State) (p : Nat) (v : Post) : (s.setPost p v).cnts = s.cnts := rfl
@[simp] theorem State.setPost_chains (s : State) (p : Nat) (v : Post) : (s.setPost p v).chains = s.chains := rfl
@[simp] theorem State.setPost_sets (s : State) (p : Nat) (v : Post) : (s.setPost p v).sets = s.sets := rfl
@[simp] theorem State.setPost_places (s : State) (p : Nat) (v : Post) : (s.setPost p v).places = s.places := rfl
@[simp] theorem State.setPost_halves (s : State) (p : Nat) (v : Post) : (s.setPost p v).halves = s.halves := rfl
@[simp] theorem State.setPost_xtrig (s : State) (p : Nat) (v : Post) : (s.setPost p v).xtrig = s.xtrig := rfl
@[simp] theorem State.setPost_folios (s : State) (p : Nat) (v : Post) : (s.setPost p v).folios = s.folios := rfl
@[simp] theorem State.setPost_cart (s : State) (p : Nat) (v : Post) : (s.setPost p v).cart = s.cart := rfl
@[simp] theorem State.setPost_pair (s : State) (p : Nat) (v : Post) : (s.setPost p v).pair = s.pair := rfl
@[simp] theorem State.setPost_watch (s : State) (p : Nat) (v : Post) : (s.setPost p v).watch = s.watch := rfl
@[simp] theorem State.setPost_trace (s : State) (p : Nat) (v : Post) : (s.setPost p v).trace = s.trace := rfl
@[simp] theorem State.setPost_port (s : State) (p : Nat) (v : Post) : (s.setPost p v).port = s.port := rfl
@[simp] theorem State.setPost_auth (s : State) (p : Nat) (v : Post) : (s.setPost p v).auth = s.auth := rfl
@[simp] theorem State.setPost_life (s : State) (p : Nat) (v : Post) : (s.setPost p v).life = s.life := rfl
@[simp] theorem State.setPost_host (s : State) (p : Nat) (v : Post) : (s.setPost p v).host = s.host := rfl
@[simp] theorem State.setPost_upd (s : State) (p : Nat) (v : Post) : (s.setPost p v).upd = s.upd := rfl
@[simp] theorem State.setPost_drawn (s : State) (p : Nat) (v : Post) : (s.setPost p v).drawn = s.drawn := rfl
@[simp] theorem State.setPost_pending (s : State) (p : Nat) (v : Post) : (s.setPost p v).pending = s.pending := rfl

/-! ### setCore -/

@[simp] theorem State.setCore_self (s : State) (u : Uno) (v : Core) : (s.setCore u v).core u = v := Tbl.get_set_self _ _ _ _

theorem State.setCore_ne (s : State) (u : Uno) (v : Core) (j : Nat) (h : j ≠ u) : (s.setCore u v).core j = s.core j :=
  Tbl.get_set_ne _ _ _ _ _ h

@[simp] theorem State.setCore_pkg (s : State) (u : Uno) (v : Core) : (s.setCore u v).pkg = s.pkg := rfl
@[simp] theorem State.setCore_dies (s : State) (u : Uno) (v : Core) : (s.setCore u v).dies = s.dies := rfl
@[simp] theorem State.setCore_copies (s : State) (u : Uno) (v : Core) : (s.setCore u v).copies = s.copies := rfl
@[simp] theorem State.setCore_links (s : State) (u : Uno) (v : Core) : (s.setCore u v).links = s.links := rfl
@[simp] theorem State.setCore_posts (s : State) (u : Uno) (v : Core) : (s.setCore u v).posts = s.posts := rfl
@[simp] theorem State.setCore_held (s : State) (u : Uno) (v : Core) : (s.setCore u v).held = s.held := rfl
@[simp] theorem State.setCore_unobs (s : State) (u : Uno) (v : Core) : (s.setCore u v).unobs = s.unobs := rfl
@[simp] theorem State.setCore_groups (s : State) (u : Uno) (v : Core) : (s.setCore u v).groups = s.groups := rfl
@[simp] theorem State.setCore_clamps (s : State) (u : Uno) (v : Core) : (s.setCore u v).clamps = s.clamps := rfl
@[simp] theorem State.setCore_reports (s : State) (u : Uno) (v : Core) : (s.setCore u v).reports = s.reports := rfl
@[simp] theorem State.setCore_legend (s : State) (u : Uno) (v : Core) : (s.setCore u v).legend = s.legend := rfl
@[simp] theorem State.setCore_regs (s : State) (u : Uno) (v : Core) : (s.setCore u v).regs = s.regs := rfl
@[simp] theorem State.setCore_engines (s : State) (u : Uno) (v : Core) : (s.setCore u v).engines = s.engines := rfl
@[simp] theorem State.setCore_hops (s : State) (u : Uno) (v : Core) : (s.setCore u v).hops = s.hops := rfl
@[simp] theorem State.setCore_hopNext (s : State) (u : Uno) (v : Core) : (s.setCore u v).hopNext = s.hopNext := rfl
@[simp] theorem State.setCore_hopSeq (s : State) (u : Uno) (v : Core) : (s.setCore u v).hopSeq = s.hopSeq := rfl
@[simp] theorem State.setCore_insts (s : State) (u : Uno) (v : Core) : (s.setCore u v).insts = s.insts := rfl
@[simp] theorem State.setCore_rports (s : State) (u : Uno) (v : Core) : (s.setCore u v).rports = s.rports := rfl
@[simp] theorem State.setCore_bounds (s : State) (u : Uno) (v : Core) : (s.setCore u v).bounds = s.bounds := rfl
@[simp] theorem State.setCore_rings (s : State) (u : Uno) (v : Core) : (s.setCore u v).rings = s.rings := rfl
@[simp] theorem State.setCore_cmps (s : State) (u : Uno) (v : Core) : (s.setCore u v).cmps = s.cmps := rfl
@[simp] theorem State.setCore_cnts (s : State) (u : Uno) (v : Core) : (s.setCore u v).cnts = s.cnts := rfl
@[simp] theorem State.setCore_chains (s : State) (u : Uno) (v : Core) : (s.setCore u v).chains = s.chains := rfl
@[simp] theorem State.setCore_sets (s : State) (u : Uno) (v : Core) : (s.setCore u v).sets = s.sets := rfl
@[simp] theorem State.setCore_places (s : State) (u : Uno) (v : Core) : (s.setCore u v).places = s.places := rfl
@[simp] theorem State.setCore_halves (s : State) (u : Uno) (v : Core) : (s.setCore u v).halves = s.halves := rfl
@[simp] theorem State.setCore_xtrig (s : State) (u : Uno) (v : Core) : (s.setCore u v).xtrig = s.xtrig := rfl
@[simp] theorem State.setCore_folios (s : State) (u : Uno) (v : Core) : (s.setCore u v).folios = s.folios := rfl
@[simp] theorem State.setCore_cart (s : State) (u : Uno) (v : Core) : (s.setCore u v).cart = s.cart := rfl
@[simp] theorem State.setCore_pair (s : State) (u : Uno) (v : Core) : (s.setCore u v).pair = s.pair := rfl
@[simp] theorem State.setCore_watch (s : State) (u : Uno) (v : Core) : (s.setCore u v).watch = s.watch := rfl
@[simp] theorem State.setCore_trace (s : State) (u : Uno) (v : Core) : (s.setCore u v).trace = s.trace := rfl
@[simp] theorem State.setCore_port (s : State) (u : Uno) (v : Core) : (s.setCore u v).port = s.port := rfl
@[simp] theorem State.setCore_auth (s : State) (u : Uno) (v : Core) : (s.setCore u v).auth = s.auth := rfl
@[simp] theorem State.setCore_life (s : State) (u : Uno) (v : Core) : (s.setCore u v).life = s.life := rfl
@[simp] theorem State.setCore_host (s : State) (u : Uno) (v : Core) : (s.setCore u v).host = s.host := rfl
@[simp] theorem State.setCore_upd (s : State) (u : Uno) (v : Core) : (s.setCore u v).upd = s.upd := rfl
@[simp] theorem State.setCore_drawn (s : State) (u : Uno) (v : Core) : (s.setCore u v).drawn = s.drawn := rfl
@[simp] theorem State.setCore_pending (s : State) (u : Uno) (v : Core) : (s.setCore u v).pending = s.pending := rfl

/-! ### setDie -/

@[simp] theorem State.setDie_self (s : State) (d : Nat) (v : Die) : (s.setDie d v).die d = v := Tbl.get_set_self _ _ _ _

theorem State.setDie_ne (s : State) (d : Nat) (v : Die) (j : Nat) (h : j ≠ d) : (s.setDie d v).die j = s.die j :=
  Tbl.get_set_ne _ _ _ _ _ h

@[simp] theorem State.setDie_pkg (s : State) (d : Nat) (v : Die) : (s.setDie d v).pkg = s.pkg := rfl
@[simp] theorem State.setDie_copies (s : State) (d : Nat) (v : Die) : (s.setDie d v).copies = s.copies := rfl
@[simp] theorem State.setDie_links (s : State) (d : Nat) (v : Die) : (s.setDie d v).links = s.links := rfl
@[simp] theorem State.setDie_posts (s : State) (d : Nat) (v : Die) : (s.setDie d v).posts = s.posts := rfl
@[simp] theorem State.setDie_held (s : State) (d : Nat) (v : Die) : (s.setDie d v).held = s.held := rfl
@[simp] theorem State.setDie_unobs (s : State) (d : Nat) (v : Die) : (s.setDie d v).unobs = s.unobs := rfl
@[simp] theorem State.setDie_groups (s : State) (d : Nat) (v : Die) : (s.setDie d v).groups = s.groups := rfl
@[simp] theorem State.setDie_clamps (s : State) (d : Nat) (v : Die) : (s.setDie d v).clamps = s.clamps := rfl
@[simp] theorem State.setDie_reports (s : State) (d : Nat) (v : Die) : (s.setDie d v).reports = s.reports := rfl
@[simp] theorem State.setDie_legend (s : State) (d : Nat) (v : Die) : (s.setDie d v).legend = s.legend := rfl
@[simp] theorem State.setDie_regs (s : State) (d : Nat) (v : Die) : (s.setDie d v).regs = s.regs := rfl
@[simp] theorem State.setDie_engines (s : State) (d : Nat) (v : Die) : (s.setDie d v).engines = s.engines := rfl
@[simp] theorem State.setDie_hops (s : State) (d : Nat) (v : Die) : (s.setDie d v).hops = s.hops := rfl
@[simp] theorem State.setDie_hopNext (s : State) (d : Nat) (v : Die) : (s.setDie d v).hopNext = s.hopNext := rfl
@[simp] theorem State.setDie_hopSeq (s : State) (d : Nat) (v : Die) : (s.setDie d v).hopSeq = s.hopSeq := rfl
@[simp] theorem State.setDie_cores (s : State) (d : Nat) (v : Die) : (s.setDie d v).cores = s.cores := rfl
@[simp] theorem State.setDie_insts (s : State) (d : Nat) (v : Die) : (s.setDie d v).insts = s.insts := rfl
@[simp] theorem State.setDie_rports (s : State) (d : Nat) (v : Die) : (s.setDie d v).rports = s.rports := rfl
@[simp] theorem State.setDie_bounds (s : State) (d : Nat) (v : Die) : (s.setDie d v).bounds = s.bounds := rfl
@[simp] theorem State.setDie_rings (s : State) (d : Nat) (v : Die) : (s.setDie d v).rings = s.rings := rfl
@[simp] theorem State.setDie_cmps (s : State) (d : Nat) (v : Die) : (s.setDie d v).cmps = s.cmps := rfl
@[simp] theorem State.setDie_cnts (s : State) (d : Nat) (v : Die) : (s.setDie d v).cnts = s.cnts := rfl
@[simp] theorem State.setDie_chains (s : State) (d : Nat) (v : Die) : (s.setDie d v).chains = s.chains := rfl
@[simp] theorem State.setDie_sets (s : State) (d : Nat) (v : Die) : (s.setDie d v).sets = s.sets := rfl
@[simp] theorem State.setDie_places (s : State) (d : Nat) (v : Die) : (s.setDie d v).places = s.places := rfl
@[simp] theorem State.setDie_halves (s : State) (d : Nat) (v : Die) : (s.setDie d v).halves = s.halves := rfl
@[simp] theorem State.setDie_xtrig (s : State) (d : Nat) (v : Die) : (s.setDie d v).xtrig = s.xtrig := rfl
@[simp] theorem State.setDie_folios (s : State) (d : Nat) (v : Die) : (s.setDie d v).folios = s.folios := rfl
@[simp] theorem State.setDie_cart (s : State) (d : Nat) (v : Die) : (s.setDie d v).cart = s.cart := rfl
@[simp] theorem State.setDie_pair (s : State) (d : Nat) (v : Die) : (s.setDie d v).pair = s.pair := rfl
@[simp] theorem State.setDie_watch (s : State) (d : Nat) (v : Die) : (s.setDie d v).watch = s.watch := rfl
@[simp] theorem State.setDie_trace (s : State) (d : Nat) (v : Die) : (s.setDie d v).trace = s.trace := rfl
@[simp] theorem State.setDie_port (s : State) (d : Nat) (v : Die) : (s.setDie d v).port = s.port := rfl
@[simp] theorem State.setDie_auth (s : State) (d : Nat) (v : Die) : (s.setDie d v).auth = s.auth := rfl
@[simp] theorem State.setDie_life (s : State) (d : Nat) (v : Die) : (s.setDie d v).life = s.life := rfl
@[simp] theorem State.setDie_host (s : State) (d : Nat) (v : Die) : (s.setDie d v).host = s.host := rfl
@[simp] theorem State.setDie_upd (s : State) (d : Nat) (v : Die) : (s.setDie d v).upd = s.upd := rfl
@[simp] theorem State.setDie_drawn (s : State) (d : Nat) (v : Die) : (s.setDie d v).drawn = s.drawn := rfl
@[simp] theorem State.setDie_pending (s : State) (d : Nat) (v : Die) : (s.setDie d v).pending = s.pending := rfl

/-! ### setHop -/

@[simp] theorem State.setHop_self (s : State) (n : Nat) (v : Hop) : (s.setHop n v).hop n = some v := by simp [State.setHop, State.hop]

theorem State.setHop_ne (s : State) (n : Nat) (v : Hop) (j : Nat) (h : j ≠ n) : (s.setHop n v).hop j = s.hop j :=
  by simp [State.setHop, State.hop, Tbl.get_set_ne _ _ _ _ _ h]

@[simp] theorem State.setHop_pkg (s : State) (n : Nat) (v : Hop) : (s.setHop n v).pkg = s.pkg := rfl
@[simp] theorem State.setHop_dies (s : State) (n : Nat) (v : Hop) : (s.setHop n v).dies = s.dies := rfl
@[simp] theorem State.setHop_copies (s : State) (n : Nat) (v : Hop) : (s.setHop n v).copies = s.copies := rfl
@[simp] theorem State.setHop_links (s : State) (n : Nat) (v : Hop) : (s.setHop n v).links = s.links := rfl
@[simp] theorem State.setHop_posts (s : State) (n : Nat) (v : Hop) : (s.setHop n v).posts = s.posts := rfl
@[simp] theorem State.setHop_held (s : State) (n : Nat) (v : Hop) : (s.setHop n v).held = s.held := rfl
@[simp] theorem State.setHop_unobs (s : State) (n : Nat) (v : Hop) : (s.setHop n v).unobs = s.unobs := rfl
@[simp] theorem State.setHop_groups (s : State) (n : Nat) (v : Hop) : (s.setHop n v).groups = s.groups := rfl
@[simp] theorem State.setHop_clamps (s : State) (n : Nat) (v : Hop) : (s.setHop n v).clamps = s.clamps := rfl
@[simp] theorem State.setHop_reports (s : State) (n : Nat) (v : Hop) : (s.setHop n v).reports = s.reports := rfl
@[simp] theorem State.setHop_legend (s : State) (n : Nat) (v : Hop) : (s.setHop n v).legend = s.legend := rfl
@[simp] theorem State.setHop_regs (s : State) (n : Nat) (v : Hop) : (s.setHop n v).regs = s.regs := rfl
@[simp] theorem State.setHop_engines (s : State) (n : Nat) (v : Hop) : (s.setHop n v).engines = s.engines := rfl
@[simp] theorem State.setHop_hopNext (s : State) (n : Nat) (v : Hop) : (s.setHop n v).hopNext = s.hopNext := rfl
@[simp] theorem State.setHop_hopSeq (s : State) (n : Nat) (v : Hop) : (s.setHop n v).hopSeq = s.hopSeq := rfl
@[simp] theorem State.setHop_cores (s : State) (n : Nat) (v : Hop) : (s.setHop n v).cores = s.cores := rfl
@[simp] theorem State.setHop_insts (s : State) (n : Nat) (v : Hop) : (s.setHop n v).insts = s.insts := rfl
@[simp] theorem State.setHop_rports (s : State) (n : Nat) (v : Hop) : (s.setHop n v).rports = s.rports := rfl
@[simp] theorem State.setHop_bounds (s : State) (n : Nat) (v : Hop) : (s.setHop n v).bounds = s.bounds := rfl
@[simp] theorem State.setHop_rings (s : State) (n : Nat) (v : Hop) : (s.setHop n v).rings = s.rings := rfl
@[simp] theorem State.setHop_cmps (s : State) (n : Nat) (v : Hop) : (s.setHop n v).cmps = s.cmps := rfl
@[simp] theorem State.setHop_cnts (s : State) (n : Nat) (v : Hop) : (s.setHop n v).cnts = s.cnts := rfl
@[simp] theorem State.setHop_chains (s : State) (n : Nat) (v : Hop) : (s.setHop n v).chains = s.chains := rfl
@[simp] theorem State.setHop_sets (s : State) (n : Nat) (v : Hop) : (s.setHop n v).sets = s.sets := rfl
@[simp] theorem State.setHop_places (s : State) (n : Nat) (v : Hop) : (s.setHop n v).places = s.places := rfl
@[simp] theorem State.setHop_halves (s : State) (n : Nat) (v : Hop) : (s.setHop n v).halves = s.halves := rfl
@[simp] theorem State.setHop_xtrig (s : State) (n : Nat) (v : Hop) : (s.setHop n v).xtrig = s.xtrig := rfl
@[simp] theorem State.setHop_folios (s : State) (n : Nat) (v : Hop) : (s.setHop n v).folios = s.folios := rfl
@[simp] theorem State.setHop_cart (s : State) (n : Nat) (v : Hop) : (s.setHop n v).cart = s.cart := rfl
@[simp] theorem State.setHop_pair (s : State) (n : Nat) (v : Hop) : (s.setHop n v).pair = s.pair := rfl
@[simp] theorem State.setHop_watch (s : State) (n : Nat) (v : Hop) : (s.setHop n v).watch = s.watch := rfl
@[simp] theorem State.setHop_trace (s : State) (n : Nat) (v : Hop) : (s.setHop n v).trace = s.trace := rfl
@[simp] theorem State.setHop_port (s : State) (n : Nat) (v : Hop) : (s.setHop n v).port = s.port := rfl
@[simp] theorem State.setHop_auth (s : State) (n : Nat) (v : Hop) : (s.setHop n v).auth = s.auth := rfl
@[simp] theorem State.setHop_life (s : State) (n : Nat) (v : Hop) : (s.setHop n v).life = s.life := rfl
@[simp] theorem State.setHop_host (s : State) (n : Nat) (v : Hop) : (s.setHop n v).host = s.host := rfl
@[simp] theorem State.setHop_upd (s : State) (n : Nat) (v : Hop) : (s.setHop n v).upd = s.upd := rfl
@[simp] theorem State.setHop_drawn (s : State) (n : Nat) (v : Hop) : (s.setHop n v).drawn = s.drawn := rfl
@[simp] theorem State.setHop_pending (s : State) (n : Nat) (v : Hop) : (s.setHop n v).pending = s.pending := rfl

/-! ### setRing -/

@[simp] theorem State.setRing_self (s : State) (r : Nat) (v : Ring) : (s.setRing r v).ring r = v := Tbl.get_set_self _ _ _ _

theorem State.setRing_ne (s : State) (r : Nat) (v : Ring) (j : Nat) (h : j ≠ r) : (s.setRing r v).ring j = s.ring j :=
  Tbl.get_set_ne _ _ _ _ _ h

@[simp] theorem State.setRing_pkg (s : State) (r : Nat) (v : Ring) : (s.setRing r v).pkg = s.pkg := rfl
@[simp] theorem State.setRing_dies (s : State) (r : Nat) (v : Ring) : (s.setRing r v).dies = s.dies := rfl
@[simp] theorem State.setRing_copies (s : State) (r : Nat) (v : Ring) : (s.setRing r v).copies = s.copies := rfl
@[simp] theorem State.setRing_links (s : State) (r : Nat) (v : Ring) : (s.setRing r v).links = s.links := rfl
@[simp] theorem State.setRing_posts (s : State) (r : Nat) (v : Ring) : (s.setRing r v).posts = s.posts := rfl
@[simp] theorem State.setRing_held (s : State) (r : Nat) (v : Ring) : (s.setRing r v).held = s.held := rfl
@[simp] theorem State.setRing_unobs (s : State) (r : Nat) (v : Ring) : (s.setRing r v).unobs = s.unobs := rfl
@[simp] theorem State.setRing_groups (s : State) (r : Nat) (v : Ring) : (s.setRing r v).groups = s.groups := rfl
@[simp] theorem State.setRing_clamps (s : State) (r : Nat) (v : Ring) : (s.setRing r v).clamps = s.clamps := rfl
@[simp] theorem State.setRing_reports (s : State) (r : Nat) (v : Ring) : (s.setRing r v).reports = s.reports := rfl
@[simp] theorem State.setRing_legend (s : State) (r : Nat) (v : Ring) : (s.setRing r v).legend = s.legend := rfl
@[simp] theorem State.setRing_regs (s : State) (r : Nat) (v : Ring) : (s.setRing r v).regs = s.regs := rfl
@[simp] theorem State.setRing_engines (s : State) (r : Nat) (v : Ring) : (s.setRing r v).engines = s.engines := rfl
@[simp] theorem State.setRing_hops (s : State) (r : Nat) (v : Ring) : (s.setRing r v).hops = s.hops := rfl
@[simp] theorem State.setRing_hopNext (s : State) (r : Nat) (v : Ring) : (s.setRing r v).hopNext = s.hopNext := rfl
@[simp] theorem State.setRing_hopSeq (s : State) (r : Nat) (v : Ring) : (s.setRing r v).hopSeq = s.hopSeq := rfl
@[simp] theorem State.setRing_cores (s : State) (r : Nat) (v : Ring) : (s.setRing r v).cores = s.cores := rfl
@[simp] theorem State.setRing_insts (s : State) (r : Nat) (v : Ring) : (s.setRing r v).insts = s.insts := rfl
@[simp] theorem State.setRing_rports (s : State) (r : Nat) (v : Ring) : (s.setRing r v).rports = s.rports := rfl
@[simp] theorem State.setRing_bounds (s : State) (r : Nat) (v : Ring) : (s.setRing r v).bounds = s.bounds := rfl
@[simp] theorem State.setRing_rings (s : State) (r : Nat) (v : Ring) : (s.setRing r v).rings = s.rings := rfl
@[simp] theorem State.setRing_cmps (s : State) (r : Nat) (v : Ring) : (s.setRing r v).cmps = s.cmps := rfl
@[simp] theorem State.setRing_cnts (s : State) (r : Nat) (v : Ring) : (s.setRing r v).cnts = s.cnts := rfl
@[simp] theorem State.setRing_chains (s : State) (r : Nat) (v : Ring) : (s.setRing r v).chains = s.chains := rfl
@[simp] theorem State.setRing_sets (s : State) (r : Nat) (v : Ring) : (s.setRing r v).sets = s.sets := rfl
@[simp] theorem State.setRing_places (s : State) (r : Nat) (v : Ring) : (s.setRing r v).places = s.places := rfl
@[simp] theorem State.setRing_halves (s : State) (r : Nat) (v : Ring) : (s.setRing r v).halves = s.halves := rfl
@[simp] theorem State.setRing_xtrig (s : State) (r : Nat) (v : Ring) : (s.setRing r v).xtrig = s.xtrig := rfl
@[simp] theorem State.setRing_folios (s : State) (r : Nat) (v : Ring) : (s.setRing r v).folios = s.folios := rfl
@[simp] theorem State.setRing_cart (s : State) (r : Nat) (v : Ring) : (s.setRing r v).cart = s.cart := rfl
@[simp] theorem State.setRing_pair (s : State) (r : Nat) (v : Ring) : (s.setRing r v).pair = s.pair := rfl
@[simp] theorem State.setRing_watch (s : State) (r : Nat) (v : Ring) : (s.setRing r v).watch = s.watch := rfl
@[simp] theorem State.setRing_trace (s : State) (r : Nat) (v : Ring) : (s.setRing r v).trace = s.trace := rfl
@[simp] theorem State.setRing_port (s : State) (r : Nat) (v : Ring) : (s.setRing r v).port = s.port := rfl
@[simp] theorem State.setRing_auth (s : State) (r : Nat) (v : Ring) : (s.setRing r v).auth = s.auth := rfl
@[simp] theorem State.setRing_life (s : State) (r : Nat) (v : Ring) : (s.setRing r v).life = s.life := rfl
@[simp] theorem State.setRing_upd (s : State) (r : Nat) (v : Ring) : (s.setRing r v).upd = s.upd := rfl
@[simp] theorem State.setRing_drawn (s : State) (r : Nat) (v : Ring) : (s.setRing r v).drawn = s.drawn := rfl
@[simp] theorem State.setRing_pending (s : State) (r : Nat) (v : Ring) : (s.setRing r v).pending = s.pending := rfl

/-! ### setCq -/

@[simp] theorem State.setCq_self (s : State) (q : Nat) (v : CQ) : (s.setCq q v).cq q = v := Tbl.get_set_self _ _ _ _

theorem State.setCq_ne (s : State) (q : Nat) (v : CQ) (j : Nat) (h : j ≠ q) : (s.setCq q v).cq j = s.cq j :=
  Tbl.get_set_ne _ _ _ _ _ h

@[simp] theorem State.setCq_pkg (s : State) (q : Nat) (v : CQ) : (s.setCq q v).pkg = s.pkg := rfl
@[simp] theorem State.setCq_dies (s : State) (q : Nat) (v : CQ) : (s.setCq q v).dies = s.dies := rfl
@[simp] theorem State.setCq_copies (s : State) (q : Nat) (v : CQ) : (s.setCq q v).copies = s.copies := rfl
@[simp] theorem State.setCq_links (s : State) (q : Nat) (v : CQ) : (s.setCq q v).links = s.links := rfl
@[simp] theorem State.setCq_posts (s : State) (q : Nat) (v : CQ) : (s.setCq q v).posts = s.posts := rfl
@[simp] theorem State.setCq_held (s : State) (q : Nat) (v : CQ) : (s.setCq q v).held = s.held := rfl
@[simp] theorem State.setCq_unobs (s : State) (q : Nat) (v : CQ) : (s.setCq q v).unobs = s.unobs := rfl
@[simp] theorem State.setCq_groups (s : State) (q : Nat) (v : CQ) : (s.setCq q v).groups = s.groups := rfl
@[simp] theorem State.setCq_clamps (s : State) (q : Nat) (v : CQ) : (s.setCq q v).clamps = s.clamps := rfl
@[simp] theorem State.setCq_reports (s : State) (q : Nat) (v : CQ) : (s.setCq q v).reports = s.reports := rfl
@[simp] theorem State.setCq_legend (s : State) (q : Nat) (v : CQ) : (s.setCq q v).legend = s.legend := rfl
@[simp] theorem State.setCq_regs (s : State) (q : Nat) (v : CQ) : (s.setCq q v).regs = s.regs := rfl
@[simp] theorem State.setCq_engines (s : State) (q : Nat) (v : CQ) : (s.setCq q v).engines = s.engines := rfl
@[simp] theorem State.setCq_hops (s : State) (q : Nat) (v : CQ) : (s.setCq q v).hops = s.hops := rfl
@[simp] theorem State.setCq_hopNext (s : State) (q : Nat) (v : CQ) : (s.setCq q v).hopNext = s.hopNext := rfl
@[simp] theorem State.setCq_hopSeq (s : State) (q : Nat) (v : CQ) : (s.setCq q v).hopSeq = s.hopSeq := rfl
@[simp] theorem State.setCq_cores (s : State) (q : Nat) (v : CQ) : (s.setCq q v).cores = s.cores := rfl
@[simp] theorem State.setCq_insts (s : State) (q : Nat) (v : CQ) : (s.setCq q v).insts = s.insts := rfl
@[simp] theorem State.setCq_rports (s : State) (q : Nat) (v : CQ) : (s.setCq q v).rports = s.rports := rfl
@[simp] theorem State.setCq_bounds (s : State) (q : Nat) (v : CQ) : (s.setCq q v).bounds = s.bounds := rfl
@[simp] theorem State.setCq_rings (s : State) (q : Nat) (v : CQ) : (s.setCq q v).rings = s.rings := rfl
@[simp] theorem State.setCq_cmps (s : State) (q : Nat) (v : CQ) : (s.setCq q v).cmps = s.cmps := rfl
@[simp] theorem State.setCq_cnts (s : State) (q : Nat) (v : CQ) : (s.setCq q v).cnts = s.cnts := rfl
@[simp] theorem State.setCq_chains (s : State) (q : Nat) (v : CQ) : (s.setCq q v).chains = s.chains := rfl
@[simp] theorem State.setCq_sets (s : State) (q : Nat) (v : CQ) : (s.setCq q v).sets = s.sets := rfl
@[simp] theorem State.setCq_places (s : State) (q : Nat) (v : CQ) : (s.setCq q v).places = s.places := rfl
@[simp] theorem State.setCq_halves (s : State) (q : Nat) (v : CQ) : (s.setCq q v).halves = s.halves := rfl
@[simp] theorem State.setCq_xtrig (s : State) (q : Nat) (v : CQ) : (s.setCq q v).xtrig = s.xtrig := rfl
@[simp] theorem State.setCq_folios (s : State) (q : Nat) (v : CQ) : (s.setCq q v).folios = s.folios := rfl
@[simp] theorem State.setCq_cart (s : State) (q : Nat) (v : CQ) : (s.setCq q v).cart = s.cart := rfl
@[simp] theorem State.setCq_pair (s : State) (q : Nat) (v : CQ) : (s.setCq q v).pair = s.pair := rfl
@[simp] theorem State.setCq_watch (s : State) (q : Nat) (v : CQ) : (s.setCq q v).watch = s.watch := rfl
@[simp] theorem State.setCq_trace (s : State) (q : Nat) (v : CQ) : (s.setCq q v).trace = s.trace := rfl
@[simp] theorem State.setCq_port (s : State) (q : Nat) (v : CQ) : (s.setCq q v).port = s.port := rfl
@[simp] theorem State.setCq_auth (s : State) (q : Nat) (v : CQ) : (s.setCq q v).auth = s.auth := rfl
@[simp] theorem State.setCq_life (s : State) (q : Nat) (v : CQ) : (s.setCq q v).life = s.life := rfl
@[simp] theorem State.setCq_upd (s : State) (q : Nat) (v : CQ) : (s.setCq q v).upd = s.upd := rfl
@[simp] theorem State.setCq_drawn (s : State) (q : Nat) (v : CQ) : (s.setCq q v).drawn = s.drawn := rfl
@[simp] theorem State.setCq_pending (s : State) (q : Nat) (v : CQ) : (s.setCq q v).pending = s.pending := rfl

/-! ### setSession -/

@[simp] theorem State.setSession_self (s : State) (n : Nat) (v : Option Session) : (s.setSession n v).session n = v := Tbl.get_set_self _ _ _ _

theorem State.setSession_ne (s : State) (n : Nat) (v : Option Session) (j : Nat) (h : j ≠ n) : (s.setSession n v).session j = s.session j :=
  Tbl.get_set_ne _ _ _ _ _ h

@[simp] theorem State.setSession_pkg (s : State) (n : Nat) (v : Option Session) : (s.setSession n v).pkg = s.pkg := rfl
@[simp] theorem State.setSession_dies (s : State) (n : Nat) (v : Option Session) : (s.setSession n v).dies = s.dies := rfl
@[simp] theorem State.setSession_copies (s : State) (n : Nat) (v : Option Session) : (s.setSession n v).copies = s.copies := rfl
@[simp] theorem State.setSession_links (s : State) (n : Nat) (v : Option Session) : (s.setSession n v).links = s.links := rfl
@[simp] theorem State.setSession_posts (s : State) (n : Nat) (v : Option Session) : (s.setSession n v).posts = s.posts := rfl
@[simp] theorem State.setSession_held (s : State) (n : Nat) (v : Option Session) : (s.setSession n v).held = s.held := rfl
@[simp] theorem State.setSession_unobs (s : State) (n : Nat) (v : Option Session) : (s.setSession n v).unobs = s.unobs := rfl
@[simp] theorem State.setSession_groups (s : State) (n : Nat) (v : Option Session) : (s.setSession n v).groups = s.groups := rfl
@[simp] theorem State.setSession_clamps (s : State) (n : Nat) (v : Option Session) : (s.setSession n v).clamps = s.clamps := rfl
@[simp] theorem State.setSession_reports (s : State) (n : Nat) (v : Option Session) : (s.setSession n v).reports = s.reports := rfl
@[simp] theorem State.setSession_legend (s : State) (n : Nat) (v : Option Session) : (s.setSession n v).legend = s.legend := rfl
@[simp] theorem State.setSession_regs (s : State) (n : Nat) (v : Option Session) : (s.setSession n v).regs = s.regs := rfl
@[simp] theorem State.setSession_engines (s : State) (n : Nat) (v : Option Session) : (s.setSession n v).engines = s.engines := rfl
@[simp] theorem State.setSession_hops (s : State) (n : Nat) (v : Option Session) : (s.setSession n v).hops = s.hops := rfl
@[simp] theorem State.setSession_hopNext (s : State) (n : Nat) (v : Option Session) : (s.setSession n v).hopNext = s.hopNext := rfl
@[simp] theorem State.setSession_hopSeq (s : State) (n : Nat) (v : Option Session) : (s.setSession n v).hopSeq = s.hopSeq := rfl
@[simp] theorem State.setSession_cores (s : State) (n : Nat) (v : Option Session) : (s.setSession n v).cores = s.cores := rfl
@[simp] theorem State.setSession_insts (s : State) (n : Nat) (v : Option Session) : (s.setSession n v).insts = s.insts := rfl
@[simp] theorem State.setSession_rports (s : State) (n : Nat) (v : Option Session) : (s.setSession n v).rports = s.rports := rfl
@[simp] theorem State.setSession_bounds (s : State) (n : Nat) (v : Option Session) : (s.setSession n v).bounds = s.bounds := rfl
@[simp] theorem State.setSession_rings (s : State) (n : Nat) (v : Option Session) : (s.setSession n v).rings = s.rings := rfl
@[simp] theorem State.setSession_cmps (s : State) (n : Nat) (v : Option Session) : (s.setSession n v).cmps = s.cmps := rfl
@[simp] theorem State.setSession_cnts (s : State) (n : Nat) (v : Option Session) : (s.setSession n v).cnts = s.cnts := rfl
@[simp] theorem State.setSession_chains (s : State) (n : Nat) (v : Option Session) : (s.setSession n v).chains = s.chains := rfl
@[simp] theorem State.setSession_sets (s : State) (n : Nat) (v : Option Session) : (s.setSession n v).sets = s.sets := rfl
@[simp] theorem State.setSession_places (s : State) (n : Nat) (v : Option Session) : (s.setSession n v).places = s.places := rfl
@[simp] theorem State.setSession_halves (s : State) (n : Nat) (v : Option Session) : (s.setSession n v).halves = s.halves := rfl
@[simp] theorem State.setSession_xtrig (s : State) (n : Nat) (v : Option Session) : (s.setSession n v).xtrig = s.xtrig := rfl
@[simp] theorem State.setSession_folios (s : State) (n : Nat) (v : Option Session) : (s.setSession n v).folios = s.folios := rfl
@[simp] theorem State.setSession_cart (s : State) (n : Nat) (v : Option Session) : (s.setSession n v).cart = s.cart := rfl
@[simp] theorem State.setSession_pair (s : State) (n : Nat) (v : Option Session) : (s.setSession n v).pair = s.pair := rfl
@[simp] theorem State.setSession_watch (s : State) (n : Nat) (v : Option Session) : (s.setSession n v).watch = s.watch := rfl
@[simp] theorem State.setSession_trace (s : State) (n : Nat) (v : Option Session) : (s.setSession n v).trace = s.trace := rfl
@[simp] theorem State.setSession_port (s : State) (n : Nat) (v : Option Session) : (s.setSession n v).port = s.port := rfl
@[simp] theorem State.setSession_life (s : State) (n : Nat) (v : Option Session) : (s.setSession n v).life = s.life := rfl
@[simp] theorem State.setSession_host (s : State) (n : Nat) (v : Option Session) : (s.setSession n v).host = s.host := rfl
@[simp] theorem State.setSession_upd (s : State) (n : Nat) (v : Option Session) : (s.setSession n v).upd = s.upd := rfl
@[simp] theorem State.setSession_drawn (s : State) (n : Nat) (v : Option Session) : (s.setSession n v).drawn = s.drawn := rfl
@[simp] theorem State.setSession_pending (s : State) (n : Nat) (v : Option Session) : (s.setSession n v).pending = s.pending := rfl

/-! ### setPoint -/

@[simp] theorem State.setPoint_self (s : State) (k : Nat) (v : HashPoint) : (s.setPoint k v).point k = v := Tbl.get_set_self _ _ _ _

theorem State.setPoint_ne (s : State) (k : Nat) (v : HashPoint) (j : Nat) (h : j ≠ k) : (s.setPoint k v).point j = s.point j :=
  Tbl.get_set_ne _ _ _ _ _ h

@[simp] theorem State.setPoint_pkg (s : State) (k : Nat) (v : HashPoint) : (s.setPoint k v).pkg = s.pkg := rfl
@[simp] theorem State.setPoint_dies (s : State) (k : Nat) (v : HashPoint) : (s.setPoint k v).dies = s.dies := rfl
@[simp] theorem State.setPoint_copies (s : State) (k : Nat) (v : HashPoint) : (s.setPoint k v).copies = s.copies := rfl
@[simp] theorem State.setPoint_links (s : State) (k : Nat) (v : HashPoint) : (s.setPoint k v).links = s.links := rfl
@[simp] theorem State.setPoint_posts (s : State) (k : Nat) (v : HashPoint) : (s.setPoint k v).posts = s.posts := rfl
@[simp] theorem State.setPoint_held (s : State) (k : Nat) (v : HashPoint) : (s.setPoint k v).held = s.held := rfl
@[simp] theorem State.setPoint_unobs (s : State) (k : Nat) (v : HashPoint) : (s.setPoint k v).unobs = s.unobs := rfl
@[simp] theorem State.setPoint_groups (s : State) (k : Nat) (v : HashPoint) : (s.setPoint k v).groups = s.groups := rfl
@[simp] theorem State.setPoint_clamps (s : State) (k : Nat) (v : HashPoint) : (s.setPoint k v).clamps = s.clamps := rfl
@[simp] theorem State.setPoint_reports (s : State) (k : Nat) (v : HashPoint) : (s.setPoint k v).reports = s.reports := rfl
@[simp] theorem State.setPoint_legend (s : State) (k : Nat) (v : HashPoint) : (s.setPoint k v).legend = s.legend := rfl
@[simp] theorem State.setPoint_regs (s : State) (k : Nat) (v : HashPoint) : (s.setPoint k v).regs = s.regs := rfl
@[simp] theorem State.setPoint_engines (s : State) (k : Nat) (v : HashPoint) : (s.setPoint k v).engines = s.engines := rfl
@[simp] theorem State.setPoint_hops (s : State) (k : Nat) (v : HashPoint) : (s.setPoint k v).hops = s.hops := rfl
@[simp] theorem State.setPoint_hopNext (s : State) (k : Nat) (v : HashPoint) : (s.setPoint k v).hopNext = s.hopNext := rfl
@[simp] theorem State.setPoint_hopSeq (s : State) (k : Nat) (v : HashPoint) : (s.setPoint k v).hopSeq = s.hopSeq := rfl
@[simp] theorem State.setPoint_cores (s : State) (k : Nat) (v : HashPoint) : (s.setPoint k v).cores = s.cores := rfl
@[simp] theorem State.setPoint_insts (s : State) (k : Nat) (v : HashPoint) : (s.setPoint k v).insts = s.insts := rfl
@[simp] theorem State.setPoint_rports (s : State) (k : Nat) (v : HashPoint) : (s.setPoint k v).rports = s.rports := rfl
@[simp] theorem State.setPoint_bounds (s : State) (k : Nat) (v : HashPoint) : (s.setPoint k v).bounds = s.bounds := rfl
@[simp] theorem State.setPoint_rings (s : State) (k : Nat) (v : HashPoint) : (s.setPoint k v).rings = s.rings := rfl
@[simp] theorem State.setPoint_cmps (s : State) (k : Nat) (v : HashPoint) : (s.setPoint k v).cmps = s.cmps := rfl
@[simp] theorem State.setPoint_cnts (s : State) (k : Nat) (v : HashPoint) : (s.setPoint k v).cnts = s.cnts := rfl
@[simp] theorem State.setPoint_chains (s : State) (k : Nat) (v : HashPoint) : (s.setPoint k v).chains = s.chains := rfl
@[simp] theorem State.setPoint_sets (s : State) (k : Nat) (v : HashPoint) : (s.setPoint k v).sets = s.sets := rfl
@[simp] theorem State.setPoint_places (s : State) (k : Nat) (v : HashPoint) : (s.setPoint k v).places = s.places := rfl
@[simp] theorem State.setPoint_halves (s : State) (k : Nat) (v : HashPoint) : (s.setPoint k v).halves = s.halves := rfl
@[simp] theorem State.setPoint_xtrig (s : State) (k : Nat) (v : HashPoint) : (s.setPoint k v).xtrig = s.xtrig := rfl
@[simp] theorem State.setPoint_folios (s : State) (k : Nat) (v : HashPoint) : (s.setPoint k v).folios = s.folios := rfl
@[simp] theorem State.setPoint_pair (s : State) (k : Nat) (v : HashPoint) : (s.setPoint k v).pair = s.pair := rfl
@[simp] theorem State.setPoint_watch (s : State) (k : Nat) (v : HashPoint) : (s.setPoint k v).watch = s.watch := rfl
@[simp] theorem State.setPoint_trace (s : State) (k : Nat) (v : HashPoint) : (s.setPoint k v).trace = s.trace := rfl
@[simp] theorem State.setPoint_port (s : State) (k : Nat) (v : HashPoint) : (s.setPoint k v).port = s.port := rfl
@[simp] theorem State.setPoint_auth (s : State) (k : Nat) (v : HashPoint) : (s.setPoint k v).auth = s.auth := rfl
@[simp] theorem State.setPoint_life (s : State) (k : Nat) (v : HashPoint) : (s.setPoint k v).life = s.life := rfl
@[simp] theorem State.setPoint_host (s : State) (k : Nat) (v : HashPoint) : (s.setPoint k v).host = s.host := rfl
@[simp] theorem State.setPoint_upd (s : State) (k : Nat) (v : HashPoint) : (s.setPoint k v).upd = s.upd := rfl
@[simp] theorem State.setPoint_drawn (s : State) (k : Nat) (v : HashPoint) : (s.setPoint k v).drawn = s.drawn := rfl
@[simp] theorem State.setPoint_pending (s : State) (k : Nat) (v : HashPoint) : (s.setPoint k v).pending = s.pending := rfl

/-! ### setJob -/

@[simp] theorem State.setJob_self (s : State) (n : Nat) (v : Option Job) : (s.setJob n v).job n = v := Tbl.get_set_self _ _ _ _

theorem State.setJob_ne (s : State) (n : Nat) (v : Option Job) (j : Nat) (h : j ≠ n) : (s.setJob n v).job j = s.job j :=
  Tbl.get_set_ne _ _ _ _ _ h

@[simp] theorem State.setJob_pkg (s : State) (n : Nat) (v : Option Job) : (s.setJob n v).pkg = s.pkg := rfl
@[simp] theorem State.setJob_dies (s : State) (n : Nat) (v : Option Job) : (s.setJob n v).dies = s.dies := rfl
@[simp] theorem State.setJob_copies (s : State) (n : Nat) (v : Option Job) : (s.setJob n v).copies = s.copies := rfl
@[simp] theorem State.setJob_links (s : State) (n : Nat) (v : Option Job) : (s.setJob n v).links = s.links := rfl
@[simp] theorem State.setJob_posts (s : State) (n : Nat) (v : Option Job) : (s.setJob n v).posts = s.posts := rfl
@[simp] theorem State.setJob_held (s : State) (n : Nat) (v : Option Job) : (s.setJob n v).held = s.held := rfl
@[simp] theorem State.setJob_unobs (s : State) (n : Nat) (v : Option Job) : (s.setJob n v).unobs = s.unobs := rfl
@[simp] theorem State.setJob_groups (s : State) (n : Nat) (v : Option Job) : (s.setJob n v).groups = s.groups := rfl
@[simp] theorem State.setJob_clamps (s : State) (n : Nat) (v : Option Job) : (s.setJob n v).clamps = s.clamps := rfl
@[simp] theorem State.setJob_reports (s : State) (n : Nat) (v : Option Job) : (s.setJob n v).reports = s.reports := rfl
@[simp] theorem State.setJob_legend (s : State) (n : Nat) (v : Option Job) : (s.setJob n v).legend = s.legend := rfl
@[simp] theorem State.setJob_regs (s : State) (n : Nat) (v : Option Job) : (s.setJob n v).regs = s.regs := rfl
@[simp] theorem State.setJob_engines (s : State) (n : Nat) (v : Option Job) : (s.setJob n v).engines = s.engines := rfl
@[simp] theorem State.setJob_hops (s : State) (n : Nat) (v : Option Job) : (s.setJob n v).hops = s.hops := rfl
@[simp] theorem State.setJob_hopNext (s : State) (n : Nat) (v : Option Job) : (s.setJob n v).hopNext = s.hopNext := rfl
@[simp] theorem State.setJob_hopSeq (s : State) (n : Nat) (v : Option Job) : (s.setJob n v).hopSeq = s.hopSeq := rfl
@[simp] theorem State.setJob_cores (s : State) (n : Nat) (v : Option Job) : (s.setJob n v).cores = s.cores := rfl
@[simp] theorem State.setJob_insts (s : State) (n : Nat) (v : Option Job) : (s.setJob n v).insts = s.insts := rfl
@[simp] theorem State.setJob_rports (s : State) (n : Nat) (v : Option Job) : (s.setJob n v).rports = s.rports := rfl
@[simp] theorem State.setJob_bounds (s : State) (n : Nat) (v : Option Job) : (s.setJob n v).bounds = s.bounds := rfl
@[simp] theorem State.setJob_rings (s : State) (n : Nat) (v : Option Job) : (s.setJob n v).rings = s.rings := rfl
@[simp] theorem State.setJob_cmps (s : State) (n : Nat) (v : Option Job) : (s.setJob n v).cmps = s.cmps := rfl
@[simp] theorem State.setJob_cnts (s : State) (n : Nat) (v : Option Job) : (s.setJob n v).cnts = s.cnts := rfl
@[simp] theorem State.setJob_chains (s : State) (n : Nat) (v : Option Job) : (s.setJob n v).chains = s.chains := rfl
@[simp] theorem State.setJob_sets (s : State) (n : Nat) (v : Option Job) : (s.setJob n v).sets = s.sets := rfl
@[simp] theorem State.setJob_places (s : State) (n : Nat) (v : Option Job) : (s.setJob n v).places = s.places := rfl
@[simp] theorem State.setJob_halves (s : State) (n : Nat) (v : Option Job) : (s.setJob n v).halves = s.halves := rfl
@[simp] theorem State.setJob_xtrig (s : State) (n : Nat) (v : Option Job) : (s.setJob n v).xtrig = s.xtrig := rfl
@[simp] theorem State.setJob_cart (s : State) (n : Nat) (v : Option Job) : (s.setJob n v).cart = s.cart := rfl
@[simp] theorem State.setJob_pair (s : State) (n : Nat) (v : Option Job) : (s.setJob n v).pair = s.pair := rfl
@[simp] theorem State.setJob_watch (s : State) (n : Nat) (v : Option Job) : (s.setJob n v).watch = s.watch := rfl
@[simp] theorem State.setJob_trace (s : State) (n : Nat) (v : Option Job) : (s.setJob n v).trace = s.trace := rfl
@[simp] theorem State.setJob_port (s : State) (n : Nat) (v : Option Job) : (s.setJob n v).port = s.port := rfl
@[simp] theorem State.setJob_auth (s : State) (n : Nat) (v : Option Job) : (s.setJob n v).auth = s.auth := rfl
@[simp] theorem State.setJob_life (s : State) (n : Nat) (v : Option Job) : (s.setJob n v).life = s.life := rfl
@[simp] theorem State.setJob_host (s : State) (n : Nat) (v : Option Job) : (s.setJob n v).host = s.host := rfl
@[simp] theorem State.setJob_upd (s : State) (n : Nat) (v : Option Job) : (s.setJob n v).upd = s.upd := rfl
@[simp] theorem State.setJob_drawn (s : State) (n : Nat) (v : Option Job) : (s.setJob n v).drawn = s.drawn := rfl
@[simp] theorem State.setJob_pending (s : State) (n : Nat) (v : Option Job) : (s.setJob n v).pending = s.pending := rfl

/-! ### setStream -/

@[simp] theorem State.setStream_self (s : State) (n : Nat) (v : Option Stream) : (s.setStream n v).stream n = v := Tbl.get_set_self _ _ _ _

theorem State.setStream_ne (s : State) (n : Nat) (v : Option Stream) (j : Nat) (h : j ≠ n) : (s.setStream n v).stream j = s.stream j :=
  Tbl.get_set_ne _ _ _ _ _ h

@[simp] theorem State.setStream_pkg (s : State) (n : Nat) (v : Option Stream) : (s.setStream n v).pkg = s.pkg := rfl
@[simp] theorem State.setStream_dies (s : State) (n : Nat) (v : Option Stream) : (s.setStream n v).dies = s.dies := rfl
@[simp] theorem State.setStream_copies (s : State) (n : Nat) (v : Option Stream) : (s.setStream n v).copies = s.copies := rfl
@[simp] theorem State.setStream_links (s : State) (n : Nat) (v : Option Stream) : (s.setStream n v).links = s.links := rfl
@[simp] theorem State.setStream_posts (s : State) (n : Nat) (v : Option Stream) : (s.setStream n v).posts = s.posts := rfl
@[simp] theorem State.setStream_held (s : State) (n : Nat) (v : Option Stream) : (s.setStream n v).held = s.held := rfl
@[simp] theorem State.setStream_unobs (s : State) (n : Nat) (v : Option Stream) : (s.setStream n v).unobs = s.unobs := rfl
@[simp] theorem State.setStream_groups (s : State) (n : Nat) (v : Option Stream) : (s.setStream n v).groups = s.groups := rfl
@[simp] theorem State.setStream_clamps (s : State) (n : Nat) (v : Option Stream) : (s.setStream n v).clamps = s.clamps := rfl
@[simp] theorem State.setStream_reports (s : State) (n : Nat) (v : Option Stream) : (s.setStream n v).reports = s.reports := rfl
@[simp] theorem State.setStream_legend (s : State) (n : Nat) (v : Option Stream) : (s.setStream n v).legend = s.legend := rfl
@[simp] theorem State.setStream_regs (s : State) (n : Nat) (v : Option Stream) : (s.setStream n v).regs = s.regs := rfl
@[simp] theorem State.setStream_engines (s : State) (n : Nat) (v : Option Stream) : (s.setStream n v).engines = s.engines := rfl
@[simp] theorem State.setStream_hops (s : State) (n : Nat) (v : Option Stream) : (s.setStream n v).hops = s.hops := rfl
@[simp] theorem State.setStream_hopNext (s : State) (n : Nat) (v : Option Stream) : (s.setStream n v).hopNext = s.hopNext := rfl
@[simp] theorem State.setStream_hopSeq (s : State) (n : Nat) (v : Option Stream) : (s.setStream n v).hopSeq = s.hopSeq := rfl
@[simp] theorem State.setStream_cores (s : State) (n : Nat) (v : Option Stream) : (s.setStream n v).cores = s.cores := rfl
@[simp] theorem State.setStream_insts (s : State) (n : Nat) (v : Option Stream) : (s.setStream n v).insts = s.insts := rfl
@[simp] theorem State.setStream_rports (s : State) (n : Nat) (v : Option Stream) : (s.setStream n v).rports = s.rports := rfl
@[simp] theorem State.setStream_bounds (s : State) (n : Nat) (v : Option Stream) : (s.setStream n v).bounds = s.bounds := rfl
@[simp] theorem State.setStream_rings (s : State) (n : Nat) (v : Option Stream) : (s.setStream n v).rings = s.rings := rfl
@[simp] theorem State.setStream_cmps (s : State) (n : Nat) (v : Option Stream) : (s.setStream n v).cmps = s.cmps := rfl
@[simp] theorem State.setStream_cnts (s : State) (n : Nat) (v : Option Stream) : (s.setStream n v).cnts = s.cnts := rfl
@[simp] theorem State.setStream_chains (s : State) (n : Nat) (v : Option Stream) : (s.setStream n v).chains = s.chains := rfl
@[simp] theorem State.setStream_sets (s : State) (n : Nat) (v : Option Stream) : (s.setStream n v).sets = s.sets := rfl
@[simp] theorem State.setStream_places (s : State) (n : Nat) (v : Option Stream) : (s.setStream n v).places = s.places := rfl
@[simp] theorem State.setStream_halves (s : State) (n : Nat) (v : Option Stream) : (s.setStream n v).halves = s.halves := rfl
@[simp] theorem State.setStream_xtrig (s : State) (n : Nat) (v : Option Stream) : (s.setStream n v).xtrig = s.xtrig := rfl
@[simp] theorem State.setStream_folios (s : State) (n : Nat) (v : Option Stream) : (s.setStream n v).folios = s.folios := rfl
@[simp] theorem State.setStream_cart (s : State) (n : Nat) (v : Option Stream) : (s.setStream n v).cart = s.cart := rfl
@[simp] theorem State.setStream_pair (s : State) (n : Nat) (v : Option Stream) : (s.setStream n v).pair = s.pair := rfl
@[simp] theorem State.setStream_watch (s : State) (n : Nat) (v : Option Stream) : (s.setStream n v).watch = s.watch := rfl
@[simp] theorem State.setStream_port (s : State) (n : Nat) (v : Option Stream) : (s.setStream n v).port = s.port := rfl
@[simp] theorem State.setStream_auth (s : State) (n : Nat) (v : Option Stream) : (s.setStream n v).auth = s.auth := rfl
@[simp] theorem State.setStream_life (s : State) (n : Nat) (v : Option Stream) : (s.setStream n v).life = s.life := rfl
@[simp] theorem State.setStream_host (s : State) (n : Nat) (v : Option Stream) : (s.setStream n v).host = s.host := rfl
@[simp] theorem State.setStream_upd (s : State) (n : Nat) (v : Option Stream) : (s.setStream n v).upd = s.upd := rfl
@[simp] theorem State.setStream_drawn (s : State) (n : Nat) (v : Option Stream) : (s.setStream n v).drawn = s.drawn := rfl
@[simp] theorem State.setStream_pending (s : State) (n : Nat) (v : Option Stream) : (s.setStream n v).pending = s.pending := rfl

/-! ### setStation -/

@[simp] theorem State.setStation_self (s : State) (c : Uno) (v : StationQ) : (s.setStation c v).station c = v := Tbl.get_set_self _ _ _ _

theorem State.setStation_ne (s : State) (c : Uno) (v : StationQ) (j : Nat) (h : j ≠ c) : (s.setStation c v).station j = s.station j :=
  Tbl.get_set_ne _ _ _ _ _ h

@[simp] theorem State.setStation_pkg (s : State) (c : Uno) (v : StationQ) : (s.setStation c v).pkg = s.pkg := rfl
@[simp] theorem State.setStation_dies (s : State) (c : Uno) (v : StationQ) : (s.setStation c v).dies = s.dies := rfl
@[simp] theorem State.setStation_copies (s : State) (c : Uno) (v : StationQ) : (s.setStation c v).copies = s.copies := rfl
@[simp] theorem State.setStation_links (s : State) (c : Uno) (v : StationQ) : (s.setStation c v).links = s.links := rfl
@[simp] theorem State.setStation_posts (s : State) (c : Uno) (v : StationQ) : (s.setStation c v).posts = s.posts := rfl
@[simp] theorem State.setStation_held (s : State) (c : Uno) (v : StationQ) : (s.setStation c v).held = s.held := rfl
@[simp] theorem State.setStation_unobs (s : State) (c : Uno) (v : StationQ) : (s.setStation c v).unobs = s.unobs := rfl
@[simp] theorem State.setStation_groups (s : State) (c : Uno) (v : StationQ) : (s.setStation c v).groups = s.groups := rfl
@[simp] theorem State.setStation_clamps (s : State) (c : Uno) (v : StationQ) : (s.setStation c v).clamps = s.clamps := rfl
@[simp] theorem State.setStation_reports (s : State) (c : Uno) (v : StationQ) : (s.setStation c v).reports = s.reports := rfl
@[simp] theorem State.setStation_legend (s : State) (c : Uno) (v : StationQ) : (s.setStation c v).legend = s.legend := rfl
@[simp] theorem State.setStation_regs (s : State) (c : Uno) (v : StationQ) : (s.setStation c v).regs = s.regs := rfl
@[simp] theorem State.setStation_engines (s : State) (c : Uno) (v : StationQ) : (s.setStation c v).engines = s.engines := rfl
@[simp] theorem State.setStation_hops (s : State) (c : Uno) (v : StationQ) : (s.setStation c v).hops = s.hops := rfl
@[simp] theorem State.setStation_hopNext (s : State) (c : Uno) (v : StationQ) : (s.setStation c v).hopNext = s.hopNext := rfl
@[simp] theorem State.setStation_hopSeq (s : State) (c : Uno) (v : StationQ) : (s.setStation c v).hopSeq = s.hopSeq := rfl
@[simp] theorem State.setStation_cores (s : State) (c : Uno) (v : StationQ) : (s.setStation c v).cores = s.cores := rfl
@[simp] theorem State.setStation_insts (s : State) (c : Uno) (v : StationQ) : (s.setStation c v).insts = s.insts := rfl
@[simp] theorem State.setStation_rports (s : State) (c : Uno) (v : StationQ) : (s.setStation c v).rports = s.rports := rfl
@[simp] theorem State.setStation_bounds (s : State) (c : Uno) (v : StationQ) : (s.setStation c v).bounds = s.bounds := rfl
@[simp] theorem State.setStation_rings (s : State) (c : Uno) (v : StationQ) : (s.setStation c v).rings = s.rings := rfl
@[simp] theorem State.setStation_cmps (s : State) (c : Uno) (v : StationQ) : (s.setStation c v).cmps = s.cmps := rfl
@[simp] theorem State.setStation_cnts (s : State) (c : Uno) (v : StationQ) : (s.setStation c v).cnts = s.cnts := rfl
@[simp] theorem State.setStation_chains (s : State) (c : Uno) (v : StationQ) : (s.setStation c v).chains = s.chains := rfl
@[simp] theorem State.setStation_sets (s : State) (c : Uno) (v : StationQ) : (s.setStation c v).sets = s.sets := rfl
@[simp] theorem State.setStation_places (s : State) (c : Uno) (v : StationQ) : (s.setStation c v).places = s.places := rfl
@[simp] theorem State.setStation_halves (s : State) (c : Uno) (v : StationQ) : (s.setStation c v).halves = s.halves := rfl
@[simp] theorem State.setStation_xtrig (s : State) (c : Uno) (v : StationQ) : (s.setStation c v).xtrig = s.xtrig := rfl
@[simp] theorem State.setStation_folios (s : State) (c : Uno) (v : StationQ) : (s.setStation c v).folios = s.folios := rfl
@[simp] theorem State.setStation_cart (s : State) (c : Uno) (v : StationQ) : (s.setStation c v).cart = s.cart := rfl
@[simp] theorem State.setStation_pair (s : State) (c : Uno) (v : StationQ) : (s.setStation c v).pair = s.pair := rfl
@[simp] theorem State.setStation_watch (s : State) (c : Uno) (v : StationQ) : (s.setStation c v).watch = s.watch := rfl
@[simp] theorem State.setStation_port (s : State) (c : Uno) (v : StationQ) : (s.setStation c v).port = s.port := rfl
@[simp] theorem State.setStation_auth (s : State) (c : Uno) (v : StationQ) : (s.setStation c v).auth = s.auth := rfl
@[simp] theorem State.setStation_life (s : State) (c : Uno) (v : StationQ) : (s.setStation c v).life = s.life := rfl
@[simp] theorem State.setStation_host (s : State) (c : Uno) (v : StationQ) : (s.setStation c v).host = s.host := rfl
@[simp] theorem State.setStation_upd (s : State) (c : Uno) (v : StationQ) : (s.setStation c v).upd = s.upd := rfl
@[simp] theorem State.setStation_drawn (s : State) (c : Uno) (v : StationQ) : (s.setStation c v).drawn = s.drawn := rfl
@[simp] theorem State.setStation_pending (s : State) (c : Uno) (v : StationQ) : (s.setStation c v).pending = s.pending := rfl

/-! ### One entry of a table

For each operation that replaces one entry: what it reads as after, what every other entry reads as, and that nothing outside its
group of the state changes. -/

@[simp] theorem State.setMeter_self (s : State) (k : Nat) (v : Link) : (s.setMeter k v).meter k = v := Tbl.get_set_self _ _ _ _

theorem State.setMeter_ne (s : State) (k : Nat) (v : Link) (j : Nat) (h : j ≠ k) : (s.setMeter k v).meter j = s.meter j :=
  Tbl.get_set_ne _ _ _ _ _ h

theorem State.setMeter_frame (s : State) (k : Nat) (v : Link) :
    s.setMeter k v = { s with links := (s.setMeter k v).links } := rfl

@[simp] theorem State.setTapQ_self (s : State) (core : Uno) (v : StationQ) : (s.setTapQ core v).tapQ core = v := Tbl.get_set_self _ _ _ _

theorem State.setTapQ_ne (s : State) (core : Uno) (v : StationQ) (j : Uno) (h : j ≠ core) : (s.setTapQ core v).tapQ j = s.tapQ j :=
  Tbl.get_set_ne _ _ _ _ _ h

theorem State.setTapQ_frame (s : State) (core : Uno) (v : StationQ) :
    s.setTapQ core v = { s with trace := (s.setTapQ core v).trace } := rfl

@[simp] theorem State.setFunnel_self (s : State) (p : Nat) (v : List Packet) : (s.setFunnel p v).funnel p = v := Tbl.get_set_self _ _ _ _

theorem State.setFunnel_ne (s : State) (p : Nat) (v : List Packet) (j : Nat) (h : j ≠ p) : (s.setFunnel p v).funnel j = s.funnel j :=
  Tbl.get_set_ne _ _ _ _ _ h

theorem State.setFunnel_frame (s : State) (p : Nat) (v : List Packet) :
    s.setFunnel p v = { s with trace := (s.setFunnel p v).trace } := rfl

@[simp] theorem State.setChain_self (s : State) (k : Nat) (v : Chain) : (s.setChain k v).chain k = v := Tbl.get_set_self _ _ _ _

theorem State.setChain_ne (s : State) (k : Nat) (v : Chain) (j : Nat) (h : j ≠ k) : (s.setChain k v).chain j = s.chain j :=
  Tbl.get_set_ne _ _ _ _ _ h

theorem State.setChain_frame (s : State) (k : Nat) (v : Chain) :
    s.setChain k v = { s with chains := (s.setChain k v).chains } := rfl

@[simp] theorem State.setCmp_self (s : State) (k : Nat) (v : Cmp) : (s.setCmp k v).cmp k = v := Tbl.get_set_self _ _ _ _

theorem State.setCmp_ne (s : State) (k : Nat) (v : Cmp) (j : Nat) (h : j ≠ k) : (s.setCmp k v).cmp j = s.cmp j :=
  Tbl.get_set_ne _ _ _ _ _ h

theorem State.setCmp_frame (s : State) (k : Nat) (v : Cmp) :
    s.setCmp k v = { s with cmps := (s.setCmp k v).cmps } := rfl

@[simp] theorem State.setCnt_self (s : State) (k : Nat) (v : Cnt) : (s.setCnt k v).cnt k = v := Tbl.get_set_self _ _ _ _

theorem State.setCnt_ne (s : State) (k : Nat) (v : Cnt) (j : Nat) (h : j ≠ k) : (s.setCnt k v).cnt j = s.cnt j :=
  Tbl.get_set_ne _ _ _ _ _ h

theorem State.setCnt_frame (s : State) (k : Nat) (v : Cnt) :
    s.setCnt k v = { s with cnts := (s.setCnt k v).cnts } := rfl

@[simp] theorem State.setTrigSet_self (s : State) (slot : Nat) (v : Option TrigSet) : (s.setTrigSet slot v).trigSet slot = v := Tbl.get_set_self _ _ _ _

theorem State.setTrigSet_ne (s : State) (slot : Nat) (v : Option TrigSet) (j : Nat) (h : j ≠ slot) : (s.setTrigSet slot v).trigSet j = s.trigSet j :=
  Tbl.get_set_ne _ _ _ _ _ h

theorem State.setTrigSet_frame (s : State) (slot : Nat) (v : Option TrigSet) :
    s.setTrigSet slot v = { s with sets := (s.setTrigSet slot v).sets } := rfl

@[simp] theorem State.setPlace_self (s : State) (k : Nat) (v : Option Place) : (s.setPlace k v).place? k = v := Tbl.get_set_self _ _ _ _

theorem State.setPlace_ne (s : State) (k : Nat) (v : Option Place) (j : Nat) (h : j ≠ k) : (s.setPlace k v).place? j = s.place? j :=
  Tbl.get_set_ne _ _ _ _ _ h

theorem State.setPlace_frame (s : State) (k : Nat) (v : Option Place) :
    s.setPlace k v = { s with places := (s.setPlace k v).places } := rfl

@[simp] theorem State.setBound_self (s : State) (k : Nat) (v : Boundary) : (s.setBound k v).bound k = v := Tbl.get_set_self _ _ _ _

theorem State.setBound_ne (s : State) (k : Nat) (v : Boundary) (j : Nat) (h : j ≠ k) : (s.setBound k v).bound j = s.bound j :=
  Tbl.get_set_ne _ _ _ _ _ h

theorem State.setBound_frame (s : State) (k : Nat) (v : Boundary) :
    s.setBound k v = { s with bounds := (s.setBound k v).bounds } := rfl

@[simp] theorem State.setWatcher_self (s : State) (p : Nat) (v : Watcher) : (s.setWatcher p v).watcher p = v := Tbl.get_set_self _ _ _ _

theorem State.setWatcher_ne (s : State) (p : Nat) (v : Watcher) (j : Nat) (h : j ≠ p) : (s.setWatcher p v).watcher j = s.watcher j :=
  Tbl.get_set_ne _ _ _ _ _ h

theorem State.setWatcher_frame (s : State) (p : Nat) (v : Watcher) :
    s.setWatcher p v = { s with watch := (s.setWatcher p v).watch } := rfl

@[simp] theorem State.setSyncObj_self (s : State) (o : Uno) (v : SyncObj) : (s.setSyncObj o v).syncObj o = v := Tbl.get_set_self _ _ _ _

theorem State.setSyncObj_ne (s : State) (o : Uno) (v : SyncObj) (j : Uno) (h : j ≠ o) : (s.setSyncObj o v).syncObj j = s.syncObj j :=
  Tbl.get_set_ne _ _ _ _ _ h

theorem State.setSyncObj_frame (s : State) (o : Uno) (v : SyncObj) :
    s.setSyncObj o v = { s with watch := (s.setSyncObj o v).watch } := rfl

@[simp] theorem State.setDeadlock_self (s : State) (c : Ctx) (v : Deadlock) : (s.setDeadlock c v).deadlock c = v := Tbl.get_set_self _ _ _ _

theorem State.setDeadlock_ne (s : State) (c : Ctx) (v : Deadlock) (j : Ctx) (h : j ≠ c) : (s.setDeadlock c v).deadlock j = s.deadlock j :=
  Tbl.get_set_ne _ _ _ _ _ h

theorem State.setDeadlock_frame (s : State) (c : Ctx) (v : Deadlock) :
    s.setDeadlock c v = { s with watch := (s.setDeadlock c v).watch } := rfl

end Sys2Proof.Machine
end

