-- ==== Sys2Proof/Laws/Quill.lean ====
section
/-! SUPPORT. What becomes of an instruction: the lemmas of `State.perform` by outcome, and of an engine's update. -/

namespace Sys2Proof.Machine

theorem OnlyEngine.same (s : State) (e : Nat) : OnlyEngine s s e (s.engine e) := ⟨rfl, rfl, fun _ _ => rfl⟩

theorem OnlyEngine.set (s : State) (e : Nat) (h : Engine) : OnlyEngine s (s.setEngine e h) e h :=
  ⟨rfl, State.setEngine_self s e h, fun k hk => State.setEngine_ne s e h k hk⟩

theorem OnlyEngine.again {s t : State} {e : Nat} {g : Engine} (o : OnlyEngine s t e g) (h : Engine) :
    OnlyEngine s (t.setEngine e h) e h :=
  ⟨by rw [o.rest]; rfl, State.setEngine_self t e h, fun k hk => by rw [State.setEngine_ne t e h k hk, o.others k hk]⟩

theorem OnlyEngine.setQ (s : State) (e i : Nat) (v : Word) : OnlyEngine s (s.setQ e i v) e ((s.engine e).setQ i v) :=
  OnlyEngine.set s e _

@[simp] theorem firstFail_nil : firstFail [] = none := rfl
@[simp] theorem firstFail_ok (st : Nat) (r : List (Bool × Nat)) : firstFail ((true, st) :: r) = firstFail r := rfl
@[simp] theorem firstFail_bad (st : Nat) (r : List (Bool × Nat)) : firstFail ((false, st) :: r) = some st := rfl

@[simp] theorem checked_nil (d : Did) : checked [] d = d := rfl
@[simp] theorem checked_ok (st : Nat) (r : List (Bool × Nat)) (d : Did) : checked ((true, st) :: r) d = checked r d := rfl
@[simp] theorem checked_bad (st : Nat) (r : List (Bool × Nat)) (d : Did) : checked ((false, st) :: r) d = .fault st := rfl

/-- A word that is fetched by a running engine performs its outcome. -/
theorem State.executeQ_run {s : State} {e op : Nat} {f : BitVec 24} (d : Did) (h1 : (s.engine e).state = .running)
    (h2 : (s.engine e).fetch = wordOf op f) : s.executeQ e op f d = s.perform e ((s.engine e).inSequence op f) d := by
  simp [State.executeQ, h1, h2]

/-- A word of one cycle that goes on in sequence. -/
theorem State.perform_seq {s : State} {e : Nat} (b : Bool) (s1 : State) (hb : (s.engine e).broke 1 = false)
    (hl : (s.engine e).pc + 1 < (s.engine e).codeWords) (hr : (s.engine e).state = .running) :
    s.perform e b (.seq s1 1) = s1.setEngine e (((s1.engine e).charge 1).advance (s.engine e)) := by
  simp [State.perform, hb, Nat.not_le.mpr hl, hr]

/-- A word that waits, from a running engine: its first cycle is charged. -/
theorem State.perform_wait {s : State} {e : Nat} (b : Bool) (s1 : State) (hb : (s.engine e).broke 1 = false)
    (hl : (s.engine e).pc + 1 < (s.engine e).codeWords) (hr : (s.engine e).state = .running) :
    s.perform e b (.wait s1) =
      s1.setEngine e { ((s1.engine e).charge 1).land with state := .waiting, next := (s1.engine e).word ((s.engine e).pc + 1) } := by
  simp [State.perform, hb, Nat.not_le.mpr hl, hr]

/-- A taken transfer. -/
theorem State.perform_jump {s : State} {e : Nat} (s1 : State) (w : Nat) (hb : (s.engine e).broke 1 = false)
    (h2 : (s.engine e).broke 2 = false) :
    s.perform e false (.jump s1 w) = s1.setEngine e (((s1.engine e).charge 2).goto w) := by
  simp [State.perform, hb, h2]

/-- A word of one cycle, by what it does to its own engine. -/
theorem QuillReady.seqEnd {s : State} {e op : Nat} {f : BitVec 24} (h : QuillReady s e op f) {s1 : State} {g : Engine}
    (o : OnlyEngine s s1 e g) : OnlyEngine s (s.executeQ e op f (.seq s1 1)) e ((g.charge 1).advance (s.engine e)) := by
  rw [State.executeQ_run _ h.1 h.2.1, State.perform_seq _ _ h.2.2.1 h.2.2.2 h.1, o.here]
  exact o.again _

/-- A word of one cycle that writes a register. -/
theorem QuillReady.writes {s : State} {e op : Nat} {f : BitVec 24} (h : QuillReady s e op f) (d : Nat) (v : Word) :
    OnlyEngine s (s.executeQ e op f (.seq (s.setQ e d v) 1)) e ((s.engine e).retired d v) :=
  h.seqEnd (OnlyEngine.setQ s e d v)

/-- A word that waits, by what its wait begins in its own engine. -/
theorem QuillReady.waits {s : State} {e op : Nat} {f : BitVec 24} (h : QuillReady s e op f) {s1 : State} {g : Engine}
    (o : OnlyEngine s s1 e g) :
    OnlyEngine s (s.executeQ e op f (.wait s1)) e
      { (g.charge 1).land with state := .waiting, next := g.word ((s.engine e).pc + 1) } := by
  rw [State.executeQ_run _ h.1 h.2.1, State.perform_wait _ _ h.2.2.1 h.2.2.2 h.1, o.here]
  exact o.again _

/-- A taken transfer, by what it does to its own engine. -/
theorem OnlyEngine.jumpEnd {s : State} {e op : Nat} {f : BitVec 24} (h1 : (s.engine e).state = .running)
    (h2 : (s.engine e).fetch = wordOf op f) (h3 : (s.engine e).broke 1 = false) (h4 : (s.engine e).broke 2 = false)
    (hs : (s.engine e).inSequence op f = false) {s1 : State} {g : Engine} (w : Nat) (o : OnlyEngine s s1 e g) :
    OnlyEngine s (s.executeQ e op f (.jump s1 w)) e ((g.charge 2).goto w) := by
  rw [State.executeQ_run _ h1 h2, hs, State.perform_jump _ _ h3 h4, o.here]
  exact o.again _

end Sys2Proof.Machine
end

