-- ==== Sys2Proof/Laws/Report.lean ====
section
/-! SUPPORT. What a report may change: its hashing point or lone log, the lost bits, and the CART event of one engine. -/

namespace Sys2Proof.Machine

theorem State.markLost_eq (s : State) (c : Ctx) : s.markLost c = { s with cart := (s.markLost c).cart } := rfl

theorem State.setPoint_eq (s : State) (k : Nat) (v : HashPoint) : s.setPoint k v = { s with cart := (s.setPoint k v).cart } := rfl

/-- A hashing point that takes a record changes nothing but the cartouche path. -/
theorem State.pointTake_eq (s : State) (k : Nat) (r : Rec) : s.pointTake k r = { s with cart := (s.pointTake k r).cart } := by
  simp only [State.pointTake]
  split
  · rfl
  · split <;> rfl

/-- A record with room at its hashing point, and no record of its signature there, waits at the end of the queue (R201). -/
theorem State.pointTake_new {s : State} {k : Nat} {r : Rec} (h : (s.point k).held.any (sameSignature r) = false)
    (n : (s.point k).held.length < 4) : s.pointTake k r = s.setPoint k { s.point k with held := (s.point k).held ++ [r] } := by
  simp [State.pointTake, h, n]

/-- A record of a signature that waits is merged into it and takes no place (R201). -/
theorem State.pointTake_same {s : State} {k : Nat} {r : Rec} (h : (s.point k).held.any (sameSignature r) = true) :
    ((s.pointTake k r).point k).held.length = (s.point k).held.length := by
  simp [State.pointTake, h]

/-- A lone log that takes a record changes its post and the lost bits alone. -/
theorem State.loneWrite_eq (s : State) (p : Nat) (r : Rec) :
    s.loneWrite p r = { s with posts := (s.loneWrite p r).posts, cart := (s.loneWrite p r).cart } := by
  simp only [State.loneWrite]
  split
  · rfl
  · split <;> rfl

theorem State.engineEvent_eq (s : State) (e bit : Nat) : s.engineEvent e bit = { s with engines := (s.engineEvent e bit).engines } := rfl

theorem State.cartEngine_eq (s : State) (u : Uno) : s.cartEngine u = { s with engines := (s.cartEngine u).engines } := by
  simp only [State.cartEngine]
  split <;> rfl

/-- A report changes the cartouche path, the lone log of a post, and the pending events of an engine: nothing else. -/
theorem State.report_eq (s : State) (u : Uno) (cls code : Nat) (d : List Byte) (c : Ctx) :
    s.report u cls code d c = { s with cart := (s.report u cls code d c).cart, posts := (s.report u cls code d c).posts,
                                       engines := (s.report u cls code d c).engines } := by
  simp only [State.report]
  split
  · rfl
  · split
    · split
      · rw [State.loneWrite_eq, State.cartEngine_eq]
      · rw [State.pointTake_eq, State.cartEngine_eq]
    · rw [State.pointTake_eq, State.cartEngine_eq]

/-- A report that the Compass hashes changes nothing but the cartouche path. -/
theorem State.reportHub_eq (s : State) (u : Uno) (cls code : Nat) (d : List Byte) (c : Ctx) :
    s.reportHub u cls code d c = { s with cart := (s.reportHub u cls code d c).cart } := State.pointTake_eq _ _ _

/-- A unit that no running part would hash for reports nothing. -/
theorem State.report_none {s : State} {u : Uno} {cls code : Nat} {d : List Byte} {c : Ctx} (h : s.hashPoint u cls code = none) :
    s.report u cls code d c = s := by simp [State.report, h]

/-- A merge keeps the signature of the record that it grows (R204). -/
theorem mergeRec_signature (a b : Rec) :
    (mergeRec a b).cls = a.cls ∧ (mergeRec a b).code = a.code ∧ (mergeRec a b).hash = a.hash ∧ (mergeRec a b).ctx = a.ctx :=
  ⟨rfl, rfl, rfl, rfl⟩

/-- COUNT saturates at 65,535, and SAT says so (R204). -/
theorem mergeRec_count (a b : Rec) : (mergeRec a b).count ≤ 65535 ∧ (65535 < a.count + b.count → (mergeRec a b).sat = true) :=
  ⟨Nat.min_le_left _ _, fun h => by simp [mergeRec, h]⟩

end Sys2Proof.Machine
end

