-- ==== Sys2Proof/Laws/Rings.lean ====
section
/-! SUPPORT. What events and completions may change: the rings, the in-flight table and the port's response. -/

namespace Sys2Proof.Machine

theorem State.setRing_eq (s : State) (r : Nat) (v : Ring) : s.setRing r v = { s with host := (s.setRing r v).host } := rfl

@[simp] theorem Ring.push_reserved (r : Ring) (e : Event) (t : Time) : (r.push e t).reserved = r.reserved := rfl
@[simp] theorem Ring.push_held (r : Ring) (e : Event) (t : Time) : (r.push e t).held = r.held := rfl
@[simp] theorem Ring.push_enabled (r : Ring) (e : Event) (t : Time) : (r.push e t).enabled = r.enabled := rfl
@[simp] theorem Ring.push_head (r : Ring) (e : Event) (t : Time) : (r.push e t).head = r.head := rfl
@[simp] theorem Ring.push_tail (r : Ring) (e : Event) (t : Time) : (r.push e t).tail = (r.tail + 1) % r.size := rfl
@[simp] theorem Ring.push_entries (r : Ring) (e : Event) (t : Time) : (r.push e t).entries = r.entries ++ [(r.phase, e)] := rfl

/-- TAIL stays within the ring. -/
theorem Ring.push_tail_lt (r : Ring) (e : Event) (t : Time) : (r.push e t).tail < r.size :=
  Nat.mod_lt _ (Nat.two_pow_pos _)

/-- An event that is pushed changes its ring alone. -/
theorem State.pushEvent_eq (s : State) (r : Nat) (e : Event) : s.pushEvent r e = { s with host := (s.pushEvent r e).host } := by
  simp only [State.pushEvent]
  split
  · rfl
  · split <;> rfl

theorem State.pushEvent_ne (s : State) (r : Nat) (e : Event) (j : Nat) (h : j ≠ r) : (s.pushEvent r e).ring j = s.ring j := by
  simp only [State.pushEvent]
  split
  · exact State.setRing_ne _ _ _ _ h
  · split <;> exact State.setRing_ne _ _ _ _ h

/-- An event with a free place in an open ring with nothing held is written (R383, R384). -/
theorem State.pushEvent_open {s : State} {r : Nat} {e : Event} (o : s.ringOpen (s.ring r) = true)
    (f : (s.ring r).reserved < (s.ring r).free) (h : (s.ring r).held = []) (l : (s.ring r).lostDue = false) :
    s.pushEvent r e = s.setRing r ((s.ring r).push e s.pkg.meridian) := by
  simp [State.pushEvent, o, f, h, l]

theorem State.dropEvent_eq (s : State) (r : Nat) : s.dropEvent r = { s with host := (s.dropEvent r).host } := rfl

theorem State.drainRing_eq (r n : Nat) (s : State) : State.drainRing r n s = { s with host := (State.drainRing r n s).host } := by
  induction n generalizing s with
  | zero => rfl
  | succ n ih =>
    simp only [State.drainRing]
    split
    · split
      · rw [ih, State.setRing_eq]
      · split
        · rfl
        · rw [ih, State.setRing_eq]
    · rfl

theorem State.drainRing_ne (r n : Nat) (s : State) (j : Nat) (h : j ≠ r) : (State.drainRing r n s).ring j = s.ring j := by
  induction n generalizing s with
  | zero => rfl
  | succ n ih =>
    simp only [State.drainRing]
    split
    · split
      · rw [ih, State.setRing_ne _ _ _ _ h]
      · split
        · rfl
        · rw [ih, State.setRing_ne _ _ _ _ h]
    · rfl

/-- An event for a session changes a ring or the port's waiting events: nothing else. -/
theorem State.emit_eq (s : State) (k : Nat) (e : Event) : s.emit k e = { s with host := (s.emit k e).host, port := (s.emit k e).port } := by
  simp only [State.emit]
  split
  · rfl
  · split
    · split
      · rfl
      · rw [State.pushEvent_eq]
    · split
      · rw [State.pushEvent_eq]
      · rfl

/-- With both Compasses lost, no event is written. -/
theorem State.emit_dead {s : State} (h : s.pkg.bothDead = true) (k : Nat) (e : Event) : s.emit k e = s := by simp [State.emit, h]

theorem State.cartEventNow_eq (s : State) : s.cartEventNow = { s with host := s.cartEventNow.host } := by
  simp only [State.cartEventNow]
  split
  · rfl
  · rw [State.pushEvent_eq]

theorem State.pushReserved_eq (s : State) (r : Nat) (b : Bool) (e : Event) :
    s.pushReserved r b e = { s with host := (s.pushReserved r b e).host } := by
  simp only [State.pushReserved]
  split <;> rfl

theorem State.pushReserved_ne (s : State) (r : Nat) (b : Bool) (e : Event) (j : Nat) (h : j ≠ r) :
    (s.pushReserved r b e).ring j = s.ring j := by
  simp only [State.pushReserved]
  split <;> exact State.setRing_ne _ _ _ _ h

/-- A completion gives back the place that its command had reserved. -/
theorem State.pushReserved_reserved (s : State) (r : Nat) (b : Bool) (e : Event) :
    ((s.pushReserved r b e).ring r).reserved = (s.ring r).reserved - 1 := by
  simp only [State.pushReserved]
  split <;> simp

/-- A completion changes the host's side and the port: nothing else. -/
theorem State.completeFor_eq (s : State) (c : CmdCtx) (k st : Nat) (o : BitVec 32) (d : Word) :
    s.completeFor c k st o d = { s with host := (s.completeFor c k st o d).host, port := (s.completeFor c k st o d).port } := by
  simp only [State.completeFor]
  split
  · rfl
  · split
    · rw [State.pushReserved_eq]
    · rw [State.emit_eq]

theorem State.complete_eq (s : State) (c : CmdCtx) (st : Nat) (o : BitVec 32) (d : Word) :
    s.complete c st o d = { s with host := (s.complete c st o d).host, port := (s.complete c st o d).port } :=
  State.completeFor_eq _ _ _ _ _ _

/-- A refusal changes nothing but the host's side and the port (R12). -/
theorem State.refuse_eq (s : State) (c : CmdCtx) (st : Nat) :
    s.refuse c st = { s with host := (s.refuse c st).host, port := (s.refuse c st).port } := State.completeFor_eq _ _ _ _ _ _

/-- The completion of a port command is the port's response (R298). -/
theorem State.complete_port (s : State) {c : CmdCtx} (h : c.queue = none) (st : Nat) (o : BitVec 32) (d : Word)
    (ho : o ≠ noObject) (hs : st ≠ Status.hubReset) : s.complete c st o d = { s with
      host := { s.host with inflight := s.host.inflight.eraseP (fun i => i.c == c) }
      port := { s.port with
        response := some { type := 0x86, seq := s.port.seq, status := 0,
                           payload := eventWords false (s.event EventType.completion st c.session 0xFF o c.tag d) }
        taken := false } } := by
  simp [State.complete, State.completeFor, h, ho, hs]

theorem State.give_eq (s : State) (c : CmdCtx) (bs : List Byte) :
    s.give c bs = { s with host := (s.give c bs).host, port := (s.give c bs).port } := by
  simp only [State.give]
  split <;> rfl

/-- A judged command whose checks all hold takes its effect. -/
theorem State.judgedAny_ok {s : State} {c : CmdCtx} {l : List (Bool × Nat)} {f : State → State} (b : s.pkg.bothDead = false)
    (o : (s.session c.session).isSome = true) (h : firstFail l = none) : s.judgedAny c l f = f s := by
  simp [State.judgedAny, b, o, firstFail, h]

/-- A judged command is refused with the first check that fails. -/
theorem State.judgedAny_refused {s : State} {c : CmdCtx} {l : List (Bool × Nat)} {f : State → State} {st : Nat}
    (b : s.pkg.bothDead = false) (o : (s.session c.session).isSome = true) (h : firstFail l = some st) :
    s.judgedAny c l f = s.refuse c st := by
  simp [State.judgedAny, b, o, firstFail, h]

theorem State.judged_ok {s : State} {c : CmdCtx} {l : List (Bool × Nat)} {f : State → State} (b : s.pkg.bothDead = false)
    (w : s.pkg.fwRecovery = false) (o : (s.session c.session).isSome = true) (h : firstFail l = none) : s.judged c l f = f s := by
  rw [State.judged, State.judgedAny_ok b o]
  simp [firstFail, w, h]

theorem State.judged_refused {s : State} {c : CmdCtx} {l : List (Bool × Nat)} {f : State → State} {st : Nat}
    (b : s.pkg.bothDead = false) (w : s.pkg.fwRecovery = false) (o : (s.session c.session).isSome = true)
    (h : firstFail l = some st) : s.judged c l f = s.refuse c st := by
  rw [State.judged, State.judgedAny_refused b o]
  simp [firstFail, w, h]

end Sys2Proof.Machine
end

