-- ==== Sys2Proof/Laws/Registers.lean ====
section
/-! SUPPORT. Stored registers: what is read back of what was written, and the bits of a word with a field replaced. -/

namespace Sys2Proof.Machine

theorem State.setRegWord_eq (s : State) (r : RegRow) (k v : Nat) : s.setRegWord r k v = { s with regs := (s.setRegWord r k v).regs } := rfl

/-- A register reads what was stored in it. -/
theorem State.regWord_set (s : State) (r : RegRow) (k v : Nat) (hv : v < 2 ^ 64) (hr : r.resetWord < 2 ^ 64) :
    (s.setRegWord r k v).regWord r k = v := by
  have h : v ^^^ r.resetWord < 2 ^ 64 := Nat.xor_lt_two_pow hv hr
  have e : (word (v ^^^ r.resetWord)).toNat = v ^^^ r.resetWord := by
    simp only [word, BitVec.toNat_ofNat]
    exact Nat.mod_eq_of_lt h
  show (Tbl.get 0 (Tbl.set 0 s.regs k (word (v ^^^ r.resetWord))) k).toNat ^^^ r.resetWord = v
  rw [Tbl.get_set_self, e, Nat.xor_assoc, Nat.xor_self, Nat.xor_zero]

/-- Other registers read as before. -/
theorem State.regWord_set_ne (s : State) (r q : RegRow) (k j v : Nat) (h : j ≠ k) : (s.setRegWord r k v).regWord q j = s.regWord q j := by
  simp only [State.regWord, State.setRegWord, Tbl.get_set_ne _ _ _ _ _ h]

/-- A word with a field replaced, in parts: the bits below, the field, the bits above. -/
theorem putBits_parts (a lo w v : Nat) : putBits a lo w v = a % 2 ^ lo + 2 ^ lo * (v % 2 ^ w + 2 ^ w * (a / 2 ^ (lo + w))) := by
  have h1 := Nat.div_add_mod a (2 ^ lo)
  have h2 := Nat.div_add_mod (a / 2 ^ lo) (2 ^ w)
  have h3 : a / 2 ^ lo / 2 ^ w = a / 2 ^ (lo + w) := by rw [Nat.div_div_eq_div_mul, Nat.pow_add]
  rw [h3] at h2
  have h4 : a = bitsOf a lo w * 2 ^ lo + (a % 2 ^ lo + 2 ^ lo * (2 ^ w * (a / 2 ^ (lo + w)))) := by
    conv => lhs; rw [← h1, ← h2]
    simp only [bitsOf, Nat.mul_add]
    rw [Nat.mul_comm (a / 2 ^ lo % 2 ^ w)]
    omega
  unfold putBits
  rw [Nat.mul_add, Nat.mul_comm (v % 2 ^ w)]
  generalize hX : 2 ^ lo * (2 ^ w * (a / 2 ^ (lo + w))) = X at h4 ⊢
  omega

/-- The field that was put reads as its value. -/
theorem bitsOf_putBits (a lo w v : Nat) : bitsOf (putBits a lo w v) lo w = v % 2 ^ w := by
  rw [putBits_parts, bitsOf, Nat.add_mul_div_left _ _ (Nat.two_pow_pos lo), Nat.div_eq_of_lt (Nat.mod_lt _ (Nat.two_pow_pos lo)),
    Nat.zero_add, Nat.add_mul_mod_self_left, Nat.mod_mod]

/-- A field that lies below the one that was put reads as before. -/
theorem bitsOf_putBits_below (a lo w v l n : Nat) (h : l + n ≤ lo) : bitsOf (putBits a lo w v) l n = bitsOf a l n := by
  obtain ⟨d, rfl⟩ := Nat.exists_eq_add_of_le h
  have key (x : Nat) : bitsOf x l n = x % 2 ^ (l + n) / 2 ^ l := by
    rw [bitsOf, Nat.pow_add, Nat.mod_mul_right_div_self]
  have e : putBits a (l + n + d) w v % 2 ^ (l + n) = a % 2 ^ (l + n) := by
    rw [putBits_parts, Nat.pow_add 2 (l + n) d, Nat.mul_assoc, Nat.add_mul_mod_self_left, Nat.mod_mul_right_mod]
  rw [key, key, e]

/-- A field that lies above the one that was put reads as before. -/
theorem bitsOf_putBits_above (a lo w v l n : Nat) (h : lo + w ≤ l) : bitsOf (putBits a lo w v) l n = bitsOf a l n := by
  obtain ⟨d, rfl⟩ := Nat.exists_eq_add_of_le h
  have key (x : Nat) : x / 2 ^ (lo + w + d) = x / 2 ^ (lo + w) / 2 ^ d := by rw [Nat.div_div_eq_div_mul, ← Nat.pow_add]
  have e : putBits a lo w v / 2 ^ (lo + w) = a / 2 ^ (lo + w) := by
    rw [putBits_parts, Nat.pow_add, ← Nat.div_div_eq_div_mul, Nat.add_mul_div_left _ _ (Nat.two_pow_pos lo),
      Nat.div_eq_of_lt (Nat.mod_lt _ (Nat.two_pow_pos lo)), Nat.zero_add, Nat.add_mul_div_left _ _ (Nat.two_pow_pos w),
      Nat.div_eq_of_lt (Nat.mod_lt _ (Nat.two_pow_pos w)), Nat.zero_add]
  simp only [bitsOf, key, e]

/-- A stored field of a checked type holds a legal value (R9, R64). -/
theorem RegField.stored_range (f : RegField) (v : Nat) (t : f.type = .rwc) (h : f.low ≤ f.high) :
    f.low ≤ f.stored v ∧ f.stored v ≤ f.high := by
  simp only [RegField.stored, t]
  split
  · exact ⟨Nat.le_refl _, h⟩
  · split
    · exact ⟨h, Nat.le_refl _⟩
    · omega

/-- A legal value is stored as it is written, without a clamp. -/
theorem RegField.stored_legal (f : RegField) (v : Nat) (t : f.type = .rwc) (h : f.low ≤ v ∧ v ≤ f.high) :
    f.stored v = v ∧ f.clamps v = false := by
  constructor
  · simp only [RegField.stored, t]
    rw [if_neg (by omega), if_neg (by omega)]
  · simp only [RegField.clamps, t, decide_eq_false_iff_not]
    omega

/-- One clamp changes its log and what its report changes. -/
theorem State.clampOne_eq (s : State) (w : Writer) (l a b : Nat) :
    s.clampOne w l a b = { s with clamps := (s.clampOne w l a b).clamps, cart := (s.clampOne w l a b).cart,
                                  posts := (s.clampOne w l a b).posts, engines := (s.clampOne w l a b).engines } := by
  simp only [State.clampOne]
  split
  · rfl
  · rw [State.report_eq]

theorem State.reservedReport_eq (s : State) (w : Writer) :
    s.reservedReport w = { s with reports := (s.reservedReport w).reports, cart := (s.reservedReport w).cart,
                                  posts := (s.reservedReport w).posts, engines := (s.reservedReport w).engines } := by
  simp only [State.reservedReport]
  split <;> split
  · rw [State.report_eq]
  · rfl
  · rw [State.report_eq]
  · rfl

/-- A register write changes the stored fields, the clamp logs, and what the reports of its clamps change. -/
theorem State.writeFields_eq (s : State) (w : Writer) (r : RegRow) (k lo n v : Nat) :
    ∃ t : State, s.writeFields w r k lo n v = { s with regs := t.regs, clamps := t.clamps, cart := t.cart, posts := t.posts,
                                                       engines := t.engines } := by
  have fold : ∀ (l : List RegField) (g : RegField → Nat) (u : State),
      (∃ t : State, u = { s with regs := t.regs, clamps := t.clamps, cart := t.cart, posts := t.posts, engines := t.engines }) →
      ∃ t : State, l.foldl (fun t f => if f.clamps (g f) then t.clampOne w f.lsb (g f) (f.stored (g f)) else t) u =
        { s with regs := t.regs, clamps := t.clamps, cart := t.cart, posts := t.posts, engines := t.engines } := by
    intro l g
    induction l with
    | nil => exact fun u h => h
    | cons f l ih =>
      intro u h
      refine ih _ ?_
      obtain ⟨t, rfl⟩ := h
      beta_reduce
      by_cases hc : f.clamps (g f) = true
      · rw [if_pos hc, State.clampOne_eq]
        exact ⟨{ State.clampOne _ w f.lsb (g f) (f.stored (g f)) with regs := t.regs }, rfl⟩
      · rw [if_neg hc]
        exact ⟨t, rfl⟩
  exact fold _ _ _ ⟨s.setRegWord r k _, rfl⟩

end Sys2Proof.Machine
end

