-- ==== Sys2Proof/Laws/Keeps.lean ====
section
/-! SUPPORT. What no command may do, as a relation that the shared operations have and that composes: the queue's rest
stays, the member stays, and the anti-rollback counter never falls (R3, R411). -/

namespace Sys2Proof.Machine

/-- From `s` to `t` the queue and the member stay, and the rollback counter does not fall nor leave its 256 bits. -/
structure Keeps (s t : State) : Prop where
  pending  : t.pending = s.pending
  member   : t.pkg.member = s.pkg.member
  rollback : s.upd.rollback ≤ t.upd.rollback
  top      : s.upd.rollback ≤ 256 → t.upd.rollback ≤ 256

theorem Keeps.refl (s : State) : Keeps s s := ⟨rfl, rfl, Nat.le_refl _, id⟩

theorem Keeps.trans {s t u : State} (a : Keeps s t) (b : Keeps t u) : Keeps s u :=
  ⟨b.pending.trans a.pending, b.member.trans a.member, Nat.le_trans a.rollback b.rollback, fun h => b.top (a.top h)⟩

/-- An operation that leaves the queue, the member and the update state keeps. -/
theorem Keeps.same {s t : State} (p : t.pending = s.pending) (m : t.pkg.member = s.pkg.member) (u : t.upd = s.upd) : Keeps s t :=
  ⟨p, m, by rw [u], by rw [u]; exact id⟩

theorem Keeps.ite {s a b : State} (c : Prop) [Decidable c] (ha : Keeps s a) (hb : Keeps s b) : Keeps s (if c then a else b) := by
  split
  · exact ha
  · exact hb

/-- A fold of operations that each keep. -/
theorem Keeps.foldl {α : Type} {f : State → α → State} (h : ∀ s a, Keeps s (f s a)) (l : List α) (s : State) : Keeps s (l.foldl f s) := by
  induction l generalizing s with
  | nil => exact Keeps.refl s
  | cons a l ih => exact (h s a).trans (ih (f s a))

theorem Keeps.setEngine (s : State) (e : Nat) (v : Engine) : Keeps s (s.setEngine e v) := .same rfl rfl rfl
theorem Keeps.setPost (s : State) (p : Nat) (v : Post) : Keeps s (s.setPost p v) := .same rfl rfl rfl
theorem Keeps.setRing (s : State) (r : Nat) (v : Ring) : Keeps s (s.setRing r v) := .same rfl rfl rfl
theorem Keeps.setSession (s : State) (k : Nat) (v : Option Session) : Keeps s (s.setSession k v) := .same rfl rfl rfl
theorem Keeps.setRegWord (s : State) (r : RegRow) (k v : Nat) : Keeps s (s.setRegWord r k v) := .same rfl rfl rfl
theorem Keeps.setHealth (s : State) (p h : Nat) : Keeps s (s.setHealth p h) := .same rfl rfl rfl
theorem Keeps.draw (s : State) : Keeps s s.draw := .same rfl rfl rfl
theorem Keeps.markLost (s : State) (c : Ctx) : Keeps s (s.markLost c) := .same rfl rfl rfl

theorem Keeps.pointTake (s : State) (k : Nat) (r : Rec) : Keeps s (s.pointTake k r) := by
  rw [State.pointTake_eq]
  exact .same rfl rfl rfl

theorem Keeps.report (s : State) (u : Uno) (cls code : Nat) (d : List Byte) (c : Ctx) : Keeps s (s.report u cls code d c) := by
  rw [State.report_eq]
  exact .same rfl rfl rfl

theorem Keeps.reportHub (s : State) (u : Uno) (cls code : Nat) (d : List Byte) (c : Ctx) : Keeps s (s.reportHub u cls code d c) :=
  Keeps.pointTake _ _ _

theorem Keeps.pushEvent (s : State) (r : Nat) (e : Event) : Keeps s (s.pushEvent r e) := by
  rw [State.pushEvent_eq]
  exact .same rfl rfl rfl

theorem Keeps.drainRing (r n : Nat) (s : State) : Keeps s (State.drainRing r n s) := by
  rw [State.drainRing_eq]
  exact .same rfl rfl rfl

theorem Keeps.emit (s : State) (k : Nat) (e : Event) : Keeps s (s.emit k e) := by
  rw [State.emit_eq]
  exact .same rfl rfl rfl

theorem Keeps.cartEventNow (s : State) : Keeps s s.cartEventNow := by
  rw [State.cartEventNow_eq]
  exact .same rfl rfl rfl

theorem Keeps.completeFor (s : State) (c : CmdCtx) (k st : Nat) (o : BitVec 32) (d : Word) : Keeps s (s.completeFor c k st o d) := by
  rw [State.completeFor_eq]
  exact .same rfl rfl rfl

theorem Keeps.complete (s : State) (c : CmdCtx) (st : Nat) (o : BitVec 32) (d : Word) : Keeps s (s.complete c st o d) :=
  Keeps.completeFor _ _ _ _ _ _

theorem Keeps.refuse (s : State) (c : CmdCtx) (st : Nat) : Keeps s (s.refuse c st) := Keeps.completeFor _ _ _ _ _ _

theorem Keeps.give (s : State) (c : CmdCtx) (bs : List Byte) : Keeps s (s.give c bs) := by
  rw [State.give_eq]
  exact .same rfl rfl rfl

/-- A judged command keeps if its effect does. -/
theorem Keeps.judgedAny (s : State) (c : CmdCtx) (l : List (Bool × Nat)) (f : State → State) (h : Keeps s (f s)) :
    Keeps s (s.judgedAny c l f) := by
  simp only [State.judgedAny]
  split
  · exact Keeps.refl s
  · split
    · exact Keeps.refuse _ _ _
    · exact h

theorem Keeps.judged (s : State) (c : CmdCtx) (l : List (Bool × Nat)) (f : State → State) (h : Keeps s (f s)) : Keeps s (s.judged c l f) :=
  Keeps.judgedAny _ _ _ _ h

theorem Keeps.clampOne (s : State) (w : Writer) (l a b : Nat) : Keeps s (s.clampOne w l a b) := by
  rw [State.clampOne_eq]
  exact .same rfl rfl rfl

theorem Keeps.writeFields (s : State) (w : Writer) (r : RegRow) (k lo n v : Nat) : Keeps s (s.writeFields w r k lo n v) := by
  obtain ⟨t, e⟩ := State.writeFields_eq s w r k lo n v
  rw [e]
  exact .same rfl rfl rfl

/-- An instruction that touches one engine keeps. -/
theorem Keeps.onlyEngine {s t : State} {e : Nat} {g : Engine} (o : OnlyEngine s t e g) : Keeps s t := by
  rw [o.rest]
  exact .same rfl rfl rfl

end Sys2Proof.Machine
end

