-- ==== Sys2Proof/Tests/Slice0.lean ====
section
/-! SUPPORT. Tests: the well-formedness checks refuse ill-formed commands, words of the spec decode as it says, a few worked
examples of the spec run as it says, and each statement's hypotheses are met by a concrete state (a witness per clause). -/

set_option Elab.async false

namespace Sys2Proof.Tests

open Sys2Proof Sys2Proof.Machine

/-! ### Small states -/

/-- A ZA0400 package in the open lifecycle state TEST whose start-up has ended; `ps` are its posts. -/
def at_ (ps : Tbl Post) : State := { State.reset with
  pkg := { member := .za0400, powered := true, aonUp := true, meridian := 5000, bootStep := 8, coresHeld := false, standbyOk := true }
  dies := [(0, { copy := { valid := true } }), (1, { copy := { valid := true } })]
  posts := ps
  life := { decided := true, state := .test }
  auth := { sessions := [(1, some { isPort := false, ring := 1, nonce := 7, scheck := 9, openT := 0 })] } }

/-- Post 0 runs. -/
def up : State := at_ [(0, { health := 1 })]

/-- A command of session 1 from queue 1. -/
def ctx1 : CmdCtx := { session := 1, queue := some 1, tag := 0x55, notify := false, resLen := 256, resAddr := 0 }

/-- A running user program of 64 words, 4096 data bytes, 4 tags and depth 4, without a deadline. -/
def eng (w : BitVec 32) : Engine :=
  { state := .running, fetch := w, owner := some 1, force := [(2, 64), (3, 4096), (5, 0x40000), (6, 4)] }

/-- Post 0's engine is about to execute the word. -/
def runs (w : BitVec 32) : State := { up with engines := [(0, eng w)] }

/-- As `runs`, with registers. -/
def runsWith (w : BitVec 32) (regs : Tbl Word) : State := { up with engines := [(0, { eng w with regs := regs })] }

/-! ### Witnesses: Quill (O1 to O15) -/

theorem ready_plain : QuillReady (runs 0x20123000) 0 0x20 0x123000 := by unfold QuillReady; decide

theorem witness_QuillRegisterOperations_plain : QuillReady (runs 0x20123000) 0 0x20 0x123000 ∧ flow 0x123000 = 0 :=
  ⟨ready_plain, by decide⟩

theorem witness_QuillRegisterOperations_immediate :
    ((runs 0).engine 0).broke 1 = false ∧ QuillReady (runs 0x2812FFFF) 0 0x28 0x12FFFF ∧ QuillReady (runs 0x29120001) 0 0x29 0x120001 ∧
    QuillReady (runs 0x2A120001) 0 0x2A 0x120001 ∧ (QuillReady (runs 0x2B10FFFF) 0 0x2B 0x10FFFF ∧ fa 0x10FFFF = 0) ∧
    (QuillReady (runs 0x2F120000) 0 0x2F 0x120000 ∧ fb 0x120000 = 0 ∧ flow 0x120000 = 0) ∧
    (QuillReady (runs 0x30560008) 0 0x30 0x560008 ∧ fimm 0x560008 ∈ [1, 2, 4, 8]) := by
  unfold QuillReady; decide

theorem witness_QuillRegisterOperations_mov :
    (QuillReady (runs 0x33120000) 0 0x33 0x120000 ∧ fimm 0x120000 = 0) ∧
    (QuillReady (runs 0x33100001) 0 0x33 0x100001 ∧ fimm 0x100001 = 1 ∧ fa 0x100001 = 0) ∧
    (QuillReady (runs 0x33020002) 0 0x33 0x020002 ∧ fimm 0x020002 = 2 ∧ fd 0x020002 = 0) ∧
    (QuillReady (runs 0x33100003) 0 0x33 0x100003 ∧ fimm 0x100003 = 3 ∧ fa 0x100003 = 0 ∧ (runs 0x33100003).engineNow 0 = some 5000) ∧
    ({ runs 0x33100003 with dies := [] } : State).engineNow 0 = none ∧ fimm 0x100004 = 4 ∧ fimm 0x100005 = 5 ∧ fimm 0x100006 = 6 := by
  unfold QuillReady; decide

theorem witness_QuillImmediateOperations :
    (runs 0).folios.jobs = [] ∧ (QuillReady (runs 0x2B120001) 0 0x2B 0x120001 ∧ fa 0x120001 ≠ 0) ∧
    (QuillReady (runs 0x2F121000) 0 0x2F 0x121000 ∧ fb 0x121000 ≠ 0) ∧
    (QuillReady (runs 0x2F120001) 0 0x2F 0x120001 ∧ fb 0x120001 = 0 ∧ flow 0x120001 ≠ 0) ∧
    (QuillReady (runs 0x30560000) 0 0x30 0x560000 ∧ fimm 0x560000 ∉ [1, 2, 4, 8] ∧ fimm 0x560009 ∉ [1, 2, 4, 8]) ∧
    (QuillReady (runs 0x33120001) 0 0x33 0x120001 ∧ fimm 0x120001 = 1 ∧ fa 0x120001 ≠ 0 ∧ fimm 0x120006 = 6) ∧
    (QuillReady (runs 0x33120002) 0 0x33 0x120002 ∧ fimm 0x120002 = 2 ∧ fd 0x120002 ≠ 0) ∧
    (QuillReady (runs 0x33000007) 0 0x33 0x000007 ∧ 6 < fimm 0x000007) := by
  unfold QuillReady; decide

theorem witness_QuillTransfers :
    (QuillReady (runs 0) 0 0x00 0 ∧ (0 : BitVec 24) = 0) ∧
    (((runs 0x01000000).engine 0).fetch = wordOf 0x01 0 ∧ ((runs 0x02000000).engine 0).broke 2 = false) ∧
    (((runs 0x0300003F).engine 0).inCode 63 = true ∧ (0x00003F : BitVec 24).toInt = 63) ∧
    (fd 0x010004 = 0 ∧ ((runsWith 0x04010004 []).engine 0).q 1 = 0 ∧ ((runsWith 0x04010004 []).engine 0).inCode 4 = true) ∧
    (QuillReady (runsWith 0x04010004 [(1, 1)]) 0 0x04 0x010004 ∧ ((runsWith 0x04010004 [(1, 1)]).engine 0).q 1 ≠ 0) ∧
    (((runs 0x06000004).engine 0).stack.length < ((runs 0x06000004).engine 0).depth) ∧
    (({ eng 0x07000000 with stack := [] ++ [63] } : Engine).stack = [] ++ [63] ∧ 63 < (eng 0x07000000).codeWords) ∧
    (QuillReady (runsWith 0x08010004 [(1, 1)]) 0 0x08 0x010004 ∧ ((runsWith 0x08010004 [(1, 1)]).engine 0).q 1 = 1) ∧
    1 < (((runsWith 0x0801FFFF [(1, 2)]).engine 0).q 1).toNat := by
  unfold QuillReady; decide

theorem witness_QuillEventsAndBudget :
    (QuillReady (runs 0x09100FFF) 0 0x09 0x100FFF ∧ fa 0x100FFF = 0 ∧ fimm 0x100FFF < 4096 ∧
      (0x1 &&& 0x1 &&& BitVec.ofNat 16 (fimm 0x100FFF) : BitVec 16) ≠ 0) ∧
    (((runs 0x09100FFF).engine 0).events &&& ((runs 0x09100FFF).engine 0).evmask) = 0 ∧
    (QuillReady (runs 0x0A000000) 0 0x0A 0 ∧ fd 0 = 0 ∧ (((runs 0x0A000000).engine 0).q 0).toNat + fimm 0 = 0) ∧
    (QuillReady (runs 0x0A000001) 0 0x0A 1 ∧ ((runs 0x0A000001).engine 0).sleepEnd = none ∧
      (runs 0x0A000001).engineNow 0 = some ((runs 0x0A000001).engineCount 0) ∧ (runs 0x0A000001).engineCount 0 + 1 < 2 ^ 64) ∧
    (QuillReady (runs 0x0B120001) 0 0x0B 0x120001 ∧ ((runs 0x0B120001).engine 0).timed = false) ∧
    ({ eng 0x0B120001 with force := [(2, 64), (7, 1)], budget := 1024 } : Engine).timed = true ∧
    (QuillReady (runs 0x0C100000) 0 0x0C 0x100000 ∧ fa 0x100000 = 0 ∧ fb 0x100000 = 0 ∧ flow 0x100000 = 0) := by
  unfold QuillReady; decide

theorem witness_QuillLocalMemory :
    (QuillReady (runs 0x40100FF8) 0 0x40 0x100FF8 ∧ ((runs 0x40100FF8).engine 0).local_ 0x100FF8 + 8 = ((runs 0x40100FF8).engine 0).dataBytes) ∧
    (QuillReady (runs 0x42100FFC) 0 0x42 0x100FFC ∧ ((runs 0x42100FFC).engine 0).local_ 0x100FFC % 4 = 0) ∧
    (QuillReady (runs 0x41100000) 0 0x41 0x100000 ∧ ((runs 0x41100000).engine 0).local_ 0x100000 = 0) ∧
    (QuillReady (runs 0x43100004) 0 0x43 0x100004 ∧ ((runs 0x43100004).engine 0).local_ 0x100004 = 4) ∧
    (QuillReady (runs 0x4410003F) 0 0x44 0x10003F ∧ ((runs 0x4410003F).engine 0).local_ 0x10003F < ((runs 0x4410003F).engine 0).codeWords) ∧
    (QuillReady (runs 0x4510003F) 0 0x45 0x10003F) := by
  unfold QuillReady; decide

theorem witness_QuillTaggedInstructionsIssue :
    ((runs 0x50120000).engine 0).freeTag = some 0 ∧
    (QuillReady (runsWith 0x50120001 [(2, 0x10000)]) 0 0x50 0x120001 ∧ ft 0x120001 = 0 ∧ spLegal 0x120001 = true) ∧
    (QuillReady (runs 0x53120000) 0 0x53 0x120000 ∧ ft 0x120000 = 0 ∧ fsp 0x120000 = 0 ∧ 0 + 64 ≤ ((runs 0).engine 0).dataBytes) ∧
    QuillReady (runs 0x54120000) 0 0x54 0x120000 ∧ QuillReady (runs 0x55120000) 0 0x55 0x120000 ∧
    QuillReady (runs 0x80120000) 0 0x80 0x120000 ∧ QuillReady (runs 0x81120000) 0 0x81 0x120000 ∧
    (QuillReady (runs 0x90120500) 0 0x90 0x120500 ∧ ft 0x120500 = 5) ∧ QuillReady (runs 0x91120000) 0 0x91 0x120000 ∧
    QuillReady (runs 0xA1120000) 0 0xA1 0x120000 := by
  unfold QuillReady; decide

theorem witness_QuillTaggedInstructionsIssue_probes :
    let s := runsWith 0x50120001 [(1, 0x10000)]
    let probe (f : BitVec 24) (w : Bool) : Prop := ft f = 0 ∧ spLegal f = true ∧ ((s.engine 0).q (fb f)).toNat % spWidth f = 0 ∧
      s.unitReach 0x10000 (spSpace f) 0 (spWidth f) w = true ∧ s.mayReach (some 1) 0x10000 (spSpace f) 0 w = true
    let net (f : BitVec 24) (w : Bool) : Prop := ft f = 0 ∧ spLegal f = true ∧ s.netUnits 0x10000 (spSpace f) 0 (spWidth f) w ≠ [] ∧
      (∀ y ∈ s.netUnits 0x10000 (spSpace f) 0 (spWidth f) w, s.mayReach (some 1) y (spSpace f) 0 w = true) ∧
      ∀ k ∈ s.ctxsIn 0x10000, s.mayProbe (some 1) k (spSpace f) w = true
    (QuillReady s 0 0x50 0x120001 ∧ fa 0x312001 = 1 ∧ probe 0x312001 false) ∧
    QuillReady (runsWith 0x51312001 [(1, 0x10000)]) 0 0x51 0x312001 ∧ probe 0x312001 true ∧ net 0x312001 false ∧ net 0x312001 true := by
  unfold QuillReady; decide

/-- A tag that holds a read of a core. -/
def readTag (r : Option (Nat × Word)) : Tag := { op := .uread, unit := 0x10000, space := 1, off := 0, width := 4, seq := 0, answer := r, result := r }

/-- As `runs`, with one held tag. -/
def runsTagged (w : BitVec 32) (t : Tag) : State := { up with engines := [(0, { eng w with tags := [(0, some t)] })] }

theorem witness_QuillUwait :
    (QuillReady (runsTagged 0x52120000 (readTag (some (0, 7)))) 0 0x52 0x120000 ∧ fsp 0x120000 = 0 ∧ ft 0x120000 = 0 ∧
      ((runsTagged 0x52120000 (readTag (some (0, 7)))).engine 0).tag 0 = some (readTag (some (0, 7))) ∧
      0 < ((runsTagged 0x52120000 (readTag (some (0, 7)))).engine 0).tagLimit) ∧
    (QuillReady (runsTagged 0x52120000 (readTag none)) 0 0x52 0x120000 ∧ (readTag none).op.readType = true) ∧
    (QuillReady (runsTagged 0x52100100 (readTag (some (0, 7)))) 0 0x52 0x100100 ∧ ft 0x100100 = 1 ∧ fa 0x100100 = 0 ∧
      fb 0x100100 = 0 ∧ ((runsTagged 0x52100100 (readTag (some (0, 7)))).engine 0).allDone = true) := by
  unfold QuillReady; decide

theorem witness_QuillHaltControl :
    let s (op : Nat) : State := runsWith (wordOf op 0x312000) [(1, 0x10000), (2, 0)]
    let q (k : HopKind) : HopReq := { kind := k, imm := false, scope := 0x10000, param := 0, who := some 1, hold := none }
    (∀ op ∈ [0x70, 0x71, 0x72, 0x73, 0x74], QuillReady (s op) 0 op 0x312000 ∧ ((s op).engine 0).broke 2 = false) ∧
    fsp 0x312000 = 0 ∧ ft 0x312000 = 0 ∧ (s 0x70).hopCheck (some 0) (q .halt) = none ∧ (s 0x71).hopCheck (some 0) (q .step) ≠ none ∧
    ({ s 0x71 with cores := [(0x10000, { run := .stopped, halted := true, holdC := true })] } : State).hopCheck (some 0)
      { q .step with param := 2 ^ 48 } = none ∧
    (∀ k ∈ [HopKind.halt, .step, .resume, .freeze, .thaw], up.hopWaits (some 0) k = false) ∧
    (let w : State := { s 0x72 with dies := [], pkg := { up.pkg with bothDead := true } }
     w.hopCheck (some 0) (q .resume) = none ∧ w.hopWaits (some 0) .resume = true ∧ QuillReady w 0 0x72 0x312000) ∧
    (s 0x72).hopCheck (some 0) (q .resume) = none ∧ (s 0x73).hopCheck (some 0) { q .freeze with param := 2 ^ 26 } = none ∧
    (s 0x74).hopCheck (some 0) { q .thaw with param := 2 ^ 26 } = none := by
  unfold QuillReady; decide

/-- A HOP of post 0 on core 0x10000. -/
def hop0 (k : HopKind) : Hop :=
  { id := 5, kind := k, mode := .contour, platform := false, scope := 0x10000, cores := [0x10000], insts := [], iwait := [], ctx := 0, lead := 64
    deadline := 5000, steps := 1, classes := 0, t := 5100, origin := .engine 0 }

/-- As `runsWith`, with a record of the HOP in post 0's ring. -/
def cutq (w : BitVec 32) (h : Hop) : State := { runsWith w [(1, 5)] with
  hops := [(1, some h)], hopNext := 2, rings := [(0, { recs := [(0, some (1, false))], order := [0], newest := 0 })] }

/-- A folio job of post 0's engine that has ended, or not. -/
def job0 (st : JobState) : Job :=
  { state := st, owner := 1, engine := some 0, ctx := 0, platform := true, sealMode := 0, delta := false, residue := false, margin := false
    cartouches := false, legacy := false, hint := 0, marksMax := 1, refJob := none, scope := 0x10000, entries := 0, serial := 1, segs := []
    planned := 0, parts := [], beginT := 5000 }

/-- As `runsWith`, with the job in slot 0. -/
def withJob (w : BitVec 32) (st : JobState) : State := { runsWith w [] with folios := { jobs := [(0, some (job0 st))] } }

theorem witness_QuillCutqAndFend :
    (QuillReady (runsWith 0x75312000 [(1, 5), (2, 17)]) 0 0x75 0x312000 ∧ fsp 0x312000 = 0 ∧ (runsWith 0x75312000 []).ringRecord 0 5 = none) ∧
    (QuillReady (cutq 0x75312100 (hop0 .halt)) 0 0x75 0x312100 ∧ (cutq 0x75312100 (hop0 .halt)).ringRecord 0 5 = some (hop0 .halt) ∧
      (hop0 .halt).halfStatus 0 = (1, 0) ∧ bitAt (ft 0x312100) 0 = true ∧ up.hasPlatform (some 1) = true) ∧
    ({ hop0 .halt with status := 2 } : Hop).halfStatus 0 = (2, 0) ∧
    (QuillReady (runs 0x82300000) 0 0x82 0x300000 ∧ (runs 0x82300000).engineJob 0 0 = none) ∧
    (QuillReady (withJob 0x82300000 .complete) 0 0x82 0x300000 ∧ (withJob 0x82300000 .complete).engineJob 0 0 = some (job0 .complete)) ∧
    (withJob 0x82300000 .incomplete).engineJob 0 0 = some (job0 .incomplete) := by
  unfold QuillReady; decide

theorem witness_QuillReportsAndWatch :
    (QuillReady (withJob 0x83300000 .capturing) 0 0x83 0x300000 ∧ (withJob 0x83300000 .capturing).engineJob 0 0 = some (job0 .capturing) ∧
      (job0 .capturing).ended = false ∧ (job0 .capturing).marksUsed < (job0 .capturing).marksMax ∧
      ({ job0 .capturing with marksUsed := 1 } : Job).marksMax ≤ 1 ∧ (withJob 0x83300000 .capturing).engineNow 0 = some 5000) ∧
    (QuillReady (runs 0xA0100003) 0 0xA0 0x100003 ∧ fa 0x100003 = 0 ∧ (runs 0).server 0 = some 0 ∧
      (runs 0).copyNow (halfUno 0) = some 5000 ∧ ((runs 0).funnel 0).length < 256) ∧
    (QuillReady (runs 0xA2312001) 0 0xA2 0x312001 ∧ (runs 0).ringRoom 1 = true ∧ up.pkg.bothDead = false ∧ (runs 0).ringRoom 2 = false ∧
      (runs 0).raisesHeld 1 (objectWord ObjKind.engine 0) < 16) ∧
    (QuillReady (runs 0xB0300000) 0 0xB0 0x300000 ∧ fa 0x300000 = 0 ∧ ((runs 0).watcher 0).sampling = none ∧ ((runs 0).watcher 0).unsched = none ∧
      (({ runs 0 with watch := { watchers := [(0, { sampling := some 6000 })] } } : State).watcher 0).sampling = some 6000) ∧
    (QuillReady (runs 0xB1312000) 0 0xB1 0x312000 ∧ fsp 0x312000 = 0 ∧ ((runs 0).engine 0).q 3 = 0) := by
  unfold QuillReady; decide

theorem witness_QuillFaults :
    (runs 0).folios.jobs = [] ∧
    (((runs 0x0D000000).engine 0).fetch = 0x0D000000 ∧ opDefined ((0x0D000000 : BitVec 32).toNat / 2 ^ 24) = false) ∧
    (∀ x ∈ Claims.binaryOps ++ Claims.compareOps, QuillReady (runs (wordOf x.2.1 0x123001)) 0 x.2.1 0x123001) ∧ flow 0x123001 ≠ 0 ∧
    ({ eng 0 with force := [(2, 64), (7, 1)], budget := 0 } : Engine).broke 1 = true ∧
    (∀ x ∈ Claims.binaryOps ++ Claims.compareOps,
      ({ eng (wordOf x.2.1 0x123000) with pc := 63 } : Engine).codeWords = 64 ∧ (eng (wordOf x.2.1 0x123000)).broke 1 = false) := by
  unfold QuillReady; decide

theorem witness_QuillWaitsAndProbes :
    (let g := { eng 0x09100001 with state := .waiting, events := 1, evmask := 1 }
     g.broke 1 = false ∧ g.pc + 1 < g.codeWords ∧ fa 0x100001 = 0 ∧ (g.events &&& g.evmask &&& BitVec.ofNat 16 (fimm 0x100001)) ≠ 0) ∧
    (let t := { readTag (some (0, 7)) with result := none }
     ((runsTagged 0 t).engine 0).tag 0 = some t ∧ t.op = .uread ∧ t.answer = some (0, 7) ∧ t.result = none ∧
     (runsTagged 0 t).now < ({ t with issued := 4000 } : Tag).issued.toNat + 8000 ∧ (runsTagged 0 t).tagAwaits 0 t = false) ∧
    (let t := { readTag none with result := none }
     let s : State := { runsTagged 0 t with pkg := { up.pkg with meridian := 8000 } }
     (s.engine 0).tag 0 = some t ∧ t.issued.toNat + 8000 ≤ s.now ∧ s.tagAwaits 0 t = false) ∧
    (let t := { readTag (some (4, 0)) with op := .uwrite 3, result := none }
     ((runsTagged 0 t).engine 0).tag 0 = some t ∧ t.answer = some (4, 0) ∧ (runsTagged 0 t).tagAwaits 0 t = false) ∧
    (let t := { readTag none with op := .uchild 0 }
     ((runsTagged 0 t).engine 0).tag 0 = some t ∧ t.answer = none ∧ (runsTagged 0 t).tagBlocked 0 t = false) := by
  decide

/-- The header words 0 to 14 of an image for post engines with one code word, its CRC of the code and the header CRC in place. -/
def hdr0 : Tbl (BitVec 32) :=
  let h : Tbl (BitVec 32) := [(0, 0x4C495551), (1, 0x00020001), (2, 1), (6, 0x00000001),
    (9, BitVec.ofNat 32 (crc32c (leBytes 4 0x01000000)).toNat)]
  h ++ [(15, BitVec.ofNat 32 (crc32c ((hdrBytes h).take 60)).toNat)]

/-- Post 0's engine taken by session 1, which is bound to BAR0, in a state. -/
def taken (st : EState) : State := { up with
  host := { bound := some 1 }
  engines := [(0, { state := st, owner := some 1, hdr := hdr0, force := hdr0, loaded := true, pmem := [(0, 0x01000000)] })] }

theorem witness_QuillControl :
    (∀ st ∈ [EState.taken, .loaded, .running, .stopped], (taken st).hasEngine 0 = true ∧ (taken st).engineAnswers 0 = true ∧
      (taken st).barGone .bar = false ∧ (taken st).actor .bar = some 1 ∧ ((taken st).engine 0).owner = some 1) ∧
    (let s : State := { taken .taken with engines := [(0, { state := .resident })] }
     (s.engine 0).owner = none ∧ s.residentIdle 0 = true ∧ s.levelOn (some 1) 0 = 2) ∧
    (((taken .taken).engine 0).loadable = true ∧ firstFail ((taken .taken).qlImageChecks 0) = none) ∧
    (let g := { ((taken .stopped).engine 0) with force := [(2, 64)], pmem := [] }
     g.broke 1 = false ∧ g.pc + 1 < g.codeWords ∧ g.land.word g.pc = 0 ∧ g.fetch = 0) ∧
    ((taken .restoring).engine 0).state = .restoring ∧ (taken .taken).folios.jobs = [] ∧ (taken .taken).host.refs = [] := by
  decide +kernel

/-- Post 0's engine waits in WAITEV with no event. -/
def waiting0 : State := { up with
  engines := [(0, { state := .waiting, owner := some 1, force := [(2, 64)], loaded := true, fetch := 0x09100001 })] }

theorem witness_QuillControl_wait : waiting0.fetched 0 = .wait waiting0 ∧ (waiting0.engine 0).state = .waiting ∧
    (waiting0.engine 0).broke 1 = false ∧ (waiting0.engine 0).owner = some 1 := ⟨rfl, by decide +kernel, by decide +kernel, by decide +kernel⟩

theorem witness_EngineMemoryAndLoad :
    ((65528 : Nat) % 8 = 0 ∧ 65528 + 8 ≤ 65536 ∧ 65532 % 4 = 0 ∧ (taken .taken).actor .bar = some 1) ∧
    (((taken .taken).session 1).isSome = true ∧ (taken .taken).pkg.fwRecovery = false ∧ ((taken .taken).engine 0).loadable = true) ∧
    (let image := (rangeFrom 0 16).flatMap (fun i => leBytes 4 (Tbl.get 0 hdr0 i).toNat) ++ leBytes 4 0x01000000
     let s1 := (taken .taken).setEngine 0 (((taken .taken).engine 0).placeImage image)
     firstFail (s1.qlImageChecks 0) = none ∧
     firstFail (((taken .taken).setEngine 0 (((taken .taken).engine 0).placeImage [])).qlImageChecks 0) = some Status.imageFormat) := by
  decide +kernel

/-! ### Witnesses: power, copies, links and posts (O16 to O23) -/

/-- The reset state with another package state. -/
def pkg (p : Pkg) : State := { State.reset with pkg := p }

theorem witness_StartUpToFirmware :
    ((pkg { powered := true }).pkg.powered = true ∧ (pkg { powered := true }).pkg.aonUp = false) ∧
    (let s := pkg { powered := true, aonUp := true, bootStep := 1 }
     s.derive = .decided .blank false 255 0) ∧
    ({ pkg { aonUp := true, bootStep := 1 } with
      life := { copies := [(1, .valid 0xA2 0 1 0 0)] } } : State).derive = .locked 1 ∧
    (let s := pkg { aonUp := true, bootStep := 2 }
     s.pkg.bootStep = 2 ∧ s.life.lockdown = false ∧ s.pkg.bothDead = false) ∧ State.reset.pkg.powered = false := by
  decide +kernel

theorem witness_StartUpToCores :
    ((pkg { bootStep := 4 }).pkg.fwRecovery = false ∧ 31 < (pkg { bootStep := 4 }).pkg.member.posts ∧ 31 ∉ (pkg { bootStep := 4 }).pkg.hbmDone) ∧
    ((pkg { bootStep := 5 }).die 0).pllLocked = true ∧ kindOf (pkg { bootStep := 5 }).pkg.member 0x10000 = .core ∧
    (let s := pkg { bootStep := 7 }
     s.pkg.warmRerun = false ∧ s.upd.trial = false ∧ (s.sendUrg 2 (treeLinks s.pkg.member s.homeDie)).isSome = true ∧
     (({ s with links := [(linkKey 0 1, { urg := 1 })] } : State).sendUrg 2 (treeLinks s.pkg.member s.homeDie)).isNone = true) := by
  decide +kernel

theorem up_canonical : State.canonical up := by unfold State.canonical; decide

theorem witness_Resets : Claims.Platform up ctx1 ∧ up.lcBusy = false ∧ up.canonical ∧ up.host.refs = [] ∧ up.pkg.aonUp = true :=
  ⟨by unfold Claims.Platform Claims.Heard; decide, by decide, up_canonical, by decide, by decide⟩

/-- `up` at an epoch, with the meridian copy and load of die 1. -/
def epochAt (x : Die) : State := { up with pkg := { up.pkg with meridian := 4096 }, dies := [(1, x)] }

theorem witness_MeridianCopies :
    (∀ d < 4, (epochAt {}).now % 1024 = 0 ∧ (epochAt {}).epochCut d = false ∧ d < (epochAt {}).pkg.member.dies) ∧
    ({ epochAt {} with links := [(linkKey 0 1, { down := true }), (linkKey 1 3, { down := true }), (linkKey 2 3, { down := true }),
      (linkKey 0 2, { down := true })] } : State).epochCut 3 = true ∧
    (((epochAt { pending := some 4096 }).die 1).pending = some 4096 ∧ (4096 : Time).toNat ≤ (epochAt {}).now) ∧
    (((epochAt { copy := { valid := true, skew := -3 } }).die 1).pending = none) ∧
    (((epochAt { reloadAt := some 6144 }).die 1).reloadAt = some 6144 ∧ ((epochAt {}).die 1).copy.valid = false ∧
      (epochAt {}).now < (6144 : Time).toNat ∧ (6144 : Time).toNat % 1024 = 0) ∧
    (let s := epochAt {}
     (s.sendUrg 1 (crossing s.pkg.member s.homeDie 1)).isSome = true ∧
     (({ s with links := [(linkKey 0 1, { urg := 0 })] } : State).sendUrg 1 (crossing s.pkg.member s.homeDie 1)).isNone = true) ∧
    ((epochAt { pllLocked := false }).die 1).pllLocked = false ∧ ((epochAt { relockWait := true }).die 1).relockWait = true ∧
    (pkg { meridian := BitVec.allOnes 64 }).pkg.meridian = BitVec.allOnes 64 := by
  decide

theorem witness_LinksAndPulses :
    12 ≤ (up.meter (linkKey 0 1)).urg ∧ (({ up with links := [(linkKey 0 1, { urg := 3 })] } : State).meter (linkKey 0 1)).urg < 4 ∧
    (0, 1) ∈ allLinks Member.za0400 ∧ (({ up with links := [(linkKey 0 1, { retraining := true })] } : State).link 0 1).retraining = true ∧
    linkKey 1 0 ≠ linkKey 0 1 ∧ (0 : Nat) ∈ ({ up with xtrig := [0] } : State).xtrig ∧ up.chains = [] ∧ up.server 0 = some 0 := by
  decide

theorem witness_PostsSleepAndRestart :
    up.pkg.bothDead = false ∧
    Claims.Platform up ctx1 ∧ ((up.post 0).health = Health.ok ∧ up.postInUse 0 = false) ∧
    ((at_ [(0, { health := Health.gated })]).post 0).health = Health.gated ∧
    (((at_ [(0, { health := Health.lost })]).post 0).health = Health.lost) ∧
    (((at_ []).post 7).health = Health.waking ∧ 7 ≤ (at_ []).pkg.bootStep ∧ (at_ []).isHeld (halfUno 7) = false) ∧
    (((at_ [(0, { health := Health.restarting, restored := true })]).post 0).restored = true) ∧
    ((at_ [(0, { health := Health.restarting })]).post 0).restored = false := by
  unfold Claims.Platform Claims.Heard; decide +kernel

theorem witness_PostsSleepAndRestart_held :
    ({ up with host := { waiting := [Instr.setLoad ctx1 0 []] } } : State).host.waiting[0]? = some (.setLoad ctx1 0 []) ∧
    (heldCtx (.setLoad ctx1 0 [])).isSome = true ∧ up.host.waiting[0]? = none := ⟨rfl, rfl, rfl⟩

theorem witness_CompassPair :
    up.paired = true ∧ ({ up with pair := { missB := 7, probeA := true } } : State).paired = true ∧
    (let s : State := { up with pair := { probeA := true } }; (if s.pkg.activeB then s.pair.probeA else s.pair.probeB) = false) ∧
    (let s : State := { up with pair := { probeB := true } }; (if s.pkg.activeB then s.pair.probeA else s.pair.probeB) = true) ∧
    (let s : State := { up with pkg := { up.pkg with standbyOk := false }, pair := { takeoverT := 9 } }
     s.pkg.standbyOk = false ∧ s.pair.takeoverT ≠ 0 ∧ kindOf s.pkg.member 0x8000 = .cnet ∧ kindOf s.pkg.member 0x3000 = .hostIf ∧
     (kindOf s.pkg.member 0x200 = .half ∧ s.postRuns 0 = true) ∧ kindOf s.pkg.member s.standbyDie = .die) := by
  decide

theorem witness_PostHeartbeatsAndAdoption :
    (up.postRuns 0 = true ∧ up.pkg.bothDead = false ∧ (up.post 0).lone = false) ∧
    (let s : State := { up with pkg := { up.pkg with meridian := 40000 } }
     (s.post 0).hbT.toNat + 30000 ≤ s.now ∧ (s.post 0).ackT.toNat + 40000 ≤ s.now) ∧
    ((at_ [(0, { health := 1, hbOut := true })]).post 0).hbOut = true ∧ ((at_ [(0, { health := 1, ackDue := true })]).post 0).ackDue = true ∧
    (let s := at_ [(0, { health := Health.lost, adoptWanted := true }), (1, { health := 1 })]
     (s.post 0).health = Health.lost ∧ s.postRuns (0 ^^^ 1) = true) ∧
    (let s := at_ [(0, { health := Health.adopted, rehomed := true }), (1, { health := 1, adopting := true })]
     (s.post 0).rehomed = true ∧ s.partsEnded 0 = true) ∧
    (up.sendUrg 1 (crossing up.pkg.member (2 / 2) up.homeDie)).isSome = true ∧
    (up.sendUrg 1 (crossing up.pkg.member up.homeDie (2 / 2))).isSome = true := by
  decide +kernel

/-! ### Witnesses: halt operations (O24 to O29) -/

/-- Post 0 runs, core 0x10000 and the HOP stand as given. -/
def halting (c : Core) (h : Hop) : State := { up with cores := [(0x10000, c)], hops := [(1, some h)], hopNext := 2 }

theorem witness_HopCommands :
    Claims.Heard up ctx1 ∧
    (let q (k : HopKind) (i : Bool) (v : Uno) (p : Word) : HopReq := Claims.request ctx1 k i v p
     up.hopCheck none (q .halt true 0x10000 0) = none ∧ up.hopCheck none (q .halt false 0x10000 128) = none ∧
     up.hopCheck none (q .step false 0x10000 0x1000000000000) = some Status.notHalted ∧
     ({ up with cores := [(0x10000, { run := .stopped, halted := true, holdC := true })] } : State).hopCheck none
       (q .step false 0x10000 0x1000000000000) = none ∧ up.hopCheck none (q .resume false 0x10000 0) = none ∧
     up.hopCheck none (q .freeze false 0x10000 0x4000000) = none ∧ up.hopCheck none (q .thaw false 0x10000 0x4000000) = none) := by
  unfold Claims.Heard; decide +kernel

theorem witness_HaltAtTheTap :
    (let s := halting {} (hop0 .halt)
     s.copyNow 0x10000 = some 5000 ∧ s.pkg.bothDead = false ∧ s.hop 1 = some (hop0 .halt) ∧ 0x10000 ∈ (hop0 .halt).cores ∧ ((hop0 .halt).at 0x10000).phase = 0 ∧
     s.present 0x10000 = true ∧ s.reached (hop0 .halt) 0x10000 = [0x10000] ∧ 5000 + 2 < (hop0 .halt).t.toNat ∧
     (s.core 0x10000).preciseFor (hop0 .halt) = false ∧ (s.core 0x10000).absorbed = [] ∧
     (s.sendUrg 2 (s.hopLinks (hop0 .halt) 0x10000)).isSome = true) ∧
    (let s := halting { queue := [{ hop := 1, kind := .halt, t := 5002 }] } { hop0 .halt with t := 5002 }
     (s.core 0x10000).queue = [{ hop := 1, kind := .halt, t := 5002 }] ∧ (5002 : Time).toNat ≤ 5000 + 2 ∧ (s.copy 0x10000).oob = false) ∧
    (let h := { hop0 .halt with mode := .lattice, origin := .chain 0 0 }
     let s : State := { halting { lmask := 1 } h with
       places := [(0, some { set := 1, elem := 0 })]
       sets := [(1, some { scope := 0x100, ctx := 0, ctxAny := true, platform := true, job := none, lead := 0, deadline := 0, elems := [], owner := 1
                           lane := some 0, state := 2, tArm := 0 })] }
     s.laneHop h 0 = true ∧ (s.core 0x10000).lmask.getLsbD 0 = true ∧ dieOf s.pkg.member 0x10000 = some 0 ∧
     s.hops = [(1, some h)]) ∧
    (kindOf up.pkg.member 0x10000 = .core ∧ (up.core 0x10000).asleep = false) ∧
    ({ asleep := true } : Core).free = true ∧ ({ asleep := true, holdC := true } : Core).free = false := by
  decide +kernel

theorem witness_ClassFreezeAndThaw :
    ∀ k ∈ [HopKind.halt, .freeze, .thaw],
      (let h : Hop := { hop0 k with t := 5000, heard := [0x1000], iwait := [0x1000] }
       (halting {} h).hop 1 = some h ∧ (halting {} h).classDue 1 h 0x1000 = true ∧ (halting {} h).actedBy h 0x1000 = [0x1000]) ∧
      (let h : Hop := { hop0 k with t := 5000, heard := [0x10000] }
       let o : TimedOp := { hop := 1, kind := k, t := 5000 }
       let s := halting { queue := [o] } h
       s.classDue 1 h 0x10000 = true ∧ s.reached h 0x10000 = [0x10000] ∧ (s.core 0x10000).queue = [o] ∧ o.hop = 1) := by
  decide +kernel

theorem witness_RoutersAndBoundaries :
    (let s : State := { up with bounds := [(boundKey 0x8000 0x1000, { holding := true })] }
     (s.bound (boundKey 0x8000 ((clusterOf s.pkg.member 0x10000).getD 0))).holding = true) ∧
    (let s := halting { run := .stopped, stops := [1] } { hop0 .halt with scope := 0x1000, codes := [(0x10000, { code := 0, phase := 3 })] }
     portCore s.pkg.member 0x8000 0 = some 0x10000 ∧ s.parks 0x10000 = true ∧ coreOf s.pkg.member 0x10000 = some 0x10000 ∧
     (s.rport 0x8000 0).margin.length < 64) ∧
    (let s := halting {} { hop0 .halt with scope := 0x1000, t := 5000 }
     kindOf s.pkg.member 0x8000 = .cnet ∧ s.present 0x8000 = true ∧ kindOf s.pkg.member 0x1000 = .cluster ∧ s.inScope 0x1000 0x1000 = true ∧
     s.reachedTime 0x8000 5000 = true ∧ (s.bound (boundKey 0x8000 0x1000)).holding = false) ∧
    (let s : State := { halting {} { hop0 .resume with scope := 0x1000 } with bounds := [(boundKey 0x8000 0x1000, { holding := true })] }
     ∀ k ∈ s.clusterCores 0x1000, (s.core k).run = .running ∧ ∀ y ∈ corePorts s.pkg.member k, s.rport y.1 y.2 = {}) := by
  decide +kernel

theorem witness_SettleStepResume :
    (let s := halting { run := .stopped, settled := false, queue := [{ hop := 1, kind := .step, t := 5002 }] } { hop0 .step with t := 5002 }
     (s.core 0x10000).settled = false ∧ s.dueOp 0x10000 1 = some { hop := 1, kind := .step, t := 5002 } ∧ (s.core 0x10000).holdP = false) ∧
    ((halting { run := .stepping 1 } (hop0 .step)).core 0x10000).run = .stepping 1 ∧ 5000 < (hop0 .step).t.toNat + stepTime 1 ∧
    ({ hop0 .step with t := 4000 } : Hop).t.toNat + stepTime 1 ≤ 5000 ∧
    (let s := halting { run := .stopped, queue := [{ hop := 1, kind := .resume, t := 5002 }] } { hop0 .resume with t := 5002 }
     s.stageDue 5002 3 = true ∧ s.stageDue 5002 0 = true ∧ s.dueOp 0x10000 1 = some { hop := 1, kind := .resume, t := 5002 }) := by
  decide +kernel

theorem witness_HopCompletion :
    up.pkg.bothDead = false ∧
    let h := { hop0 .halt with origin := .command 1 0 (some 1), codes := [(0x10000, { code := 0, phase := 3 })] }
    (halting {} h).hop 1 = some h ∧ (halting {} h).reached h 0x10000 = [0x10000] ∧ (h.at 0x10000).phase = 3 ∧
    (h.at 0x10000).own = none ∧
    ({ h with deadline := 0, t := 5000 } : Hop).deadlineFrom + 1000 * 0 ≤ (halting {} h).now := by
  decide +kernel

/-! ### Witnesses: break and watch (O30 to O32) -/

/-- A trigger set record of one element, in scope half 0x200. -/
def setRec (kind : Nat) (ws : List Nat) : List Byte :=
  let a := leBytes 4 0x53475254 ++ leBytes 2 1 ++ [1, 0] ++ leBytes 4 0x200 ++ leBytes 2 0 ++ leBytes 2 1 ++ leBytes 2 0xFFFF ++ leBytes 10 0 ++
    List.replicate 32 0
  let e := leBytes 4 kind ++ leBytes 4 0x10000 ++ ws.flatMap (leBytes 8)
  a ++ leBytes 4 (crc32c (a ++ e)).toNat ++ e

/-- A set that stands in slot 1. -/
def aSet (st : Nat) (es : List Elem) : TrigSet :=
  { scope := 0x200, ctx := 0, ctxAny := true, platform := true, job := none, lead := 0, deadline := 0, elems := es, owner := 1, lane := none
    state := st, tArm := 4000 }

/-- `up` with set 1 and one comparator, counter and chain of it at core 0x10000. -/
def armed (st : Nat) (cmp : Cmp) (cnt : Cnt) (ch : Chain) : State := { up with
  sets := [(1, some (aSet st []))]
  cmps := [(cmpKey 0x10000 0, { cmp with owner := some 1 }), (cmpKey 0x10000 4, { cmp with owner := some 1 })]
  cnts := [(cmpKey 0x10000 0, { cnt with owner := some 1 })]
  chains := [(0x10000 * 16, { ch with owner := some 1 })] }

set_option maxRecDepth 20000 in
theorem witness_TriggerSets :
    (Claims.Heard up ctx1 ∧
      firstFail ([(decide (1 < 1024), Status.cmdFormat), (up.holdRoom 1 ObjKind.set 1, Status.holdFull)] ++
        up.setChecks ctx1 1 [] (setOf 1 true [] 0)) ≠ none) ∧
    (let arg := setRec 1 [0x1000, 0x1FFC, 1, 0, 0]
     let x0 := setOf 1 (up.setPlatform (some 1) 0) arg (word (5000 + up.defLead none))
     firstFail ([(decide (1 < 1024), Status.cmdFormat), (up.holdRoom 1 ObjKind.set 1, Status.holdFull)] ++ up.setChecks ctx1 1 arg x0) = none ∧
     (up.setWakePosts x0).all (fun p => !up.postAsleep p) = true ∧ firstFail (up.setChecks2 x0) = none) ∧
    (let s := armed 1 {} {} {}; s.trigSet 1 = some (aSet 1 []) ∧ (4000 : Time).toNat ≤ s.now ∧ Tbl.wf {} s.cmps = true ∧ Tbl.wf {} s.chains = true) ∧
    (let s := armed 5 {} {} {}; s.trigSet 1 = some (aSet 5 []) ∧ s.host.refs = [] ∧ s.pkg.bothDead = false) := by
  unfold Claims.Heard; decide +kernel

theorem witness_MatchesAndCounters :
    (up.present 0x10000 = true ∧ (armed 2 {} {} {}).mayCount (some 1) (cmpKey 0x10000 0) = true ∧
      up.mayCount (some 1) (cmpKey 0x10000 0) = false ∧ up.barGone .bar = false ∧
      ((halfOf up.pkg.member 0x10000).bind up.server).isSome = true ∧
      ((halfOf (at_ []).pkg.member 0x10000).bind (at_ []).server).isSome = false) ∧
    up.executes 0x10000 = true ∧ up.chains = [] ∧
    (let s := armed 2 { lo := 0x1000, hi := 0x1FFC, ctl := 0x201 } { ctl := 0x201 } {}
     let c := s.cmp (cmpKey 0x10000 0)
     s.acts c.ctl.toNat 0x10000 = true ∧ tgOk c.ctl.toNat 0 = true ∧ ctlInv c.ctl.toNat = false ∧
     c.lo.toNat / 4 ≤ bitsOf 0x1FFC 2 46 ∧ bitsOf 0x1FFC 2 46 ≤ c.hi.toNat / 4 ∧ bitsOf 0xFFC 2 46 < c.lo.toNat / 4 ∧
     s.acts (s.cnt (cmpKey 0x10000 0)).ctl.toNat 0x10000 = true ∧ cntEvsel (s.cnt (cmpKey 0x10000 0)).ctl.toNat ≤ 6) := by
  decide +kernel

theorem witness_Chains :
    (let ch : Chain := { stages := [0, 1, 0, 0], act := 0x2406, state := 2 }
     let s : State := { up with
       sets := [(1, some (aSet 2 []))], cmps := [(cmpKey 0x1000 8, { lo := 0, hi := 0x1FFC, ctl := 0x201, owner := some 1 })]
       chains := [(0x1000 * 16, { ch with owner := some 1 })] }
     kindOf s.pkg.member 0x1000 = .cluster ∧ s.present 0x1000 = true ∧ s.acts 0x201 0x1000 = true ∧
     s.scmpHit 0x1000 (s.cmp (cmpKey 0x1000 8)) (.issue 0 0 0x1000) = some 0x10000 ∧
     (∀ j, j < 4 → j ≠ 0 → (s.chain (0x1000 * 16 + j)).owner = none) ∧ (s.chain (0x1000 * 16)).watching = true ∧
     stageSrc (s.chain (0x1000 * 16)).stageWord = 0 ∧ s.cntCond 0x1000 (s.chain (0x1000 * 16)) 1 = true ∧
     (s.chain (0x1000 * 16)).stage + 1 ≠ actStages (s.chain (0x1000 * 16)).act.toNat) ∧
    (let ch : Chain := { stages := [20, 0x10015, 0, 0], act := 0x2406, state := 2, stage := 1, metT := some (4990, 0), owner := some 1 }
     let s : State := { up with sets := [(1, some (aSet 2 []))], chains := [(0x200 * 16, ch)] }
     holderUnit (.post 0) = (0x200, 16) ∧ ([0x201, 0x200].filter (s.arrives (.post 0) 1 21)).min? = some 0x200 ∧ (s.chain (0x200 * 16)).watching = true ∧
     stageSrc ch.stageWord = 21 ∧ ch.metT ≠ some (s.pkg.meridian, 0) ∧ s.cntCond 0x200 ch 1 = true ∧ ch.stage + 1 = actStages ch.act.toNat ∧
     actAction ch.act.toNat = 6 ∧ actRearm ch.act.toNat = true ∧ s.trigSet 1 = some (aSet 2 []) ∧ postOf s.pkg.member 0x200 = some 0 ∧
     stageWindow ch.stageWord ≠ 0) := by
  decide +kernel

/-! ### Witnesses: folios and cartouches (O33 to O39) -/

/-- A dump plan without entries, in scope core 0x10000. -/
def plan0 : List Byte :=
  let a := leBytes 4 0x4E4C5046 ++ leBytes 2 1 ++ leBytes 8 0 ++ leBytes 2 0xFFFF ++ leBytes 4 0x10000 ++ leBytes 40 0
  a ++ leBytes 4 (crc32c a).toNat

/-- `up` with a reserve on die 0 and the job in slot 0. -/
def folio (j : Job) : State := { up with folios := { jobs := [(0, some j)], reserve := [(0, 0x10000000)] } }

/-- A part of the lead post 0. -/
def part0 (st : Nat) : Part := { post := 0, state := st, lead := true, start64k := 0, res64k := 100 }

/-- One segment of a core's state. -/
def seg0 : Seg := { uno := 0x10000, space := 0, part := 0, off := 0, len := 4096, firstBlock := 0, blocks := 1 }

theorem witness_JobsCreateAndStart :
    (firstFail ([(decide (0 < 64), Status.cmdFormat), (up.holdRoom 1 ObjKind.job 0, Status.holdFull)] ++ up.planChecks ctx1.who 0 []) =
      some Status.planFormat) ∧
    (let s : State := { up with folios := { reserve := [(0, 0x10000000)] } }
     Claims.Heard s ctx1 ∧ firstFail ([(decide (0 < 64), Status.cmdFormat), (s.holdRoom 1 ObjKind.job 0, Status.holdFull)] ++
       s.planChecks ctx1.who 0 plan0) = none ∧
     s.planSleeping plan0 = [] ∧ firstFail (s.planChecks2 plan0 none) = none) ∧
    (let s : State := { folio (job0 .created) with cores := [(0x10000, { run := .stopped, halted := true })] }
     s.job 0 = some (job0 .created) ∧ s.mayFolio ctx1.who 0 = true ∧ s.pkg.pwrWarn = false ∧ s.haltedUnit 0x10000 = true) ∧
    (let s := folio { job0 .capturing with parts := [part0 2] }
     s.folios.jobs = [(0, some { job0 .capturing with parts := [part0 2] })] ∧ (part0 2).post = 0 ∧ (part0 2).state = 2) := by
  unfold Claims.Heard; decide +kernel

theorem witness_CaptureAndEnd :
    (let j := { job0 .capturing with parts := [part0 3], segs := [seg0], planned := 1, fendBegun := true }
     let s : State := { folio j with cores := [(0x10000, { run := .stopped, cutCode := 0 })] }
     s.job 0 = some j ∧ j.running = true ∧ j.partAt 0 = some 0 ∧ j.parts[0]? = some (part0 3) ∧ (s.server 0).isSome = true ∧
     j.segs[0]? = some seg0 ∧ j.curSeg 0 = some 0 ∧ s.notHaltedAt j seg0 = false ∧ s.deniedAt j seg0 = false ∧ j.refJob = none ∧
     ({ s with cores := [] } : State).notHaltedAt j seg0 = true ∧
     (slice (List.replicate 4096 0) 0 4096).any (fun v => v != 0) = false ∧ (slice [1] 0 4096).any (fun v => v != 0) = true) ∧
    (let j := { job0 .ending with parts := [part0 4], segs := [{ seg0 with captured := true, done := 4096 }], planned := 1, fendBegun := true }
     j.running = true ∧ j.curSeg 0 = none ∧ 0 + 65536 ≤ ({ part0 4 with bytes := 65536 } : Part).bytes) ∧
    (let j := { job0 .ending with parts := [part0 5, part0 6], fendBegun := true }
     j.parts.all (fun y => y.state == 5 || y.state == 6) = true ∧ ((folio j).server j.leadPost).isSome = true ∧ (folio j).host.refs = []) := by
  decide +kernel

/-- An export of the job in slot 0. -/
def export0 : Export :=
  { job := some 0, stream := 0, post := 0, consume := false, render := false, toPort := false, session := 1, tag := 0, queue := some 1, off := 0, len := 64 }

theorem witness_FolioExports :
    up.pkg.bothDead = false ∧
    (let s := folio { job0 .complete with total := 64 }
     Claims.Heard s ctx1 ∧ 64 ≤ ctx1.resLen ∧ s.taken 128 = false ∧ s.mayExport ctx1.who (job0 .complete) false = true ∧ (job0 .complete).ended = true ∧
     s.folios.exports = [] ∧ 0 + 64 ≤ ({ job0 .complete with total := 64 } : Job).total) ∧
    (let s : State := { up with folios := { jobs := [(0, some (job0 .complete))], exports := [export0] } }
     s.folios.exports[0]? = some export0 ∧ s.exportAllowed export0 = true ∧ s.pkg.busMaster = true ∧ export0.moved < export0.len) ∧
    (let s : State := { up with folios := { exports := [export0] } }; s.exportAllowed export0 = false) ∧
    (let s : State := { up with pkg := { up.pkg with meridian := 1000005000 } }; (5000 : Time).toNat + 1000000000 ≤ s.now) ∧
    ({ export0 with moved := 64 } : Export).len ≤ 64 := by
  unfold Claims.Heard; decide +kernel

theorem witness_PowerWarning :
    up.pkg.pwrWarn = false ∧ up.host.refs = [] ∧ Tbl.wf none (folio (job0 .capturing)).folios.jobs = true ∧
    (folio (job0 .capturing)).job 0 = some (job0 .capturing) ∧ (job0 .capturing).running = true := by
  decide +kernel

/-- A record, by hash. -/
def rec0 (h : BitVec 32) : Rec :=
  { cls := Class.coreExc, sat := false, spanSat := false, lone := false, spanE := 0, spanM := 0, code := 1, hash := h, count := 1, first := 0x10000
    last := 0x10000, firstT := 5000, dies := 1, ctx := 0 }

theorem witness_CartoucheReports :
    (kindOf up.pkg.member 0x10000 = .core ∧ parentOf up.pkg.member 0x10000 = 0x1000 ∧ kindOf up.pkg.member 0x1000 = .cluster ∧
      up.present 0x10000 = true) ∧
    (let r := up.formRec 0x10000 0x1000 Class.coreExc 1 (List.replicate 8 0) 0
     (up.point 0x1000).held.any (sameSignature r) = false ∧ (up.point 0x1000).held.length < 4 ∧ sameSignature r r = true ∧
     ([rec0 1, rec0 2, rec0 3, rec0 4].any (sameSignature r) = false)) := by
  decide +kernel

theorem witness_CartouchePath :
    (let s : State := { up with cart := { wire := [(0x8001, rec0 1)] } }
     kindOf s.pkg.member 0x8000 = .cnet ∧
     s.cart.wire.find? (fun x => x.2 == rec0 1 && s.cart.atHead x && s.onWay x.1 0x8000) = some (0x8001, rec0 1) ∧
     dieOf s.pkg.member 0x8001 = dieOf s.pkg.member 0x8000 ∧
     s.cart.wire.find? (fun x => x.2 == rec0 1 && s.cart.atHead x && dieOf s.pkg.member x.1 == some s.homeDie) = some (0x8001, rec0 1) ∧
     s.mergeTable 0x8000 = [] ∧
     s.now ≤ fullTime s.now (rec0 1).firstT + 4 * s.mergeWindow ∧ s.cart.intake.length < 64) ∧
    (let s : State := { up with cart := { wire := [(0x8001, rec0 1)], tables := [(0x8000, [{ r := rec0 1, close := 5000 }])] } }
     s.mergeTable 0x8000 = [{ r := rec0 1, close := 5000 }] ∧ sameSignature (rec0 1) (rec0 1) = true ∧ (5000 : Time).toNat ≤ s.now ∧
     s.loneRoute 0x8000 = none ∧ s.stagingFree 0x8000 = true ∧ 12 ≤ (s.meter 0x8000).urg ∧
     (({ s with links := [(0x8000, { urg := 11 })] } : State).meter 0x8000).urg < 12 ∧
     ({ s with cart := { wire := List.replicate 4 (0x8000, rec0 1) } } : State).stagingFree 0x8000 = false) ∧
    (let s : State := { up with cart := { intake := [rec0 1] } }
     s.cart.intake = rec0 1 :: [] ∧ s.cart.unread < 4095 ∧ s.cart.intakeAcc = none ∧ s.faultnClass 10 = true) := by
  decide +kernel

theorem witness_CollectorReadOut :
    (let s : State := { up with cart := { ring := [{ seq := 0, r := rec0 1, isOpen := false }], head := 1, lost := [(5, true)] } }
     s.barGone .bar = false ∧ s.hasPlatform (s.actor .bar) = true ∧ (0 : BitVec 32) = s.cart.tail ∧ 0 < s.cart.unread ∧
     Tbl.wf false s.cart.lost = true ∧ s.seesLost (s.actor .bar) 5 = true) ∧
    (1 : BitVec 32) ≠ up.cart.tail ∧ up.cart.unread = 0 ∧
    (let s : State := { up with life := { decided := true, state := .production } }; s.hasPlatform (s.actor .bar) = false) := by
  decide +kernel

/-! ### Witnesses: watch, deadlines, trace (O40 to O45) -/

/-- `up` with a partition of context 5 over cluster 0x1000. -/
def part5 : State := { up with groups := [(0xF00000, some { members := [(0x1000, 1)], ctx := 5, level := 4, partition := true, freezeSet := 0 })] }

/-- As `part5` at 1 ms, with an armed watch of context 5. -/
def watching (w : Watch) : State := { part5 with
  pkg := { part5.pkg with meridian := 1000000 }, watch := { w with policies := [(10, { set := true, cycleEn := true })] } }

theorem witness_WaitsAndProducers :
    (kindOf up.pkg.member 0x400000 = .tg ∧ kindOf up.pkg.member 0xC00000 = .obj ∧ up.present 0xC00000 = true) ∧
    up.present (parentOf up.pkg.member 0x400000) = true ∧ up.executes (parentOf up.pkg.member 0x400000) = true ∧
    (up.present 0x400000 = true ∧ (up.syncObj 0xC00000).producers.length < 8 ∧ up.bankProducers 0 < 4096 ∧
      postOf up.pkg.member 0x400000 ≠ postOf up.pkg.member (0xC00000 + 1024)) ∧
    8 ≤ (({ up with watch := { objs := [(0xC00000, { producers := rangeFrom 0x400001 8 })] } } : State).syncObj 0xC00000).producers.length := by
  decide +kernel

/-- The sample of half 0 with one closed cycle. -/
def cycle0 : Watcher :=
  { newEntries := [{ uno := 0xC00000, flags := 1, waiters := 1, producers := 1, ctx := 5, prods := [0x400000] }]
    newGroups := [(0x400000, { obj := some 0xC00000, gen := 1, producer := true })] }

theorem witness_SnapshotsAndJudgement :
    (let s := watching {}
     s.now % s.snapInterval = 0 ∧ s.watcherArmed 0 = true ∧ s.watch.joining = none ∧ (s.server 0).isSome = true) ∧
    (let s := watching { joining := some 999000 }; s.watch.joining = some 999000 ∧ (999000 : Time) ≠ s.pkg.meridian) ∧
    (let s := watching { watchers := [(0, { sampling := some 7 })] }; s.server 0 = some 0 ∧ (s.watcher 0).sampling = some 7) ∧
    (let s := watching { joining := some 999000, watchers := [(0, cycle0)], prevWaits := [(0x400000, 1)] }
     let xs := s.closedSet s.joined 5
     (∀ e ∈ s.watch.watchers, e.2.sampling = none) ∧ s.watched = [5] ∧ (s.partOfCtx 5).isSome = true ∧
     (s.ctxPosts 5).any (fun k => (s.watcher k).bad) = false ∧ s.watch.barred.contains 5 = false ∧ (s.policy 5 0).cycleEn = true ∧
     (s.policy 5 0).quiescEn = false ∧ (s.policy 5 1).quiescEn = false ∧ xs ≠ [] ∧ (s.deadlock 5).state = 0 ∧
     s.confirms (s.joined.cycleGroups xs) xs = true) ∧
    (let s := watching { joining := some 999000, records := [(5, { state := 1, sCycle := true })] }
     (s.deadlock 5).state = 1 ∧ (s.deadlock 5).sCycle = true ∧ s.closedSet s.joined 5 = []) := by
  decide +kernel

theorem witness_PoliciesAndDeadlines :
    up.pkg.bothDead = false ∧
    (Claims.Heard part5 ctx1 ∧ firstFail (part5.policyChecks ctx1.who 5 0 true 1 0 0xFF) = none ∧
      (part5.ctxPosts 5).all (fun k => !part5.postAsleep k) = true ∧ firstFail (part5.policyChecks2 5 0 true 1 0 0xFF) = none ∧
      (part5.policy 5 0).job = none ∧ part5.host.refs = []) ∧
    (let h : PolHalt := { ctx := 5, row := 0, issuer := 128, folio := false }
     (watching { halts := [h] }).watch.halts[0]? = some h ∧ part5.hopsPending (issuerOf 128) < 16 ∧
     ((watching { halts := [h] }).post h.issuer).lone = false) ∧
    (let s : State := { part5 with watch := { objs := [(0xC00000, { ctx := 5 })] } }
     Claims.Platform s ctx1 ∧ s.present 0xC00000 = true ∧ s.ctxOf 0xC00000 = 5 ∧ s.mayDeadline ctx1.who 5 0 = true ∧
     s.now + 1000 < (6001 : Time).toNat ∧ s.armedDeadline 5 0 7 = none ∧ s.bankAsleep 0 = false ∧ s.freeDeadline 0 = some 0) ∧
    (let d : Deadline := { state := 1, jobId := 7, row := 0, ctx := 5, obj := 3, target := 9, t := 5000, session := 1 }
     let s : State := { part5 with watch := { deadlines := [(0, d)] } }
     s.armedDeadline 5 0 7 = some (64 * 0 + 0) ∧ (s.deadline 0 0).state = 1 ∧ s.present (objUno 0 3) = true ∧
     (s.inst 4 (objUno 0 3)).any = false ∧ (s.inst 6 (objUno 0 3)).any = false ∧ postOf s.pkg.member (objUno 0 3) = some 0 ∧
     s.copyNow 0x3300 = some 5000 ∧ 5000 ≤ d.t.toNat ∧ (4999 : Time).toNat < 5000) := by
  unfold Claims.Platform Claims.Heard; decide +kernel

/-- A stream of every context over half 0. -/
def stream0 : Stream := { overwrite := false, anyCtx := true, serial := false, scope := 0x200, ctx := 0, pages := 2, channels := 8, owner := 1 }

/-- A packet of channel 3 from core 0x10000. -/
def packet0 : Packet := { type := .data, t := 4000, ctx := 0, uno := 0x10000, chan := 3, size := 3, data := 9 }

/-- `up` with stream 0 and its part on post 0. -/
def streaming (x : Stream) (t : TPart) : State := ({ up with trace := { streams := [(0, some x)], funnels := [(0, [packet0])] } } : State).setTpart 0 0 t

theorem witness_InkwellStores :
    (kindOf up.pkg.member 0x400000 = .tg ∧ kindOf up.pkg.member (parentOf up.pkg.member 0x400000) = .core ∧
      up.executes (parentOf up.pkg.member 0x400000) = true ∧ up.copyNow (parentOf up.pkg.member 0x400000) = some 5000) ∧
    (let a : InkStore := ⟨1, 496, 8, 7⟩
     let b : InkStore := ⟨4, 16, 4, 9⟩
     let c : InkStore := ⟨0, 512, 8, 3⟩
     (∀ y ∈ [b, c, a], y.off < 512 → y ≠ a → a.lane < y.lane) ∧ a.off < 512 ∧ a.off % 16 = 0 ∧ a.width ∈ [1, 2, 4, 8] ∧ 500 % 16 ≠ 0 ∧
     (∀ y ∈ [c], 512 ≤ y.off) ∧ (up.tapQ 0x10000).queue.length < 4 ∧ (up.inst 5 0x10000).any = false ∧
     (({ up with insts := [(5 * 0x1000000 + 0x10000, { platform := true })] } : State).inst 5 0x10000).any = true ∧
     4 ≤ (({ up with trace := { taps := [(0x10000, { queue := List.replicate 4 packet0 })] } } : State).tapQ 0x10000).queue.length) ∧
    (let s : State := { up with trace := { stations := [(0x1000, { drops := { count := 3 } })] } }
     kindOf s.pkg.member 0x1000 = .cluster ∧ (s.stationDrops 0x1000).count ≠ 0 ∧ (s.station 0x1000).lastReport = none ∧
     (s.server ((postOf s.pkg.member 0x1000).getD 0)).isSome = true) := by
  decide +kernel

theorem witness_TraceParts :
    (let s := streaming stream0 { state := 2, base := 4000, startT := 3000 }
     s.postRuns 0 = true ∧ s.funnel 0 = packet0 :: [] ∧ s.trace.stations = [] ∧ s.trace.streams = [(0, some stream0)] ∧
     postOf s.pkg.member packet0.uno = some 0 ∧ s.takes stream0 packet0 = true ∧ (s.tpart 0 0).state = 2 ∧ (s.tpart 0 0).lossCount = 0 ∧
     (s.tpart 0 0).unknown = false ∧ (s.tpart 0 0).startT.toNat ≤ packet0.t.toNat) ∧
    (let s := streaming stream0 { state := 2, lossCount := 3, lossT := some 4000 }
     s.stream 0 = some stream0 ∧ (s.tpart 0 0).lossCount ≠ 0 ∧ (s.tpart 0 0).lossT = some 4000 ∧ (4000 : Time).toNat + 1000 ≤ s.now ∧
     s.now - 0 ≤ 16383) ∧
    (let s := streaming stream0 { state := 2, words := [1] }; (s.tpart 0 0).wrOff < (s.tpart 0 0).words.length * 8 ∧ (s.server 0).isSome = true) ∧
    (let s : State := { up with port := { func := 2 }, trace := { serial := { queue := [(true, 9)] } } }
     s.port.func = 2 ∧ s.trace.serial.queue = (true, 9) :: [] ∧ s.trace.serial.freeT.toNat + 80 * s.bitPeriod ≤ s.now + 80 * s.bitPeriod ∧
     s.trace.serial.freeT.toNat + 0 ≤ s.now ∧ s.pkg.bothDead = false ∧ s.now < ({ freeT := 5001 } : Serial).freeT.toNat) := by
  decide +kernel

/-- A stream record for half 0. -/
def streamRec : List Byte :=
  let a := leBytes 4 0x53435254 ++ leBytes 2 1 ++ leBytes 2 0 ++ leBytes 4 0x200 ++ leBytes 2 0 ++ leBytes 2 2 ++ leBytes 4 8 ++ leBytes 8 0
  a ++ leBytes 4 (crc32c a).toNat

theorem witness_Streams :
    (let y := streamOf 1 streamRec
     Claims.Platform up ctx1 ∧ up.holdRoom 1 ObjKind.stream 0 = true ∧ up.stream 0 = none ∧ streamLegal streamRec = true ∧
     up.present y.scope = true ∧ y.ctx = 0 ∧ y.anyCtx = false ∧ y.serial = false ∧ up.noneGated (up.streamPosts y.scope) = true ∧
     up.noneUnserved (up.streamPosts y.scope) = true ∧ up.capableRun y.scope 8 = true ∧
     ((up.streamPosts y.scope).all fun q => decide (up.partsOf q < 32)) = true ∧
     ((up.streamPosts y.scope).all fun q => decide (y.pages ≤ up.freePages q)) = true ∧ (up.streamPosts y.scope) = [0]) ∧
    (let s := streaming stream0 { state := 2, unread := 1 }
     4096 * 1 ≤ ({ ctx1 with resLen := 4096 } : CmdCtx).resLen ∧ 0 < s.pkg.member.posts ∧ s.taken 128 = false ∧ (s.tpart 0 0).state ≠ 0 ∧ stream0.ending = 0 ∧ s.mayStream ctx1.who stream0 = true ∧ s.folios.exports = [] ∧
     1 ≤ (s.tpart 0 0).unread ∧ s.mayStream (s.actor .bar) stream0 = true ∧ (s.tpart 0 0).state ≠ 0 ∧
     s.regBits RegMap.svpItSel (portKey .bar (postWindow 0 + 0x30108)) 0 9 = 0) ∧
    (streaming { stream0 with ending := 1 } {}).stream 0 = some { stream0 with ending := 1 } := by
  unfold Claims.Platform Claims.Heard; decide +kernel

/-! ### Witnesses: ports, sessions, lifecycle, updates, host (O46 to O55) -/

/-- A packet's header and its words with the trailer; its frame on the one-wire line. -/
def header (ty len seq : Nat) : Word := word (len * 2 ^ 16 + seq * 2 ^ 32 + ty * 2 ^ 40 + 0xC35A * 2 ^ 48)
def packet (ty seq : Nat) (ps : List Word) : List Word :=
  let ws := header ty ps.length seq :: ps
  ws ++ [trailer ws]
def frame (ws : List Word) : LineFrame := { words := ws, halfbit := 5, broken := false }

/-- The request that a packet's words make. -/
def request (ty seq : Nat) (ps : List Word) : Request :=
  { type := ty, seq := BitVec.ofNat 8 seq, payload := ps, crc := (trailer (header ty ps.length seq :: ps)).setWidth 32, plain := true }

/-- A state in which that request stands at the head of the queue. -/
def asks (s : State) (ty seq : Nat) (ps : List Word) : State := { s with port := { s.port with inWords := packet ty seq ps } }

/-- The port session of context 0. -/
def portSess : Session := { isPort := true, ring := 0, nonce := 0, scheck := 0, openT := 0 }

/-- `up` with the port as given and its session open. -/
def ported (p : Port) : State := { up with port := p, auth := { sessions := [(portSlot, some portSess)] } }

/-- `up` on the member with a scan port. -/
def scanned (p : Port) : State := { up with pkg := { up.pkg with member := .za6400 }, port := p }

theorem witness_PortRequests :
    (let w : Word := word (0x10000 + 2 ^ 48)
     Claims.Accepted (up.lineIn (frame (packet 1 0 [w]))) (request 1 0 [w]) ∧ accessLegal w = true ∧ accessCount w = 1 ∧
     Claims.Accepted (asks up 2 0 [w, 5]) (request 2 0 [w, 5]) ∧ writeFields (request 2 0 [w, 5]) = true) ∧
    (Claims.Accepted (asks up 4 0 [0x304]) (request 4 0 [0x304]) ∧ challengeArgs (request 4 0 [0x404]) = some (4, 4, 0) ∧
      challengeFields 4 4 0 = true ∧ up.portLocked = false ∧ up.portKeyOk 4 0 = true ∧
      ({ up with port := { lockEnd := some 9000 } } : State).portLocked = true) ∧
    (let ch : Challenge := { nonce := 0, key := 1, level := 3, ctx := 0, endT := 9000 }
     let s : State := asks { ported { chall := some ch, sessionFresh := false, seq := 0 } with
       life := { decided := true, state := .production }
       auth := { sessions := [(portSlot, some portSess)], opKeys := true } } 5 1 (List.replicate 8 0)
     Claims.Accepted s (request 5 1 (List.replicate 8 0)) ∧ s.port.chall = some ch ∧ s.session portSlot = some portSess ∧
     s.now < ch.endT.toNat ∧ s.portKeyOk ch.key ch.ctx = true) := by
  unfold Claims.Accepted; decide +kernel

theorem witness_PortRequests_commands :
    (let ps : List Word := 0xFF0302 :: List.replicate 7 0
     let s := asks (ported { sessionFresh := false }) 6 1 ps
     let e := ps.flatMap (fun w => leBytes 8 w.toNat)
     let u := Claims.opened s (request 6 1 ps)
     Claims.Accepted s (request 6 1 ps) ∧ firstFail (u.entryChecks none e (.ok (u.entryArg e))) = none ∧
       firstFail (u.entryChecks none (e.set 1 0) (.ok [])) = some Status.cmdFormat ∧
       Claims.Accepted (asks (ported { sessionFresh := false }) 7 1 []) (request 7 1 [])) := by
  unfold Claims.Accepted; decide +kernel

theorem witness_PortSequenceAndTimeouts :
    up.pkg.bothDead = false ∧
    (let s := asks (ported { sessionFresh := false, seq := 4, lastCrc := (request 7 4 []).crc }) 7 4 []
     s.portReady = true ∧ (s.session portSlot).isSome = true ∧ s.port.request = some (request 7 4 []) ∧ (request 7 4 []).seq = s.port.seq ∧
     (request 7 4 []).crc = s.port.lastCrc ∧ (request 7 9 []).seq ≠ s.port.seq + 1 ∧
     ¬ ((request 7 9 []).seq = s.port.seq ∧ (request 7 9 []).crc = s.port.lastCrc)) ∧
    (headerOk false (header 1 1 0) = true ∧ headerOk true (header 1 1 0) = true ∧ up.scanPort = false ∧ up.port.inWords = [] ∧
      (packet 1 0 [3]) = header 1 1 0 :: [3] ++ [trailer [header 1 1 0, 3]] ∧ (0 : Word) ≠ trailer [header 1 1 0, 3]) ∧
    Claims.Accepted (asks up 9 0 []) (request 9 0 []) ∧
    (let h := header 7 0 0 + 0x100
     Claims.Accepted { up with port := { inWords := [h, trailer [h]] } }
       { type := 7, seq := 0, payload := [], crc := (trailer [h]).setWidth 32, plain := false }) ∧
    (let s : State := { scanned { inWords := [0xC35A010000010000] } with
       pkg := { up.pkg with member := .za6400, meridian := 1000005000 } }
     s.port.partialHeld ≠ [] ∧ s.port.partialT.toNat + 1000000000 ≤ s.now) ∧
    (let s := ported { chall := some { nonce := 0, key := 1, level := 3, ctx := 0, endT := 5000 }, lockEnd := some 5000 }
     (s.port.chall.map (·.endT)) = some 5000 ∧ (5000 : Time).toNat ≤ s.now) ∧
    (let s : State := { ported {} with pkg := { up.pkg with meridian := 60000000000 } }
     s.port.lastReqT.toNat + s.regBits RegMap.cmpPtCfg 0x11200 48 16 * 1000000000 ≤ s.now) := by
  unfold Claims.Accepted; decide +kernel

theorem witness_ScanPort :
    (scanned {}).scanPort = true ∧ (scanned {}).pkg.aonUp = true ∧ (scanned {}).scanFree = true ∧ (scanned {}).port.bscan = false ∧
    (scanned { ir := 0x20 }).port.ir = 0x20 ∧ (scanned {}).port.partialHeld = [] ∧ headerOk true 0xC35A010000000000 = true ∧
    (scanned {}).portReady = true ∧ (scanned {}).port.inWords = [] ∧
    (scanned { inWords := packet 3 0 [] }).port.request = some (request 3 0 []) := by
  decide +kernel

theorem witness_OneWireAndPins :
    (up.lineIn (frame (packet 3 0 []))).port.inWords = [header 3 0 0, trailer [header 3 0 0]] ∧
    bitsOf (header 3 0 0).toNat 16 10 = 0 ∧ bitsOf (header 3 0 0).toNat 40 8 = 3 ∧
    (up.scanPort = false ∧ up.port.partialHeld = [] ∧ ({ pollOpen := true } : Port).pollOpen = true) ∧
    (let r : Resp := { type := 0x81, seq := 0, status := 0, payload := [] }
     let s := ported { taken := false, response := some r, pollOpen := true }
     s.port.response = some r ∧ s.port.order = none) ∧ (ported { events := [[1]] }).port.events = [1] :: [] ∧
    (let s := ported { driving := true, outWords := [0xC35A810000000000] }; bitsOf (s.port.outWords.headD 0).toNat 40 8 ≠ 0x83) ∧
    up.pkg.warmHeld = false ∧ (ported { lineLow := some 4000 }).port.lineLow.isSome = true ∧
    (bitAt (({ up with regs := [(0x11200, 1)] } : State).regWord RegMap.cmpPtCfg 0x11200) 0 = true ∧ up.chains = [] ∧
      bitAt (up.regWord RegMap.cmpPtCfg 0x11200) 0 = false) ∧
    (ported { cross := some 5000 }).port.cross = some 5000 ∧ up.barGone .port = false ∧ up.hasPlatform (up.actor .bar) = true ∧
    ((0x0000000000000001 : Word) &&& 0x0000000000000001) = 1 := by
  decide +kernel

/-- `up` with session 1 as given. -/
def withSess (x : Session) : State := { up with auth := { sessions := [(1, some x)] } }

/-- A plain session 1. -/
def bare1 : Session := { isPort := false, ring := 1, nonce := 7, scheck := 9, openT := 0 }

/-- A maker test token of session 1. -/
def token0 : List Byte :=
  leBytes 4 0x544E5247 ++ leBytes 2 1 ++ [4, 4] ++ leBytes 4 0 ++ leBytes 4 1 ++ leBytes 8 9000 ++ leBytes 16 7 ++ leBytes 24 0 ++
    List.replicate 64 0

/-- `up` with a token that waits for its verification, in a lifecycle state. -/
def verifying (key : Nat) (seq : BitVec 32) (r : Option Registration) : State := { up with
  life := { decided := true, state := .production }
  auth := { sessions := [(1, some bare1)], regs := [(5, r)], opKeys := true
            verify := [{ c := ctx1, level := 2, key := key, ctx := 5, seq := seq, expiry := 9000, regGen := 3 }] } }

theorem witness_SessionsAndTokens :
    up.pkg.bothDead = false ∧
    (ctx1.queue = some 1 ∧ 32 ≤ ctx1.resLen ∧ up.life.lockdown = false ∧ up.session 0 = none ∧
      (let s : State := { up with auth := { sessions := (rangeFrom 0 255).map (fun i => (i, some bare1)) } }
       ∀ i, i < 255 → (s.session i).isSome = true)) ∧
    (up.session 1 = some bare1 ∧ up.trace.streams = [] ∧ up.host.refs = [] ∧ up.upd.owner ≠ some 1) ∧
    (firstFail (up.tokenChecks bare1 1 []) = some Status.cmdFormat ∧ firstFail (up.tokenChecks bare1 1 token0) = none) ∧
    (let s := verifying 1 1 none; s.auth.verify.length = 1 ∧ bare1.lastSeq 1 5 < (1 : BitVec 32).toNat) ∧
    (let s := verifying 2 1 (some { part := 0xF00000, regGen := 3, grantPub := [], sealing := false, keyId := 0 })
     (s.reg 5).map (·.regGen) = some 3 ∧ bare1.lastSeq 2 5 < (1 : BitVec 32).toNat ∧ bare1.tenants = []) ∧
    ((verifying 2 1 none).reg 5).map (·.regGen) ≠ some 3 ∧
    (let s := verifying 1 1 none
     s.life.state = .production ∧ bare1.provision.live s.now = false ∧ bare1.makerTest.live s.now = false ∧ bare1.analysis.live s.now = false) ∧
    (({ bare1 with lockEnd := some 5000 } : Session).lockEnd = some 5000 ∧ (5000 : Time).toNat ≤ up.now) := by
  decide +kernel

/-- An operator key record of context 0. -/
def regRec (ctx : Ctx) : List Byte :=
  let a := leBytes 4 0x47455247 ++ leBytes 2 1 ++ leBytes 2 ctx ++ leBytes 32 0 ++ leBytes 72 1 ++ leBytes 12 0
  a ++ leBytes 4 (crc32c a).toNat

set_option maxRecDepth 20000 in
theorem witness_SessionsAndTokens_keys :
    (let arg := regRec 0 ++ List.replicate 64 0
     let s : State := { up with life := { decided := true, state := .production }
                                auth := { sessions := [(1, some { bare1 with operator := { on := true, expiry := 9000 } })], opKeys := true } }
     Claims.Platform s ctx1 ∧ arg.length = 192 ∧ s.lcBusy = false ∧ regLegal (arg.take 128) = true ∧ regCtx (arg.take 128) = 0 ∧
     regBare (arg.take 128) = false ∧ s.canWrite [(s.nextOpSector, 1)] = true) ∧
    (216 ≤ ctx1.resLen ∧ up.life.certChain.length ≤ ctx1.resLen) := by
  unfold Claims.Platform Claims.Heard; decide +kernel

/-- Job 0 live with one hold of session 1. -/
def heldJob (r : Refs) (n : Nat) : State := { up with
  folios := { jobs := [(0, some (job0 .created))] }
  host := { refs := [(refKey ObjKind.job 0, r)] }
  auth := { sessions := [(1, some { bare1 with holds := if n = 0 then [] else [(ObjKind.job, 0, n)] })] } }

/-- A group record of one member range. -/
def groupRec (ctx : Ctx) : List Byte := [1, 0] ++ leBytes 2 ctx ++ leBytes 4 0 ++ leBytes 4 0x1000 ++ leBytes 4 1

set_option maxRecDepth 20000 in
theorem witness_SharedObjects :
    up.pkg.bothDead = false ∧
    (let s := heldJob { live := true } 1
     kindSlotOk ObjKind.job 0 = true ∧ counted ObjKind.job = true ∧ s.refLive ObjKind.job 0 = true ∧
     s.observes ctx1.who (s.objCtx ObjKind.job 0) = true ∧ s.holdRoom 1 ObjKind.job 0 = true ∧ (s.refs ObjKind.job 0).kept = 0 ∧
     s.refCount ObjKind.job 0 < refTop ObjKind.job ∧ Tbl.wf none s.auth.sessions = true ∧ s.pkg.fwRecovery = false) ∧
    refTop ObjKind.job ≤ (heldJob { live := true, hub := 65532 } 1).refCount ObjKind.job 0 ∧
    (let s : State := { heldJob { live := true } 0 with life := { decided := true, state := .production } }
     s.observes ctx1.who (s.objCtx ObjKind.job 0) = false ∧ (bare1.holdOf ObjKind.job 0 = 0)) ∧
    (let g := parseGroup (groupRec 0)
     (groupRec 0).length = groupBytes (groupRec 0) ∧ up.holdRoom 1 ObjKind.group 0 = true ∧
     firstFail (up.groupChecks ctx1.who 0xF00000 g false) = none ∧ firstFail (up.groupChecks ctx1.who 0xF01000 g false) ≠ none) ∧
    (let arg := groupRec 5 ++ regRec 5
     arg.length = groupBytes arg + 128 ∧ (parseGroup arg).ctx = regCtx (slice arg (groupBytes arg) 128) ∧
     firstFail (up.groupChecks ctx1.who 0xF00000 (parseGroup arg) true) = none ∧
     firstFail (up.regChecks ctx1.who (slice arg (groupBytes arg) 128) true true) = none) ∧
    (let r : Refs := { live := true, kept := 1, creator := 256 }
     let s : State := { part5 with host := { refs := [(refKey ObjKind.group 0, r)] } }
     Claims.Platform s ctx1 ∧ (s.group 0xF00000).isSome = true ∧ s.captures 0xF00000 = false ∧ s.sets = [] ∧ s.trace.streams = [] ∧
     s.watch = {} ∧ s.session r.creator = none ∧ s.holdsOn ObjKind.group 0 = 0 ∧ s.memberGroups ((s.group 0xF00000).getD
       { members := [], ctx := 0, level := 0, partition := false, freezeSet := 0 }) = []) := by
  unfold Claims.Platform Claims.Heard; decide +kernel

theorem witness_LifecycleFlash :
    Claims.Platform up ctx1 ∧ up.lcBusy = false ∧ up.canWrite [(40, 1)] = true ∧
    (let worn : Tbl Sector := (rangeFrom 0 128).map (fun k => (k, { count := 10000, inUse := true }))
     ({ up with life := { up.life with sectors := worn } } : State).canWrite [(40, 1)] = false) ∧ up.pkg.bothDead = false ∧
    up.freeRecSlot = some 0 ∧
    ({ up with life := { copies := (rangeFrom 0 1152).map (fun i => (i, StepRec.valid 0xA1 0 1 0 0)) } } : State).freeRecSlot = none ∧
    (let s : State := { up with life := { running := true } }; s.life.running = true) ∧
    (let s : State := { up with life := { pending := true } }; s.life.running = false ∧ s.life.pending = true) := by
  unfold Claims.Platform Claims.Heard; decide +kernel

/-- `up` with a maker test grant. -/
def tester : State := withSess { bare1 with makerTest := { on := true, expiry := 9000 } }

theorem witness_LifecycleFlash_transition :
    let arg := leBytes 4 0x5254434C ++ leBytes 4 0 ++ tester.confirmBytes
    firstFail (tester.transitionChecks ctx1 arg true true) = none ∧
    tester.canWrite (tester.transitionWrites tester.life.state.code (fieldAt arg 4 1)) = true := by
  intro arg
  have h : slice arg 8 8 = tester.confirmBytes := rfl
  constructor
  · unfold State.transitionChecks
    rw [h, beq_self_eq_true]
    decide +kernel
  · decide +kernel

/-- A firmware image header. -/
def fwHeader : List Byte :=
  leBytes 4 0x49574647 ++ leBytes 2 1 ++ [1, 7] ++ leBytes 4 3 ++ leBytes 2 1 ++ leBytes 2 0 ++ leBytes 4 0 ++ leBytes 4 4096 ++
    leBytes 4 0x200 ++ leBytes 4 16 ++ leBytes 4 0x210 ++ leBytes 4 16 ++ leBytes 4 0x220 ++ leBytes 4 16 ++ leBytes 4 1 ++ leBytes 4 1 ++
    leBytes 4 0 ++ leBytes 4 0 ++ List.replicate 448 0

/-- `tester` with the update state. -/
def updating (u : Update) : State := { tester with upd := u }

theorem witness_FirmwareUpdate :
    up.pkg.bothDead = false ∧
    (let s := updating { slotA := { state := SlotState.confirmed, key := 1 } }
     Claims.Updater s ctx1 ∧ fwHeader.length = 512 ∧ s.upd.owner = none ∧ s.slotIn SlotState.trial = none ∧ s.pkg.pwrWarn = false ∧
     headerLegal s.pkg.member fwHeader = true ∧ fieldAt fwHeader 0x10 4 = 0 ∧ firstFail (s.imageChecks (headerSlot fwHeader) true) = none ∧
     s.canWrite (updateWrites s.inactiveSlot (imageLen fwHeader)) = true) ∧
    (let s := updating { slotA := { state := SlotState.confirmed, key := 1 }, owner := some 1, length := 1024, received := 512 }
     s.upd.owner = some ctx1.session ∧ (1024 : Nat) % 16 = 0 ∧ 512 + 512 ≤ s.upd.length) ∧
    (let s := updating { slotA := { state := SlotState.confirmed, key := 1 }, slotB := { state := SlotState.downloaded, key := 1 }, owner := some 1 }
     (s.fwSlot s.inactiveSlot).state = SlotState.downloaded ∧ firstFail (s.imageChecks (s.fwSlot s.inactiveSlot) true) = none ∧
     s.canWrite [(3, 1)] = true) ∧
    (let s := updating { slotA := { state := SlotState.confirmed, key := 1 }, slotB := { state := SlotState.verified, key := 1 } }
     (s.fwSlot s.inactiveSlot).state = SlotState.verified ∧ s.lcBusy = false ∧ s.pkg.fwRecovery = false) ∧
    (let s := updating { slotA := { state := SlotState.confirmed, key := 1 }, slotB := { state := SlotState.trial, key := 1 }
                         confirmWait := some 1, trial := true }
     s.slotIn SlotState.trial = some 1 ∧ s.upd.trial = true) ∧
    (let s : State := { updating { slotB := { state := SlotState.confirmed, key := 1, secver := 256 } } with pkg := { bootStep := 3 } }
     s.slotIn SlotState.trial = none ∧ s.slotIn SlotState.confirmed = some 1 ∧ s.fwKeyOk 1 = true ∧ s.upd.rollback ≤ (s.fwSlot 1).secver) ∧
    (let s : State := { updating { slotA := { state := SlotState.trial, key := 1 }, tries := 3 } with pkg := { bootStep := 3 } }
     s.slotIn SlotState.trial = some 0 ∧ s.slotIn SlotState.confirmed = none ∧ 0 < s.upd.tries) ∧
    (State.reset.slotIn SlotState.trial = none ∧ State.reset.slotIn SlotState.confirmed = none ∧ State.reset.slotIn SlotState.previous = none) ∧
    (let s : State := { updating { trial := true, trialT := 0 } with pkg := { up.pkg with meridian := 2000000000 } }
     s.upd.trialT.toNat + 2000000000 ≤ s.now ∧ s.upd.manual = false ∧ s.upd.confirmWait = none) := by
  unfold Claims.Updater; decide +kernel

theorem witness_FirmwareUpdate_rom : fieldAt fwHeader 0x10 4 ≤ Config.bootRom.toNat :=
  (show fieldAt fwHeader 0x10 4 = 0 by decide +kernel) ▸ Nat.zero_le _

/-- An event entry. -/
def event0 : Event := { type := 2, status := 0, session := 1, queue := 0xFF, object := 0, value := 0, data := 0, t := 0 }

theorem witness_HostQueues :
    32 < (33 % 64 + 64 - (up.cq 0).head) % 64 ∧ (32 % 64 + 64 - (up.cq 0).head) % 64 ≤ 32 ∧ up.pkg.bothDead = false ∧
    (let e : List Byte := [2, 0] ++ List.replicate 62 0
     let s : State := { up with
       regs := [(0x20000, 1)]
       host := { queues := [(0, { prod := 1, mem := Memory.writeBytes [] 0 e })], rings := [(0, { enabled := true }), (1, { enabled := true })] } }
     s.takesEntries = true ∧ s.turn = some 0 ∧ (firstFail (s.entryChecks (some 0) (s.headEntry 0) (.ok []))).isSome = true) ∧
    (let s : State := { up with host := { rings := [(1, { enabled := true, held := [event0] })] } }
     0 < (s.ring 1).size ∧ s.cartWaiting = false ∧ (s.ring 1).lostDue = false ∧ (s.ring 1).reserved < ({ s.ring 1 with head := 0 } : Ring).free ∧
     s.pkg.busMaster = true) ∧
    (bitAt (up.regWord RegMap.hqErCfg (0x22008 + 0x40 * 1)) 8 = false ∧ (up.ring 1).held = []) ∧
    (up.session 1 = some bare1 ∧ bare1.scheck = 9) ∧
    (let s : State := { up with host := { rings := [(1, { enabled := true, unsignalled := 1, notify := true })] } }
     s.signalDue 1 = true ∧ s.vectorMasked 1 = up.vectorMasked 1) ∧
    (let s : State := { up with cart := { faultn := true } }; s.cart.faultn = true ∧ s.host.faultnSig = 0) := by
  decide +kernel

theorem witness_HostQueues_command :
    let e : List Byte := [2, 0, 1, 0] ++ leBytes 4 9 ++ List.replicate 56 0
    let s : State := { up with
      regs := [(0x20000, 1)]
      host := { queues := [(0, { prod := 1, mem := Memory.writeBytes [] 0 e })], rings := [(0, { enabled := true }), (1, { enabled := true })] } }
    s.takesEntries = true ∧ s.turn = some 0 ∧ firstFail (s.entryChecks (some 0) (s.headEntry 0) (.ok [])) = none := by
  decide +kernel

theorem witness_RegisterAccess :
    (up.barGone .bar = false ∧ up.hasPlatform (up.actor .bar) = true ∧ up.regWord RegMap.authCfg 0x50000 < 2 ^ 14 ∧
      (1 ≤ 0x2760 ∧ 0x2760 < (0x2761 : Word).toNat ∧ (0x2761 : Word).toNat < 2 ^ 14) ∧ (up.clampLog 128).entries = []) ∧
    ({ up with life := { decided := true, state := .production } } : State).hasPlatform none = false ∧
    ((0x10141 : Nat) < 0x3000000 ∧ 0x10141 % widthOf false ≠ 0) ∧
    (Tbl.get none ({ up with reports := [(256, some 5000)] } : State).reports 256 = some 5000 ∧ up.now < (5000 : Time).toNat + 1000000000 ∧
      Tbl.get none up.reports 256 = none) ∧
    (up.postRuns 0 = true ∧ up.postRuns 1 = false) ∧
    (let s (sel : Word) : State := { up with regs := [(iwKey .bar 0, sel)] }
     s 0x10000 = s 0x10000 ∧ up.unitReach 0x10000 1 0 4 false = true ∧ up.mayReach (up.actor .bar) 0x10000 1 0 false = true ∧
     up.tapStatus 0x10000 1 0 = 0 ∧ up.unitReach 0xFFFFFF 0 0 4 false = false ∧ 2 % widthOf false ≠ 0 ∧ up.tapStatus 0x10000 0 0 = 3 ∧
     (at_ []).tapStatus 0x10000 1 0 = 2 ∧
     ({ up with life := { decided := true, state := .production } } : State).mayReach none 0x10000 1 0 false = false) := by
  decide +kernel

/-! ### Witnesses: the machine as a whole (O56 to O60) -/

theorem witness_StepTakesTheFront :
    up.pending = [] ∧ up.pkg.aonUp = true ∧ up.pkg.meridian ≠ BitVec.allOnes 64 ∧ Tbl.wf {} up.engines = true ∧
    Tbl.wf {} up.watch.watchers = true ∧ Tbl.wf {} up.trace.taps = true ∧ up.trace.taps = [] ∧
    (({ eng 0 with state := .waiting, force := [(2, 64), (7, 1)] } : Engine).timed = true) ∧ ((runs 0).engine 0).state ≠ .waiting ∧
    (up.watcher 0).unsched = none ∧ State.reset.pkg.aonUp = false := by
  decide +kernel

theorem witness_CompletionsAndRefusals :
    up.pkg.bothDead = false ∧
    Claims.sentBy ctx1 (.jobStart ctx1 0) ∧ State.reset.session ctx1.session = none ∧ (up.session ctx1.session).isSome = true ∧
    (let i : InFlight := { c := ctx1, ring := 1, opcode := 0x40, inline := [], arg := [] }
     let s : State := { up with host := { inflight := [i], rings := [(1, { enabled := true })] } }
     s.inflightOf ctx1 = some i ∧ (s.ring 1).enabled = true ∧ s.pkg.busMaster = true) :=
  ⟨by decide +kernel, rfl, by decide +kernel, by decide +kernel, by decide +kernel⟩

theorem witness_QuillWordsAndFetch : quillWord (.qAdd 0 0x123000) = some (0, 0x20123000) ∧ quillDecode 0 0x0D000000 = none ∧
    ((runs 0x20123000).engine 0).fetch ≠ 0x21123000 ∧ (State.reset.engine 0).state ≠ .running :=
  ⟨by decide +kernel, by decide +kernel, by decide +kernel, by decide +kernel⟩

theorem witness_EveryStepKeeps : State.reset.upd.rollback ≤ 256 ∧ (updating { rollback := 256 }).upd.rollback ≤ 256 := by
  decide +kernel

/-! ### Well-formedness refuses a term for each of its checks -/

theorem test_illformed_contexts :
    [({ ctx1 with session := 256 } : CmdCtx), { ctx1 with queue := some 16 }, { ctx1 with resLen := 2 ^ 32 },
      { ctx1 with resAddr := 2 ^ 64 }].all (fun c => !c.wellFormed) = true ∧ ctx1.wellFormed = true := by decide +kernel

theorem test_illformed_start :
    [Instr.registerWrite .bar 0x4000000 false 0, .reservedSpaceAccess .bar 0 4096, .postWindowAccess .bar 128 0 false none,
      .postWindowAccess .bar 0 0x40000 false none, .postNoAnswer .bar 128, .iwAccess .bar 256 0 false none none,
      .iwAccess .bar 0 65536 false none none, .hbmReady 128 0, .enumerationClose [0x1000000], .hubColdReset ctx1 [⟨0, 65⟩],
      .postRestart ctx1 0 65, .postWakeDone 128 true, .coreSleep 0x1000000, .pllUnlock 64, .linkRetrain 0 64 false,
      .latticeHaltPulse 16 0 0, .postPower ctx1 256 0, .clampClr .bar (some 128) 0, .groupCreate ctx1 0x1000000 [],
      .linkTrainingEnd 0 0 65536].all (fun i => !i.wellFormed) = true := by decide +kernel

theorem test_illformed_engines :
    [Instr.qNop 129 0, .qlTake .bar 129, .engineMemoryWrite .bar 0 false 65536 false 0, .probeRequestServed 0 256 [],
      .probeRequestServed 0 0 [(0x1000000, 0)], .probeResponse 0 256, .engineLoad ctx1 256 []].all (fun i => !i.wellFormed) = true := by
  decide +kernel

theorem test_illformed_halts :
    [Instr.haltCommand ctx1 0x1000000 0 0, .haltCommand ctx1 0 256 0, .stepCommand ctx1 0x1000000 0, .hopMulticast 0 0x1000000,
      .targetTimeMatch 0x1000000 0, .flitParked 0 256 ⟨0, 0, 0, [], 0⟩, .flitParked 0 0 ⟨0x1000000, 0, 0, [], 0⟩,
      .boundaryHoldStart 0 0x1000000 0, .resumeRelease 0 5 0].all (fun i => !i.wellFormed) = true := by decide +kernel

theorem test_illformed_break :
    [Instr.setLoad ctx1 65536 [], .setArm 1024, .iacMatch 0 4 0 0, .iacMatch 0 0 64 0, .iacMatch 0 0 0 (2 ^ 48),
      .dacMatch 0 0 0 false [⟨0, 3, 0⟩], .dacMatch 0 0 0 false [⟨2 ^ 48, 1, 0⟩], .scmpMatch 0 8 (.issue 0 0 0) 0, .scmpMatch 0 0 (.issue 16 0 0) 0,
      .scmpMatch 0 0 (.access 0 64 false []) 0, .scmpMatch 0 0 (.dma false ⟨0, 0, 0⟩) 0, .counterEvent 0 2 1,
      .stageSourceArrival (.post 128) 0 0 [] 0, .stageSourceArrival (.tap 0) 16 0 [] 0, .stageSourceArrival (.station 0) 0 32 [] 0,
      .stageSourceArrival (.tap 0) 0 0 [0x1000000] 0,
      .chainWindowExpiry (.tap 0x1000000) 0, .countWrite .bar 0 2 0].all (fun i => !i.wellFormed) = true := by decide +kernel

theorem test_illformed_folios_and_cartouches :
    [Instr.jobCreate ctx1 256 [], .jobStart ctx1 256, .queuedPartStart 128, .partEnd 64 0, .jobDone 64, .folioExport ctx1 0 false (2 ^ 64) 0,
      .pwrWarn [⟨128, 0⟩], .cartoucheReport 0 16 0 [] 0, .cartoucheReport 0 0 65536 [] 0, .intakeArrival { rec0 0 with cls := 256 },
      .intakeArrival { rec0 0 with spanE := 32 }, .cartoucheArrival 0x1000000 (rec0 0), .takeoverMulticast 0x1000000,
      .postHeartbeat 128].all (fun i => !i.wellFormed) = true := by decide +kernel

theorem test_illformed_watch_and_trace :
    [Instr.snap 128 [], .policy ctx1 65536 0 false false 0 0 0xFF, .policy ctx1 0 256 false false 0 0 0xFF, .deadlineSet ctx1 0 0 0x1000000 0 0,
      .deadlineClear ctx1 65536 0 0, .deadlineMissed 0 64, .synchronisationWait 0 (some 0x1000000) 0, .producerRegistration 0 0 4096,
      .inkwellStore 0 [⟨0, 4096, 1, 0⟩], .inkwellStore 0 [⟨0, 0, 3, 0⟩], .lossPacket 0 512, .streamCreate ctx1 65536 [], .streamExport ctx1 0 0 false (2 ^ 32),
      .svpItFree .bar 0 65536, .streamEnded 512].all (fun i => !i.wellFormed) = true := by decide +kernel

theorem test_illformed_ports_and_host :
    [Instr.portRead ⟨[], 64, false⟩, .portWrite ⟨[], 64, false⟩, .poll ⟨[], 64, false⟩, .challenge ⟨[], 64, false⟩,
      .respond ⟨[], 64, false⟩ true, .portCommand ⟨[], 64, false⟩, .portClose ⟨[], 64, false⟩, .cmpPtAprAck 32, .ledgerWord 66 0, .grantLapse 256, .attest ctx1 0 [], .acquire ctx1 256 0, .acquire ctx1 2 (2 ^ 32),
      .partitionCreate ctx1 0 256 0 [] true true, .uflashRead ctx1 256, .hqDb 16 0, .hqDb 0 64, .commandTake 16 .error, .hqErHead 0 65536,
      .barBind 256 0, .msixSignal 17, .updData ctx1 (2 ^ 32) []].all (fun i => !i.wellFormed) = true := by decide +kernel

theorem test_illformed_argument (a : List Byte) (h : a.length = 131137) : (Instr.grant ctx1 a).wellFormed = false := by
  have : isArg a = false := by unfold isArg; rw [h]; decide +kernel
  show (ctx1.wellFormed && isArg a) = false
  rw [this]; rfl

/-! ### Quill words of the spec decode and run as it says (Tables QR-5 to QR-15) -/

/-- The next state, or the reset state. -/
def after : Out → State
  | .next t => t
  | _ => State.reset

/-- The engine after it has executed the word, decoded, with q2 = 0xF0, q3 = 4 and q4 all ones (R280). -/
def ran (w : BitVec 32) (regs : Tbl Word := [(2, 0xF0), (3, 4), (4, BitVec.allOnes 64)]) : Engine :=
  ((quillDecode 0 w).map (fun i => (after (exec i (runsWith w regs))).engine 0)).getD {}

/-- The examples of Table QR-6 that leave a value in q1 or q2. -/
theorem test_table_QR6 :
    [(0x20123000, 0xF4), (0x21123000, 0xEC), (0x22123000, 0), (0x23123000, 0xF4), (0x24123000, 0xF4), (0x25123000, 0xF00),
      (0x26123000, 0xF), (0x2812FFF0, 0xE0), (0x29120030, 0x30), (0x2C123000, 0), (0x2D132000, 1), (0x2E142000, 1), (0x2F120000, 4),
      (0x31123000, 4), (0x32123000, 0xF0), (0x33120000, 0xF0)].all (fun x => (ran x.1).q 1 == x.2) = true ∧
    (ran 0x27123000 [(2, 0x8000000000000000), (3, 4)]).q 1 = 0xF800000000000000 ∧ (ran 0x2B200001).q 2 = 0x10000 ∧
    (ran 0x2A224CC0 [(2, 0x10000)]).q 2 = 0x14CC0 := by decide +kernel

/-- The CRC examples of Table QR-6: 8 bytes of q6, then 1 of q7, of the digits 1 to 9, inverted. -/
theorem test_crc_words : crc32c [0x31, 0x32, 0x33, 0x34, 0x35, 0x36, 0x37, 0x38, 0x39] = 0xE3069283 ∧
    ((ran 0x30560008 [(5, 0xFFFFFFFF), (6, 0x3837363534333231)]).q 5) = ~~~ (0xFFFFFFFF00000000 + (crc32c [0x31, 0x32, 0x33, 0x34, 0x35,
      0x36, 0x37, 0x38]).setWidth 64) := by decide +kernel

/-- The transfers of Table QR-5: BRZ, BRNZ and CALL with their targets. -/
theorem test_table_QR5 :
    (let g := (after (exec (.qBr 0 0xFFFFFE) { up with engines := [(0, { eng 0x03FFFFFE with pc := 0x10 })] })).engine 0; g.pc = 0x0E) ∧
    (ran 0x04050004 [(5, 0)]).pc = 4 ∧
    (let g := (after (exec (.qBrnz 0 0x04FFFD) { up with engines := [(0, { eng 0x0504FFFD with pc := 3, regs := [(4, 2)] })] })).engine 0
     g.pc = 0) ∧
    (let g := (after (exec (.qCall 0 0x000020) { up with engines := [(0, { eng 0x06000020 with pc := 0x10 })] })).engine 0
     g.pc = 0x30 ∧ g.stack = [0x11]) := by decide +kernel

/-- Words of the other families decode to their instructions (Tables QR-8 to QR-15). -/
theorem test_decode_families :
    quillDecode 3 0x40120008 = some (.qLd 3 0x120008) ∧ quillDecode 3 0x52100100 = some (.qUwait 3 0x100100) ∧
    quillDecode 3 0x55123000 = some (.qUgroup 3 0x123000) ∧ quillDecode 3 0x70120000 = some (.qHalt 3 0x120000) ∧
    quillDecode 3 0x75430100 = some (.qCutq 3 0x430100) ∧ quillDecode 3 0xA0400402 = some (.qInk 3 0x400402) ∧
    quillDecode 3 0xA1123000 = some (.qCart 3 0x123000) ∧ quillDecode 3 0xA2970001 = some (.qRaise 3 0x970001) ∧
    quillDecode 3 0x0D000000 = none ∧ quillDecode 3 0x34000000 = none ∧ decodeTableWord 32 0x20123000 = none := by decide +kernel

/-! ### A few worked examples -/

/-- HALT of Table CH-2: a core on time stops at T with code 0 and the hold bit of class PLATFORM. -/
theorem test_halt_on_time :
    let s := halting { queue := [{ hop := 1, kind := .halt, t := 5002 }] } { hop0 .halt with t := 5002, platform := true }
    let c := (after (exec (.targetTimeMatch 0x10000 0) s)).core 0x10000
    c.run = .stopped ∧ c.s = 5002 ∧ c.cutCode = 0 ∧ c.holdP = true := by decide +kernel

/-- R380: a slot outside its table and a MODE that the table does not list are refused with CMD_FORMAT, in the completion's STATUS. -/
theorem test_cmd_format :
    let s : State := { up with host := { inflight := [{ c := ctx1, ring := 1, opcode := 0x18, inline := [], arg := [] }] } }
    (((after (exec (.jobCreate ctx1 64 []) s)).ring 1).held.map (·.status)) = [0x22] ∧
    (((after (exec (.haltCommand ctx1 0x10000 2 0) s)).ring 1).held.map (·.status)) = [0x22] := by decide +kernel

/-- An idle step advances the master meridian by one tick (assumption 1). -/
theorem test_tick : (match step up with
    | .next t => t.pkg.meridian
    | _ => 0) = 5001 := by decide +kernel

/-- Table CH-16: a half with one ASLEEP core and one STOPPED core of two reads IN_SCOPE 2, CONFIRMED 2, LATE 0, ASLEEP 1. -/
theorem test_hop_count_asleep :
    let h : Hop := { id := 0x8017, kind := .halt, mode := .contour, platform := true, scope := 0x1000, cores := [0x10000, 0x10001],
                     insts := [], iwait := [], ctx := 0, lead := 160, deadline := 10, steps := 0, classes := 0, t := 0,
                     origin := .engine 0, codes := [(0x10000, { code := 5 }), (0x10001, { code := 0 })] }
    State.reset.hopCounts h 0 = 0x0001000000020002 := by decide +kernel
end Sys2Proof.Tests
end

/-! SUPPORT. What every step hands on (R4, R411): the queue, the member and the rollback counter, operation by operation in the order of
the model's files, then command by command. Nearly all leave the three as they are, which one equation says (`State.kept`); simp carries it
through a chain of operations from the outside in, so the values that they write are never visited. The commands that program the counter
forward keep in the sense of `Keeps`. -/

namespace Sys2Proof.Machine

/-- What every command hands on: the rest of the queue, the member, and the anti-rollback counter. -/
def State.kept (s : State) : List Instr × Member × Nat := (s.pending, s.pkg.member, s.upd.rollback)

/-- What is handed on if the command goes on. -/
def keptAfter : Out → Option (List Instr × Member × Nat)
  | .next t => some t.kept
  | _ => none

/-- What is handed on by the state in which an instruction word leaves its engine, if there is one. -/
def Did.KeptAs (k : List Instr × Member × Nat) : Did → Prop
  | .wait t | .seq t _ | .jump t _ | .reload t _ => t.kept = k
  | .fault _ | .store _ _ | .sync | .ended => True

/-- What an operation that may have to wait hands on, where it does not wait. -/
structure KeptIn (k : List Instr × Member × Nat) (o : Option State) : Prop where
  all : ∀ t ∈ o, t.kept = k

theorem Keeps.of_kept {s t : State} (h : t.kept = s.kept) : Keeps s t := by
  obtain ⟨hp, hm, hr⟩ : t.pending = s.pending ∧ t.pkg.member = s.pkg.member ∧ t.upd.rollback = s.upd.rollback := by
    simpa [State.kept] using h
  exact ⟨hp, hm, hr ▸ Nat.le_refl _, hr ▸ id⟩

/-- An update of a state hands on what it writes in those three places. -/
@[simp ↓] theorem State.kept_mk
    {pkg dies copies links posts held unobs groups clamps reports legend regs engines hops hopNext hopSeq cores insts rports
     bounds rings cmps cnts chains sets places halves xtrig folios cart pair watch trace port auth life host upd drawn pending} :
    State.kept (.mk pkg dies copies links posts held unobs groups clamps reports legend regs engines hops hopNext hopSeq cores insts rports
      bounds rings cmps cnts chains sets places halves xtrig folios cart pair watch trace port auth life host upd drawn pending) =
      (pending, pkg.member, upd.rollback) := by
  rw [State.kept]

@[simp ↓] theorem State.kept_fold (s : State) : (s.pending, s.pkg.member, s.upd.rollback) = s.kept := by
  rw [State.kept]

@[simp ↓] theorem State.kept_ite {c : Prop} [Decidable c] {a b : State} :
    (if c then a else b).kept = if c then a.kept else b.kept := apply_ite _ _ _ _

@[simp ↓] theorem keptAfter_next (t : State) : keptAfter (.next t) = some t.kept := rfl

@[simp ↓] theorem keptAfter_ite {c : Prop} [Decidable c] {a b : Out} :
    keptAfter (if c then a else b) = if c then keptAfter a else keptAfter b := apply_ite _ _ _ _

/-- A fold of operations that each hand on. -/
@[simp ↓] theorem State.kept_foldl {α : Type} {f : State → α → State} {l : List α} {s : State}
    (h : ∀ s a, (f s a).kept = s.kept) : (l.foldl f s).kept = s.kept := by
  induction l generalizing s with
  | nil => rfl
  | cons a l ih => exact ih.trans (h s a)

section
variable (k : List Instr × Member × Nat)

@[simp ↓] theorem keptIn_none : KeptIn k none := ⟨by simp⟩
@[simp ↓] theorem keptIn_some (t : State) : KeptIn k (some t) ↔ t.kept = k := ⟨fun h => h.all t rfl, fun h => ⟨by simpa using h⟩⟩

@[simp ↓] theorem keptIn_ite {c : Prop} [Decidable c] {a b : Option State} :
    KeptIn k (if c then a else b) ↔ if c then KeptIn k a else KeptIn k b := by split <;> rfl

end

theorem KeptIn.getD {k : List Instr × Member × Nat} {o : Option State} {d : State} (ho : KeptIn k o) (hd : d.kept = k) :
    (o.getD d).kept = k := by
  cases o with
  | none => exact hd
  | some t => exact ho.all t rfl

theorem KeptIn.map {k : List Instr × Member × Nat} {o : Option State} {f : State → State} (ho : KeptIn k o)
    (hf : ∀ t, (f t).kept = t.kept) : KeptIn k (o.map f) := by
  cases o with
  | none => simp
  | some t => simpa [hf] using ho.all t rfl

theorem KeptIn.bind {k : List Instr × Member × Nat} {o : Option State} {f : State → Option State} (ho : KeptIn k o)
    (hf : ∀ t, KeptIn t.kept (f t)) : KeptIn k (o.bind f) := by
  cases o with
  | none => simp
  | some t => exact ho.all t rfl ▸ hf t

section
variable (k : List Instr × Member × Nat)

@[simp ↓] theorem Did.keptAs_fault (c : Nat) : (Did.fault c).KeptAs k := trivial
@[simp ↓] theorem Did.keptAs_store (w : Nat) (v : BitVec 32) : (Did.store w v).KeptAs k := trivial
@[simp ↓] theorem Did.keptAs_sync : Did.sync.KeptAs k := trivial
@[simp ↓] theorem Did.keptAs_ended : Did.ended.KeptAs k := trivial
@[simp ↓] theorem Did.keptAs_wait (t : State) : (Did.wait t).KeptAs k ↔ t.kept = k := Iff.rfl
@[simp ↓] theorem Did.keptAs_seq (t : State) (n : Nat) : (Did.seq t n).KeptAs k ↔ t.kept = k := Iff.rfl
@[simp ↓] theorem Did.keptAs_jump (t : State) (w : Nat) : (Did.jump t w).KeptAs k ↔ t.kept = k := Iff.rfl
@[simp ↓] theorem Did.keptAs_reload (t : State) (v : Word) : (Did.reload t v).KeptAs k ↔ t.kept = k := Iff.rfl

@[simp ↓] theorem Did.keptAs_ite {c : Prop} [Decidable c] {a b : Did} :
    (if c then a else b).KeptAs k ↔ if c then a.KeptAs k else b.KeptAs k := by split <;> rfl

/-- Checks that fail fault: what is handed on is their instruction's. -/
@[simp ↓] theorem checked_keptAs {k : List Instr × Member × Nat} {xs : List (Bool × Nat)} {d : Did} (h : d.KeptAs k) :
    (checked xs d).KeptAs k := by
  unfold checked
  split
  · trivial
  · exact h

end

/-! ### Ops -/

@[simp ↓] theorem State.draw_kept (s : State) : s.draw.kept = s.kept := by simp [State.draw]

/-! ### Operands -/

@[simp ↓] theorem State.setDie_kept (s : State) (d : Nat) (v : Die) : (s.setDie d v).kept = s.kept := by simp [State.setDie]
@[simp ↓] theorem State.setPost_kept (s : State) (p : Nat) (v : Post) : (s.setPost p v).kept = s.kept := by simp [State.setPost]
@[simp ↓] theorem State.setCore_kept (s : State) (u : Uno) (v : Core) : (s.setCore u v).kept = s.kept := by simp [State.setCore]

@[simp ↓] theorem State.setInst_kept (s : State) (cls : Nat) (u : Uno) (v : Hold) : (s.setInst cls u v).kept = s.kept := by
  simp [State.setInst]

@[simp ↓] theorem State.setEngine_kept (s : State) (e : Nat) (v : Engine) : (s.setEngine e v).kept = s.kept := by simp [State.setEngine]

/-! ### Links -/

@[simp ↓] theorem State.setMeter_kept (s : State) (k : Nat) (v : Link) : (s.setMeter k v).kept = s.kept := by simp [State.setMeter]

@[simp ↓] theorem State.setLink_kept (s : State) (near far : Nat) (v : Link) : (s.setLink near far v).kept = s.kept := by
  simp [State.setLink]

@[simp ↓] theorem State.sendUrg_kept (n : Nat) (ks : List Nat) (s : State) : KeptIn s.kept (State.sendUrg n ks s) := by
  induction ks generalizing s with
  | nil => simp [State.sendUrg]
  | cons k ks ih =>
    have h := ih (s.setMeter k { s.meter k with urg := (s.meter k).urg - n })
    rw [State.setMeter_kept] at h
    simp [State.sendUrg, h]

@[simp ↓] theorem State.sendReq_kept (s : State) (n k : Nat) : KeptIn s.kept (s.sendReq n k) := by
  unfold State.sendReq
  dsimp only
  split <;> simp

@[simp ↓] theorem State.sendRec_kept (s : State) (k : Nat) : KeptIn s.kept (s.sendRec k) := by
  simp [State.sendRec]

/-! ### Access -/

@[simp ↓] theorem State.setSession_kept (s : State) (slot : Nat) (v : Option Session) : (s.setSession slot v).kept = s.kept := by
  simp [State.setSession]

@[simp ↓] theorem State.onBar_kept (s : State) (p : Path) (t : State) (h : t.kept = s.kept) : (s.onBar p t).kept = s.kept := by
  simp [State.onBar, h]

/-! ### Report -/

@[simp ↓] theorem State.markLost_kept (s : State) (c : Ctx) : (s.markLost c).kept = s.kept := by
  simp [State.markLost]

@[simp ↓] theorem State.loneWrite_kept (s : State) (p : Nat) (r : Rec) : (s.loneWrite p r).kept = s.kept := by
  rw [State.loneWrite_eq]
  rfl

@[simp ↓] theorem State.setPoint_kept (s : State) (k : Nat) (v : HashPoint) : (s.setPoint k v).kept = s.kept := by simp [State.setPoint]

@[simp ↓] theorem State.pointTake_kept (s : State) (k : Nat) (r : Rec) : (s.pointTake k r).kept = s.kept := by
  rw [State.pointTake_eq]
  rfl

@[simp ↓] theorem State.engineEvent_kept (s : State) (e bit : Nat) : (s.engineEvent e bit).kept = s.kept := by
  rw [State.engineEvent_eq]
  rfl

@[simp ↓] theorem State.cartEngine_kept (s : State) (u : Uno) : (s.cartEngine u).kept = s.kept := by
  rw [State.cartEngine_eq]
  rfl

@[simp ↓] theorem State.report_kept (s : State) (u : Uno) (cls code : Nat) (d : List Byte) (c : Ctx) :
    (s.report u cls code d c).kept = s.kept := by
  rw [State.report_eq]
  rfl

@[simp ↓] theorem State.reportHub_kept (s : State) (u : Uno) (cls code : Nat) (d : List Byte) (c : Ctx) :
    (s.reportHub u cls code d c).kept = s.kept := by
  rw [State.reportHub_eq]
  rfl

@[simp ↓] theorem State.failover_kept (s : State) (reporter : Uno) (code : Nat) (lost : Uno) :
    (s.failover reporter code lost).kept = s.kept := by
  simp [State.failover]

@[simp ↓] theorem State.haltLate_kept (s : State) (reporter : Uno) (code : Nat) (hopId : BitVec 16) (ctx : Ctx) :
    (s.haltLate reporter code hopId ctx).kept = s.kept := by
  simp [State.haltLate]

@[simp ↓] theorem State.folioReport_kept (s : State) (post code : Nat) (serial : BitVec 32) (ctx : Ctx) :
    (s.folioReport post code serial ctx).kept = s.kept := by
  simp [State.folioReport]

@[simp ↓] theorem State.netReport_kept (s : State) (reporter : Uno) (code : Nat) : (s.netReport reporter code).kept = s.kept := by
  simp [State.netReport]

@[simp ↓] theorem State.lifeReport_kept (s : State) (code index : Nat) : (s.lifeReport code index).kept = s.kept := by
  simp [State.lifeReport]

@[simp ↓] theorem State.clampOne_kept (s : State) (w : Writer) (l a b : Nat) : (s.clampOne w l a b).kept = s.kept := by
  rw [State.clampOne_eq]
  rfl

@[simp ↓] theorem State.reservedReport_kept (s : State) (w : Writer) : (s.reservedReport w).kept = s.kept := by
  rw [State.reservedReport_eq]
  rfl

/-! ### Rings -/

@[simp ↓] theorem State.setRing_kept (s : State) (r : Nat) (v : Ring) : (s.setRing r v).kept = s.kept := by simp [State.setRing]

@[simp ↓] theorem State.pushEvent_kept (s : State) (r : Nat) (e : Event) : (s.pushEvent r e).kept = s.kept := by
  rw [State.pushEvent_eq]
  rfl

@[simp ↓] theorem State.dropEvent_kept (s : State) (r : Nat) : (s.dropEvent r).kept = s.kept := by simp [State.dropEvent]

@[simp ↓] theorem State.drainRing_kept (r n : Nat) (s : State) : (State.drainRing r n s).kept = s.kept := by
  rw [State.drainRing_eq]
  rfl

@[simp ↓] theorem State.emit_kept (s : State) (k : Nat) (e : Event) : (s.emit k e).kept = s.kept := by
  rw [State.emit_eq]
  rfl

@[simp ↓] theorem State.cartEventNow_kept (s : State) : (s.cartEventNow).kept = s.kept := by
  rw [State.cartEventNow_eq]
  rfl

@[simp ↓] theorem State.pushReserved_kept (s : State) (r : Nat) (b : Bool) (e : Event) : (s.pushReserved r b e).kept = s.kept := by
  rw [State.pushReserved_eq]
  rfl

@[simp ↓] theorem State.completeFor_kept (s : State) (c : CmdCtx) (k st : Nat) (o : BitVec 32) (d : Word) :
    (s.completeFor c k st o d).kept = s.kept := by
  rw [State.completeFor_eq]
  rfl

@[simp ↓] theorem State.complete_kept (s : State) (c : CmdCtx) (st : Nat) (o : BitVec 32) (d : Word) :
    (s.complete c st o d).kept = s.kept := by
  rw [State.complete_eq]
  rfl

@[simp ↓] theorem State.give_kept (s : State) (c : CmdCtx) (bs : List Byte) : (s.give c bs).kept = s.kept := by
  rw [State.give_eq]
  rfl

@[simp ↓] theorem State.refuse_kept (s : State) (c : CmdCtx) (st : Nat) : (s.refuse c st).kept = s.kept := by
  rw [State.refuse_eq]
  rfl

@[simp ↓] theorem State.judgedAny_kept (s : State) (c : CmdCtx) (l : List (Bool × Nat)) (f : State → State) (h : (f s).kept = s.kept) :
    (s.judgedAny c l f).kept = s.kept := by
  unfold State.judgedAny
  split
  · rfl
  · split
    · exact State.refuse_kept ..
    · exact h

@[simp ↓] theorem State.judged_kept (s : State) (c : CmdCtx) (l : List (Bool × Nat)) (f : State → State) (h : (f s).kept = s.kept) :
    (s.judged c l f).kept = s.kept := State.judgedAny_kept _ _ _ _ h

@[simp ↓] theorem State.setRefs_kept (s : State) (kind slot : Nat) (v : Refs) : (s.setRefs kind slot v).kept = s.kept := by
  simp [State.setRefs]

@[simp ↓] theorem State.hubRef_kept (s : State) (kind slot : Nat) : (s.hubRef kind slot).kept = s.kept := by simp [State.hubRef]
@[simp ↓] theorem State.hubUnref_kept (s : State) (kind slot : Nat) : (s.hubUnref kind slot).kept = s.kept := by simp [State.hubUnref]

@[simp ↓] theorem State.addHoldOf_kept (s : State) (sess kind slot : Nat) : (s.addHoldOf sess kind slot).kept = s.kept := by
  unfold State.addHoldOf
  split <;> simp

@[simp ↓] theorem State.dropHoldOf_kept (s : State) (sess kind slot : Nat) : (s.dropHoldOf sess kind slot).kept = s.kept := by
  unfold State.dropHoldOf
  split <;> simp

@[simp ↓] theorem State.bumpGen_kept (s : State) : s.bumpGen.kept = s.kept := by simp [State.bumpGen]
@[simp ↓] theorem State.newRef_kept (s : State) (sess kind slot : Nat) : (s.newRef sess kind slot).kept = s.kept := by simp [State.newRef]

@[simp ↓] theorem State.flaggedFrom_kept (s t : State) : (s.flaggedFrom t).kept = t.kept := by
  simp [State.flaggedFrom]

@[simp ↓] theorem State.setHealth_kept (s : State) (p h : Nat) : (s.setHealth p h).kept = s.kept := by simp [State.setHealth]

/-! ### Registers -/

@[simp ↓] theorem State.setRegWord_kept (s : State) (r : RegRow) (key v : Nat) : (s.setRegWord r key v).kept = s.kept := by
  simp [State.setRegWord]

@[simp ↓] theorem State.writeFields_kept (s : State) (w : Writer) (r : RegRow) (k lo n v : Nat) :
    (s.writeFields w r k lo n v).kept = s.kept := by
  obtain ⟨t, h⟩ := State.writeFields_eq s w r k lo n v
  rw [h]
  rfl

@[simp ↓] theorem State.setLonePolicy_kept (s : State) (p c v : Nat) : (s.setLonePolicy p c v).kept = s.kept := by
  simp [State.setLonePolicy]

/-! ### Halt Ops -/

@[simp ↓] theorem State.setHop_kept (s : State) (n : Nat) (h : Hop) : (s.setHop n h).kept = s.kept := by simp [State.setHop]

@[simp ↓] theorem State.acceptHop_kept (s : State) (issuer : Option Nat) (q : HopReq) (mode : HopMode) (origin : HopOrigin) :
    (s.acceptHop issuer q mode origin).1.kept = s.kept := by
  simp [State.acceptHop]

@[simp ↓] theorem State.issueHop_kept (s : State) (issuer : Option Nat) (q : HopReq) (origin : HopOrigin) :
    (s.issueHop issuer q origin).1.kept = s.kept := by
  unfold State.issueHop
  split <;> simp

@[simp ↓] theorem State.hopCode_kept (s : State) (n : Nat) (u : Uno) (code phase delta : Nat) :
    (s.hopCode n u code phase delta).kept = s.kept := by
  unfold State.hopCode
  split <;> simp

@[simp ↓] theorem State.setHopRing_kept (s : State) (p : Nat) (v : HopRing) : (s.setHopRing p v).kept = s.kept := by simp [State.setHopRing]

@[simp ↓] theorem State.writeRecord_kept (s : State) (p n : Nat) : (s.writeRecord p n).kept = s.kept := by
  unfold State.writeRecord
  dsimp only
  (repeat' split) <;> simp

@[simp ↓] theorem State.stopCore_kept (s : State) (n : Nat) (u : Uno) (sAt : Time) (code : Nat) :
    (s.stopCore n u sAt code).kept = s.kept := by
  unfold State.stopCore
  dsimp only
  (repeat' split) <;> simp

@[simp ↓] theorem State.confirmCore_kept (s : State) (n : Nat) (u : Uno) (code : Nat) : (s.confirmCore n u code).kept = s.kept := by
  simp [State.confirmCore]

@[simp ↓] theorem State.queueHalt_kept (s : State) (u : Uno) (o : TimedOp) : (s.queueHalt u o).kept = s.kept := by
  unfold State.queueHalt
  dsimp only
  (repeat' split) <;> simp

@[simp ↓] theorem State.hopLate_kept (s : State) (n : Nat) (u : Uno) (code : Nat) : (s.hopLate n u code).kept = s.kept := by
  unfold State.hopLate
  split <;> simp

@[simp ↓] theorem State.postLate_kept (s : State) (n : Nat) (u : Uno) (code : Nat) : (s.postLate n u code).kept = s.kept := by
  unfold State.postLate
  split <;> simp

@[simp ↓] theorem State.hopLateIf_kept (s : State) (b : Bool) (n : Nat) (u : Uno) (code : Nat) :
    (s.hopLateIf b n u code).kept = s.kept := by
  simp [State.hopLateIf]

@[simp ↓] theorem State.tapHalt_kept (s : State) (n : Nat) (h : Hop) (u : Uno) : (s.tapHalt n h u).kept = s.kept := by
  unfold State.tapHalt
  split <;> simp

@[simp ↓] theorem State.tapTimed_kept (s : State) (n : Nat) (h : Hop) (u : Uno) : (s.tapTimed n h u).kept = s.kept := by
  simp [State.tapTimed]

@[simp ↓] theorem State.tapReceive_kept (s : State) (n : Nat) (u : Uno) : (s.tapReceive n u).kept = s.kept := by
  unfold State.tapReceive
  split
  · rfl
  · split
    · rfl
    · split <;> simp

@[simp ↓] theorem State.tapApplies_kept (s : State) (n : Nat) (u : Uno) : (s.tapApplies n u).kept = s.kept := by
  unfold State.tapApplies
  dsimp only
  (repeat' split) <;> simp

@[simp ↓] theorem State.freezeAt_kept (s : State) (n : Nat) (u : Uno) : (s.freezeAt n u).kept = s.kept := by
  unfold State.freezeAt
  split <;> simp

@[simp ↓] theorem State.releaseAt_kept (s : State) (n : Nat) (ks : List Nat) : (s.releaseAt n ks).kept = s.kept := by
  unfold State.releaseAt
  split <;> simp

@[simp ↓] theorem State.setRport_kept (s : State) (router port : Nat) (v : RPort) : (s.setRport router port v).kept = s.kept := by
  simp [State.setRport]

@[simp ↓] theorem State.deliverParked_kept (s : State) (u : Uno) : (s.deliverParked u).kept = s.kept := by simp [State.deliverParked]
@[simp ↓] theorem State.setBound_kept (s : State) (k : Nat) (v : Boundary) : (s.setBound k v).kept = s.kept := by simp [State.setBound]

/-! ### Trace Ops -/

@[simp ↓] theorem State.setStation_kept (s : State) (cl : Uno) (v : StationQ) : (s.setStation cl v).kept = s.kept := by
  simp [State.setStation]

@[simp ↓] theorem State.setTapQ_kept (s : State) (core : Uno) (v : StationQ) : (s.setTapQ core v).kept = s.kept := by simp [State.setTapQ]

@[simp ↓] theorem State.stationDrop_kept (s : State) (cl : Uno) (chan : Nat) (why : BitVec 8) :
    (s.stationDrop cl chan why).kept = s.kept := by
  simp [State.stationDrop]

@[simp ↓] theorem State.stationPush_kept (s : State) (cl : Uno) (k : Packet) : (s.stationPush cl k).kept = s.kept := by
  simp [State.stationPush]

@[simp ↓] theorem State.tapPush_kept (s : State) (core : Uno) (k : Packet) : (s.tapPush core k).kept = s.kept := by simp [State.tapPush]
@[simp ↓] theorem State.drainTaps_kept (s : State) : s.drainTaps.kept = s.kept := by simp [State.drainTaps]
@[simp ↓] theorem State.clearDrops_kept (s : State) (cl : Uno) : (s.clearDrops cl).kept = s.kept := by simp [State.clearDrops]

@[simp ↓] theorem State.setFunnel_kept (s : State) (p : Nat) (v : List Packet) : (s.setFunnel p v).kept = s.kept := by
  simp [State.setFunnel]

@[simp ↓] theorem State.setStream_kept (s : State) (slot : Nat) (v : Option Stream) : (s.setStream slot v).kept = s.kept := by
  simp [State.setStream]

@[simp ↓] theorem State.setTpart_kept (s : State) (p slot : Nat) (v : TPart) : (s.setTpart p slot v).kept = s.kept := by
  simp [State.setTpart]

@[simp ↓] theorem State.partLose_kept (s : State) (p slot : Nat) (why : BitVec 8) : (s.partLose p slot why).kept = s.kept := by
  simp [State.partLose]

@[simp ↓] theorem State.funnelPush_kept (s : State) (p : Nat) (k : Packet) : (s.funnelPush p k).kept = s.kept := by
  unfold State.funnelPush
  split <;> simp

@[simp ↓] theorem State.serialCopy_kept (s : State) (slot p : Nat) (x : Stream) (t : TPart) (isTime : Bool) (ws : List Word) :
    (s.serialCopy slot p x t isTime ws).kept = s.kept := by
  simp [State.serialCopy]

@[simp ↓] theorem State.place_kept (s : State) (p slot : Nat) (x : Stream) (isTime pad : Bool) (ws : List Word) :
    (s.place p slot x isTime pad ws).kept = s.kept := by
  simp [State.place]

@[simp ↓] theorem State.nextPage_kept (s : State) (p slot : Nat) (x : Stream) (base : Time) : KeptIn s.kept (s.nextPage p slot x base) := by
  unfold State.nextPage
  dsimp only
  split <;> simp

theorem State.room_kept (s : State) (p slot : Nat) (x : Stream) (n : Nat) (base : Time) :
    ∀ r ∈ s.room p slot x n base, r.1.kept = s.kept := by
  unfold State.room
  dsimp only
  split
  · simp
  · intro r hr
    obtain ⟨t, ht, rfl⟩ := Option.map_eq_some_iff.mp hr
    exact ((State.nextPage_kept ..).all _ ht).trans (by simp)

@[simp ↓] theorem State.rebase_kept (s : State) (p slot : Nat) (x : Stream) (base : Time) : KeptIn s.kept (s.rebase p slot x base) := by
  unfold State.rebase
  split
  · simp
  · next h => simpa using State.room_kept _ _ _ _ _ _ _ h
  · next h => simpa using State.room_kept _ _ _ _ _ _ _ h

@[simp ↓] theorem State.near_kept (s : State) (p slot : Nat) (x : Stream) (at_ : Time) : KeptIn s.kept (s.near p slot x at_) := by
  simp [State.near]

@[simp ↓] theorem State.lossPacket_kept (s : State) (p slot : Nat) (x : Stream) : KeptIn s.kept (s.lossPacket p slot x) := by
  unfold State.lossPacket
  dsimp only
  split
  · simp
  · split
    · simp
    · next s1 h1 =>
      split
      · simp
      · next s2 _ h2 =>
        obtain ⟨r, hr, hn⟩ := Option.bind_eq_some_iff.mp h1
        have e1 : s1.kept = s.kept := ((State.near_kept ..).all _ hn).trans (State.room_kept _ _ _ _ _ _ _ hr)
        have e2 : s2.kept = s1.kept := State.room_kept _ _ _ _ _ _ _ h2
        simp [e1, e2]

@[simp ↓] theorem State.partFull_kept (s : State) (p slot : Nat) : (s.partFull p slot).kept = s.kept := by simp [State.partFull]

@[simp ↓] theorem State.partPut_kept (s : State) (p slot : Nat) (x : Stream) (k : Packet) : (s.partPut p slot x k).kept = s.kept := by
  unfold State.partPut
  dsimp only
  split
  · rfl
  split
  · simp
  split
  · simp
  split
  · simp
  split
  · simp
  · next s1 h1 =>
    have e1 : s1.kept = s.kept := (State.lossPacket_kept ..).all _ h1
    split
    · simp [e1]
    · split
      · simp [e1]
      · next s2 h2 =>
        have e2 : s2.kept = s.kept := ((State.near_kept ..).all _ h2).trans e1
        split
        · simp [e2]
        · next s3 fresh h3 =>
          have e3 : s3.kept = s.kept := (State.room_kept _ _ _ _ _ _ _ h3).trans e2
          split
          · simp [e3]
          · next s4 h4 =>
            have e4 : KeptIn s3.kept (if fresh then s3.lossPacket p slot x else some s3) := by simp
            simp [(e4.all s4 h4).trans e3]

@[simp ↓] theorem State.partStart_kept (s : State) (p slot : Nat) (x : Stream) : (s.partStart p slot x).kept = s.kept := by
  simp [State.partStart]

@[simp ↓] theorem State.funnelWrite_kept (s : State) (q : Nat) (k : Packet) : (s.funnelWrite q k).kept = s.kept := by
  unfold State.funnelWrite
  refine (State.kept_foldl fun t e => ?_).trans (by simp)
  (repeat' split) <;> simp

@[simp ↓] theorem State.sendPackets_kept (cl : Uno) (p n : Nat) (s : State) : (State.sendPackets cl p n s).kept = s.kept := by
  induction n generalizing s with
  | zero => rfl
  | succ n ih =>
    unfold State.sendPackets
    dsimp only
    split
    · next h => simp [ih, (State.sendReq_kept ..).all _ h]
    · rfl

@[simp ↓] theorem State.gather_kept (s : State) (q : Nat) : (s.gather q).kept = s.kept := by simp [State.gather]
@[simp ↓] theorem State.flushFunnel_kept (s : State) (q : Nat) : (s.flushFunnel q).kept = s.kept := by simp [State.flushFunnel]

@[simp ↓] theorem State.endStream_kept (s : State) (slot reason : Nat) : (s.endStream slot reason).kept = s.kept := by
  unfold State.endStream
  split <;> simp

@[simp ↓] theorem State.cutStream_kept (s : State) (slot : Nat) : (s.cutStream slot).kept = s.kept := by
  unfold State.cutStream
  split <;> simp

@[simp ↓] theorem State.rescanPart_kept (s : State) (p slot : Nat) : (s.rescanPart p slot).kept = s.kept := by
  unfold State.rescanPart
  split
  · rfl
  · dsimp only
    split
    · rfl
    · split
      · simp
      · next s2 h =>
        have h2 : s2.kept = s.kept := ((State.nextPage_kept ..).all _ h).trans (by simp)
        exact (KeptIn.getD (State.lossPacket_kept ..) rfl).trans h2

@[simp ↓] theorem State.rescanParts_kept (s : State) (p : Nat) : (s.rescanParts p).kept = s.kept := by simp [State.rescanParts]

@[simp ↓] theorem State.startWaiting_kept (s : State) (p : Nat) : (s.startWaiting p).kept = s.kept := by
  unfold State.startWaiting
  refine (State.kept_foldl fun t e => ?_).trans (by simp)
  (repeat' split) <;> simp

@[simp ↓] theorem State.ownPacket_kept (s : State) (p : Nat) (stamp : Uno) (k : Packet) : (s.ownPacket p stamp k).kept = s.kept := by
  unfold State.ownPacket
  split <;> simp

/-! ### Post Ops -/

@[simp ↓] theorem State.startWake_kept (s : State) (p : Nat) : (s.startWake p).kept = s.kept := by simp [State.startWake]
@[simp ↓] theorem State.autoStart_kept (s : State) (p : Nat) : (s.autoStart p).kept = s.kept := by simp [State.autoStart]

@[simp ↓] theorem State.creates_kept (s : State) (c : CmdCtx) (kind slot : Nat) (l : List (Bool × Nat)) (f : State → State)
    (h : (f s).kept = s.kept) : (s.creates c kind slot l f).kept = s.kept := State.judged_kept _ _ _ _ h

@[simp ↓] theorem State.usePosts_kept (s : State) (sess : Nat) (ps : List Nat) : (s.usePosts sess ps).kept = s.kept := by
  simp [State.usePosts]

@[simp ↓] theorem State.addresses_kept (s : State) (who : Option Nat) (u : Uno) : (s.addresses who u).kept = s.kept := by
  unfold State.addresses
  split <;> simp

/-! ### Break Ops -/

@[simp ↓] theorem State.setCmp_kept (s : State) (k : Nat) (v : Cmp) : (s.setCmp k v).kept = s.kept := by simp [State.setCmp]
@[simp ↓] theorem State.setCnt_kept (s : State) (k : Nat) (v : Cnt) : (s.setCnt k v).kept = s.kept := by simp [State.setCnt]
@[simp ↓] theorem State.setChain_kept (s : State) (k : Nat) (v : Chain) : (s.setChain k v).kept = s.kept := by simp [State.setChain]

@[simp ↓] theorem State.setTrigSet_kept (s : State) (slot : Nat) (v : Option TrigSet) : (s.setTrigSet slot v).kept = s.kept := by
  simp [State.setTrigSet]

@[simp ↓] theorem State.setPlace_kept (s : State) (k : Nat) (v : Option Place) : (s.setPlace k v).kept = s.kept := by simp [State.setPlace]

@[simp ↓] theorem State.issuePlaced_kept (s : State) (key p : Nat) (x : TrigSet) (action ascope : Nat) (scope : Uno) :
    (s.issuePlaced key p x action ascope scope).kept = s.kept := by
  unfold State.issuePlaced
  dsimp only
  (repeat' split) <;> simp

@[simp ↓] theorem State.chainHalt_kept (s : State) (p slot elem : Nat) (x : TrigSet) (action ascope : Nat) (u : Uno) :
    (s.chainHalt p slot elem x action ascope u).kept = s.kept := by
  unfold State.chainHalt
  dsimp only
  (repeat' split) <;> simp

@[simp ↓] theorem State.placeFrees_kept (s : State) (key action ascope : Nat) : (s.placeFrees key action ascope).kept = s.kept := by
  unfold State.placeFrees
  dsimp only
  (repeat' split) <;> simp

@[simp ↓] theorem State.chainEvent_kept (s : State) (owner : Nat) : (s.chainEvent owner).kept = s.kept := by simp [State.chainEvent]

@[simp ↓] theorem State.inkMark_kept (s : State) (x : TrigSet) (chan : Nat) (u : Uno) : (s.inkMark x chan u).kept = s.kept := by
  unfold State.inkMark
  split
  · rfl
  · split <;> simp

@[simp ↓] theorem State.preciseStop_kept (s : State) (u : Uno) (platform : Bool) (key : Nat) :
    (s.preciseStop u platform key).kept = s.kept := by
  simp [State.preciseStop]

@[simp ↓] theorem State.spend_kept (s : State) (slot elem : Nat) : (s.spend slot elem).kept = s.kept := by simp [State.spend]

@[simp ↓] theorem State.fire_kept (s : State) (key : Nat) (u : Uno) (cyc : Nat) : (s.fire key u cyc).kept = s.kept := by
  unfold State.fire
  extract_lets c p a action stepping suppress halting
  split
  · rfl
  · extract_lets scope hk hv s1 s2 s3 s4
    have h1 : s1.kept = s.kept := by simp [s1]
    have h2 : s2.kept = s.kept := by simp [s2, h1]
    have h3 : s3.kept = s.kept := by simp [s3, h2]
    have h4 : s4.kept = s.kept := by
      simp only [s4]
      split <;> simp [h3]
    split
    · exact h1
    · split
      · exact (State.chainHalt_kept ..).trans h4
      · exact h3

@[simp ↓] theorem State.stageMatch_kept (s : State) (key slot src : Nat) (u : Uno) (cyc : Nat) :
    (s.stageMatch key slot src u cyc).1.kept = s.kept := by
  unfold State.stageMatch
  dsimp only
  split
  · split <;> simp
  · rfl

@[simp ↓] theorem State.tapSource_kept (n : Nat) (s : State) (core : Uno) (slot src : Nat) :
    (State.tapSource n s core slot src).kept = s.kept := by
  induction n generalizing s slot src with
  | zero => rfl
  | succ n ih => simp [State.tapSource, ih]

@[simp ↓] theorem State.countAt_kept (s : State) (core j amount : Nat) : (s.countAt core j amount).kept = s.kept := by simp [State.countAt]

@[simp ↓] theorem State.tapMatch_kept (s : State) (core n ev local_ : Nat) : (s.tapMatch core n ev local_).kept = s.kept := by
  simp [State.tapMatch]

@[simp ↓] theorem State.sourceAt_kept (s : State) (holder : Uno) (slot src : Nat) (u : Uno) (n cyc : Nat) :
    (s.sourceAt holder slot src u n cyc).kept = s.kept := by
  simp [State.sourceAt]

@[simp ↓] theorem State.sourceAll_kept (s : State) (p src : Nat) : (s.sourceAll p src).kept = s.kept := by
  unfold State.sourceAll
  refine State.kept_foldl fun t e => ?_
  dsimp only
  (repeat' split) <;> simp

@[simp ↓] theorem State.rearmChains_kept (s : State) : s.rearmChains.kept = s.kept := by simp [State.rearmChains]

@[simp ↓] theorem State.releaseSpent_kept (s : State) (slot elem : Nat) : (s.releaseSpent slot elem).kept = s.kept := by
  simp [State.releaseSpent]

@[simp ↓] theorem State.placeCopy_kept (s : State) (x : TrigSet) (slot i : Nat) (e : Elem) (u : Uno) :
    (s.placeCopy x slot i e u).kept = s.kept := by
  unfold State.placeCopy
  dsimp only
  (repeat' split) <;> simp

@[simp ↓] theorem State.reservePlaces_kept (s : State) (slot i : Nat) (e : Elem) : (s.reservePlaces slot i e).kept = s.kept := by
  unfold State.reservePlaces
  split
  · refine State.kept_foldl fun t p => ?_
    split <;> simp
  · rfl

@[simp ↓] theorem State.maskLane_kept (s : State) (x : TrigSet) (on : Bool) : (s.maskLane x on).kept = s.kept := by
  unfold State.maskLane
  split <;> simp

@[simp ↓] theorem State.placeSet_kept (s : State) (slot : Nat) (x : TrigSet) : (s.placeSet slot x).kept = s.kept := by simp [State.placeSet]
@[simp ↓] theorem State.armSet_kept (s : State) (slot : Nat) (x : TrigSet) : (s.armSet slot x).kept = s.kept := by simp [State.armSet]

@[simp ↓] theorem State.removeSet_kept (s : State) (slot : Nat) (x : TrigSet) : (s.removeSet slot x).kept = s.kept := by
  simp [State.removeSet]

@[simp ↓] theorem State.unloadSet_kept (s : State) (slot reason : Nat) : (s.unloadSet slot reason).kept = s.kept := by
  unfold State.unloadSet
  split <;> simp

@[simp ↓] theorem State.waitFor_kept (s : State) (i : Instr) (ps : List Nat) : (s.waitFor i ps).kept = s.kept := by simp [State.waitFor]

@[simp ↓] theorem State.cntWrite_kept (s : State) (who : Option Nat) (u : Uno) (j : Nat) (thresh : Bool) (lo n v : Nat) :
    (s.cntWrite who u j thresh lo n v).kept = s.kept := by
  simp [State.cntWrite]

/-! ### Folio Ops -/

@[simp ↓] theorem State.setJob_kept (s : State) (j : Nat) (v : Option Job) : (s.setJob j v).kept = s.kept := by simp [State.setJob]

@[simp ↓] theorem State.createJob_kept (s : State) (slot owner : Nat) (engine : Option Nat) (arg : List Byte) :
    (s.createJob slot owner engine arg).kept = s.kept := by
  unfold State.createJob
  dsimp only
  (repeat' split) <;> simp

@[simp ↓] theorem State.startJob_kept (s : State) (slot : Nat) (j : Job) (skipHalt fend : Bool) :
    (s.startJob slot j skipHalt fend).kept = s.kept := by
  simp [State.startJob]

@[simp ↓] theorem State.readRef_kept (s : State) (j : Job) (g : Seg) (post : Nat) (ecc : Bool) :
    (s.readRef j g post ecc).kept = s.kept := by
  unfold State.readRef
  dsimp only
  (repeat' split) <;> simp

@[simp ↓] theorem State.startQueued_kept (s : State) (q : Nat) : (s.startQueued q).kept = s.kept := by
  unfold State.startQueued
  dsimp only
  (repeat' split) <;> simp

@[simp ↓] theorem State.fendResult_kept (s : State) (e slot status : Nat) : (s.fendResult e slot status).kept = s.kept := by
  simp [State.fendResult]

@[simp ↓] theorem State.finishJob_kept (s : State) (slot : Nat) : (s.finishJob slot).kept = s.kept := by
  unfold State.finishJob
  dsimp only
  (repeat' split) <;> simp

@[simp ↓] theorem State.keyUnused_kept (s : State) (slot : Nat) (j : Job) : (s.keyUnused slot j).kept = s.kept := by simp [State.keyUnused]

@[simp ↓] theorem State.cutJob_kept (s : State) (slot : Nat) (finishBegun : Bool) : (s.cutJob slot finishBegun).kept = s.kept := by
  unfold State.cutJob
  split <;> simp

@[simp ↓] theorem State.wcbLoss_kept (s : State) (slot : Nat) (j : Job) (q reason lines : Nat) :
    (s.wcbLoss slot j q reason lines).kept = s.kept := by
  simp [State.wcbLoss]

@[simp ↓] theorem State.drainPost_kept (s : State) (q reason lines : Nat) : (s.drainPost q reason lines).kept = s.kept := by
  unfold State.drainPost
  split <;> simp

@[simp ↓] theorem State.drainAll_kept (s : State) (reason : Nat) (us : List Undrained) : (s.drainAll reason us).kept = s.kept := by
  simp [State.drainAll]

/-! ### Sync Ops -/

@[simp ↓] theorem State.setWatch_kept (s : State) (w : Watch) : (s.setWatch w).kept = s.kept := by simp [State.setWatch]
@[simp ↓] theorem State.setWatcher_kept (s : State) (p : Nat) (v : Watcher) : (s.setWatcher p v).kept = s.kept := by simp [State.setWatcher]

@[simp ↓] theorem State.setPolicy_kept (s : State) (c : Ctx) (r : Nat) (v : Policy) : (s.setPolicy c r v).kept = s.kept := by
  simp [State.setPolicy]

@[simp ↓] theorem State.setDeadlock_kept (s : State) (c : Ctx) (v : Deadlock) : (s.setDeadlock c v).kept = s.kept := by
  simp [State.setDeadlock]

@[simp ↓] theorem State.setDeadline_kept (s : State) (p i : Nat) (v : Deadline) : (s.setDeadline p i v).kept = s.kept := by
  simp [State.setDeadline]

@[simp ↓] theorem State.setSyncObj_kept (s : State) (o : Uno) (v : SyncObj) : (s.setSyncObj o v).kept = s.kept := by simp [State.setSyncObj]

@[simp ↓] theorem State.samplePost_kept (s : State) (env : AccelSample) (p : Nat) : (s.samplePost env p).kept = s.kept := by
  simp [State.samplePost]

@[simp ↓] theorem State.sampleDue_kept (s : State) : s.sampleDue.kept = s.kept := by simp [State.sampleDue]

@[simp ↓] theorem State.issuePolicy_kept (s : State) (h : PolHalt) : (s.issuePolicy h).kept = s.kept := by
  unfold State.issuePolicy
  split <;> simp

@[simp ↓] theorem State.policyAct_kept (s : State) (c : Ctx) (r action issuer : Nat) : (s.policyAct c r action issuer).kept = s.kept := by
  simp [State.policyAct]

@[simp ↓] theorem State.endDeadline_kept (s : State) (p i state result : Nat) (doneT : Time) :
    (s.endDeadline p i state result doneT).kept = s.kept := by
  simp [State.endDeadline]

@[simp ↓] theorem State.freeDeadlines_kept (s : State) (f : Deadline → Bool) (result : Nat) : (s.freeDeadlines f result).kept = s.kept := by
  simp [State.freeDeadlines]

@[simp ↓] theorem State.applyMiss_kept (s : State) (p q i : Nat) : (s.applyMiss p q i).kept = s.kept := by simp [State.applyMiss]

@[simp ↓] theorem State.applyOwed_kept (s : State) (p : Nat) : (s.applyOwed p).kept = s.kept := by
  unfold State.applyOwed
  split <;> simp

@[simp ↓] theorem State.objWrite_kept (s : State) (o : Uno) (v : Word) : (s.objWrite o v).kept = s.kept := by
  unfold State.objWrite
  dsimp only
  (repeat' split) <;> simp

@[simp ↓] theorem State.clearDeadlock_kept (s : State) (c : Ctx) : (s.clearDeadlock c).kept = s.kept := by simp [State.clearDeadlock]

@[simp ↓] theorem State.clearPolicies_kept (s : State) (c : Ctx) : (s.clearPolicies c).kept = s.kept := by
  unfold State.clearPolicies
  refine State.kept_foldl fun t e => ?_
  dsimp only
  (repeat' split) <;> simp

/-! ### Objects -/

@[simp ↓] theorem State.dropEngineJobs_kept (s : State) (e : Nat) (forget : Bool) : (s.dropEngineJobs e forget).kept = s.kept := by
  unfold State.dropEngineJobs
  refine State.kept_foldl fun t e => ?_
  dsimp only
  (repeat' split) <;> simp

@[simp ↓] theorem State.returnEngine_kept (s : State) (e why : Nat) : (s.returnEngine e why).kept = s.kept := by simp [State.returnEngine]
@[simp ↓] theorem State.purgeHolds_kept (s : State) (kind slot : Nat) : (s.purgeHolds kind slot).kept = s.kept := by simp [State.purgeHolds]
@[simp ↓] theorem State.freeRefs_kept (s : State) (kind slot : Nat) : (s.freeRefs kind slot).kept = s.kept := by simp [State.freeRefs]
@[simp ↓] theorem State.discardBoundary_kept (s : State) (v : Uno) : (s.discardBoundary v).kept = s.kept := by simp [State.discardBoundary]

@[simp ↓] theorem State.resetPartition_kept (s : State) (v : Uno) (c : Ctx) : (s.resetPartition v c).kept = s.kept := by
  simp [State.resetPartition]

@[simp ↓] theorem State.clearPartition_kept (s : State) (slot : Uno) (g : Group) : (s.clearPartition slot g).kept = s.kept := by
  unfold State.clearPartition
  extract_lets c cart auth s1 s2 s3 s4 s5
  have h2 : s2.kept = s.kept := by
    refine (State.kept_foldl fun t i => ?_).trans (by simp [s1])
    (repeat' split) <;> simp
  have h3 : s3.kept = s2.kept := by
    refine State.kept_foldl fun t i => ?_
    (repeat' split) <;> simp
  simp [s5, s4, h3, h2]

@[simp ↓] theorem State.diedEvent_kept (s : State) (kind slot : Nat) : (s.diedEvent kind slot).kept = s.kept := by simp [State.diedEvent]

@[simp ↓] theorem State.dropJob_kept (s : State) (slot : Nat) : (s.dropJob slot).kept = s.kept := by
  unfold State.dropJob
  dsimp only
  (repeat' split) <;> simp

@[simp ↓] theorem State.dropGroup_kept (s : State) (slot : Uno) : (s.dropGroup slot).kept = s.kept := by
  unfold State.dropGroup
  split <;> simp

@[simp ↓] theorem State.disarmNow_kept (s : State) (slot : Nat) : (s.disarmNow slot).kept = s.kept := by
  unfold State.disarmNow
  dsimp only
  (repeat' split) <;> simp

@[simp ↓] theorem State.streamGone_kept (s : State) (slot : Nat) : (s.streamGone slot).kept = s.kept := by
  unfold State.streamGone
  split <;> simp

@[simp ↓] theorem State.perish_kept (s : State) (kind slot : Nat) : (s.perish kind slot).kept = s.kept := by simp [State.perish]

@[simp ↓] theorem State.reapN_kept (n : Nat) (s : State) : (State.reapN n s).kept = s.kept := by
  induction n generalizing s with
  | zero => rfl
  | succ n ih =>
    unfold State.reapN
    split <;> simp [ih]

@[simp ↓] theorem State.reap_kept (s : State) : s.reap.kept = s.kept := by simp [State.reap]

/-! ### Lone Ops -/

@[simp ↓] theorem State.loneHalt_kept (s : State) (p h : Nat) (c : Ctx) : (s.loneHalt p h c).kept = s.kept := by
  unfold State.loneHalt
  dsimp only
  (repeat' split) <;> simp

@[simp ↓] theorem State.lonePolicies_kept (s : State) (p : Nat) : (s.lonePolicies p).kept = s.kept := by simp [State.lonePolicies]

@[simp ↓] theorem State.loneFolio_kept (s : State) (p h : Nat) (c : Ctx) : (s.loneFolio p h c).kept = s.kept := by
  unfold State.loneFolio
  split <;> simp

@[simp ↓] theorem State.loneFolios_kept (s : State) (p : Nat) : (s.loneFolios p).kept = s.kept := by simp [State.loneFolios]

/-! ### Break -/

@[simp ↓] theorem execSetLoad_kept (c : CmdCtx) (slot : Nat) (arg : List Byte) (s : State) :
    keptAfter (execSetLoad c slot arg s) = some s.kept := by
  unfold execSetLoad
  dsimp only
  (repeat' split) <;> simp

@[simp ↓] theorem execSetArm_kept (slot : Nat) (s : State) : keptAfter (execSetArm slot s) = some s.kept := by
  unfold execSetArm
  split <;> simp

@[simp ↓] theorem execSetDisarm_kept (slot : Nat) (s : State) : keptAfter (execSetDisarm slot s) = some s.kept := by
  unfold execSetDisarm
  split <;> simp

@[simp ↓] theorem execIacMatch_kept (core : Uno) (n tg addr : Nat) (s : State) :
    keptAfter (execIacMatch core n tg addr s) = some s.kept := by
  simp [execIacMatch]

@[simp ↓] theorem execDacMatch_kept (core : Uno) (n tg : Nat) (store : Bool) (lanes : List Lane) (s : State) :
    keptAfter (execDacMatch core n tg store lanes s) = some s.kept := by
  simp [execDacMatch]

@[simp ↓] theorem execScmpMatch_kept (cluster : Uno) (n : Nat) (ev : ScmpEvent) (cyc : Nat) (s : State) :
    keptAfter (execScmpMatch cluster n ev cyc s) = some s.kept := by
  unfold execScmpMatch
  dsimp only
  (repeat' split) <;> simp

@[simp ↓] theorem execCounterEvent_kept (core : Uno) (n amount : Nat) (s : State) :
    keptAfter (execCounterEvent core n amount s) = some s.kept := by
  simp [execCounterEvent]

@[simp ↓] theorem execStageSourceArrival_kept (h : Holder) (chain src : Nat) (units : List Uno) (cyc : Nat) (s : State) :
    keptAfter (execStageSourceArrival h chain src units cyc s) = some s.kept := by
  unfold execStageSourceArrival
  dsimp only
  (repeat' split) <;> simp

@[simp ↓] theorem execChainWindowExpiry_kept (h : Holder) (chain : Nat) (s : State) :
    keptAfter (execChainWindowExpiry h chain s) = some s.kept := by
  simp [execChainWindowExpiry]

@[simp ↓] theorem execCountWrite_kept (p : Path) (core : Uno) (n : Nat) (v : Word) (s : State) :
    keptAfter (execCountWrite p core n v s) = some s.kept := by
  simp [execCountWrite]

@[simp ↓] theorem execFetchMatchDiscarded_kept (core : Uno) (s : State) : keptAfter (execFetchMatchDiscarded core s) = some s.kept := by
  simp [execFetchMatchDiscarded]

/-! ### Flash Ops -/

@[simp ↓] theorem State.setSector_kept (s : State) (die p : Nat) (v : Sector) : (s.setSector die p v).kept = s.kept := by
  simp [State.setSector]

@[simp ↓] theorem State.writeOn_kept (s : State) (l : Nat) (programmed : Bool) (die : Nat) :
    (s.writeOn l programmed die).kept = s.kept := by
  unfold State.writeOn
  split <;> simp

@[simp ↓] theorem State.writeSector_kept (s : State) (l : Nat) (programmed : Bool) : (s.writeSector l programmed).kept = s.kept := by
  simp [State.writeSector]

@[simp ↓] theorem State.wornReport_kept (s : State) (ws : List (Nat × Nat)) : (s.wornReport ws).kept = s.kept := by
  unfold State.wornReport
  split <;> simp

@[simp ↓] theorem State.refuseWorn_kept (s : State) (c : CmdCtx) (ws : List (Nat × Nat)) : (s.refuseWorn c ws).kept = s.kept := by
  simp [State.refuseWorn]

@[simp ↓] theorem State.eraseSector_kept (s : State) (l : Nat) : (s.eraseSector l).kept = s.kept := by simp [State.eraseSector]

@[simp ↓] theorem State.setStepRec_kept (s : State) (c i : Nat) (v : StepRec) : (s.setStepRec c i v).kept = s.kept := by
  simp [State.setStepRec]

@[simp ↓] theorem State.writeStep_kept (s : State) (tag src dst slot step : Nat) : (s.writeStep tag src dst slot step).kept = s.kept := by
  simp [State.writeStep]

@[simp ↓] theorem State.setUpd_kept (s : State) (u : Update) (h : u.rollback = s.upd.rollback) : (s.setUpd u).kept = s.kept := by
  simp [State.setUpd, h]

@[simp] theorem Update.setSlot_rollback (u : Update) (i : Nat) (v : Slot) : (u.setSlot i v).rollback = u.rollback := by
  unfold Update.setSlot
  split <;> rfl

@[simp ↓] theorem State.writeUpd_kept (s : State) (f : Update → Update) (h : ∀ u, (f u).rollback = u.rollback) :
    (s.writeUpd f).kept = s.kept := by
  simp [State.writeUpd, h]

@[simp ↓] theorem State.slotState_kept (s : State) (i st : Nat) : (s.slotState i st).kept = s.kept := by simp [State.slotState]
@[simp ↓] theorem State.updReport_kept (s : State) (code i : Nat) : (s.updReport code i).kept = s.kept := by simp [State.updReport]
@[simp ↓] theorem State.abandon_kept (s : State) : s.abandon.kept = s.kept := by simp [State.abandon]

/-! ### Folio -/

@[simp ↓] theorem execJobCreate_kept (c : CmdCtx) (slot : Nat) (arg : List Byte) (s : State) :
    keptAfter (execJobCreate c slot arg s) = some s.kept := by
  simp [execJobCreate]

@[simp ↓] theorem execJobStart_kept (c : CmdCtx) (slot : Nat) (s : State) : keptAfter (execJobStart c slot s) = some s.kept := by
  unfold execJobStart
  split <;> simp

@[simp ↓] theorem execQueuedPartStart_kept (post : Nat) (s : State) : keptAfter (execQueuedPartStart post s) = some s.kept := by
  simp [execQueuedPartStart]

@[simp ↓] theorem execCaptureBlock_kept (job post seg : Nat) (src : BlockSource) (foreign : List Nat) (refEcc : Bool) (coded : Option
    (List Byte)) (s : State) :
    keptAfter (execCaptureBlock job post seg src foreign refEcc coded s) = some s.kept := by
  unfold execCaptureBlock
  dsimp only
  (repeat' split) <;> simp

@[simp ↓] theorem execCommittedPointer_kept (job post : Nat) (s : State) : keptAfter (execCommittedPointer job post s) = some s.kept := by
  unfold execCommittedPointer
  dsimp only
  (repeat' split) <;> simp

@[simp ↓] theorem execPartEnd_kept (job post : Nat) (s : State) : keptAfter (execPartEnd job post s) = some s.kept := by
  unfold execPartEnd
  dsimp only
  (repeat' split) <;> simp

@[simp ↓] theorem execJobDone_kept (job : Nat) (s : State) : keptAfter (execJobDone job s) = some s.kept := by
  unfold execJobDone
  split <;> simp

@[simp ↓] theorem State.exportEvent_kept (s : State) (x : Export) (status : Nat) : (s.exportEvent x status).kept = s.kept := by
  simp [State.exportEvent]

@[simp ↓] theorem State.startExport_kept (s : State) (x : Export) (kind slot : Nat) : (s.startExport x kind slot).kept = s.kept := by
  simp [State.startExport]

@[simp ↓] theorem execFolioExport_kept (c : CmdCtx) (job : Nat) (render : Bool) (off len : Nat) (s : State) :
    keptAfter (execFolioExport c job render off len s) = some s.kept := by
  simp [execFolioExport]

@[simp ↓] theorem execStreamExport_kept (c : CmdCtx) (slot post : Nat) (consume : Bool) (pages : Nat) (s : State) :
    keptAfter (execStreamExport c slot post consume pages s) = some s.kept := by
  simp [execStreamExport]

@[simp ↓] theorem State.markEcc_kept (s : State) (slot off n : Nat) : (s.markEcc slot off n).kept = s.kept := by
  unfold State.markEcc
  split <;> simp

@[simp ↓] theorem State.setExport_kept (s : State) (i : Nat) (x : Export) : (s.setExport i x).kept = s.kept := by simp [State.setExport]

@[simp ↓] theorem State.moveChunk_kept (s : State) (i : Nat) (x : Export) : (s.moveChunk i x).kept = s.kept := by
  unfold State.moveChunk
  dsimp only
  (repeat' split) <;> simp

@[simp ↓] theorem execExportChunk_kept (i eccBlocks : Nat) (damaged : Bool) (s : State) :
    keptAfter (execExportChunk i eccBlocks damaged s) = some s.kept := by
  unfold execExportChunk
  split
  · rfl
  · (repeat' split) <;> simp

@[simp ↓] theorem execExportDone_kept (i : Nat) (s : State) : keptAfter (execExportDone i s) = some s.kept := by
  unfold execExportDone
  dsimp only
  (repeat' split) <;> simp

@[simp ↓] theorem execExportPauseTimeout_kept (i : Nat) (s : State) : keptAfter (execExportPauseTimeout i s) = some s.kept := by
  unfold execExportPauseTimeout
  split
  · rfl
  · split
    · rfl
    · split <;> simp

@[simp ↓] theorem State.eventAll_kept (s : State) (bit : Nat) : (s.eventAll bit).kept = s.kept := by simp [State.eventAll]

@[simp ↓] theorem State.keepDrained_kept (s : State) (slot : Nat) (us : List Undrained) : (s.keepDrained slot us).kept = s.kept := by
  unfold State.keepDrained
  split <;> simp

@[simp ↓] theorem execPwrWarn_kept (undrained : List Undrained) (s : State) : keptAfter (execPwrWarn undrained s) = some s.kept := by
  simp [execPwrWarn]

@[simp ↓] theorem execPwrWarnDeassert_kept (s : State) : keptAfter (execPwrWarnDeassert s) = some s.kept := by simp [execPwrWarnDeassert]

/-! ### Session Ops -/

@[simp ↓] theorem State.dropWaiting_kept (s : State) (slot : Nat) : (s.dropWaiting slot).kept = s.kept := by simp [State.dropWaiting]

@[simp ↓] theorem State.cutFallen_kept (s : State) (slot : Nat) : (s.cutFallen slot).kept = s.kept := by
  unfold State.cutFallen
  refine (State.kept_foldl fun t e => ?_).trans (by simp)
  (repeat' split) <;> simp

@[simp ↓] theorem State.guardOut_kept (s : State) : s.guardOut.kept = s.kept := by simp [State.guardOut]
@[simp ↓] theorem State.guardPins_kept (s : State) : s.guardPins.kept = s.kept := by simp [State.guardPins]
@[simp ↓] theorem State.dropPortKeys_kept (s : State) : s.dropPortKeys.kept = s.kept := by simp [State.dropPortKeys]
@[simp ↓] theorem State.forget_kept (s : State) (slot : Nat) : (s.forget slot).kept = s.kept := by simp [State.forget]

@[simp ↓] theorem State.dropHolds_kept (s : State) (slot : Nat) (keep : Bool) : (s.dropHolds slot keep).kept = s.kept := by
  unfold State.dropHolds
  split <;> simp

@[simp ↓] theorem State.closedEvent_kept (s : State) (slot reason : Nat) : (s.closedEvent slot reason).kept = s.kept := by
  simp [State.closedEvent]

@[simp ↓] theorem State.closeSession_kept (s : State) (slot reason : Nat) : (s.closeSession slot reason).kept = s.kept := by
  simp [State.closeSession]

@[simp ↓] theorem State.closeAll_kept (s : State) (reason : Nat) : (s.closeAll reason).kept = s.kept := by simp [State.closeAll]
@[simp ↓] theorem State.completeAll_kept (s : State) (status : Nat) : (s.completeAll status).kept = s.kept := by simp [State.completeAll]
@[simp ↓] theorem State.portReport_kept (s : State) (code : Nat) : (s.portReport code).kept = s.kept := by simp [State.portReport]
@[simp ↓] theorem State.portFail_kept (s : State) : s.portFail.kept = s.kept := by simp [State.portFail]
@[simp ↓] theorem State.portPass_kept (s : State) : s.portPass.kept = s.kept := by simp [State.portPass]

@[simp ↓] theorem State.tokenFail_kept (s : State) (slot : Nat) : (s.tokenFail slot).kept = s.kept := by
  unfold State.tokenFail
  dsimp only
  (repeat' split) <;> simp

@[simp ↓] theorem State.tokenPass_kept (s : State) (slot : Nat) (v : Verify) : (s.tokenPass slot v).kept = s.kept := by
  unfold State.tokenPass
  split <;> simp

/-! ### Pin Ops -/

@[simp ↓] theorem State.crossPulse_kept (s : State) : s.crossPulse.kept = s.kept := by simp [State.crossPulse]

@[simp ↓] theorem State.trigAt_kept (s : State) (p src : Nat) : (s.trigAt p src).kept = s.kept := by
  unfold State.trigAt
  split <;> simp

@[simp ↓] theorem State.guardEnds_kept (s : State) : s.guardEnds.kept = s.kept := by simp [State.guardEnds]
@[simp ↓] theorem State.ptCfgEffect_kept (s : State) (old : Nat) : (s.ptCfgEffect old).kept = s.kept := by simp [State.ptCfgEffect]
@[simp ↓] theorem State.aprAck_kept (s : State) (n : Nat) : (s.aprAck n).kept = s.kept := by simp [State.aprAck]
@[simp ↓] theorem State.clearLine_kept (s : State) : s.clearLine.kept = s.kept := by simp [State.clearLine]
@[simp ↓] theorem State.clearErr_kept (s : State) : s.clearErr.kept = s.kept := by simp [State.clearErr]

/-! ### Group Ops -/

@[simp ↓] theorem State.makeGroup_kept (s : State) (sess : Nat) (slot : Uno) (g : GroupRec) (partition : Bool) (freezeSet : Nat) :
    (s.makeGroup sess slot g partition freezeSet).kept = s.kept := by
  simp [State.makeGroup]

@[simp ↓] theorem State.bindCtx_kept (s : State) (slot : Uno) (lonePolicy : Nat) (r : List Byte) :
    (s.bindCtx slot lonePolicy r).kept = s.kept := by
  simp [State.bindCtx]

@[simp ↓] theorem State.installOp_kept (s : State) (r : List Byte) : (s.installOp r).kept = s.kept := by simp [State.installOp]
@[simp ↓] theorem State.loadOp_kept (s : State) : s.loadOp.kept = s.kept := by simp [State.loadOp]

/-! ### Halt -/

@[simp ↓] theorem State.hopCommand_kept (s : State) (c : CmdCtx) (kind : HopKind) (modeOk imm : Bool) (scope : Uno) (param : Word) :
    (s.hopCommand c kind modeOk imm scope param).kept = s.kept := by
  refine State.judged_kept _ _ _ _ ?_
  dsimp only
  split <;> simp

@[simp ↓] theorem execHaltCommand_kept (c : CmdCtx) (scope : Uno) (mode : Nat) (param : Word) (s : State) :
    keptAfter (execHaltCommand c scope mode param s) = some s.kept := by
  simp [execHaltCommand]

@[simp ↓] theorem execStepCommand_kept (c : CmdCtx) (scope : Uno) (param : Word) (s : State) :
    keptAfter (execStepCommand c scope param s) = some s.kept := by
  simp [execStepCommand]

@[simp ↓] theorem execResumeCommand_kept (c : CmdCtx) (scope : Uno) (param : Word) (s : State) :
    keptAfter (execResumeCommand c scope param s) = some s.kept := by
  simp [execResumeCommand]

@[simp ↓] theorem execFreezeCommand_kept (c : CmdCtx) (scope : Uno) (param : Word) (s : State) :
    keptAfter (execFreezeCommand c scope param s) = some s.kept := by
  simp [execFreezeCommand]

@[simp ↓] theorem execThawCommand_kept (c : CmdCtx) (scope : Uno) (param : Word) (s : State) :
    keptAfter (execThawCommand c scope param s) = some s.kept := by
  simp [execThawCommand]

@[simp ↓] theorem State.takeHop_kept (s : State) (hop : Nat) (h : Hop) (unit : Uno) : (s.takeHop hop h unit).kept = s.kept := by
  unfold State.takeHop
  split <;> simp

@[simp ↓] theorem execHopMulticast_kept (hop : Nat) (unit : Uno) (s : State) : keptAfter (execHopMulticast hop unit s) = some s.kept := by
  unfold execHopMulticast
  split
  · rfl
  · split
    · rfl
    · split
      · rfl
      · next h => simp [(State.sendUrg_kept ..).all _ h]

@[simp ↓] theorem State.matchHalt_kept (s : State) (n : Nat) (h : Hop) (u : Uno) (d : Nat) : (s.matchHalt n h u d).kept = s.kept := by
  unfold State.matchHalt
  split <;> simp

@[simp ↓] theorem execTargetTimeMatch_kept (core : Uno) (d : Nat) (s : State) : keptAfter (execTargetTimeMatch core d s) = some s.kept := by
  unfold execTargetTimeMatch
  dsimp only
  (repeat' split) <;> simp

@[simp ↓] theorem State.coresApply_kept (s : State) (n : Nat) (h : Hop) (unit : Uno) : (s.coresApply n h unit).kept = s.kept := by
  simp [State.coresApply]

@[simp ↓] theorem execClassFreeze_kept (hop : Nat) (unit : Uno) (s : State) : keptAfter (execClassFreeze hop unit s) = some s.kept := by
  unfold execClassFreeze
  split <;> simp

@[simp ↓] theorem execClassThaw_kept (hop : Nat) (unit : Uno) (s : State) : keptAfter (execClassThaw hop unit s) = some s.kept := by
  unfold execClassThaw
  split <;> simp

@[simp ↓] theorem execCoreSleep_kept (core : Uno) (s : State) : keptAfter (execCoreSleep core s) = some s.kept := by
  unfold execCoreSleep
  extract_lets c
  split
  · rfl
  · refine congrArg some ((State.kept_foldl fun r o => ?_).trans (State.setCore_kept ..))
    split <;> simp

@[simp ↓] theorem execCoreWakeRequest_kept (core : Uno) (s : State) : keptAfter (execCoreWakeRequest core s) = some s.kept := by
  simp [execCoreWakeRequest]

@[simp ↓] theorem execCoreSettled_kept (core : Uno) (s : State) : keptAfter (execCoreSettled core s) = some s.kept := by
  simp [execCoreSettled]

@[simp ↓] theorem State.park_kept (s : State) (router port : Nat) (flit : Flit) : (s.park router port flit).kept = s.kept := by
  simp [State.park]

@[simp ↓] theorem State.waitInPlace_kept (s : State) (router port : Nat) (flit : Flit) :
    (s.waitInPlace router port flit).kept = s.kept := by
  simp [State.waitInPlace]

@[simp ↓] theorem execFlitParked_kept (router : Uno) (port : Nat) (flit : Flit) (s : State) :
    keptAfter (execFlitParked router port flit s) = some s.kept := by
  unfold execFlitParked
  dsimp only
  (repeat' split) <;> simp

@[simp ↓] theorem execBoundaryHoldStart_kept (hop : Nat) (router cluster : Uno) (s : State) :
    keptAfter (execBoundaryHoldStart hop router cluster s) = some s.kept := by
  unfold execBoundaryHoldStart
  split <;> simp

@[simp ↓] theorem execStepStart_kept (hop : Nat) (core : Uno) (s : State) : keptAfter (execStepStart hop core s) = some s.kept := by
  unfold execStepStart
  split <;> simp

@[simp ↓] theorem execStepEnd_kept (core : Uno) (s : State) : keptAfter (execStepEnd core s) = some s.kept := by
  unfold execStepEnd
  dsimp only
  (repeat' split) <;> simp

@[simp ↓] theorem State.resumeCore_kept (s : State) (n : Nat) (h : Hop) (d : Nat) (u : Uno) : (s.resumeCore n h d u).kept = s.kept := by
  unfold State.resumeCore
  split <;> simp

@[simp ↓] theorem execResumeRelease_kept (hop stage d : Nat) (s : State) : keptAfter (execResumeRelease hop stage d s) = some s.kept := by
  unfold execResumeRelease
  split <;> simp

@[simp ↓] theorem execBoundaryRelease_kept (hop : Nat) (s : State) : keptAfter (execBoundaryRelease hop s) = some s.kept := by
  unfold execBoundaryRelease
  split <;> simp

@[simp ↓] theorem State.startCapture_kept (s : State) (n slot : Nat) : (s.startCapture n slot).kept = s.kept := by
  unfold State.startCapture
  split
  · rfl
  · split <;> simp

@[simp ↓] theorem State.chainDone_kept (s : State) (n p place : Nat) : (s.chainDone n p place).kept = s.kept := by
  unfold State.chainDone
  dsimp only
  (repeat' split) <;> simp

@[simp ↓] theorem State.hopFlags_kept (s : State) (h : Hop) : (s.hopFlags h).kept = s.kept := by
  unfold State.hopFlags
  split <;> simp

@[simp ↓] theorem State.completeHop_kept (s : State) (n status : Nat) : (s.completeHop n status).kept = s.kept := by
  unfold State.completeHop
  dsimp only
  (repeat' split) <;> simp

@[simp ↓] theorem execHopConfirmation_kept (hop : Nat) (unit : Uno) (s : State) :
    keptAfter (execHopConfirmation hop unit s) = some s.kept := by
  unfold execHopConfirmation
  split <;> simp

@[simp ↓] theorem execHopDeadline_kept (hop : Nat) (s : State) : keptAfter (execHopDeadline hop s) = some s.kept := by
  unfold execHopDeadline
  split <;> simp

@[simp ↓] theorem execLatticeHaltPulse_kept (chan die : Nat) (sentT : Time) (s : State) :
    keptAfter (execLatticeHaltPulse chan die sentT s) = some s.kept := by
  unfold execLatticeHaltPulse
  split
  · rfl
  · refine congrArg some (State.kept_foldl fun t e => ?_)
    dsimp only
    split
    · rfl
    · simp

/-! ### Reset Ops -/

@[simp ↓] theorem State.resetHop_kept (s : State) (n : Nat) : (s.resetHop n).kept = s.kept := by
  unfold State.resetHop
  split <;> simp

@[simp ↓] theorem State.cutJobs_kept (s : State) : s.cutJobs.kept = s.kept := by
  unfold State.cutJobs
  refine (State.kept_foldl fun t e => ?_).trans (by simp)
  (repeat' split) <;> simp

@[simp ↓] theorem State.restartTapChains_kept (s : State) : s.restartTapChains.kept = s.kept := by simp [State.restartTapChains]
@[simp ↓] theorem State.packageWarm_kept (s : State) : s.packageWarm.kept = s.kept := by simp [State.packageWarm]
@[simp ↓] theorem State.unloadAll_kept (s : State) (reason : Nat) : (s.unloadAll reason).kept = s.kept := by simp [State.unloadAll]
@[simp ↓] theorem State.endStreams_kept (s : State) (reason : Nat) : (s.endStreams reason).kept = s.kept := by simp [State.endStreams]

@[simp ↓] theorem State.dropExports_kept (s : State) : s.dropExports.kept = s.kept := by
  unfold State.dropExports
  refine (State.kept_foldl fun t e => ?_).trans (by simp)
  (repeat' split) <;> simp

@[simp ↓] theorem State.hubEnds_kept (s : State) (lossReason closeReason : Nat) (undrained : List Undrained) :
    (s.hubEnds lossReason closeReason undrained).kept = s.kept := by
  simp [State.hubEnds]

@[simp ↓] theorem State.hubWarmState_kept (s : State) : s.hubWarmState.kept = s.kept := by simp [State.hubWarmState]

@[simp ↓] theorem State.hubWarm_kept (s : State) (closeReason : Nat) (undrained : List Undrained) :
    (s.hubWarm closeReason undrained).kept = s.kept := by
  simp [State.hubWarm]

@[simp ↓] theorem State.hubColdState_kept (s : State) : s.hubColdState.kept = s.kept := by
  simp [State.hubColdState, Update.flash]

@[simp ↓] theorem State.hubCold_kept (s : State) (closeReason : Nat) (undrained : List Undrained) :
    (s.hubCold closeReason undrained).kept = s.kept := by
  simp [State.hubCold]

/-! ### Life Ops -/

@[simp ↓] theorem State.repairAt_kept (s : State) (i : Nat) : (s.repairAt i).kept = s.kept := by
  unfold State.repairAt
  split <;> simp

@[simp ↓] theorem State.repair_kept (s : State) : s.repair.kept = s.kept := by simp [State.repair]
@[simp ↓] theorem State.repairs_kept (s : State) : s.repairs.kept = s.kept := by simp [State.repairs]
@[simp ↓] theorem State.makeDevKeys_kept (s : State) : s.makeDevKeys.kept = s.kept := by simp [State.makeDevKeys]
@[simp ↓] theorem State.makeMakerKey_kept (s : State) : s.makeMakerKey.kept = s.kept := by simp [State.makeMakerKey]
@[simp ↓] theorem State.loadKeys_kept (s : State) : s.loadKeys.kept = s.kept := by simp [State.loadKeys]
@[simp ↓] theorem State.announce_kept (s : State) (code : Nat) : (s.announce code).kept = s.kept := by simp [State.announce]
@[simp ↓] theorem State.emptyDirectories_kept (s : State) : s.emptyDirectories.kept = s.kept := by simp [State.emptyDirectories]

@[simp ↓] theorem State.destroyPartitions_kept (s : State) : s.destroyPartitions.kept = s.kept := by
  unfold State.destroyPartitions
  refine (State.kept_foldl fun t e => ?_).trans (by simp)
  (repeat' split) <;> simp

@[simp ↓] theorem State.wipe_kept (s : State) : s.wipe.kept = s.kept := by simp [State.wipe]
@[simp ↓] theorem State.commit_kept (s : State) : s.commit.kept = s.kept := by simp [State.commit]

@[simp ↓] theorem State.beginTransition_kept (s : State) (slot dst : Nat) (r : List Byte) :
    (s.beginTransition slot dst r).kept = s.kept := by
  simp [State.beginTransition]

/-! ### Update Ops -/

@[simp ↓] theorem State.updRefuse_kept (s : State) (c : CmdCtx) (status : Nat) : (s.updRefuse c status).kept = s.kept := by
  simp [State.updRefuse]

@[simp ↓] theorem State.updDone_kept (s : State) (c : CmdCtx) (data : Word) : (s.updDone c data).kept = s.kept := by simp [State.updDone]

@[simp ↓] theorem State.updJudged_kept (s : State) (c : CmdCtx) (l : List (Bool × Nat)) (f : State → State) (h : (f s).kept = s.kept) :
    (s.updJudged c l f).kept = s.kept := by
  unfold State.updJudged
  split
  · rfl
  · split
    · exact State.updRefuse_kept ..
    · exact h

@[simp ↓] theorem State.verifyFails_kept (s : State) (i : Nat) : (s.verifyFails i).kept = s.kept := by simp [State.verifyFails]

@[simp ↓] theorem State.verifyPending_kept (s : State) : s.verifyPending.kept = s.kept := by
  unfold State.verifyPending
  split <;> simp

@[simp ↓] theorem State.bootSlot_kept (s : State) (i : Nat) (trial : Bool) : (s.bootSlot i trial).kept = s.kept := by
  simp [State.bootSlot]

@[simp ↓] theorem State.bootStanding_kept (s : State) (verify : Nat → Bool) : (s.bootStanding verify).kept = s.kept := by
  unfold State.bootStanding
  cases s.slotIn SlotState.confirmed <;> (dsimp only; (repeat' split) <;> simp)

@[simp ↓] theorem State.chooseSlot_kept (s : State) (verify : Nat → Bool) : (s.chooseSlot verify).kept = s.kept := by
  unfold State.chooseSlot
  split
  · simp
  · split <;> simp

@[simp ↓] theorem State.trialFails_kept (s : State) : s.trialFails.kept = s.kept := by simp [State.trialFails]

/-! ### Boot Ops -/

@[simp ↓] theorem State.epochDie_kept (s : State) (d : Nat) : (s.epochDie d).kept = s.kept := by
  unfold State.epochDie
  dsimp only
  (repeat' split) <;> simp

@[simp ↓] theorem State.rewriteLone_kept (s : State) (p : Nat) : (s.rewriteLone p).kept = s.kept := by
  unfold State.rewriteLone
  refine (State.kept_foldl fun t e => ?_).trans (by simp)
  (repeat' split) <;> simp

@[simp ↓] theorem State.clearPost_kept (s : State) (p why : Nat) : (s.clearPost p why).kept = s.kept := by simp [State.clearPost]
@[simp ↓] theorem State.postStarts_kept (s : State) (p : Nat) : (s.postStarts p).kept = s.kept := by simp [State.postStarts]

@[simp ↓] theorem State.postDies_kept (s : State) (p : Nat) (atStart : Bool) : (s.postDies p atStart).kept = s.kept := by
  unfold State.postDies
  dsimp only
  (repeat' split) <;> simp

@[simp ↓] theorem State.holdUnit_kept (s : State) (u : Uno) : (s.holdUnit u).kept = s.kept := by simp [State.holdUnit]
@[simp ↓] theorem State.holdDie_kept (s : State) (d : Nat) : (s.holdDie d).kept = s.kept := by simp [State.holdDie]
@[simp ↓] theorem State.degrade_kept (s : State) : s.degrade.kept = s.kept := by simp [State.degrade]
@[simp ↓] theorem State.deadPost_kept (s : State) (p : Nat) : (s.deadPost p).kept = s.kept := by simp [State.deadPost]

@[simp ↓] theorem State.deadUnit_kept (s : State) (u : Uno) : (s.deadUnit u).kept = s.kept := by
  unfold State.deadUnit
  split
  · rfl
  · split <;> simp

@[simp ↓] theorem State.carve_kept (s : State) (d : Nat) : (s.carve d).kept = s.kept := by simp [State.carve]
@[simp ↓] theorem State.carveAll_kept (s : State) : s.carveAll.kept = s.kept := by simp [State.carveAll]
@[simp ↓] theorem State.loadCopies_kept (s : State) : s.loadCopies.kept = s.kept := by simp [State.loadCopies]

@[simp ↓] theorem State.recreateJob_kept (s : State) (slot : Nat) : (s.recreateJob slot).kept = s.kept := by
  unfold State.recreateJob
  split <;> simp

@[simp ↓] theorem State.recordHalts_kept (s : State) : s.recordHalts.kept = s.kept := by simp [State.recordHalts]
@[simp ↓] theorem State.buildLegend_kept (s : State) : s.buildLegend.kept = s.kept := by simp [State.buildLegend]
@[simp ↓] theorem State.postsSettled_kept (s : State) : s.postsSettled.kept = s.kept := by simp [State.postsSettled]

/-! ### Firmware Update -/

@[simp ↓] theorem execUpdBegin_kept (c : CmdCtx) (header : List Byte) (sigOk : Bool) (s : State) :
    keptAfter (execUpdBegin c header sigOk s) = some s.kept := by
  simp [execUpdBegin]

@[simp ↓] theorem execUpdData_kept (c : CmdCtx) (off : Nat) (arg : List Byte) (s : State) :
    keptAfter (execUpdData c off arg s) = some s.kept := by
  simp [execUpdData]

@[simp ↓] theorem execUpdVerify_kept (c : CmdCtx) (sigOk digestOk : Bool) (s : State) :
    keptAfter (execUpdVerify c sigOk digestOk s) = some s.kept := by
  refine congrArg some (State.updJudged_kept _ _ _ _ ?_)
  split <;> simp

@[simp ↓] theorem execUpdActivate_kept (c : CmdCtx) (manual force : Bool) (s : State) :
    keptAfter (execUpdActivate c manual force s) = some s.kept := by
  simp [execUpdActivate]

@[simp ↓] theorem execUpdAbort_kept (c : CmdCtx) (s : State) : keptAfter (execUpdAbort c s) = some s.kept := by simp [execUpdAbort]

@[simp ↓] theorem execTrialConfirmTimeout_kept (s : State) : keptAfter (execTrialConfirmTimeout s) = some s.kept := by
  simp [execTrialConfirmTimeout]

/-! ### Sessions -/

@[simp ↓] theorem execOpenSession_kept (c : CmdCtx) (s : State) : keptAfter (execOpenSession c s) = some s.kept := by
  unfold execOpenSession
  dsimp only
  (repeat' split) <;> simp

@[simp ↓] theorem execCloseSession_kept (c : CmdCtx) (s : State) : keptAfter (execCloseSession c s) = some s.kept := by
  simp [execCloseSession]

@[simp ↓] theorem execGrant_kept (c : CmdCtx) (arg : List Byte) (s : State) : keptAfter (execGrant c arg s) = some s.kept := by
  unfold execGrant
  dsimp only
  (repeat' split) <;> simp

@[simp ↓] theorem execGrantVerifyDone_kept (sigOk : Bool) (s : State) : keptAfter (execGrantVerifyDone sigOk s) = some s.kept := by
  unfold execGrantVerifyDone
  dsimp only
  (repeat' split) <;> simp

@[simp ↓] theorem execGrantLapse_kept (session : Nat) (s : State) : keptAfter (execGrantLapse session s) = some s.kept := by
  simp [execGrantLapse]

@[simp ↓] theorem execTokenLockoutExpiry_kept (session : Nat) (s : State) : keptAfter (execTokenLockoutExpiry session s) = some s.kept := by
  unfold execTokenLockoutExpiry
  split <;> simp

@[simp ↓] theorem execAttest_kept (c : CmdCtx) (ctx : Ctx) (challenge : List Byte) (s : State) :
    keptAfter (execAttest c ctx challenge s) = some s.kept := by
  simp [execAttest]

@[simp ↓] theorem execCert_kept (c : CmdCtx) (s : State) : keptAfter (execCert c s) = some s.kept := by simp [execCert]

@[simp ↓] theorem execOpkey_kept (c : CmdCtx) (arg : List Byte) (pointOk unwrapOk sigOk : Bool) (s : State) :
    keptAfter (execOpkey c arg pointOk unwrapOk sigOk s) = some s.kept := by
  simp [execOpkey]

@[simp ↓] theorem execAcquire_kept (c : CmdCtx) (kind slot : Nat) (s : State) : keptAfter (execAcquire c kind slot s) = some s.kept := by
  simp [execAcquire]

@[simp ↓] theorem execRelease_kept (c : CmdCtx) (kind slot : Nat) (s : State) : keptAfter (execRelease c kind slot s) = some s.kept := by
  simp [execRelease]

@[simp ↓] theorem execGroupCreate_kept (c : CmdCtx) (slot : Uno) (arg : List Byte) (s : State) :
    keptAfter (execGroupCreate c slot arg s) = some s.kept := by
  simp [execGroupCreate]

@[simp ↓] theorem execPartitionCreate_kept (c : CmdCtx) (slot : Uno) (freezeSet lonePolicy : Nat) (arg : List Byte) (pointOk unwrapOk :
    Bool) (s : State) :
    keptAfter (execPartitionCreate c slot freezeSet lonePolicy arg pointOk unwrapOk s) = some s.kept := by
  simp [execPartitionCreate]

@[simp ↓] theorem execPartitionDestroy_kept (c : CmdCtx) (slot : Uno) (s : State) :
    keptAfter (execPartitionDestroy c slot s) = some s.kept := by
  refine congrArg some (State.judged_kept _ _ _ _ ?_)
  dsimp only
  split <;> simp

/-! ### Sync -/

@[simp ↓] theorem execSynchronisationWait_kept (group : Uno) (obj : Option Uno) (objCtx : Ctx) (s : State) :
    keptAfter (execSynchronisationWait group obj objCtx s) = some s.kept := by
  unfold execSynchronisationWait
  split <;> simp

@[simp ↓] theorem execProducerRegistration_kept (obj group : Uno) (objCtx : Ctx) (s : State) :
    keptAfter (execProducerRegistration obj group objCtx s) = some s.kept := by
  simp [execProducerRegistration]

@[simp ↓] theorem execSnapshotTime_kept (env : AccelSample) (s : State) : keptAfter (execSnapshotTime env s) = some s.kept := by
  simp [execSnapshotTime]

@[simp ↓] theorem execSnap_kept (post : Nat) (queued : List (Uno × Nat)) (s : State) :
    keptAfter (execSnap post queued s) = some s.kept := by
  unfold execSnap
  dsimp only
  (repeat' split) <;> simp

@[simp ↓] theorem State.declare_kept (s : State) (c : Ctx) (v : Uno) (quiet : Bool) (xs : List SnapEntry) (gs : List (Uno × BitVec 32))
    (t : Time) :
    (s.declare c v quiet xs gs t).kept = s.kept := by
  simp [State.declare]

@[simp ↓] theorem State.judgeCtx_kept (s : State) (g : Graph) (t : Time) (c : Ctx) : (s.judgeCtx g t c).kept = s.kept := by
  unfold State.judgeCtx
  split <;> simp

@[simp ↓] theorem execJoinComplete_kept (s : State) : keptAfter (execJoinComplete s) = some s.kept := by
  unfold execJoinComplete
  split <;> simp

@[simp ↓] theorem execPolicy_kept (c : CmdCtx) (ctx : Ctx) (row : Nat) (cycleEn quiescentEn : Bool) (dl dm job : Nat) (s : State) :
    keptAfter (execPolicy c ctx row cycleEn quiescentEn dl dm job s) = some s.kept := by
  refine congrArg some (State.judged_kept _ _ _ _ ?_)
  extract_lets sleeping
  split
  · simp
  · refine State.judged_kept _ _ _ _ ?_
    dsimp only
    cases (s.policy ctx row).job <;> simp

@[simp ↓] theorem execPolicyHaltIssue_kept (i : Nat) (s : State) : keptAfter (execPolicyHaltIssue i s) = some s.kept := by
  unfold execPolicyHaltIssue
  split <;> simp

@[simp ↓] theorem execDeadlineSet_kept (c : CmdCtx) (jobId : BitVec 32) (row : Nat) (obj : Uno) (target : Word) (t : Time) (s : State) :
    keptAfter (execDeadlineSet c jobId row obj target t s) = some s.kept := by
  simp [execDeadlineSet]

@[simp ↓] theorem execDeadlineClear_kept (c : CmdCtx) (ctx : Ctx) (row : Nat) (jobId : BitVec 32) (s : State) :
    keptAfter (execDeadlineClear c ctx row jobId s) = some s.kept := by
  simp [execDeadlineClear]

@[simp ↓] theorem execDeadlineMet_kept (post i : Nat) (value : Word) (s : State) :
    keptAfter (execDeadlineMet post i value s) = some s.kept := by
  simp [execDeadlineMet]

@[simp ↓] theorem execDeadlineMissed_kept (post i : Nat) (s : State) : keptAfter (execDeadlineMissed post i s) = some s.kept := by
  unfold execDeadlineMissed
  dsimp only
  (repeat' split) <;> simp

/-! ### Boot -/

@[simp ↓] theorem execPackagePowerOn_kept (s : State) : keptAfter (execPackagePowerOn s) = some s.kept := by
  simp [execPackagePowerOn, Update.flash]

@[simp ↓] theorem execAonResetRelease_kept (s : State) : keptAfter (execAonResetRelease s) = some s.kept := by simp [execAonResetRelease]

@[simp ↓] theorem execHubColdReset_kept (c : CmdCtx) (undrained : List Undrained) (s : State) :
    keptAfter (execHubColdReset c undrained s) = some s.kept := by
  simp [execHubColdReset]

@[simp ↓] theorem execHubWarmReset_kept (c : CmdCtx) (undrained : List Undrained) (s : State) :
    keptAfter (execHubWarmReset c undrained s) = some s.kept := by
  simp [execHubWarmReset]

@[simp ↓] theorem execPackageWarmReset_kept (s : State) : keptAfter (execPackageWarmReset s) = some s.kept := by simp [execPackageWarmReset]

@[simp ↓] theorem execBootSelfTest_kept (okA okB : Bool) (s : State) : keptAfter (execBootSelfTest okA okB s) = some s.kept := by
  simp [execBootSelfTest]

@[simp ↓] theorem State.mapOut_kept (s : State) (ctrl : Nat) (bad : BitVec 32) : (s.mapOut ctrl bad).kept = s.kept := by simp [State.mapOut]
@[simp ↓] theorem State.hbmEnds_kept (s : State) (ctrl : Nat) : (s.hbmEnds ctrl).kept = s.kept := by simp [State.hbmEnds]

@[simp ↓] theorem execHbmReady_kept (ctrl : Nat) (bad : BitVec 32) (s : State) : keptAfter (execHbmReady ctrl bad s) = some s.kept := by
  simp [execHbmReady]

@[simp ↓] theorem execHbmReadyTimeout_kept (ctrl : Nat) (s : State) : keptAfter (execHbmReadyTimeout ctrl s) = some s.kept := by
  simp [execHbmReadyTimeout]

@[simp ↓] theorem execEnumerationClose_kept (dead : List Uno) (s : State) : keptAfter (execEnumerationClose dead s) = some s.kept := by
  simp [execEnumerationClose]

@[simp ↓] theorem execCoreRelease_kept (s : State) : keptAfter (execCoreRelease s) = some s.kept := by
  unfold execCoreRelease
  split
  · rfl
  · split
    · rfl
    · next h => simp [(State.sendUrg_kept ..).all _ h]

@[simp ↓] theorem execCreditRefill_kept (s : State) : keptAfter (execCreditRefill s) = some s.kept := by simp [execCreditRefill]
@[simp ↓] theorem execEpoch_kept (s : State) : keptAfter (execEpoch s) = some s.kept := by simp [execEpoch]

@[simp ↓] theorem execMeridianLoadFlit_kept (die : Nat) (value : Time) (s : State) :
    keptAfter (execMeridianLoadFlit die value s) = some s.kept := by
  unfold execMeridianLoadFlit
  dsimp only
  split
  · split
    · rfl
    · next h => simp [(State.sendUrg_kept ..).all _ h]
  · rfl

@[simp ↓] theorem execLinkRetrain_kept (near far : Nat) (failed : Bool) (s : State) :
    keptAfter (execLinkRetrain near far failed s) = some s.kept := by
  simp [execLinkRetrain]

@[simp ↓] theorem execLinkTrainingEnd_kept (near far delay : Nat) (s : State) :
    keptAfter (execLinkTrainingEnd near far delay s) = some s.kept := by
  simp [execLinkTrainingEnd]

@[simp ↓] theorem execPllUnlock_kept (die : Nat) (s : State) : keptAfter (execPllUnlock die s) = some s.kept := by simp [execPllUnlock]
@[simp ↓] theorem execPllRelock_kept (die : Nat) (s : State) : keptAfter (execPllRelock die s) = some s.kept := by simp [execPllRelock]

@[simp ↓] theorem execRelockReport_kept (die : Nat) (s : State) : keptAfter (execRelockReport die s) = some s.kept := by
  simp [execRelockReport]

@[simp ↓] theorem execXtrigPulse_kept (die : Nat) (s : State) : keptAfter (execXtrigPulse die s) = some s.kept := by simp [execXtrigPulse]

@[simp ↓] theorem execPostPower_kept (c : CmdCtx) (post action : Nat) (s : State) :
    keptAfter (execPostPower c post action s) = some s.kept := by
  simp [execPostPower]

@[simp ↓] theorem execPostWakeDone_kept (post : Nat) (pass : Bool) (s : State) :
    keptAfter (execPostWakeDone post pass s) = some s.kept := by
  simp [execPostWakeDone]

@[simp ↓] theorem execHeldRequestResume_kept (i : Nat) (s : State) : keptAfter (execHeldRequestResume i s) = some s.kept := by
  unfold execHeldRequestResume
  dsimp only
  (repeat' split) <;> simp

/-! ### Cartouche -/

@[simp ↓] theorem execCartoucheReport_kept (reporter : Uno) (cls code : Nat) (detail : List Byte) (ctx : Ctx) (s : State) :
    keptAfter (execCartoucheReport reporter cls code detail ctx s) = some s.kept := by
  simp [execCartoucheReport]

@[simp ↓] theorem State.forwardRec_kept (s : State) (router : Uno) (r : Rec) : KeptIn s.kept (s.forwardRec router r) := by
  unfold State.forwardRec
  split
  · exact (State.sendRec_kept ..).map (by simp)
  · split
    · exact (State.sendRec_kept ..).map (by simp)
    · simp

@[simp ↓] theorem State.setMergeTable_kept (s : State) (router : Uno) (v : List Merge) : (s.setMergeTable router v).kept = s.kept := by
  simp [State.setMergeTable]

@[simp ↓] theorem State.crossRec_kept (s : State) (src router : Uno) : KeptIn s.kept (s.crossRec src router) := by
  simp [State.crossRec]

@[simp ↓] theorem State.takeRec_kept (s : State) (router : Uno) (r : Rec) : KeptIn s.kept (s.takeRec router r) := by
  unfold State.takeRec
  split
  · exact (State.crossRec_kept ..).map (by simp)
  · split <;> simp

@[simp ↓] theorem State.routeRec_kept (s : State) (router : Uno) (r : Rec) : KeptIn s.kept (s.routeRec router r) := by
  simp [State.routeRec]

@[simp ↓] theorem execCartoucheArrival_kept (router : Uno) (r : Rec) (s : State) :
    keptAfter (execCartoucheArrival router r s) = some s.kept := by
  unfold execCartoucheArrival
  split
  · exact congrArg some (KeptIn.getD ((State.takeRec_kept ..).bind fun t => State.routeRec_kept ..) rfl)
  · rfl

@[simp ↓] theorem execCloseTime_kept (router : Uno) (i : Nat) (s : State) : keptAfter (execCloseTime router i s) = some s.kept := by
  unfold execCloseTime
  dsimp only
  split
  · rfl
  · split
    · exact congrArg some (KeptIn.getD ((State.forwardRec_kept ..).map (by simp)) rfl)
    · rfl

@[simp ↓] theorem State.faultnSet_kept (s : State) (cls : Nat) : (s.faultnSet cls).kept = s.kept := by simp [State.faultnSet]
@[simp ↓] theorem State.intakeFold_kept (s : State) (r : Rec) : (s.intakeFold r).kept = s.kept := by simp [State.intakeFold]
@[simp ↓] theorem State.intakeTake_kept (s : State) (r : Rec) : (s.intakeTake r).kept = s.kept := by simp [State.intakeTake]

@[simp ↓] theorem execIntakeArrival_kept (r : Rec) (s : State) : keptAfter (execIntakeArrival r s) = some s.kept := by
  unfold execIntakeArrival
  dsimp only
  (repeat' split) <;> simp

@[simp ↓] theorem State.ringTake_kept (s : State) (r : Rec) : (s.ringTake r).kept = s.kept := by
  unfold State.ringTake
  dsimp only
  split
  · simp
  · split <;> simp

@[simp ↓] theorem State.intakeRelease_kept (s : State) : s.intakeRelease.kept = s.kept := by
  unfold State.intakeRelease
  split <;> simp

@[simp ↓] theorem execCollectorWrite_kept (s : State) : keptAfter (execCollectorWrite s) = some s.kept := by
  unfold execCollectorWrite
  dsimp only
  (repeat' split) <;> simp

@[simp ↓] theorem State.caPop_kept (s : State) (who : Option Nat) (v : BitVec 32) : (s.caPop who v).kept = s.kept := by simp [State.caPop]

@[simp ↓] theorem execCmpCaPop_kept (p : Path) (v : BitVec 32) (s : State) : keptAfter (execCmpCaPop p v s) = some s.kept := by
  simp [execCmpCaPop]

@[simp ↓] theorem State.faultnClear_kept (s : State) (who : Option Nat) : (s.faultnClear who).kept = s.kept := by simp [State.faultnClear]

@[simp ↓] theorem execFaultnRelease_kept (p : Path) (s : State) : keptAfter (execFaultnRelease p s) = some s.kept := by
  simp [execFaultnRelease]

@[simp ↓] theorem State.ctxLostClear_kept (s : State) (who : Option Nat) : (s.ctxLostClear who).kept = s.kept := by
  simp [State.ctxLostClear]

@[simp ↓] theorem execCtxLostClear_kept (p : Path) (s : State) : keptAfter (execCtxLostClear p s) = some s.kept := by
  simp [execCtxLostClear]

/-! ### Failover -/

@[simp ↓] theorem execHeartbeatFrame_kept (atB : Bool) (s : State) : keptAfter (execHeartbeatFrame atB s) = some s.kept := by
  simp [execHeartbeatFrame]

@[simp ↓] theorem execMirrorFrame_kept (s : State) : keptAfter (execMirrorFrame s) = some s.kept := by simp [execMirrorFrame]

@[simp ↓] theorem execHeartbeatMiss_kept (atB : Bool) (s : State) : keptAfter (execHeartbeatMiss atB s) = some s.kept := by
  simp [execHeartbeatMiss]

@[simp ↓] theorem execPeerProbeAnswer_kept (s : State) : keptAfter (execPeerProbeAnswer s) = some s.kept := by simp [execPeerProbeAnswer]

@[simp ↓] theorem State.loseRecords_kept (s : State) : s.loseRecords.kept = s.kept := by
  unfold State.loseRecords
  exact (State.kept_foldl fun t e => by simp).trans (by simp)

@[simp ↓] theorem State.abandonJoin_kept (s : State) : s.abandonJoin.kept = s.kept := by simp [State.abandonJoin]
@[simp ↓] theorem State.rootTaken_kept (s : State) : s.rootTaken.kept = s.kept := by simp [State.rootTaken]
@[simp ↓] theorem State.serialLost_kept (s : State) : s.serialLost.kept = s.kept := by simp [State.serialLost]
@[simp ↓] theorem State.portCut_kept (s : State) : s.portCut.kept = s.kept := by simp [State.portCut]
@[simp ↓] theorem State.takeover_kept (s : State) : s.takeover.kept = s.kept := by simp [State.takeover]
@[simp ↓] theorem execPeerProbeTimeout_kept (s : State) : keptAfter (execPeerProbeTimeout s) = some s.kept := by simp [execPeerProbeTimeout]

@[simp ↓] theorem execTakeoverMulticast_kept (unit : Uno) (s : State) : keptAfter (execTakeoverMulticast unit s) = some s.kept := by
  unfold execTakeoverMulticast
  dsimp only
  (repeat' split) <;> simp

@[simp ↓] theorem execPostHeartbeat_kept (post : Nat) (s : State) : keptAfter (execPostHeartbeat post s) = some s.kept := by
  simp [execPostHeartbeat]

@[simp ↓] theorem execPostHeartbeatArrival_kept (post : Nat) (s : State) : keptAfter (execPostHeartbeatArrival post s) = some s.kept := by
  unfold execPostHeartbeatArrival
  split
  · split
    · next h => simp [(State.sendUrg_kept ..).all _ h]
    · rfl
  · rfl

@[simp ↓] theorem execHeartbeatAck_kept (post : Nat) (s : State) : keptAfter (execHeartbeatAck post s) = some s.kept := by
  unfold execHeartbeatAck
  split
  · split
    · next h => simp [(State.sendUrg_kept ..).all _ h]
    · rfl
  · rfl

@[simp ↓] theorem execPostLost_kept (post : Nat) (s : State) : keptAfter (execPostLost post s) = some s.kept := by simp [execPostLost]

@[simp ↓] theorem execPostMemoryError_kept (post : Nat) (s : State) : keptAfter (execPostMemoryError post s) = some s.kept := by
  simp [execPostMemoryError]

@[simp ↓] theorem State.rescanJobs_kept (s : State) (p : Nat) (adopted : Bool) : (s.rescanJobs p adopted).kept = s.kept := by
  unfold State.rescanJobs
  refine State.kept_foldl fun t e => ?_
  dsimp only
  (repeat' split) <;> simp

@[simp ↓] theorem State.unloadCombiners_kept (s : State) (p reason : Nat) : (s.unloadCombiners p reason).kept = s.kept := by
  simp [State.unloadCombiners]

@[simp ↓] theorem State.inheritHops_kept (s : State) (p : Nat) (old : HopRing) : (s.inheritHops p old).kept = s.kept := by
  unfold State.inheritHops
  refine (State.kept_foldl fun t e => ?_).trans (by simp)
  (repeat' split) <;> simp

@[simp ↓] theorem execAdopt_kept (post undrained : Nat) (s : State) : keptAfter (execAdopt post undrained s) = some s.kept := by
  simp [execAdopt]

@[simp ↓] theorem execPostRestart_kept (c : CmdCtx) (post undrained : Nat) (s : State) :
    keptAfter (execPostRestart c post undrained s) = some s.kept := by
  simp [execPostRestart]

@[simp ↓] theorem State.postResumes_kept (s : State) (p : Nat) : (s.postResumes p).kept = s.kept := by simp [State.postResumes]

@[simp ↓] theorem execPostRestartDone_kept (post : Nat) (pass : Bool) (s : State) :
    keptAfter (execPostRestartDone post pass s) = some s.kept := by
  simp [execPostRestartDone]

@[simp ↓] theorem execPostRestored_kept (post : Nat) (s : State) : keptAfter (execPostRestored post s) = some s.kept := by
  simp [execPostRestored]

@[simp ↓] theorem execLoneSurvey_kept (post : Nat) (s : State) : keptAfter (execLoneSurvey post s) = some s.kept := by simp [execLoneSurvey]

/-! ### Lifecycle -/

@[simp ↓] theorem execLifecycleDecide_kept (s : State) : keptAfter (execLifecycleDecide s) = some s.kept := by
  unfold execLifecycleDecide
  dsimp only
  (repeat' split) <;> simp

@[simp ↓] theorem execUflashWrite_kept (c : CmdCtx) (sector : Nat) (data : List Byte) (s : State) :
    keptAfter (execUflashWrite c sector data s) = some s.kept := by
  simp [execUflashWrite]

@[simp ↓] theorem execUflashRead_kept (c : CmdCtx) (sector : Nat) (s : State) : keptAfter (execUflashRead c sector s) = some s.kept :=
  congrArg some (State.judged_kept _ _ _ _ ((State.complete_kept ..).trans (State.give_kept ..)))

@[simp ↓] theorem execLifecycle_kept (c : CmdCtx) (arg : List Byte) (pointOk unwrapOk : Bool) (s : State) :
    keptAfter (execLifecycle c arg pointOk unwrapOk s) = some s.kept := by
  refine congrArg some (State.judged_kept _ _ _ _ ?_)
  dsimp only
  split <;> simp

@[simp ↓] theorem execWipeComplete_kept (s : State) : keptAfter (execWipeComplete s) = some s.kept := by simp [execWipeComplete]

/-! ### Trace -/

@[simp ↓] theorem execInkwellStore_kept (group : Uno) (lanes : List InkStore) (s : State) :
    keptAfter (execInkwellStore group lanes s) = some s.kept := by
  unfold execInkwellStore
  dsimp only
  (repeat' split) <;> simp

@[simp ↓] theorem execStationDropReport_kept (cluster : Uno) (s : State) : keptAfter (execStationDropReport cluster s) = some s.kept := by
  unfold execStationDropReport
  extract_lets q p due d
  split
  · rfl
  · refine congrArg some ((State.kept_foldl fun t e => ?_).trans (State.clearDrops_kept ..))
    split <;> simp

@[simp ↓] theorem execFunnelPacket_kept (post : Nat) (s : State) : keptAfter (execFunnelPacket post s) = some s.kept := by
  unfold execFunnelPacket
  dsimp only
  (repeat' split) <;> simp

@[simp ↓] theorem execLossPacket_kept (post slot : Nat) (s : State) : keptAfter (execLossPacket post slot s) = some s.kept := by
  unfold execLossPacket
  dsimp only
  split
  · split
    · exact congrArg some (KeptIn.getD (State.lossPacket_kept ..) (by simp))
    · rfl
  · rfl

@[simp ↓] theorem execLineCommit_kept (post slot : Nat) (s : State) : keptAfter (execLineCommit post slot s) = some s.kept := by
  simp [execLineCommit]

@[simp ↓] theorem State.wrapPart_kept (s : State) (p slot : Nat) (x : Stream) : (s.wrapPart p slot x).kept = s.kept := by
  unfold State.wrapPart
  dsimp only
  split
  · rfl
  · refine (State.setTpart_kept ..).trans ?_
    split
    · next h =>
      obtain ⟨s1, h1, h2⟩ := Option.bind_eq_some_iff.mp h
      simp [(State.room_kept _ _ _ _ _ _ _ h2).trans ((State.lossPacket_kept ..).all _ h1)]
    · simp

@[simp ↓] theorem execMeridianWrap_kept (s : State) : keptAfter (execMeridianWrap s) = some s.kept := by
  unfold execMeridianWrap
  split
  · rfl
  · extract_lets s1 s2 pkg
    have h1 : s1.kept = s.kept := by simp [s1]
    have h2 : s2.kept = s1.kept := by
      refine State.kept_foldl fun t e => ?_
      split <;> simp
    simp [pkg, h2, h1]

@[simp ↓] theorem execStreamCreate_kept (c : CmdCtx) (slot : Nat) (arg : List Byte) (s : State) :
    keptAfter (execStreamCreate c slot arg s) = some s.kept := by
  simp [execStreamCreate]

@[simp ↓] theorem State.itFree_kept (s : State) (p : Path) (post count : Nat) : (s.itFree p post count).kept = s.kept := by
  unfold State.itFree
  dsimp only
  (repeat' split) <;> simp

@[simp ↓] theorem execSvpItFree_kept (p : Path) (post count : Nat) (s : State) :
    keptAfter (execSvpItFree p post count s) = some s.kept := by
  simp [execSvpItFree]

@[simp ↓] theorem execStreamEnded_kept (slot : Nat) (s : State) : keptAfter (execStreamEnded slot s) = some s.kept := by
  unfold execStreamEnded
  split <;> simp

@[simp ↓] theorem execSerialWord_kept (s : State) : keptAfter (execSerialWord s) = some s.kept := by simp [execSerialWord]

/-! ### Views -/

@[simp ↓] theorem State.setCq_kept (s : State) (q : Nat) (v : CQ) : (s.setCq q v).kept = s.kept := by simp [State.setCq]

/-! ### Host Ops -/

@[simp ↓] theorem State.doorbell_kept (s : State) (q prod : Nat) : (s.doorbell q prod).kept = s.kept := by simp [State.doorbell]
@[simp ↓] theorem State.clearDbErr_kept (s : State) (q : Nat) : (s.clearDbErr q).kept = s.kept := by simp [State.clearDbErr]
@[simp ↓] theorem State.ringHead_kept (s : State) (r head : Nat) : (s.ringHead r head).kept = s.kept := by simp [State.ringHead]
@[simp ↓] theorem State.ringOn_kept (s : State) (r : Nat) : (s.ringOn r).kept = s.kept := by simp [State.ringOn]
@[simp ↓] theorem State.ringOff_kept (s : State) (r : Nat) : (s.ringOff r).kept = s.kept := by simp [State.ringOff]
@[simp ↓] theorem State.ringLostClear_kept (s : State) (r : Nat) : (s.ringLostClear r).kept = s.kept := by simp [State.ringLostClear]
@[simp ↓] theorem State.drainRings_kept (s : State) : s.drainRings.kept = s.kept := by simp [State.drainRings]

@[simp ↓] theorem State.bind_kept (s : State) (slot : Nat) (scheck : BitVec 32) : (s.bind slot scheck).kept = s.kept := by
  unfold State.bind
  split <;> simp

@[simp ↓] theorem State.unbind_kept (s : State) : s.unbind.kept = s.kept := by simp [State.unbind]
@[simp ↓] theorem State.signal_kept (s : State) (v : Nat) : (s.signal v).kept = s.kept := by simp [State.signal]

/-! ### Reg Read -/

@[simp ↓] theorem State.reservedAt_kept (s : State) (path : Path) (addr : Nat) (ctx : Ctx) :
    (s.reservedAt path addr ctx).kept = s.kept := by
  simp [State.reservedAt]

@[simp ↓] theorem State.readAccess_kept (s : State) (path : Path) (addr : Nat) (w8 : Bool) :
    (s.readAccess path addr w8).1.kept = s.kept := by
  unfold State.readAccess
  dsimp only
  split
  · rfl
  · split
    · split
      · rfl
      · split <;> simp
    · split
      · split <;> rfl
      · rfl

/-! ### Tap Write -/

@[simp ↓] theorem State.configReserved_kept (s : State) (who : Option Nat) (u off : Nat) : (s.configReserved who u off).kept = s.kept := by
  simp [State.configReserved]

@[simp ↓] theorem State.configRead_kept (s : State) (who : Option Nat) (u off n : Nat) : (s.configRead who u off n).1.kept = s.kept := by
  unfold State.configRead
  dsimp only
  split <;> simp

@[simp ↓] theorem State.reservedFields_kept (s : State) (w : Writer) (fs : List (Nat × Nat)) (lo n v : Nat) :
    (s.reservedFields w fs lo n v).kept = s.kept := by
  simp [State.reservedFields]

@[simp ↓] theorem State.configWrite_kept (s : State) (who : Option Nat) (u off n : Nat) (v : Word) :
    (s.configWrite who u off n v).kept = s.kept := by
  simp [State.configWrite]

@[simp ↓] theorem State.unitRead_kept (s : State) (who : Option Nat) (u space off n : Nat) (ans : Option Word) :
    (s.unitRead who u space off n ans).1.kept = s.kept := by
  unfold State.unitRead
  dsimp only
  (repeat' split) <;> simp

@[simp ↓] theorem State.unitWrite_kept (s : State) (who : Option Nat) (u space off n : Nat) (v : Word) :
    (s.unitWrite who u space off n v).1.kept = s.kept := by
  unfold State.unitWrite
  dsimp only
  (repeat' split) <;> simp

/-! ### Quill Ops -/

@[simp ↓] theorem State.setQ_kept (s : State) (e i : Nat) (v : Word) : (s.setQ e i v).kept = s.kept := by simp [State.setQ]

@[simp ↓] theorem State.dmemWrite_kept (s : State) (e x : Nat) (bs : List Byte) : (s.dmemWrite e x bs).kept = s.kept := by
  simp [State.dmemWrite]

@[simp ↓] theorem State.faultEngine_kept (s : State) (e cause : Nat) : (s.faultEngine e cause).kept = s.kept := by simp [State.faultEngine]

@[simp ↓] theorem State.faultAfter_kept (s : State) (e cycles cause : Nat) : (s.faultAfter e cycles cause).kept = s.kept := by
  simp [State.faultAfter]

@[simp ↓] theorem State.perform_kept (s : State) (e : Nat) (b : Bool) (d : Did) (h : d.KeptAs s.kept) :
    (s.perform e b d).kept = s.kept := by
  unfold State.perform
  dsimp only
  split
  · simp
  · split
    · simp
    · cases d <;> simp_all

@[simp ↓] theorem State.issueTag_kept (s : State) (e d : Nat) (t : Tag) : (s.issueTag e d t).kept = s.kept := by
  unfold State.issueTag
  dsimp only
  (repeat' split) <;> simp

@[simp ↓] theorem State.tagged_keptAs (s : State) (e : Nat) (f : BitVec 24) (checks : List (Bool × Nat)) (t : Tag) :
    (s.tagged e f checks t).KeptAs s.kept := by
  simp [State.tagged]

@[simp ↓] theorem State.reduceServe_kept (who : Option Nat) (space off n : Nat) (as : List (Uno × Word)) (us : List Uno)
    (r : State × Nat × List Nat) : (State.reduceServe who space off n as us r).1.kept = r.1.kept := by
  induction us generalizing r with
  | nil => rfl
  | cons u us ih =>
    refine (ih _).trans ?_
    dsimp only
    split <;> simp

@[simp ↓] theorem State.mcastServe_kept (who : Option Nat) (space off n : Nat) (v : Word) (us : List Uno) (r : State × Nat) :
    (State.mcastServe who space off n v us r).1.kept = r.1.kept := by
  induction us generalizing r with
  | nil => rfl
  | cons u us ih =>
    refine (ih _).trans ?_
    dsimp only
    split <;> simp

@[simp ↓] theorem State.serveFseg_kept (s : State) (e : Nat) (t : Tag) : (s.serveFseg e t).1.kept = s.kept := by
  unfold State.serveFseg
  dsimp only
  (repeat' split) <;> simp

@[simp ↓] theorem State.serveFbegin_kept (s : State) (e : Nat) (t : Tag) : (s.serveFbegin e t).1.kept = s.kept := by
  unfold State.serveFbegin
  dsimp only
  (repeat' split) <;> simp

@[simp ↓] theorem State.serveUgroup_kept (s : State) (e : Nat) (t : Tag) : (s.serveUgroup e t).1.kept = s.kept := by
  unfold State.serveUgroup
  dsimp only
  split <;> simp

@[simp ↓] theorem State.serve_kept (s : State) (e : Nat) (t : Tag) (as : List (Uno × Word)) : (s.serve e t as).1.kept = s.kept := by
  unfold State.serve
  dsimp only
  (repeat' split) <;> simp

@[simp ↓] theorem State.completeTag_kept (s : State) (e n : Nat) (t : Tag) (st : Nat) (v : Word) :
    (s.completeTag e n t st v).kept = s.kept := by
  unfold State.completeTag
  split <;> simp

/-! ### Quill Do -/

@[simp ↓] theorem State.doNop_keptAs (s : State) (_e : Nat) (f : BitVec 24) : (s.doNop _e f).KeptAs s.kept := by simp [State.doNop]
@[simp ↓] theorem State.doEnd_keptAs (_s : State) (_e : Nat) (f : BitVec 24) : (_s.doEnd _e f).KeptAs _s.kept := by simp [State.doEnd]
@[simp ↓] theorem State.doSyncp_keptAs (_s : State) (_e : Nat) (f : BitVec 24) : (_s.doSyncp _e f).KeptAs _s.kept := by simp [State.doSyncp]
@[simp ↓] theorem State.doBr_keptAs (s : State) (e : Nat) (f : BitVec 24) : (s.doBr e f).KeptAs s.kept := by simp [State.doBr]

@[simp ↓] theorem State.branchIf_keptAs (s : State) (e : Nat) (f : BitVec 24) (taken : Bool) : (s.branchIf e f taken).KeptAs s.kept := by
  simp [State.branchIf]

@[simp ↓] theorem State.doBrz_keptAs (s : State) (e : Nat) (f : BitVec 24) : (s.doBrz e f).KeptAs s.kept := by simp [State.doBrz]
@[simp ↓] theorem State.doBrnz_keptAs (s : State) (e : Nat) (f : BitVec 24) : (s.doBrnz e f).KeptAs s.kept := by simp [State.doBrnz]
@[simp ↓] theorem State.doCall_keptAs (s : State) (e : Nat) (f : BitVec 24) : (s.doCall e f).KeptAs s.kept := by simp [State.doCall]

@[simp ↓] theorem State.doRet_keptAs (s : State) (e : Nat) (f : BitVec 24) : (s.doRet e f).KeptAs s.kept := by
  unfold State.doRet
  dsimp only
  (repeat' split) <;> simp

@[simp ↓] theorem State.doLoop_keptAs (s : State) (e : Nat) (f : BitVec 24) : (s.doLoop e f).KeptAs s.kept := by simp [State.doLoop]

@[simp ↓] theorem State.takeEvents_kept (s : State) (e d : Nat) (r : BitVec 16) : (s.takeEvents e d r).kept = s.kept := by
  simp [State.takeEvents]

@[simp ↓] theorem State.doWaitev_keptAs (s : State) (e : Nat) (f : BitVec 24) : (s.doWaitev e f).KeptAs s.kept := by simp [State.doWaitev]
@[simp ↓] theorem State.doSleep_keptAs (s : State) (e : Nat) (f : BitVec 24) : (s.doSleep e f).KeptAs s.kept := by simp [State.doSleep]
@[simp ↓] theorem State.doBudget_keptAs (s : State) (e : Nat) (f : BitVec 24) : (s.doBudget e f).KeptAs s.kept := by simp [State.doBudget]
@[simp ↓] theorem State.doYield_keptAs (s : State) (e : Nat) (f : BitVec 24) : (s.doYield e f).KeptAs s.kept := by simp [State.doYield]

@[simp ↓] theorem State.binary_keptAs (s : State) (e : Nat) (f : BitVec 24) (op : Word → Word → Word) :
    (s.binary e f op).KeptAs s.kept := by
  simp [State.binary]

@[simp ↓] theorem State.immediate_keptAs (s : State) (e : Nat) (f : BitVec 24) (op : Word → Word) : (s.immediate e f op).KeptAs s.kept := by
  simp [State.immediate]

@[simp ↓] theorem State.doAdd_keptAs (s : State) (e : Nat) (f : BitVec 24) : (s.doAdd e f).KeptAs s.kept := by simp [State.doAdd]
@[simp ↓] theorem State.doSub_keptAs (s : State) (e : Nat) (f : BitVec 24) : (s.doSub e f).KeptAs s.kept := by simp [State.doSub]
@[simp ↓] theorem State.doAnd_keptAs (s : State) (e : Nat) (f : BitVec 24) : (s.doAnd e f).KeptAs s.kept := by simp [State.doAnd]
@[simp ↓] theorem State.doOr_keptAs (s : State) (e : Nat) (f : BitVec 24) : (s.doOr e f).KeptAs s.kept := by simp [State.doOr]
@[simp ↓] theorem State.doXor_keptAs (s : State) (e : Nat) (f : BitVec 24) : (s.doXor e f).KeptAs s.kept := by simp [State.doXor]
@[simp ↓] theorem State.doShl_keptAs (s : State) (e : Nat) (f : BitVec 24) : (s.doShl e f).KeptAs s.kept := by simp [State.doShl]
@[simp ↓] theorem State.doShr_keptAs (s : State) (e : Nat) (f : BitVec 24) : (s.doShr e f).KeptAs s.kept := by simp [State.doShr]
@[simp ↓] theorem State.doSar_keptAs (s : State) (e : Nat) (f : BitVec 24) : (s.doSar e f).KeptAs s.kept := by simp [State.doSar]
@[simp ↓] theorem State.doAddi_keptAs (s : State) (e : Nat) (f : BitVec 24) : (s.doAddi e f).KeptAs s.kept := by simp [State.doAddi]
@[simp ↓] theorem State.doAndi_keptAs (s : State) (e : Nat) (f : BitVec 24) : (s.doAndi e f).KeptAs s.kept := by simp [State.doAndi]
@[simp ↓] theorem State.doOri_keptAs (s : State) (e : Nat) (f : BitVec 24) : (s.doOri e f).KeptAs s.kept := by simp [State.doOri]
@[simp ↓] theorem State.doLui_keptAs (s : State) (e : Nat) (f : BitVec 24) : (s.doLui e f).KeptAs s.kept := by simp [State.doLui]
@[simp ↓] theorem State.doCmpeq_keptAs (s : State) (e : Nat) (f : BitVec 24) : (s.doCmpeq e f).KeptAs s.kept := by simp [State.doCmpeq]
@[simp ↓] theorem State.doCmpltu_keptAs (s : State) (e : Nat) (f : BitVec 24) : (s.doCmpltu e f).KeptAs s.kept := by simp [State.doCmpltu]
@[simp ↓] theorem State.doCmplt_keptAs (s : State) (e : Nat) (f : BitVec 24) : (s.doCmplt e f).KeptAs s.kept := by simp [State.doCmplt]
@[simp ↓] theorem State.doPopc_keptAs (s : State) (e : Nat) (f : BitVec 24) : (s.doPopc e f).KeptAs s.kept := by simp [State.doPopc]
@[simp ↓] theorem State.doCrc_keptAs (s : State) (e : Nat) (f : BitVec 24) : (s.doCrc e f).KeptAs s.kept := by simp [State.doCrc]
@[simp ↓] theorem State.doMin_keptAs (s : State) (e : Nat) (f : BitVec 24) : (s.doMin e f).KeptAs s.kept := by simp [State.doMin]
@[simp ↓] theorem State.doMax_keptAs (s : State) (e : Nat) (f : BitVec 24) : (s.doMax e f).KeptAs s.kept := by simp [State.doMax]

@[simp ↓] theorem State.doMov_keptAs (s : State) (e : Nat) (f : BitVec 24) : (s.doMov e f).KeptAs s.kept := by
  unfold State.doMov
  split <;> simp

@[simp ↓] theorem State.loadData_keptAs (s : State) (e : Nat) (f : BitVec 24) (n : Nat) : (s.loadData e f n).KeptAs s.kept := by
  simp [State.loadData]

@[simp ↓] theorem State.storeData_keptAs (s : State) (e : Nat) (f : BitVec 24) (n : Nat) : (s.storeData e f n).KeptAs s.kept := by
  simp [State.storeData]

@[simp ↓] theorem State.doLd_keptAs (s : State) (e : Nat) (f : BitVec 24) : (s.doLd e f).KeptAs s.kept := by simp [State.doLd]
@[simp ↓] theorem State.doSt_keptAs (s : State) (e : Nat) (f : BitVec 24) : (s.doSt e f).KeptAs s.kept := by simp [State.doSt]
@[simp ↓] theorem State.doLdw_keptAs (s : State) (e : Nat) (f : BitVec 24) : (s.doLdw e f).KeptAs s.kept := by simp [State.doLdw]
@[simp ↓] theorem State.doStw_keptAs (s : State) (e : Nat) (f : BitVec 24) : (s.doStw e f).KeptAs s.kept := by simp [State.doStw]
@[simp ↓] theorem State.doPst_keptAs (s : State) (e : Nat) (f : BitVec 24) : (s.doPst e f).KeptAs s.kept := by simp [State.doPst]
@[simp ↓] theorem State.doLdp_keptAs (s : State) (e : Nat) (f : BitVec 24) : (s.doLdp e f).KeptAs s.kept := by simp [State.doLdp]
@[simp ↓] theorem State.doUread_keptAs (s : State) (e : Nat) (f : BitVec 24) : (s.doUread e f).KeptAs s.kept := by simp [State.doUread]
@[simp ↓] theorem State.doUwrite_keptAs (s : State) (e : Nat) (f : BitVec 24) : (s.doUwrite e f).KeptAs s.kept := by simp [State.doUwrite]

@[simp ↓] theorem State.doUwait_keptAs (s : State) (e : Nat) (f : BitVec 24) : (s.doUwait e f).KeptAs s.kept := by
  unfold State.doUwait
  dsimp only
  (repeat' split) <;> simp

@[simp ↓] theorem State.doUdesc_keptAs (s : State) (e : Nat) (f : BitVec 24) : (s.doUdesc e f).KeptAs s.kept := by simp [State.doUdesc]
@[simp ↓] theorem State.doUchild_keptAs (s : State) (e : Nat) (f : BitVec 24) : (s.doUchild e f).KeptAs s.kept := by simp [State.doUchild]
@[simp ↓] theorem State.doUgroup_keptAs (s : State) (e : Nat) (f : BitVec 24) : (s.doUgroup e f).KeptAs s.kept := by simp [State.doUgroup]

@[simp ↓] theorem State.doHop_keptAs (s : State) (e : Nat) (f : BitVec 24) (kind : HopKind) (imm : Bool) :
    (s.doHop e f kind imm).KeptAs s.kept := by
  unfold State.doHop
  dsimp only
  (repeat' split) <;> simp

@[simp ↓] theorem State.doHalt_keptAs (s : State) (e : Nat) (f : BitVec 24) : (s.doHalt e f).KeptAs s.kept := by simp [State.doHalt]
@[simp ↓] theorem State.doStep_keptAs (s : State) (e : Nat) (f : BitVec 24) : (s.doStep e f).KeptAs s.kept := by simp [State.doStep]
@[simp ↓] theorem State.doResume_keptAs (s : State) (e : Nat) (f : BitVec 24) : (s.doResume e f).KeptAs s.kept := by simp [State.doResume]
@[simp ↓] theorem State.doFreeze_keptAs (s : State) (e : Nat) (f : BitVec 24) : (s.doFreeze e f).KeptAs s.kept := by simp [State.doFreeze]
@[simp ↓] theorem State.doThaw_keptAs (s : State) (e : Nat) (f : BitVec 24) : (s.doThaw e f).KeptAs s.kept := by simp [State.doThaw]
@[simp ↓] theorem State.doCutq_keptAs (s : State) (e : Nat) (f : BitVec 24) : (s.doCutq e f).KeptAs s.kept := by simp [State.doCutq]
@[simp ↓] theorem State.doFbegin_keptAs (s : State) (e : Nat) (f : BitVec 24) : (s.doFbegin e f).KeptAs s.kept := by simp [State.doFbegin]
@[simp ↓] theorem State.doFseg_keptAs (s : State) (e : Nat) (f : BitVec 24) : (s.doFseg e f).KeptAs s.kept := by simp [State.doFseg]
@[simp ↓] theorem State.fendDid_keptAs (s : State) (e d st : Nat) : (s.fendDid e d st).KeptAs s.kept := by simp [State.fendDid]

@[simp ↓] theorem State.doFend_keptAs (s : State) (e : Nat) (f : BitVec 24) : (s.doFend e f).KeptAs s.kept := by
  unfold State.doFend
  dsimp only
  (repeat' split) <;> simp

@[simp ↓] theorem State.doFmark_keptAs (s : State) (e : Nat) (f : BitVec 24) : (s.doFmark e f).KeptAs s.kept := by
  unfold State.doFmark
  dsimp only
  (repeat' split) <;> simp

@[simp ↓] theorem State.doReduce_keptAs (s : State) (e : Nat) (f : BitVec 24) : (s.doReduce e f).KeptAs s.kept := by simp [State.doReduce]
@[simp ↓] theorem State.doMcast_keptAs (s : State) (e : Nat) (f : BitVec 24) : (s.doMcast e f).KeptAs s.kept := by simp [State.doMcast]
@[simp ↓] theorem State.doInk_keptAs (s : State) (e : Nat) (f : BitVec 24) : (s.doInk e f).KeptAs s.kept := by simp [State.doInk]
@[simp ↓] theorem State.doCart_keptAs (s : State) (e : Nat) (f : BitVec 24) : (s.doCart e f).KeptAs s.kept := by simp [State.doCart]
@[simp ↓] theorem State.doRaise_keptAs (s : State) (e : Nat) (f : BitVec 24) : (s.doRaise e f).KeptAs s.kept := by simp [State.doRaise]

@[simp ↓] theorem State.doWsnap_keptAs (s : State) (e : Nat) (f : BitVec 24) : (s.doWsnap e f).KeptAs s.kept := by
  unfold State.doWsnap
  dsimp only
  (repeat' split) <;> simp

@[simp ↓] theorem State.doWscan_keptAs (s : State) (e : Nat) (f : BitVec 24) : (s.doWscan e f).KeptAs s.kept := by simp [State.doWscan]

@[simp ↓] theorem State.doWord_keptAs (s : State) (e op : Nat) (f : BitVec 24) : (s.doWord e op f).KeptAs s.kept := by
  unfold State.doWord
  split <;> simp

@[simp ↓] theorem State.executeQ_kept (s : State) (e op : Nat) (f : BitVec 24) (d : Did) (h : d.KeptAs s.kept) :
    (s.executeQ e op f d).kept = s.kept := by
  simp [State.executeQ, h]

/-! ### Quill -/

@[simp ↓] theorem execQNop_kept (e : Nat) (f : BitVec 24) (s : State) : keptAfter (execQNop e f s) = some s.kept := by simp [execQNop]
@[simp ↓] theorem execQEnd_kept (e : Nat) (f : BitVec 24) (s : State) : keptAfter (execQEnd e f s) = some s.kept := by simp [execQEnd]
@[simp ↓] theorem execQSyncp_kept (e : Nat) (f : BitVec 24) (s : State) : keptAfter (execQSyncp e f s) = some s.kept := by simp [execQSyncp]
@[simp ↓] theorem execQBr_kept (e : Nat) (f : BitVec 24) (s : State) : keptAfter (execQBr e f s) = some s.kept := by simp [execQBr]
@[simp ↓] theorem execQBrz_kept (e : Nat) (f : BitVec 24) (s : State) : keptAfter (execQBrz e f s) = some s.kept := by simp [execQBrz]
@[simp ↓] theorem execQBrnz_kept (e : Nat) (f : BitVec 24) (s : State) : keptAfter (execQBrnz e f s) = some s.kept := by simp [execQBrnz]
@[simp ↓] theorem execQCall_kept (e : Nat) (f : BitVec 24) (s : State) : keptAfter (execQCall e f s) = some s.kept := by simp [execQCall]
@[simp ↓] theorem execQRet_kept (e : Nat) (f : BitVec 24) (s : State) : keptAfter (execQRet e f s) = some s.kept := by simp [execQRet]
@[simp ↓] theorem execQLoop_kept (e : Nat) (f : BitVec 24) (s : State) : keptAfter (execQLoop e f s) = some s.kept := by simp [execQLoop]

@[simp ↓] theorem execQWaitev_kept (e : Nat) (f : BitVec 24) (s : State) : keptAfter (execQWaitev e f s) = some s.kept := by
  simp [execQWaitev]

@[simp ↓] theorem execQSleep_kept (e : Nat) (f : BitVec 24) (s : State) : keptAfter (execQSleep e f s) = some s.kept := by simp [execQSleep]

@[simp ↓] theorem execQBudget_kept (e : Nat) (f : BitVec 24) (s : State) : keptAfter (execQBudget e f s) = some s.kept := by
  simp [execQBudget]

@[simp ↓] theorem execQYield_kept (e : Nat) (f : BitVec 24) (s : State) : keptAfter (execQYield e f s) = some s.kept := by simp [execQYield]
@[simp ↓] theorem execQAdd_kept (e : Nat) (f : BitVec 24) (s : State) : keptAfter (execQAdd e f s) = some s.kept := by simp [execQAdd]
@[simp ↓] theorem execQSub_kept (e : Nat) (f : BitVec 24) (s : State) : keptAfter (execQSub e f s) = some s.kept := by simp [execQSub]
@[simp ↓] theorem execQAnd_kept (e : Nat) (f : BitVec 24) (s : State) : keptAfter (execQAnd e f s) = some s.kept := by simp [execQAnd]
@[simp ↓] theorem execQOr_kept (e : Nat) (f : BitVec 24) (s : State) : keptAfter (execQOr e f s) = some s.kept := by simp [execQOr]
@[simp ↓] theorem execQXor_kept (e : Nat) (f : BitVec 24) (s : State) : keptAfter (execQXor e f s) = some s.kept := by simp [execQXor]
@[simp ↓] theorem execQShl_kept (e : Nat) (f : BitVec 24) (s : State) : keptAfter (execQShl e f s) = some s.kept := by simp [execQShl]
@[simp ↓] theorem execQShr_kept (e : Nat) (f : BitVec 24) (s : State) : keptAfter (execQShr e f s) = some s.kept := by simp [execQShr]
@[simp ↓] theorem execQSar_kept (e : Nat) (f : BitVec 24) (s : State) : keptAfter (execQSar e f s) = some s.kept := by simp [execQSar]
@[simp ↓] theorem execQAddi_kept (e : Nat) (f : BitVec 24) (s : State) : keptAfter (execQAddi e f s) = some s.kept := by simp [execQAddi]
@[simp ↓] theorem execQAndi_kept (e : Nat) (f : BitVec 24) (s : State) : keptAfter (execQAndi e f s) = some s.kept := by simp [execQAndi]
@[simp ↓] theorem execQOri_kept (e : Nat) (f : BitVec 24) (s : State) : keptAfter (execQOri e f s) = some s.kept := by simp [execQOri]
@[simp ↓] theorem execQLui_kept (e : Nat) (f : BitVec 24) (s : State) : keptAfter (execQLui e f s) = some s.kept := by simp [execQLui]
@[simp ↓] theorem execQCmpeq_kept (e : Nat) (f : BitVec 24) (s : State) : keptAfter (execQCmpeq e f s) = some s.kept := by simp [execQCmpeq]

@[simp ↓] theorem execQCmpltu_kept (e : Nat) (f : BitVec 24) (s : State) : keptAfter (execQCmpltu e f s) = some s.kept := by
  simp [execQCmpltu]

@[simp ↓] theorem execQCmplt_kept (e : Nat) (f : BitVec 24) (s : State) : keptAfter (execQCmplt e f s) = some s.kept := by simp [execQCmplt]
@[simp ↓] theorem execQPopc_kept (e : Nat) (f : BitVec 24) (s : State) : keptAfter (execQPopc e f s) = some s.kept := by simp [execQPopc]
@[simp ↓] theorem execQCrc_kept (e : Nat) (f : BitVec 24) (s : State) : keptAfter (execQCrc e f s) = some s.kept := by simp [execQCrc]
@[simp ↓] theorem execQMin_kept (e : Nat) (f : BitVec 24) (s : State) : keptAfter (execQMin e f s) = some s.kept := by simp [execQMin]
@[simp ↓] theorem execQMax_kept (e : Nat) (f : BitVec 24) (s : State) : keptAfter (execQMax e f s) = some s.kept := by simp [execQMax]
@[simp ↓] theorem execQMov_kept (e : Nat) (f : BitVec 24) (s : State) : keptAfter (execQMov e f s) = some s.kept := by simp [execQMov]
@[simp ↓] theorem execQLd_kept (e : Nat) (f : BitVec 24) (s : State) : keptAfter (execQLd e f s) = some s.kept := by simp [execQLd]
@[simp ↓] theorem execQSt_kept (e : Nat) (f : BitVec 24) (s : State) : keptAfter (execQSt e f s) = some s.kept := by simp [execQSt]
@[simp ↓] theorem execQLdw_kept (e : Nat) (f : BitVec 24) (s : State) : keptAfter (execQLdw e f s) = some s.kept := by simp [execQLdw]
@[simp ↓] theorem execQStw_kept (e : Nat) (f : BitVec 24) (s : State) : keptAfter (execQStw e f s) = some s.kept := by simp [execQStw]
@[simp ↓] theorem execQPst_kept (e : Nat) (f : BitVec 24) (s : State) : keptAfter (execQPst e f s) = some s.kept := by simp [execQPst]
@[simp ↓] theorem execQLdp_kept (e : Nat) (f : BitVec 24) (s : State) : keptAfter (execQLdp e f s) = some s.kept := by simp [execQLdp]
@[simp ↓] theorem execQUread_kept (e : Nat) (f : BitVec 24) (s : State) : keptAfter (execQUread e f s) = some s.kept := by simp [execQUread]

@[simp ↓] theorem execQUwrite_kept (e : Nat) (f : BitVec 24) (s : State) : keptAfter (execQUwrite e f s) = some s.kept := by
  simp [execQUwrite]

@[simp ↓] theorem execQUwait_kept (e : Nat) (f : BitVec 24) (s : State) : keptAfter (execQUwait e f s) = some s.kept := by simp [execQUwait]
@[simp ↓] theorem execQUdesc_kept (e : Nat) (f : BitVec 24) (s : State) : keptAfter (execQUdesc e f s) = some s.kept := by simp [execQUdesc]

@[simp ↓] theorem execQUchild_kept (e : Nat) (f : BitVec 24) (s : State) : keptAfter (execQUchild e f s) = some s.kept := by
  simp [execQUchild]

@[simp ↓] theorem execQUgroup_kept (e : Nat) (f : BitVec 24) (s : State) : keptAfter (execQUgroup e f s) = some s.kept := by
  simp [execQUgroup]

@[simp ↓] theorem execQHalt_kept (e : Nat) (f : BitVec 24) (s : State) : keptAfter (execQHalt e f s) = some s.kept := by simp [execQHalt]
@[simp ↓] theorem execQStep_kept (e : Nat) (f : BitVec 24) (s : State) : keptAfter (execQStep e f s) = some s.kept := by simp [execQStep]

@[simp ↓] theorem execQResume_kept (e : Nat) (f : BitVec 24) (s : State) : keptAfter (execQResume e f s) = some s.kept := by
  simp [execQResume]

@[simp ↓] theorem execQFreeze_kept (e : Nat) (f : BitVec 24) (s : State) : keptAfter (execQFreeze e f s) = some s.kept := by
  simp [execQFreeze]

@[simp ↓] theorem execQThaw_kept (e : Nat) (f : BitVec 24) (s : State) : keptAfter (execQThaw e f s) = some s.kept := by simp [execQThaw]
@[simp ↓] theorem execQCutq_kept (e : Nat) (f : BitVec 24) (s : State) : keptAfter (execQCutq e f s) = some s.kept := by simp [execQCutq]

@[simp ↓] theorem execQFbegin_kept (e : Nat) (f : BitVec 24) (s : State) : keptAfter (execQFbegin e f s) = some s.kept := by
  simp [execQFbegin]

@[simp ↓] theorem execQFseg_kept (e : Nat) (f : BitVec 24) (s : State) : keptAfter (execQFseg e f s) = some s.kept := by simp [execQFseg]
@[simp ↓] theorem execQFend_kept (e : Nat) (f : BitVec 24) (s : State) : keptAfter (execQFend e f s) = some s.kept := by simp [execQFend]
@[simp ↓] theorem execQFmark_kept (e : Nat) (f : BitVec 24) (s : State) : keptAfter (execQFmark e f s) = some s.kept := by simp [execQFmark]

@[simp ↓] theorem execQReduce_kept (e : Nat) (f : BitVec 24) (s : State) : keptAfter (execQReduce e f s) = some s.kept := by
  simp [execQReduce]

@[simp ↓] theorem execQMcast_kept (e : Nat) (f : BitVec 24) (s : State) : keptAfter (execQMcast e f s) = some s.kept := by simp [execQMcast]
@[simp ↓] theorem execQInk_kept (e : Nat) (f : BitVec 24) (s : State) : keptAfter (execQInk e f s) = some s.kept := by simp [execQInk]
@[simp ↓] theorem execQCart_kept (e : Nat) (f : BitVec 24) (s : State) : keptAfter (execQCart e f s) = some s.kept := by simp [execQCart]
@[simp ↓] theorem execQRaise_kept (e : Nat) (f : BitVec 24) (s : State) : keptAfter (execQRaise e f s) = some s.kept := by simp [execQRaise]
@[simp ↓] theorem execQWsnap_kept (e : Nat) (f : BitVec 24) (s : State) : keptAfter (execQWsnap e f s) = some s.kept := by simp [execQWsnap]
@[simp ↓] theorem execQWscan_kept (e : Nat) (f : BitVec 24) (s : State) : keptAfter (execQWscan e f s) = some s.kept := by simp [execQWscan]

@[simp ↓] theorem execUndefinedOpcode_kept (e : Nat) (w : BitVec 32) (s : State) : keptAfter (execUndefinedOpcode e w s) = some s.kept := by
  simp [execUndefinedOpcode]

@[simp ↓] theorem State.fetched_keptAs (s : State) (e : Nat) : (s.fetched e).KeptAs s.kept := by simp [State.fetched]
@[simp ↓] theorem State.endWait_kept (s : State) (e : Nat) : (s.endWait e).kept = s.kept := by simp [State.endWait]
@[simp ↓] theorem execWaitComplete_kept (e : Nat) (s : State) : keptAfter (execWaitComplete e s) = some s.kept := by simp [execWaitComplete]
@[simp ↓] theorem execBudgetExpiry_kept (e : Nat) (s : State) : keptAfter (execBudgetExpiry e s) = some s.kept := by simp [execBudgetExpiry]

@[simp ↓] theorem execProbeRequestServed_kept (e tag : Nat) (answers : List (Uno × Word)) (s : State) :
    keptAfter (execProbeRequestServed e tag answers s) = some s.kept := by
  unfold execProbeRequestServed
  dsimp only
  (repeat' split) <;> simp

@[simp ↓] theorem execProbeResponse_kept (e tag : Nat) (s : State) : keptAfter (execProbeResponse e tag s) = some s.kept := by
  unfold execProbeResponse
  split
  · rfl
  · split <;> simp

@[simp ↓] theorem execProbeTimeout_kept (e tag : Nat) (s : State) : keptAfter (execProbeTimeout e tag s) = some s.kept := by
  unfold execProbeTimeout
  split <;> simp

/-! ### Quill Ctl -/

@[simp ↓] theorem State.loadImage_kept (s : State) (e : Nat) : (s.loadImage e).1.kept = s.kept := by
  unfold State.loadImage
  dsimp only
  split <;> simp

@[simp ↓] theorem State.qlStatus_kept (s : State) (e st : Nat) : (s.qlStatus e st).kept = s.kept := by simp [State.qlStatus]
@[simp ↓] theorem State.stopEngine_kept (s : State) (e : Nat) : (s.stopEngine e).kept = s.kept := by simp [State.stopEngine]

@[simp ↓] theorem State.stepEngine_kept (s : State) (e : Nat) : (s.stepEngine e).kept = s.kept := by
  unfold State.stepEngine
  dsimp only
  split <;> simp

@[simp ↓] theorem State.ownerCommand_kept (s : State) (e cmd : Nat) : (s.ownerCommand e cmd).kept = s.kept := by
  unfold State.ownerCommand
  split <;> simp

@[simp ↓] theorem State.freeCommand_kept (s : State) (who : Option Nat) (slot e cmd : Nat) :
    (s.freeCommand who slot e cmd).kept = s.kept := by
  unfold State.freeCommand
  split
  · rfl
  · split
    · simp
    · split <;> simp

@[simp ↓] theorem State.qlCtrl_kept (s : State) (p : Path) (e bits : Nat) : (s.qlCtrl p e bits).kept = s.kept := by
  unfold State.qlCtrl
  dsimp only
  (repeat' split) <;> simp

@[simp ↓] theorem execQlTake_kept (p : Path) (e : Nat) (s : State) : keptAfter (execQlTake p e s) = some s.kept := by simp [execQlTake]
@[simp ↓] theorem execQlLoad_kept (p : Path) (e : Nat) (s : State) : keptAfter (execQlLoad p e s) = some s.kept := by simp [execQlLoad]
@[simp ↓] theorem execQlStart_kept (p : Path) (e : Nat) (s : State) : keptAfter (execQlStart p e s) = some s.kept := by simp [execQlStart]
@[simp ↓] theorem execQlStop_kept (p : Path) (e : Nat) (s : State) : keptAfter (execQlStop p e s) = some s.kept := by simp [execQlStop]

@[simp ↓] theorem execQlContinue_kept (p : Path) (e : Nat) (s : State) : keptAfter (execQlContinue p e s) = some s.kept := by
  simp [execQlContinue]

@[simp ↓] theorem execQlStep_kept (p : Path) (e : Nat) (s : State) : keptAfter (execQlStep p e s) = some s.kept := by simp [execQlStep]

@[simp ↓] theorem execQlRelease_kept (p : Path) (e : Nat) (s : State) : keptAfter (execQlRelease p e s) = some s.kept := by
  simp [execQlRelease]

@[simp ↓] theorem execQlKick_kept (p : Path) (e : Nat) (s : State) : keptAfter (execQlKick p e s) = some s.kept := by simp [execQlKick]

@[simp ↓] theorem execEngineRestoreDone_kept (e : Nat) (s : State) : keptAfter (execEngineRestoreDone e s) = some s.kept := by
  simp [execEngineRestoreDone]

@[simp ↓] theorem State.engineMemWrite_kept (s : State) (p : Path) (e : Nat) (prog : Bool) (off n v : Nat) :
    (s.engineMemWrite p e prog off n v).kept = s.kept := by
  simp [State.engineMemWrite]

@[simp ↓] theorem execEngineMemoryWrite_kept (p : Path) (e : Nat) (prog : Bool) (off : Nat) (w8 : Bool) (v : Word) (s : State) :
    keptAfter (execEngineMemoryWrite p e prog off w8 v s) = some s.kept := by
  simp [execEngineMemoryWrite]

@[simp ↓] theorem execEngineLoad_kept (c : CmdCtx) (e : Nat) (image : List Byte) (s : State) :
    keptAfter (execEngineLoad c e image s) = some s.kept := by
  simp [execEngineLoad]

/-! ### Reg Write -/

@[simp ↓] theorem State.writeRows_kept (s : State) (w : Writer) (path : Path) (rows : List (RegRow × Nat)) (b lo n v : Nat) :
    (s.writeRows w path rows b lo n v).kept = s.kept := by
  unfold State.writeRows
  refine (State.kept_foldl fun t e => ?_).trans (by simp)
  (repeat' split) <;> simp

@[simp ↓] theorem State.reservedRows_kept (s : State) (w : Writer) (rows : List (RegRow × Nat)) (b lo n v : Nat) :
    (s.reservedRows w rows b lo n v).kept = s.kept := by
  unfold State.reservedRows
  refine (State.kept_foldl fun t e => ?_).trans (by simp)
  (repeat' split) <;> simp

@[simp ↓] theorem State.clampClear_kept (s : State) (who : Option Nat) (k mask : Nat) : (s.clampClear who k mask).kept = s.kept := by
  simp [State.clampClear]

@[simp ↓] theorem State.clampLostClear_kept (s : State) (k v : Nat) : (s.clampLostClear k v).kept = s.kept := by simp [State.clampLostClear]

@[simp ↓] theorem State.cmpEffect_kept (s : State) (path : Path) (who : Option Nat) (a v : Nat) :
    (s.cmpEffect path who a v).kept = s.kept := by
  unfold State.cmpEffect
  split <;> simp

@[simp ↓] theorem State.postEffect_kept (s : State) (path : Path) (who : Option Nat) (p a v : Nat) :
    (s.postEffect path who p a v).kept = s.kept := by
  unfold State.postEffect
  split <;> simp

@[simp ↓] theorem State.msixPut_kept (s : State) (i lo n v : Nat) : (s.msixPut i lo n v).kept = s.kept := by simp [State.msixPut]
@[simp ↓] theorem State.headPut_kept (s : State) (w : Writer) (r v : Nat) : (s.headPut w r v).kept = s.kept := by simp [State.headPut]

@[simp ↓] theorem State.ringPut_kept (s : State) (w : Writer) (path : Path) (b lo n v : Nat) :
    KeptIn s.kept (s.ringPut w path b lo n v) := by
  unfold State.ringPut
  dsimp only
  (repeat' split) <;> simp

@[simp ↓] theorem State.queuePut_kept (s : State) (w : Writer) (b lo n v : Nat) :
    KeptIn s.kept (s.queuePut w b lo n v) := by
  unfold State.queuePut
  dsimp only
  (repeat' split) <;> simp

@[simp ↓] theorem State.hqPut_kept (s : State) (w : Writer) (path : Path) (b lo n v : Nat) :
    KeptIn s.kept (s.hqPut w path b lo n v) := by
  simp [State.hqPut]

@[simp ↓] theorem State.qlPut_kept (s : State) (w : Writer) (path : Path) (e rel lo n v : Nat) :
    KeptIn s.kept (s.qlPut w path e rel lo n v) := by
  unfold State.qlPut
  dsimp only
  simp

@[simp ↓] theorem State.postPut_kept (s : State) (path : Path) (who : Option Nat) (p b lo n v : Nat) :
    KeptIn s.kept (s.postPut path who p b lo n v) := by
  simp [State.postPut]

@[simp ↓] theorem State.globalPut_kept (s : State) (path : Path) (who : Option Nat) (b lo n v : Nat) :
    KeptIn s.kept (s.globalPut path who b lo n v) := by
  simp [State.globalPut]

@[simp ↓] theorem State.writeAccess_kept (s : State) (path : Path) (addr : Nat) (w8 : Bool) (v : Nat) :
    (s.writeAccess path addr w8 v).kept = s.kept := by
  have post (p b lo n v : Nat) : ((s.postPut path (s.actor path) p b lo n v).getD (s.reservedAt path addr 0)).kept = s.kept :=
    (State.postPut_kept ..).getD (by simp)
  have here (b lo n v : Nat) : ((s.globalPut path (s.actor path) b lo n v).getD (s.reservedAt path addr 0)).kept = s.kept :=
    (State.globalPut_kept ..).getD (by simp)
  unfold State.writeAccess
  dsimp only
  split
  · rfl
  · split
    · simp
    · split <;> simp [post, here]

/-! ### Reg Access -/

@[simp ↓] theorem State.answerRead_kept (s : State) (v : Nat) : (s.answerRead v).kept = s.kept := by simp [State.answerRead]

@[simp ↓] theorem State.iwEnd_kept (s : State) (path : Path) (ap last v : Nat) : (s.iwEnd path ap last v).kept = s.kept := by
  simp [State.iwEnd]

@[simp ↓] theorem State.iwAccess_kept (s : State) (path : Path) (ap off : Nat) (w8 : Bool) (wr answer : Option Word) :
    (s.iwAccess path ap off w8 wr answer).kept = s.kept := by
  unfold State.iwAccess
  dsimp only
  (repeat' split) <;> simp

@[simp ↓] theorem execIwAccess_kept (p : Path) (ap off : Nat) (w8 : Bool) (wr answer : Option Word) (s : State) :
    keptAfter (execIwAccess p ap off w8 wr answer s) = some s.kept := by
  simp [execIwAccess]

@[simp ↓] theorem State.readReg_kept (s : State) (path : Path) (addr : Nat) (w8 : Bool) : (s.readReg path addr w8).kept = s.kept := by
  unfold State.readReg
  dsimp only
  (repeat' split) <;> simp

@[simp ↓] theorem State.barRead_kept (s : State) (path : Path) (addr : Nat) (w8 : Bool) : (s.barRead path addr w8).kept = s.kept := by
  simp [State.barRead]

@[simp ↓] theorem State.barWrite_kept (s : State) (path : Path) (addr : Nat) (w8 : Bool) (v : Word) :
    (s.barWrite path addr w8 v).kept = s.kept := by
  simp [State.barWrite]

@[simp ↓] theorem execRegisterWrite_kept (p : Path) (addr : Nat) (w8 : Bool) (v : Word) (s : State) :
    keptAfter (execRegisterWrite p addr w8 v s) = some s.kept := by
  simp [execRegisterWrite]

@[simp ↓] theorem execReservedSpaceAccess_kept (p : Path) (addr : Nat) (ctx : Ctx) (s : State) :
    keptAfter (execReservedSpaceAccess p addr ctx s) = some s.kept := by
  simp [execReservedSpaceAccess]

@[simp ↓] theorem execCmpMeridianRead_kept (p : Path) (part : MerPart) (s : State) :
    keptAfter (execCmpMeridianRead p part s) = some s.kept := by
  unfold execCmpMeridianRead
  split <;> simp

@[simp ↓] theorem execPostWindowAccess_kept (p : Path) (post off : Nat) (w8 : Bool) (wr : Option Word) (s : State) :
    keptAfter (execPostWindowAccess p post off w8 wr s) = some s.kept := by
  unfold execPostWindowAccess
  split
  · split <;> simp
  · rfl

@[simp ↓] theorem execPostNoAnswer_kept (p : Path) (post : Nat) (s : State) : keptAfter (execPostNoAnswer p post s) = some s.kept := by
  simp [execPostNoAnswer]

@[simp ↓] theorem execClampClr_kept (p : Path) (post : Option Nat) (mask : BitVec 16) (s : State) :
    keptAfter (execClampClr p post mask s) = some s.kept := by
  unfold execClampClr
  split <;> simp

/-! ### Port Ops -/

@[simp ↓] theorem State.framingError_kept (s : State) : s.framingError.kept = s.kept := by simp [State.framingError]
@[simp ↓] theorem State.openPort_kept (s : State) : s.openPort.kept = s.kept := by simp [State.openPort]

@[simp ↓] theorem State.respond_kept (s : State) (type status : Nat) (payload : List Word) :
    (s.respond type status payload).kept = s.kept := by
  simp [State.respond]

@[simp ↓] theorem State.offer_kept (s : State) (r : Resp) : (s.offer r).kept = s.kept := by simp [State.offer]

@[simp ↓] theorem State.judgeRequest_kept (s : State) (r : Request) (reply : Nat) (fields served : Bool) (act : State → State)
    (h : ∀ t, (act t).kept = t.kept) : (s.judgeRequest r reply fields served act).kept = s.kept := by
  simp [State.judgeRequest, h]

@[simp ↓] theorem State.answerUndefined_kept (s : State) : s.answerUndefined.kept = s.kept := by
  unfold State.answerUndefined
  split <;> simp

@[simp ↓] theorem State.inWord_kept (n : Nat) (w : Word) (s : State) : (State.inWord n w s).kept = s.kept := by
  induction n generalizing w s with
  | zero => rfl
  | succ n ih => simp [State.inWord, ih]

@[simp ↓] theorem State.lineIn_kept (s : State) (f : LineFrame) : (s.lineIn f).kept = s.kept := by simp [State.lineIn]

theorem State.portRequest_kept (s : State) (f : LineFrame) (type : Nat) (fields : Request → Bool) (served : Bool)
    (act : Request → State → State) (h : ∀ r t, (act r t).kept = t.kept) : (s.portRequest f type fields served act).kept = s.kept := by
  unfold State.portRequest
  dsimp only
  split
  · rfl
  · split
    · next r _ => simp [State.judgeRequest_kept, h r]
    · simp

@[simp ↓] theorem State.setIr_kept (s : State) (ir : Nat) : (s.setIr ir).kept = s.kept := by simp [State.setIr]
@[simp ↓] theorem State.tapReset_kept (s : State) : s.tapReset.kept = s.kept := by simp [State.tapReset]

/-! ### Entry -/

@[simp ↓] theorem State.takeEntry_kept (s : State) (q : Option Nat) (e : List Byte) (arg : ArgFetch) :
    (s.takeEntry q e arg).kept = s.kept := by
  unfold State.takeEntry
  extract_lets c ring i host s1 slot s2
  have h2 : s2.kept = s.kept := by
    simp only [s2]
    split <;> simp [s1]
  split
  · exact (State.refuse_kept ..).trans h2
  · exact h2

/-! ### Host Queues -/

@[simp ↓] theorem execHqDb_kept (q prod : Nat) (s : State) : keptAfter (execHqDb q prod s) = some s.kept := by simp [execHqDb]
@[simp ↓] theorem execDbErrClear_kept (q : Nat) (s : State) : keptAfter (execDbErrClear q s) = some s.kept := by simp [execDbErrClear]

@[simp ↓] theorem execCommandTake_kept (q : Nat) (arg : ArgFetch) (s : State) : keptAfter (execCommandTake q arg s) = some s.kept := by
  simp [execCommandTake]

@[simp ↓] theorem execHqErHead_kept (r head : Nat) (s : State) : keptAfter (execHqErHead r head s) = some s.kept := by simp [execHqErHead]
@[simp ↓] theorem execRingEnable_kept (r : Nat) (s : State) : keptAfter (execRingEnable r s) = some s.kept := by simp [execRingEnable]

@[simp ↓] theorem execBarBind_kept (slot : Nat) (scheck : BitVec 32) (s : State) : keptAfter (execBarBind slot scheck s) = some s.kept := by
  simp [execBarBind]

@[simp ↓] theorem execUnbind_kept (s : State) : keptAfter (execUnbind s) = some s.kept := by simp [execUnbind]
@[simp ↓] theorem execMsixSignal_kept (r : Nat) (s : State) : keptAfter (execMsixSignal r s) = some s.kept := by simp [execMsixSignal]
@[simp ↓] theorem State.ringsOff_kept (s : State) : s.ringsOff.kept = s.kept := by simp [State.ringsOff]
@[simp ↓] theorem execFunctionReset_kept (s : State) : keptAfter (execFunctionReset s) = some s.kept := by simp [execFunctionReset]
@[simp ↓] theorem execBusMasterDisable_kept (s : State) : keptAfter (execBusMasterDisable s) = some s.kept := by simp [execBusMasterDisable]
@[simp ↓] theorem execBusMasterEnable_kept (s : State) : keptAfter (execBusMasterEnable s) = some s.kept := by simp [execBusMasterEnable]

/-! ### Pins -/

@[simp ↓] theorem execExtest_kept (s : State) : keptAfter (execExtest s) = some s.kept := by simp [execExtest]
@[simp ↓] theorem execSamplePreload_kept (s : State) : keptAfter (execSamplePreload s) = some s.kept := by simp [execSamplePreload]
@[simp ↓] theorem execIdcode_kept (s : State) : keptAfter (execIdcode s) = some s.kept := by simp [execIdcode]
@[simp ↓] theorem execClamp_kept (s : State) : keptAfter (execClamp s) = some s.kept := by simp [execClamp]
@[simp ↓] theorem execHighz_kept (s : State) : keptAfter (execHighz s) = some s.kept := by simp [execHighz]
@[simp ↓] theorem execLedger_kept (s : State) : keptAfter (execLedger s) = some s.kept := by simp [execLedger]
@[simp ↓] theorem execBypass_kept (s : State) : keptAfter (execBypass s) = some s.kept := by simp [execBypass]

@[simp ↓] theorem execLedgerWord_kept (shifts : Nat) (w : Word) (s : State) : keptAfter (execLedgerWord shifts w s) = some s.kept := by
  simp [execLedgerWord]

@[simp ↓] theorem execTestLogicReset_kept (s : State) : keptAfter (execTestLogicReset s) = some s.kept := by simp [execTestLogicReset]
@[simp ↓] theorem execTrstN_kept (s : State) : keptAfter (execTrstN s) = some s.kept := by simp [execTrstN]
@[simp ↓] theorem State.earlyReset_kept (s : State) : s.earlyReset.kept = s.kept := by simp [State.earlyReset]
@[simp ↓] theorem execDbgrstGlitch_kept (s : State) : keptAfter (execDbgrstGlitch s) = some s.kept := by simp [execDbgrstGlitch]
@[simp ↓] theorem execDbgrstReset_kept (s : State) : keptAfter (execDbgrstReset s) = some s.kept := by simp [execDbgrstReset]
@[simp ↓] theorem execDbgrstHigh_kept (s : State) : keptAfter (execDbgrstHigh s) = some s.kept := by simp [execDbgrstHigh]
@[simp ↓] theorem execTrigInAssertion_kept (s : State) : keptAfter (execTrigInAssertion s) = some s.kept := by simp [execTrigInAssertion]

@[simp ↓] theorem execCrossPulseEnd_kept (s : State) : keptAfter (execCrossPulseEnd s) = some s.kept := by
  unfold execCrossPulseEnd
  split <;> simp

@[simp ↓] theorem execGuardIntervalEnd_kept (s : State) : keptAfter (execGuardIntervalEnd s) = some s.kept := by simp [execGuardIntervalEnd]

@[simp ↓] theorem execCmpPtCfgWrite_kept (p : Path) (v : Word) (s : State) : keptAfter (execCmpPtCfgWrite p v s) = some s.kept := by
  simp [execCmpPtCfgWrite]

@[simp ↓] theorem execPtClrLine_kept (p : Path) (s : State) : keptAfter (execPtClrLine p s) = some s.kept := by simp [execPtClrLine]
@[simp ↓] theorem execPtClrErr_kept (p : Path) (s : State) : keptAfter (execPtClrErr p s) = some s.kept := by simp [execPtClrErr]
@[simp ↓] theorem execCmpPtAprAck_kept (n : Nat) (s : State) : keptAfter (execCmpPtAprAck n s) = some s.kept := by simp [execCmpPtAprAck]

/-! ### Ports -/

@[simp ↓] theorem State.readMany_kept (off : Nat) (w8 : Bool) (n i : Nat) (s : State) : (State.readMany off w8 n i s).1.kept = s.kept := by
  induction n generalizing i s with
  | zero => rfl
  | succ n ih => simp [State.readMany, ih]

@[simp ↓] theorem State.writeMany_kept (off : Nat) (w8 : Bool) (i : Nat) (vs : List Word) (s : State) :
    (State.writeMany off w8 i vs s).kept = s.kept := by
  induction vs generalizing i s with
  | nil => rfl
  | cons v vs ih => exact (ih ..).trans (State.barWrite_kept ..)

@[simp ↓] theorem execPortRead_kept (f : LineFrame) (s : State) : keptAfter (execPortRead f s) = some s.kept :=
  congrArg some (State.portRequest_kept _ _ _ _ _ _ fun r t => by simp)

@[simp ↓] theorem execPortWrite_kept (f : LineFrame) (s : State) : keptAfter (execPortWrite f s) = some s.kept :=
  congrArg some (State.portRequest_kept _ _ _ _ _ _ fun r t => by simp)

@[simp ↓] theorem execPoll_kept (f : LineFrame) (s : State) : keptAfter (execPoll f s) = some s.kept := by
  unfold execPoll
  dsimp only
  (repeat' split) <;> simp

@[simp ↓] theorem execResponseSlot_kept (s : State) : keptAfter (execResponseSlot s) = some s.kept := by simp [execResponseSlot]
@[simp ↓] theorem execLineCollision_kept (s : State) : keptAfter (execLineCollision s) = some s.kept := by simp [execLineCollision]
@[simp ↓] theorem execDriverRelease_kept (s : State) : keptAfter (execDriverRelease s) = some s.kept := by simp [execDriverRelease]

@[simp ↓] theorem State.challenge_kept (s : State) (key level : Nat) (ctx : Ctx) : (s.challenge key level ctx).kept = s.kept := by
  simp [State.challenge]

@[simp ↓] theorem execChallenge_kept (f : LineFrame) (s : State) : keptAfter (execChallenge f s) = some s.kept := by
  refine congrArg some (State.portRequest_kept _ _ _ _ _ _ fun r t => ?_)
  split <;> simp

@[simp ↓] theorem State.respondTo_kept (s : State) (sigOk : Bool) : (s.respondTo sigOk).kept = s.kept := by
  unfold State.respondTo
  split <;> simp

@[simp ↓] theorem execRespond_kept (f : LineFrame) (sigOk : Bool) (s : State) : keptAfter (execRespond f sigOk s) = some s.kept :=
  congrArg some (State.portRequest_kept _ _ _ _ _ _ fun r t => by simp)

@[simp ↓] theorem execPortCommand_kept (f : LineFrame) (s : State) : keptAfter (execPortCommand f s) = some s.kept :=
  congrArg some (State.portRequest_kept _ _ _ _ _ _ fun r t => by simp)

@[simp ↓] theorem execPortClose_kept (f : LineFrame) (s : State) : keptAfter (execPortClose f s) = some s.kept :=
  congrArg some (State.portRequest_kept _ _ _ _ _ _ fun r t => by simp)

@[simp ↓] theorem execPartialPacketStall_kept (s : State) : keptAfter (execPartialPacketStall s) = some s.kept := by
  simp [execPartialPacketStall]

@[simp ↓] theorem execNonceExpiry_kept (s : State) : keptAfter (execNonceExpiry s) = some s.kept := by
  unfold execNonceExpiry
  split <;> simp

@[simp ↓] theorem execLockoutExpiry_kept (s : State) : keptAfter (execLockoutExpiry s) = some s.kept := by
  unfold execLockoutExpiry
  split <;> simp

@[simp ↓] theorem execIdleClose_kept (s : State) : keptAfter (execIdleClose s) = some s.kept := by simp [execIdleClose]

/-! ### Tick -/

@[simp ↓] theorem State.tick_kept (s : State) : s.tick.kept = s.kept := by simp [State.tick]

/-! ### The counter, raised -/

theorem Keeps.then_kept {s t u : State} (a : Keeps s t) (h : u.kept = t.kept) : Keeps s u := a.trans (.of_kept h)

/-- A counter programmed forward within its 256 bits (R411). -/
theorem Keeps.setUpd {s : State} {u : Update} (up : s.upd.rollback ≤ u.rollback) (top : s.upd.rollback ≤ 256 → u.rollback ≤ 256) :
    Keeps s (s.setUpd u) := by
  have h : Keeps s { s with upd := u } := ⟨rfl, rfl, up, top⟩
  unfold State.setUpd
  dsimp only
  split
  · exact h
  · exact h.then_kept (by simp)

theorem Keeps.confirm (s : State) : Keeps s s.confirm := by
  unfold State.confirm
  split
  · exact Keeps.refl s
  · refine Keeps.then_kept ?_ (State.updReport_kept ..)
    exact (Keeps.of_kept (State.writeUpd_kept _ _ (by simp))).trans (Keeps.setUpd (by simp) (by simp))

theorem Keeps.repairRollback (s : State) : Keeps s s.repairRollback := by
  unfold State.repairRollback
  split
  · exact Keeps.refl s
  · dsimp only
    split
    · exact (Keeps.setUpd (by dsimp only; omega) (by dsimp only; omega)).then_kept (State.updReport_kept ..)
    · exact Keeps.refl s

/-- An update command keeps if its effect does. -/
theorem Keeps.updJudged {s : State} {c : CmdCtx} {l : List (Bool × Nat)} {f : State → State} (h : Keeps s (f s)) :
    Keeps s (s.updJudged c l f) := by
  unfold State.updJudged
  split
  · exact Keeps.refl s
  · split
    · exact .of_kept (State.updRefuse_kept ..)
    · exact h

/-! ### The commands -/

/-- A command goes on to a state that keeps. -/
def GoesOn (s : State) (o : Out) : Prop := ∃ t, o = .next t ∧ Keeps s t

theorem GoesOn.next {s t : State} (h : Keeps s t) : GoesOn s (.next t) := ⟨t, rfl, h⟩

theorem GoesOn.of_kept {s : State} {o : Out} (h : keptAfter o = some s.kept) : GoesOn s o := by
  cases o with
  | next t => exact .next (.of_kept (Option.some.inj h))
  | fault _ => exact nomatch h
  | refused _ => exact nomatch h

theorem execUpdConfirm_goesOn (c : CmdCtx) (s : State) : GoesOn s (execUpdConfirm c s) :=
  .next (Keeps.updJudged ((Keeps.confirm s).then_kept (State.updDone_kept ..)))

theorem execBootSlotSelect_goesOn (verifyA verifyB : Bool) (s : State) : GoesOn s (execBootSlotSelect verifyA verifyB s) := by
  unfold execBootSlotSelect
  split
  · exact .next (Keeps.refl s)
  · refine .next (Keeps.then_kept (Keeps.trans (.of_kept ?_) (Keeps.repairRollback _)) (State.chooseSlot_kept ..))
    simp

theorem execBuiltInSelfTest_goesOn (pass : Bool) (s : State) : GoesOn s (execBuiltInSelfTest pass s) := by
  unfold execBuiltInSelfTest
  split
  · exact .next (Keeps.refl s)
  · split
    · refine .next (Keeps.ite _ (.of_kept ?_) (Keeps.confirm s))
      simp
    · exact .next (.of_kept (State.trialFails_kept s))

/-- Every command goes on, and keeps. -/
theorem exec_goesOn (i : Instr) (s : State) : GoesOn s (exec i s) := by
  cases i with
  | updConfirm c => exact execUpdConfirm_goesOn c s
  | bootSlotSelect a b => exact execBootSlotSelect_goesOn a b s
  | builtInSelfTest pass => exact execBuiltInSelfTest_goesOn pass s
  | _ => exact GoesOn.of_kept (by simp [exec])

/-- Settles O60: a command is judged by `exec_goesOn` on the rest of the queue, a tick touches none of the three. -/
theorem everyStepKeeps : Obligations.EveryStepKeeps := by
  unfold Obligations.EveryStepKeeps
  intro s
  unfold step
  split
  · next h =>
    obtain ⟨hp, hm, hr, ht⟩ := Keeps.of_kept (State.tick_kept s)
    exact ⟨_, rfl, by rw [hp, h]; rfl, hm, hr, ht⟩
  · next c rest h =>
    obtain ⟨t, ht, hp, hm, hr, htop⟩ := exec_goesOn c { s with pending := rest }
    exact ⟨t, ht, by rw [hp, h]; rfl, hm, hr, htop⟩

end Sys2Proof.Machine

/-! SUPPORT. The reset state (R38, R44, R345): flash as shipped, nothing live, every register at its table's value. -/

namespace Sys2Proof.Machine

/-- A register that nothing has written reads the reset word of its table. -/
theorem State.regWord_unwritten {s : State} (h : s.regs = []) (r : RegRow) (k : Nat) : s.regWord r k = r.resetWord := by
  simp [State.regWord, h]

theorem State.regBits_unwritten {s : State} (h : s.regs = []) (r : RegRow) (k lo w : Nat) :
    s.regBits r k lo w = bitsOf r.resetWord lo w := by
  rw [State.regBits, State.regWord_unwritten h]

/-- Every copy of a lifecycle position is erased in a package as shipped, so the position is absent (R345, R356). -/
theorem State.reset_position : State.reset.position 0 = .absent := by decide

/-- Settles O57: a state in which nothing has been written; its registers are those of their tables by `regWord_unwritten`. -/
theorem resetState : Obligations.ResetState := by
  unfold Obligations.ResetState
  have written : State.reset.regs = [] := rfl
  simp only [State.toFunc, State.mergeWindow, State.regWord_unwritten written, State.regBits_unwritten written]
  refine ⟨rfl, rfl, rfl, rfl, rfl, rfl, rfl, rfl, rfl, rfl, Nat.zero_le _, ⟨rfl, rfl, rfl, rfl⟩, rfl, rfl, rfl, rfl,
    State.reset_position, ?_⟩
  decide

end Sys2Proof.Machine

/-! SUPPORT. Refusals outside a session and in firmware recovery (R378, R409), and where a completion goes (R298, R379, R384). -/

namespace Sys2Proof.Machine

/-! ### Refusals before a command's own checks -/

/-- A judged command without an open session is refused with SESSION_INVALID. -/
theorem State.judgedAny_closed {s : State} {c : CmdCtx} {l : List (Bool × Nat)} {f : State → State} (b : s.pkg.bothDead = false)
    (h : s.session c.session = none) : s.judgedAny c l f = s.refuse c Status.sessionInvalid := by
  simp [State.judgedAny, b, h]

/-- In firmware recovery a judged command that the boot ROM does not serve is refused with WRONG_STATE. -/
theorem State.judged_recovery {s : State} {c : CmdCtx} {l : List (Bool × Nat)} {f : State → State} (b : s.pkg.bothDead = false)
    (o : (s.session c.session).isSome = true) (w : s.pkg.fwRecovery = true) : s.judged c l f = s.refuse c Status.wrongState :=
  State.judgedAny_refused b o (by simp [w])

/-- An outcome that is a refusal without an open session and in firmware recovery. -/
def RefusedOutside (s : State) (c : CmdCtx) (o : Out) : Prop :=
  (s.session c.session = none → o = .next (s.refuse c Status.sessionInvalid)) ∧
  ((s.session c.session).isSome = true → s.pkg.fwRecovery = true → o = .next (s.refuse c Status.wrongState))

/-- Both refusals come before the checks of the command, whatever they are, and before its effect. -/
theorem State.judged_refusedOutside {s : State} {c : CmdCtx} {l : List (Bool × Nat)} {f : State → State} (b : s.pkg.bothDead = false) :
    RefusedOutside s c (.next (s.judged c l f)) :=
  ⟨fun h => congrArg _ (State.judgedAny_closed b h), fun o w => congrArg _ (State.judged_recovery b o w)⟩

theorem execJobStart_refusedOutside {s : State} {c : CmdCtx} (slot : Nat) (b : s.pkg.bothDead = false) :
    RefusedOutside s c (execJobStart c slot s) := by
  unfold execJobStart
  split <;> exact State.judged_refusedOutside b

/-- Every command of `sentBy` is judged for its session first. -/
theorem exec_refusedOutside {s : State} {c : CmdCtx} {i : Instr} (b : s.pkg.bothDead = false) (h : Sys2Proof.Claims.sentBy c i) :
    RefusedOutside s c (exec i s) := by
  cases i with
  | jobStart d slot =>
    cases h
    exact execJobStart_refusedOutside slot b
  | hubWarmReset | postRestart | postPower | groupCreate | haltCommand | stepCommand | resumeCommand | freezeCommand | thawCommand
  | setLoad | jobCreate | folioExport | policy | deadlineSet | deadlineClear | streamCreate | streamExport | attest | cert | acquire
  | release | partitionCreate | partitionDestroy | engineLoad | opkey | uflashWrite | uflashRead | lifecycle =>
    cases h
    exact State.judged_refusedOutside b
  | _ => exact h.elim

/-- GRANT, whose checks need the session, judges it first as well. -/
theorem execGrant_closed {s : State} {c : CmdCtx} (arg : List Byte) (b : s.pkg.bothDead = false) (h : s.session c.session = none) :
    execGrant c arg s = .next (s.refuse c Status.sessionInvalid) := by
  simp [execGrant, b, h]

/-! ### Where a completion goes -/

/-- The COMPLETION event of a command. -/
def State.completion (s : State) (c : CmdCtx) (st : Nat) (obj : BitVec 32) (data : Word) : Event :=
  s.event EventType.completion st c.session (c.queue.getD 0xFF)
    (if obj = noObject then objectWord ObjKind.session c.session else obj) c.tag data

/-- The state without the command's entry in the in-flight table. -/
def State.landed (s : State) (c : CmdCtx) : State :=
  { s with host := { s.host with inflight := s.host.inflight.eraseP (fun i => i.c == c) } }

/-- A host command's completion enters the ring of its in-flight entry. -/
theorem State.complete_host {s : State} {c : CmdCtx} {q : Nat} {i : InFlight} (hq : c.queue = some q) (hi : s.inflightOf c = some i)
    (st : Nat) (obj : BitVec 32) (data : Word) :
    s.complete c st obj data = (s.landed c).pushReserved i.ring c.notify (s.completion c st obj data) := by
  simp [State.complete, State.completeFor, State.completion, State.landed, hq, hi]

/-- A port command's completion is the port's response. -/
theorem State.complete_response {s : State} {c : CmdCtx} (hq : c.queue = none) (st : Nat) (obj : BitVec 32) (data : Word) :
    s.complete c st obj data = { s.landed c with port := { s.port with
      response := some { type := 0x86, seq := s.port.seq, status := if st = Status.hubReset then 9 else 0,
                         payload := eventWords false (s.completion c st obj data) }
      taken := false } } := by
  simp [State.complete, State.completeFor, State.completion, State.landed, hq]

@[simp] theorem State.landed_ring (s : State) (c : CmdCtx) (k : Nat) : (s.landed c).ring k = s.ring k := rfl
@[simp] theorem State.landed_pkg (s : State) (c : CmdCtx) : (s.landed c).pkg = s.pkg := rfl

/-- A ring with a place given back, and the completing command's wish for a signal noted. -/
def Ring.unreserve (g : Ring) (b : Bool) : Ring := { g with reserved := g.reserved - 1, notify := g.notify || b }

/-- In an open ring a completion is written on its reserved place. -/
theorem State.pushReserved_open {s : State} {r : Nat} (b : Bool) (e : Event) (o : s.ringOpen (s.ring r) = true) :
    s.pushReserved r b e = s.setRing r (((s.ring r).unreserve b).push e s.pkg.meridian) := if_pos o

/-- While its ring is closed a completion waits held. -/
theorem State.pushReserved_closed {s : State} {r : Nat} (b : Bool) (e : Event) (o : s.ringOpen (s.ring r) = false) :
    s.pushReserved r b e = s.setRing r { (s.ring r).unreserve b with held := (s.ring r).held ++ [e] } :=
  if_neg (o ▸ Bool.false_ne_true)

theorem State.pushReserved_inflight (s : State) (r : Nat) (b : Bool) (e : Event) :
    (s.pushReserved r b e).host.inflight = s.host.inflight := by
  unfold State.pushReserved
  dsimp only
  split <;> rfl

theorem State.pushEvent_inflight (s : State) (r : Nat) (e : Event) : (s.pushEvent r e).host.inflight = s.host.inflight := by
  unfold State.pushEvent
  dsimp only
  (repeat' split) <;> rfl

/-- An event for a session leaves the in-flight table alone. -/
theorem State.emit_inflight (s : State) (k : Nat) (e : Event) : (s.emit k e).host.inflight = s.host.inflight := by
  unfold State.emit
  split
  · rfl
  · split
    · split
      · rfl
      · exact State.pushEvent_inflight ..
    · split
      · exact State.pushEvent_inflight ..
      · rfl

/-- A completed command leaves the in-flight table, wherever its completion goes. -/
theorem State.complete_inflight (s : State) (c : CmdCtx) (st : Nat) (obj : BitVec 32) (data : Word) :
    (s.complete c st obj data).host.inflight = s.host.inflight.eraseP (fun i => i.c == c) := by
  unfold State.complete State.completeFor
  dsimp only
  split
  · rfl
  · split
    · exact State.pushReserved_inflight ..
    · exact State.emit_inflight ..

/-- Settles O58: the refusals by `exec_refusedOutside`, the completions by the ring rule of `pushReserved`. -/
theorem completionsAndRefusals : Obligations.CompletionsAndRefusals := by
  unfold Obligations.CompletionsAndRefusals
  intro s c
  refine ⟨fun b i h => exec_refusedOutside b h, fun b h => ⟨congrArg _ (State.judgedAny_closed b h),
    fun _ => congrArg _ (State.judgedAny_closed b h), fun a => execGrant_closed a b h⟩,
    fun st obj data => ⟨s.complete_inflight .., ?_, ?_⟩⟩
  · intro q i hq hi
    rw [State.complete_host hq hi]
    refine ⟨State.pushReserved_eq .., fun k hk => State.pushReserved_ne _ _ _ _ k hk, fun en bm => ?_, fun en => ?_⟩
    · rw [State.pushReserved_open _ _ (by simp [State.ringOpen, en, bm])]
      exact State.setRing_self ..
    · rw [State.pushReserved_closed _ _ (by simp [State.ringOpen, en])]
      exact State.setRing_self ..
  · intro hq
    rw [State.complete_response hq]
    exact ⟨rfl, rfl, rfl⟩

end Sys2Proof.Machine

/-! SUPPORT. Matches and counters (R131 to R134, R144, R150): what a core's counters add while no chain listens, and who writes them. -/

namespace Sys2Proof.Machine

/-! ### A state without chains -/

theorem State.stageMatch_noChains {s : State} (h : s.chains = []) (key slot src : Nat) (u : Uno) (cyc : Nat) :
    s.stageMatch key slot src u cyc = (s, false) := by
  simp [State.stageMatch, State.chain, h]

theorem State.tapSource_noChains {s : State} (h : s.chains = []) (n : Nat) (u : Uno) (slot src : Nat) :
    State.tapSource n s u slot src = s := by
  cases n with
  | zero => rfl
  | succ n => simp [State.tapSource, rangeFrom, State.stageMatch_noChains h]

theorem State.countAt_noChains {s : State} (h : s.chains = []) (u j m : Nat) :
    s.countAt u j m = s.setCnt (cmpKey u j) ((s.cnt (cmpKey u j)).add m) := by
  have quiet (k : Nat) (v : Cnt) : (s.setCnt k v).chains = [] := h
  simp [State.countAt, cmpKey, State.tapSource_noChains (quiet _ _)]

/-! ### Counters that count a match -/

/-- One counter of a core tap takes a match of event `ev` at element place `n` (Table BW-4, R133). -/
def State.tally (s : State) (u : Uno) (ev n j : Nat) : State :=
  if cntEvsel (s.cnt (cmpKey u j)).ctl.toNat == ev && cntSrc (s.cnt (cmpKey u j)).ctl.toNat == n &&
      s.acts (s.cnt (cmpKey u j)).ctl.toNat u then
    s.setCnt (cmpKey u j) ((s.cnt (cmpKey u j)).add 1)
  else s

@[simp] theorem State.setCnt_acts (s : State) (k : Nat) (v : Cnt) (ctl : Nat) (u : Uno) : (s.setCnt k v).acts ctl u = s.acts ctl u := rfl

theorem State.tally_frame (s : State) (u : Uno) (ev n j : Nat) : s.tally u ev n j = { s with cnts := (s.tally u ev n j).cnts } := by
  unfold State.tally
  split <;> rfl

@[simp] theorem State.tally_chains (s : State) (u : Uno) (ev n j : Nat) : (s.tally u ev n j).chains = s.chains := by
  rw [State.tally_frame]

@[simp] theorem State.tally_acts (s : State) (u : Uno) (ev n j ctl : Nat) (v : Uno) : (s.tally u ev n j).acts ctl v = s.acts ctl v := by
  unfold State.tally
  split <;> rfl

theorem State.tally_self (s : State) (u : Uno) (ev n j : Nat) :
    (s.tally u ev n j).cnt (cmpKey u j) =
      if cntEvsel (s.cnt (cmpKey u j)).ctl.toNat = ev ∧ cntSrc (s.cnt (cmpKey u j)).ctl.toNat = n ∧
        s.acts (s.cnt (cmpKey u j)).ctl.toNat u = true then (s.cnt (cmpKey u j)).add 1 else s.cnt (cmpKey u j) := by
  simp only [State.tally, Bool.and_eq_true, beq_iff_eq, and_assoc]
  split
  · exact State.setCnt_self ..
  · rfl

theorem State.tally_ne (s : State) (u : Uno) (ev n : Nat) {j k : Nat} (h : k ≠ cmpKey u j) : (s.tally u ev n j).cnt k = s.cnt k := by
  unfold State.tally
  split
  · exact State.setCnt_ne _ _ _ _ h
  · rfl

/-- Without chains a match of a core tap's comparator is counted by the core's two counters, and does no more. -/
theorem State.tapMatch_noChains {s : State} (h : s.chains = []) (u m ev n : Nat) :
    s.tapMatch u m ev n = (s.tally u ev n 0).tally u ev n 1 := by
  have counts {t : State} (ht : t.chains = []) (j : Nat) :
      (if cntEvsel (t.cnt (u * 16 + j)).ctl.toNat == ev && cntSrc (t.cnt (u * 16 + j)).ctl.toNat == n &&
          t.acts (t.cnt (u * 16 + j)).ctl.toNat u then t.countAt u j 1 else t) = t.tally u ev n j := by
    rw [State.countAt_noChains ht]
    rfl
  simp only [State.tapMatch, rangeFrom, List.foldl_cons, List.foldl_nil, counts h, counts ((State.tally_chains ..).trans h)]
  exact State.tapSource_noChains (by simp [h]) ..

/-- A count that goes on, or stays at its greatest value with SAT set (R134). -/
theorem Cnt.add_eq (x : Cnt) (m : Nat) :
    x.add m = if x.count.toNat + m < 2 ^ 48 then { x with count := BitVec.ofNat 48 (x.count.toNat + m) }
      else { x with count := BitVec.allOnes 48, ctl := x.ctl ||| 0x100 } := by
  unfold Cnt.add cntTop
  dsimp only
  by_cases h : x.count.toNat + m < 2 ^ 48
  · rw [if_pos h, if_pos (by omega)]
  · rw [if_neg h, if_neg (by omega)]
    rfl

/-- What the match of a comparator leaves, counter by counter. -/
theorem State.tapMatch_counted {s : State} (h : s.chains = []) (u m ev n : Nat) :
    s.tapMatch u m ev n = { s with cnts := (s.tapMatch u m ev n).cnts } ∧
    ∀ j, j < 2 → (s.tapMatch u m ev n).cnt (cmpKey u j) =
      if cntEvsel (s.cnt (cmpKey u j)).ctl.toNat = ev ∧ cntSrc (s.cnt (cmpKey u j)).ctl.toNat = n ∧
        s.acts (s.cnt (cmpKey u j)).ctl.toNat u = true then (s.cnt (cmpKey u j)).add 1 else s.cnt (cmpKey u j) := by
  have apart : cmpKey u 0 ≠ cmpKey u 1 := by simp [cmpKey]
  rw [State.tapMatch_noChains h]
  refine ⟨by rw [State.tally_frame _ u ev n 1, State.tally_frame s u ev n 0], fun j hj => ?_⟩
  obtain rfl | rfl : j = 0 ∨ j = 1 := by omega
  · rw [State.tally_ne _ _ _ _ apart, State.tally_self]
  · rw [State.tally_self, State.tally_ne _ _ _ _ apart.symm, State.tally_acts]

/-! ### Commands of a match -/

section
variable {s : State} {u : Uno}

theorem State.executes_powered (x : s.executes u = true) : s.powered u = true ∧ s.inCycle u = true := by
  simpa [State.executes] using x

theorem execIacMatch_hit {n tg a : Nat} (hn : n < 4) (x : s.executes u = true) (ha : s.acts (s.cmp (cmpKey u n)).ctl.toNat u = true)
    (ht : tgOk (s.cmp (cmpKey u n)).ctl.toNat tg = true) (hi : (s.cmp (cmpKey u n)).issueHit a = true) :
    execIacMatch u n tg a s = .next (s.tapMatch u n 7 n) := by
  simp [execIacMatch, hn, x, ha, ht, hi]

theorem execIacMatch_miss {n tg a : Nat} (hi : (s.cmp (cmpKey u n)).issueHit a = false) : execIacMatch u n tg a s = .next s := by
  simp [execIacMatch, hi]

/-- Without INV an address hits exactly in the range (R131). -/
theorem Cmp.issueHit_plain {c : Cmp} (h : ctlInv c.ctl.toNat = false) (a : Nat) :
    c.issueHit a = decide (c.lo.toNat / 4 ≤ bitsOf a 2 46 ∧ bitsOf a 2 46 ≤ c.hi.toNat / 4) := by
  simp [Cmp.issueHit, h]

theorem execDacMatch_hit {n tg : Nat} {store : Bool} {ls : List Lane} (hn : n < 4) (x : s.executes u = true)
    (ha : s.acts (s.cmp (cmpKey u (4 + n))).ctl.toNat u = true) (ht : tgOk (s.cmp (cmpKey u (4 + n))).ctl.toNat tg = true)
    (hi : (s.cmp (cmpKey u (4 + n))).accessHit store ls = true) :
    execDacMatch u n tg store ls s = .next (s.tapMatch u (4 + n) 8 n) := by
  simp [execDacMatch, State.accesses, hn, State.executes_powered x, ha, ht, hi]

theorem execCounterEvent_counted {n k : Nat} (hn : n < 2) (x : s.executes u = true) (hc : s.chains = [])
    (ha : s.acts (s.cnt (cmpKey u n)).ctl.toNat u = true) (he : cntEvsel (s.cnt (cmpKey u n)).ctl.toNat ≤ 6) :
    execCounterEvent u n k s = .next (s.setCnt (cmpKey u n)
      ((s.cnt (cmpKey u n)).add (cycleEvents (cntEvsel (s.cnt (cmpKey u n)).ctl.toNat) k))) := by
  rw [cmpKey] at ha he ⊢
  simp [execCounterEvent, State.counts, hn, State.executes_powered x, ha, he, State.countAt_noChains hc, cmpKey]

theorem execFetchMatchDiscarded_counted {n : Nat} (hn : n < 4) (x : s.executes u = true)
    (ha : s.acts (s.cmp (cmpKey u n)).ctl.toNat u = true) :
    execFetchMatchDiscarded u s = .next (s.setCore u
      { s.core u with fmd := BitVec.ofNat 32 (min 4294967295 ((s.core u).fmd.toNat + 1)) }) := by
  have armed : (rangeFrom 0 4).any (fun n => s.acts (s.cmp (cmpKey u n)).ctl.toNat u) = true :=
    List.any_eq_true.mpr ⟨n, by simp [rangeFrom]; omega, ha⟩
  simp [execFetchMatchDiscarded, x, armed, sat32, satAdd]

end

/-! ### Writes of COUNT -/

theorem State.cnt_of_cnts {s t : State} (h : t.cnts = s.cnts) (k : Nat) : t.cnt k = s.cnt k := by simp [State.cnt, h]

/-- A whole write of COUNT stores its low 48 bits, clears SAT, and leaves every other counter. -/
theorem State.cntWrite_count (s : State) (who : Option Nat) (u : Uno) (n : Nat) (v : Word) :
    (s.cntWrite who u n false 0 64 v.toNat).cnts =
      (s.setCnt (cmpKey u n) { s.cnt (cmpKey u n) with
        count := v.setWidth 48, ctl := (s.cnt (cmpKey u n)).ctl &&& ~~~0x100 }).cnts := by
  have whole : putBits (s.cnt (cmpKey u n)).count.toNat 0 64 v.toNat = v.toNat := by
    have := (s.cnt (cmpKey u n)).count.isLt
    have := v.isLt
    simp only [putBits, bitsOf]
    omega
  have low : BitVec.ofNat 48 (bitsOf v.toNat 0 48) = v.setWidth 48 := by
    apply BitVec.eq_of_toNat_eq
    simp [bitsOf]
  unfold State.cntWrite
  simp only [whole, low, Bool.false_eq_true, if_false, Bool.false_and]
  split
  · rw [State.clampOne_eq]
  · rfl

/-- Settles the part of O31 about COUNT: its write goes where a post serves the core's half. -/
theorem countWrite : Sys2Proof.Claims.CountWrite := by
  intro s p u n v hn hp hk hb
  refine ⟨fun hs => ?_, fun hs hm => ?_, fun hm => ?_⟩
  · simp [exec, execCountWrite, hp, hs]
  · refine ⟨s.cntWrite (s.actor p) u n false 0 64 v.toNat, ?_, ?_, fun k hne => ?_⟩
    · simp [exec, execCountWrite, State.onBar, hp, hs, hn, hk, hm, hb]
    · exact (State.cnt_of_cnts (State.cntWrite_count ..) _).trans (State.setCnt_self ..)
    · exact (State.cnt_of_cnts (State.cntWrite_count ..) _).trans (State.setCnt_ne _ _ _ _ hne)
  · by_cases hs : ((halfOf s.pkg.member u).bind s.server).isSome = true
    · refine ⟨_, by simp [exec, execCountWrite, State.onBar, hp, hs, hm, hb]; rfl, ?_⟩
      rw [State.reservedReport_eq]
    · exact ⟨s, by simp [exec, execCountWrite, hp, hs], rfl⟩

/-- Settles O31: without chains a match reaches the core's two counters alone (`tapMatch_counted`), and a counter adds by `Cnt.add_eq`. -/
theorem matchesAndCounters : Obligations.MatchesAndCounters := by
  unfold Obligations.MatchesAndCounters
  refine ⟨countWrite, fun s u n tg a k store ls x => ?_⟩
  simp only [← Cnt.add_eq]
  refine ⟨fun hc hn => ⟨fun ha ht hv => ⟨fun h1 h2 => ?_, fun h1 => ?_⟩, fun ha ht hi => ?_⟩,
    fun hc hn ha he => ?_, fun hn ha => ?_⟩
  · exact ⟨_, execIacMatch_hit hn x ha ht (by simp [Cmp.issueHit_plain hv, h1, h2]), State.tapMatch_counted hc ..⟩
  · exact execIacMatch_miss (by rw [Cmp.issueHit_plain hv, decide_eq_false_iff_not]; omega)
  · exact ⟨_, execDacMatch_hit hn x ha ht hi, State.tapMatch_counted hc ..⟩
  · exact execCounterEvent_counted hn x hc ha he
  · exact execFetchMatchDiscarded_counted hn x ha

end Sys2Proof.Machine

/-! ### Register accesses (R9, R11): the bits of a stored word above its register

A write of 4 bytes replaces the low 32 bits of the stored word and keeps what stands above them. CMP_AUTOWAKE has 32
bits, the stored word 64: of a state whose word has a bit above the register, the write leaves that bit. -/

namespace Sys2Proof.Machine

/-- The one field of CMP_AUTOWAKE takes every value: no clamp. -/
theorem State.writeFields_cmpAutowake (s : State) (w : Writer) (k v : Nat) :
    s.writeFields w RegMap.cmpAutowake k 0 32 v =
      s.setRegWord RegMap.cmpAutowake k (putBits (s.regWord RegMap.cmpAutowake k) 0 32 v) := by
  have hput (old : Nat) : putBits old 0 32 (v % 4294967296) = putBits old 0 32 v := by simp [putBits]
  simp [State.writeFields, RegMap.cmpAutowake, RegField.covered, RegField.keeps, RegField.stored, RegField.clamps,
    RegField.written, bitsOf_putBits, hput]

/-- Bits 0 to 31 of an access fall on the register at bit 0 in full and on the one at bit 32 nowhere. -/
theorem meet_low (v : Nat) : meet 0 32 v 0 32 = some (0, 32, v % 2 ^ 32) := by
  simp [meet]

theorem meet_high (v : Nat) : meet 0 32 v 32 32 = none := by
  simp [meet]

/-- The registers of the Compass in the eight bytes at 0x10140. -/
theorem rows_cmpAutowake : rowsIn RegMap.globalRows 0 0x10140 ++ arrayRows 0x10140 =
    [(RegMap.cmpAutowake, 0x10140), (RegMap.cmpAutowake, 0x10144)] := by
  decide

theorem globalCell_cmpAutowake (s : State) (p : Path) (who : Option Nat) : cellHolds (s.globalCell p who 0x10140) 0 32 = true :=
  rfl

theorem regKey_cmpAutowake (p : Path) : regKey p 0x10140 = 0x10140 := by
  simp [regKey, ownSelectors]

/-- A write to the low word of those bytes writes the first register of CMP_AUTOWAKE alone. -/
theorem State.writeRows_cmpAutowake (s : State) (w : Writer) (p : Path) (v : Nat) :
    s.writeRows w p [(RegMap.cmpAutowake, 0x10140), (RegMap.cmpAutowake, 0x10144)] 0x10140 0 32 v =
      s.setRegWord RegMap.cmpAutowake 0x10140 (putBits (s.regWord RegMap.cmpAutowake 0x10140) 0 32 (v % 2 ^ 32)) := by
  have hbytes : RegMap.cmpAutowake.bytes = 4 := rfl
  simp only [State.writeRows, List.foldl_cons, List.foldl_nil, hbytes, Nat.sub_self, Nat.reduceSub, Nat.reduceMul, meet_low, meet_high,
    regKey_cmpAutowake, State.writeFields_cmpAutowake]

theorem State.globalPut_cmpAutowake (s : State) (p : Path) (who : Option Nat) (v : Nat) :
    s.globalPut p who 0x10140 0 32 v =
      some (s.setRegWord RegMap.cmpAutowake 0x10140 (putBits (s.regWord RegMap.cmpAutowake 0x10140) 0 32 (v % 2 ^ 32))) := by
  simp [State.globalPut, globalCell_cmpAutowake, rows_cmpAutowake, State.writeRows_cmpAutowake, covers, State.cmpEffect]

/-- A write of CMP_AUTOWAKE by an actor with platform rights. -/
theorem exec_registerWrite_cmpAutowake {s : State} {p : Path} (v : Word) (hbar : s.barGone p = false)
    (hplatform : s.hasPlatform (s.actor p) = true) :
    exec (.registerWrite p 0x10140 false v) s = .next (s.setRegWord RegMap.cmpAutowake 0x10140
      (putBits (s.regWord RegMap.cmpAutowake 0x10140) 0 32 (v.toNat % 2 ^ 32))) := by
  have hmay : s.writeDenied p (s.actor p) 0x10140 = false := by simp [State.writeDenied, platformWords, hplatform]
  change (.next (s.barWrite p 0x10140 false v) : Out) = _
  simp [State.barWrite, State.writeAccess, hbar, widthOf, windowPost, hmay, State.globalPut_cmpAutowake]

/-- A state at reset but for bit 32 in the stored word of CMP_AUTOWAKE's first register. -/
def autowakeExcess : State := { State.reset with regs := [(0x10140, 0x100000000)] }

/-- With the lifecycle undecided the BAR answers, and its actor has platform rights. -/
theorem autowakeExcess_permits :
    autowakeExcess.barGone .bar = false ∧ autowakeExcess.hasPlatform (autowakeExcess.actor .bar) = true := by
  decide

/-- The write of 5 leaves the excess bit above it. -/
theorem regWord_autowakeExcess_written :
    (autowakeExcess.setRegWord RegMap.cmpAutowake 0x10140
      (putBits (autowakeExcess.regWord RegMap.cmpAutowake 0x10140) 0 32 5)).regWord RegMap.cmpAutowake 0x10140 = 2 ^ 32 + 5 := by
  decide +kernel

/-- Refutes O55: its first clause lets the word of CMP_AUTOWAKE before the write be any 64 bits, where for AUTH_CFG it asks
for a word within the register. In `autowakeExcess` the write of 5 leaves the word 2^32 + 5. -/
theorem not_registerAccess : ¬ Obligations.RegisterAccess := by
  unfold Obligations.RegisterAccess
  intro h
  obtain ⟨hbar, hplatform⟩ := autowakeExcess_permits
  obtain ⟨⟨t, hexec, -, hword, -⟩, -⟩ := (h autowakeExcess .bar hbar).1 5 hplatform
  obtain rfl : autowakeExcess.setRegWord RegMap.cmpAutowake 0x10140
      (putBits (autowakeExcess.regWord RegMap.cmpAutowake 0x10140) 0 32 5) = t := by
    exact Host.Outcome.next.inj ((exec_registerWrite_cmpAutowake 5 hbar hplatform).symm.trans hexec)
  exact absurd (regWord_autowakeExcess_written.symm.trans hword) (by decide)

end Sys2Proof.Machine

/-! SUPPORT. One tick (R28, R76, R252): a table whose every value changes, and the taps' queues as they empty into the stations. -/

namespace Sys2Proof.Machine

/-! ### Reads of a table whose every value has changed -/

theorem Tbl.get_of_lt {α : Type} [DecidableEq α] (d : α) (t : Tbl α) (j k : Nat) (w : Tbl.wfFrom d (some j) t = true) (h : k ≤ j) :
    Tbl.get d t k = d := by
  induction t generalizing j with
  | nil => rfl
  | cons e r ih =>
    obtain ⟨i, v⟩ := e
    simp only [Tbl.wfFrom, Bool.and_eq_true, decide_eq_true_eq] at w
    obtain ⟨⟨hi, -⟩, hr⟩ := w
    simp only [Tbl.get, if_neg (show ¬ i = k by omega)]
    exact ih i hr (by omega)

theorem Tbl.get_mapVals_from {α : Type} [DecidableEq α] (d : α) (f : Nat → α → α) (t : Tbl α) (lo : Option Nat) (k : Nat)
    (w : Tbl.wfFrom d lo t = true) (hd : f k d = d) : Tbl.get d (Tbl.mapVals d f t) k = f k (Tbl.get d t k) := by
  induction t generalizing lo with
  | nil => exact hd.symm
  | cons e r ih =>
    obtain ⟨i, v⟩ := e
    simp only [Tbl.wfFrom, Bool.and_eq_true] at w
    have hr := ih (some i) w.2
    by_cases hk : i = k
    · subst hk
      by_cases hv : f i v = d
      · simp [Tbl.mapVals, Tbl.get, hv, hr, Tbl.get_of_lt d r i i w.2, hd]
      · simp [Tbl.mapVals, Tbl.get, hv]
    · by_cases hv : f i v = d
      · simp [Tbl.mapVals, Tbl.get, hv, hk, hr]
      · simp [Tbl.mapVals, Tbl.get, hv, hk, hr]

/-- In a canonical table a read after a change of every value is the changed value, where the change keeps the default. -/
theorem Tbl.get_mapVals {α : Type} [DecidableEq α] {d : α} {f : Nat → α → α} {t : Tbl α} (k : Nat) (w : Tbl.wf d t = true)
    (hd : f k d = d) : Tbl.get d (Tbl.mapVals d f t) k = f k (Tbl.get d t k) :=
  Tbl.get_mapVals_from d f t none k w hd

/-- A key that a table does not list reads the default. -/
theorem Tbl.get_of_notMem {α : Type} (d : α) (t : Tbl α) (k : Nat) (h : k ∉ t.map (·.1)) : Tbl.get d t k = d := by
  induction t with
  | nil => rfl
  | cons e r ih =>
    simp only [List.map_cons, List.mem_cons, not_or] at h
    simp [Tbl.get, Ne.symm h.1, ih h.2]

/-! ### The taps -/

/-- What leaves a tap's queue goes to a station: nothing else of the state changes. -/
theorem State.stationPush_eq (s : State) (cl : Uno) (k : Packet) :
    s.stationPush cl k = { s with trace := { s.trace with stations := (s.stationPush cl k).trace.stations } } := by
  simp only [State.stationPush]
  split
  · rfl
  · split <;> rfl

/-- A tap's queue as its packets leave it: its drops stay to be reported. -/
def StationQ.emptied (q : StationQ) : StationQ := { q with queue := [] }

/-- One tap empties into the station at `cl`. -/
def State.drainTap (s : State) (cl : Uno) (u : Uno) (q : StationQ) : State :=
  q.queue.foldl (fun r k => r.stationPush cl k) (s.setTapQ u (s.tapQ u).emptied)

theorem State.stationPushes_eq (cl : Uno) (ks : List Packet) (s : State) :
    ks.foldl (fun r k => r.stationPush cl k) s =
      { s with trace := { s.trace with stations := (ks.foldl (fun r k => r.stationPush cl k) s).trace.stations } } := by
  induction ks generalizing s with
  | nil => rfl
  | cons k ks ih => rw [List.foldl_cons, ih, State.stationPush_eq]

theorem State.drainTap_eq (s : State) (cl u : Uno) (q : StationQ) :
    s.drainTap cl u q = { s with trace := { s.trace with
      taps := Tbl.set {} s.trace.taps u (s.tapQ u).emptied, stations := (s.drainTap cl u q).trace.stations } } := by
  rw [State.drainTap, State.stationPushes_eq]
  rfl

/-- The taps of a list empty: only taps and stations change, a listed tap reads emptied, any other as before. -/
theorem State.drainList (cl : Nat → Uno) (l : List (Nat × StationQ)) (s : State) :
    let t := l.foldl (fun t e => t.drainTap (cl e.1) e.1 e.2) s
    t = { s with trace := { s.trace with taps := t.trace.taps, stations := t.trace.stations } } ∧
      ∀ u, t.tapQ u = if u ∈ l.map (·.1) then (s.tapQ u).emptied else s.tapQ u := by
  induction l generalizing s with
  | nil => exact ⟨rfl, fun u => rfl⟩
  | cons e l ih =>
    obtain ⟨hframe, htap⟩ := ih (s.drainTap (cl e.1) e.1 e.2)
    have hread (u : Uno) : (s.drainTap (cl e.1) e.1 e.2).tapQ u = if u = e.1 then (s.tapQ u).emptied else s.tapQ u := by
      rw [State.drainTap_eq]
      change Tbl.get {} (Tbl.set {} s.trace.taps e.1 (s.tapQ e.1).emptied) u = _
      split
      · next h => subst h; exact Tbl.get_set_self ..
      · next h => exact Tbl.get_set_ne _ _ _ _ _ h
    refine ⟨?_, fun u => ?_⟩
    · rw [List.foldl_cons, hframe, State.drainTap_eq]
    · rw [List.foldl_cons, htap, hread, List.map_cons]
      by_cases h1 : u = e.1 <;> by_cases h2 : u ∈ l.map (·.1) <;> simp [h1, h2, StationQ.emptied]

/-- Every tap's queue empties (R252). -/
theorem State.drainTaps_spec (s : State) :
    s.drainTaps = { s with trace := { s.trace with taps := s.drainTaps.trace.taps, stations := s.drainTaps.trace.stations } } ∧
      ∀ u, s.drainTaps.tapQ u = (s.tapQ u).emptied := by
  obtain ⟨hframe, htap⟩ := State.drainList (parentOf s.pkg.member) s.trace.taps s
  refine ⟨hframe, fun u => (htap u).trans ?_⟩
  split
  · rfl
  · next h =>
    have hu : s.tapQ u = {} := Tbl.get_of_notMem _ _ _ h
    rw [hu]
    rfl

theorem State.drainTaps_nil {s : State} (h : s.trace.taps = []) : s.drainTaps = s := by
  rw [State.drainTaps, h]
  rfl

/-! ### The tick -/

theorem Engine.waitFor_idle {g : Engine} (h : g.state ≠ .waiting) (n : Nat) : g.waitFor n = g := by
  simp [Engine.waitFor, h]

/-- The state as the master has counted and the waiting budgets have run, before the samples and the taps. -/
def State.counted (s : State) : State :=
  { s with pkg := { s.pkg with meridian := s.pkg.meridian + 1 }
           engines := Tbl.mapVals {} (fun _ g => g.waitFor (hclkIn s.now)) s.engines }

theorem State.tick_running {s : State} (hup : s.pkg.aonUp = true) (hwrap : s.pkg.meridian ≠ BitVec.allOnes 64) :
    s.tick = s.counted.sampleDue.drainTaps := if_pos ⟨hup, hwrap⟩

theorem State.tick_off {s : State} (h : s.pkg.aonUp = false) : s.tick = s := by simp [State.tick, h]

theorem State.sampleEarly_none (s : State) (p : Nat) {w : Watcher} (h : w.unsched = none) : s.sampleEarly p w = w := by
  simp [State.sampleEarly, h]

/-- Settles O56: the queue's front by the definition of a step, the tick by what it does to each of its four tables. -/
theorem stepTakesTheFront : Obligations.StepTakesTheFront := by
  unfold Obligations.StepTakesTheFront
  intro s c q
  refine ⟨rfl, fun hq hup hwrap hengines hwatchers _ => ?_, fun hq hoff => by simp [step, hq, State.tick_off hoff]⟩
  obtain ⟨hframe, htaps⟩ := State.drainTaps_spec s.counted.sampleDue
  have hstep : step s = .next s.counted.sampleDue.drainTaps := by simp [step, hq, State.tick_running hup hwrap]
  have hengine (e : Nat) : s.counted.sampleDue.drainTaps.engine e = (s.engine e).waitFor (hclkIn s.now) := by
    rw [hframe]
    exact Tbl.get_mapVals e hengines (Engine.waitFor_idle (by decide) _)
  have hwatcher (p : Nat) : s.counted.sampleDue.drainTaps.watcher p = s.counted.sampleEarly p (s.watcher p) := by
    rw [hframe]
    exact Tbl.get_mapVals p hwatchers (State.sampleEarly_none _ _ rfl)
  have hframes : s.counted.sampleDue.drainTaps.engines = s.counted.engines ∧
      s.counted.sampleDue.drainTaps.watch.watchers = s.counted.sampleDue.watch.watchers := by
    rw [hframe]
    exact ⟨rfl, rfl⟩
  refine ⟨_, hstep, by rw [hframes.1, hframes.2]; exact hframe, fun e he => ?_, fun e hw ht => ?_, fun p hp => ?_, htaps, fun hnil => ?_⟩
  · rw [hengine, Engine.waitFor_idle he]
  · simp [hengine, Engine.waitFor, hw, ht, hclkIn]
  · rw [hwatcher, State.sampleEarly_none _ _ hp]
  · rw [State.drainTaps_nil (s := s.counted.sampleDue) hnil]
    rfl

end Sys2Proof.Machine

/-! SUPPORT. Two statements fail on a table that lists a key twice: a change of every value drops an entry that becomes the default, and the
entry behind it is read. -/

namespace Sys2Proof.Machine

/-- AON runs, and two wait entries stand under one thread group: the first differs from the default in its object alone. -/
def waiterListedTwice : State := { State.reset with
  pkg := { aonUp := true }, watch := { waiters := [(0, { obj := some 0 }), (0, { producer := true })] } }

theorem waiterListedTwice_canonical : waiterListedTwice.canonical := ⟨rfl, rfl, rfl, rfl⟩

/-- Refutes O18: its last clause takes the wait entries of any table, and in `waiterListedTwice` the package warm reset uncovers the
second entry of its thread group. -/
theorem not_resets : ¬ Obligations.Resets := by
  unfold Obligations.Resets
  intro h
  obtain ⟨-, -, hwarm⟩ := h waiterListedTwice ⟨0, none, 0, false, 0, 0⟩ []
  obtain ⟨t, hexec, -, -, -, hwaiter, -⟩ := hwarm rfl waiterListedTwice_canonical rfl
  obtain rfl : waiterListedTwice.packageWarm = t := Host.Outcome.next.inj hexec
  exact absurd (hwaiter 0) (by decide)

/-- Two entries stand for the link direction from die 0 to die 1: the first is one urgent credit short of the default. -/
def linkListedTwice : State := { State.reset with links := [(linkKey 0 1, { urg := 63 }), (linkKey 0 1, { urg := 10 })] }

/-- Refutes O20: its refill clause takes any table of links, and in `linkListedTwice` the refill fills the first entry of the link from die
0 to die 1 and uncovers the second. -/
theorem not_linksAndPulses : ¬ Obligations.LinksAndPulses := by
  unfold Obligations.LinksAndPulses
  intro h
  obtain ⟨-, hlink, -⟩ := h linkListedTwice 0 1 0 0 false
  obtain ⟨⟨t, hexec, -, hread⟩, -⟩ := hlink (by decide)
  obtain rfl := Host.Outcome.next.inj hexec
  exact absurd hread (by decide)

end Sys2Proof.Machine

/-! SUPPORT. What the shared operations leave of the topology (R28, R44 to R46, R216): the package state, the dies' AON strips, the units
held in reset, and each post's power and clocks. Only the commands of power, start-up, links and posts write those; one equation for each
operation says so (`State.topo`), and simp carries it through a chain of operations. -/

namespace Sys2Proof.Machine

/-- A post's power and clocks, and whether its half is to be adopted: what its reports leave alone. -/
def Post.vitals (q : Post) : Nat × Time × Time × Bool := (q.health, q.hbT, q.ackT, q.adoptWanted)

/-- The vitals of every post of a table. -/
def vitalsOf (t : Tbl Post) (p : Nat) : Nat × Time × Time × Bool := (Tbl.get {} t p).vitals

/-- The package state, the AON strips, the units held in reset, and the posts' vitals. -/
def State.topo (s : State) : Pkg × Tbl Die × Tbl Bool × (Nat → Nat × Time × Time × Bool) := (s.pkg, s.dies, s.held, vitalsOf s.posts)

/-- An operation that may have to wait leaves the topology, where it does not wait. -/
structure TopoIn (k : Pkg × Tbl Die × Tbl Bool × (Nat → Nat × Time × Time × Bool)) (o : Option State) : Prop where
  all : ∀ t ∈ o, t.topo = k

section
variable {s t : State} (h : t.topo = s.topo)
include h

theorem State.pkg_of_topo : t.pkg = s.pkg := (Prod.ext_iff.mp h).1

theorem State.dies_of_topo : t.dies = s.dies := (Prod.ext_iff.mp (Prod.ext_iff.mp h).2).1

theorem State.held_of_topo : t.held = s.held := (Prod.ext_iff.mp (Prod.ext_iff.mp (Prod.ext_iff.mp h).2).2).1

theorem State.vitals_of_topo (p : Nat) : (t.post p).vitals = (s.post p).vitals :=
  congrFun (Prod.ext_iff.mp (Prod.ext_iff.mp (Prod.ext_iff.mp h).2).2).2 p

theorem State.health_of_topo (p : Nat) : (t.post p).health = (s.post p).health := congrArg (·.1) (State.vitals_of_topo h p)

end

/-- An update of a state leaves what it does not write in those four places. -/
@[simp ↓] theorem State.topo_mk
    {pkg dies copies links posts held unobs groups clamps reports legend regs engines hops hopNext hopSeq cores insts rports
     bounds rings cmps cnts chains sets places halves xtrig folios cart pair watch trace port auth life host upd drawn pending} :
    State.topo (.mk pkg dies copies links posts held unobs groups clamps reports legend regs engines hops hopNext hopSeq cores insts rports
      bounds rings cmps cnts chains sets places halves xtrig folios cart pair watch trace port auth life host upd drawn pending) =
      (pkg, dies, held, vitalsOf posts) := by
  rw [State.topo]

@[simp ↓] theorem State.topo_fold (s : State) : (s.pkg, s.dies, s.held, vitalsOf s.posts) = s.topo := by
  rw [State.topo]

@[simp ↓] theorem State.topo_ite {c : Prop} [Decidable c] {a b : State} :
    (if c then a else b).topo = if c then a.topo else b.topo := apply_ite _ _ _ _

/-- A fold of operations that each leave a part of the state leaves it. -/
theorem State.foldl_leaves {α β : Type} (g : State → β) {f : State → α → State} (h : ∀ s a, g (f s a) = g s) (l : List α) (s : State) :
    g (l.foldl f s) = g s := by
  induction l generalizing s with
  | nil => rfl
  | cons a l ih => exact (ih _).trans (h s a)

@[simp ↓] theorem State.topo_foldl {α : Type} {f : State → α → State} {l : List α} {s : State}
    (h : ∀ s a, (f s a).topo = s.topo) : (l.foldl f s).topo = s.topo := State.foldl_leaves State.topo h l s

section
variable (k : Pkg × Tbl Die × Tbl Bool × (Nat → Nat × Time × Time × Bool))

@[simp ↓] theorem topoIn_none : TopoIn k none := ⟨by simp⟩
@[simp ↓] theorem topoIn_some (t : State) : TopoIn k (some t) ↔ t.topo = k := ⟨fun h => h.all t rfl, fun h => ⟨by simpa using h⟩⟩

@[simp ↓] theorem topoIn_ite {c : Prop} [Decidable c] {a b : Option State} :
    TopoIn k (if c then a else b) ↔ if c then TopoIn k a else TopoIn k b := by split <;> rfl

end

/-! ### Units, engines and reports -/

@[simp ↓] theorem State.draw_topo (s : State) : s.draw.topo = s.topo := by simp [State.draw]
@[simp ↓] theorem State.setCore_topo (s : State) (u : Uno) (v : Core) : (s.setCore u v).topo = s.topo := by simp [State.setCore]
@[simp ↓] theorem State.setEngine_topo (s : State) (e : Nat) (v : Engine) : (s.setEngine e v).topo = s.topo := by simp [State.setEngine]

/-- A post written with its vitals as they were. -/
@[simp ↓] theorem State.setPost_topo (s : State) (p : Nat) (v : Post) (h : v.vitals = (s.post p).vitals) :
    (s.setPost p v).topo = s.topo := by
  have hv : vitalsOf (Tbl.set {} s.posts p v) = vitalsOf s.posts := by
    funext j
    by_cases hj : j = p
    · rw [hj, vitalsOf, Tbl.get_set_self]
      exact h
    · rw [vitalsOf, Tbl.get_set_ne _ _ _ _ _ hj]
      rfl
  change (s.pkg, s.dies, s.held, vitalsOf (Tbl.set {} s.posts p v)) = _
  rw [hv, State.topo]

@[simp ↓] theorem State.markLost_topo (s : State) (c : Ctx) : (s.markLost c).topo = s.topo := by simp [State.markLost]

@[simp ↓] theorem State.loneWrite_topo (s : State) (p : Nat) (r : Rec) : (s.loneWrite p r).topo = s.topo := by
  simp only [State.loneWrite]
  split
  · exact State.setPost_topo _ _ _ rfl
  · split
    · exact State.setPost_topo _ _ _ rfl
    · exact (State.markLost_topo ..).trans (State.setPost_topo _ _ _ rfl)

@[simp ↓] theorem State.setPoint_topo (s : State) (k : Nat) (v : HashPoint) : (s.setPoint k v).topo = s.topo := by simp [State.setPoint]
@[simp ↓] theorem State.pointTake_topo (s : State) (k : Nat) (r : Rec) : (s.pointTake k r).topo = s.topo := by simp [State.pointTake]
@[simp ↓] theorem State.engineEvent_topo (s : State) (e bit : Nat) : (s.engineEvent e bit).topo = s.topo := by simp [State.engineEvent]

@[simp ↓] theorem State.cartEngine_topo (s : State) (u : Uno) : (s.cartEngine u).topo = s.topo := by
  unfold State.cartEngine
  split <;> simp

@[simp ↓] theorem State.report_topo (s : State) (u : Uno) (cls code : Nat) (d : List Byte) (c : Ctx) :
    (s.report u cls code d c).topo = s.topo := by
  simp only [State.report]
  split
  · rfl
  · split <;> simp

@[simp ↓] theorem State.reportHub_topo (s : State) (u : Uno) (cls code : Nat) (d : List Byte) (c : Ctx) :
    (s.reportHub u cls code d c).topo = s.topo := by
  simp [State.reportHub]

@[simp ↓] theorem State.failover_topo (s : State) (reporter : Uno) (code : Nat) (lost : Uno) :
    (s.failover reporter code lost).topo = s.topo := by
  simp [State.failover]

@[simp ↓] theorem State.folioReport_topo (s : State) (post code : Nat) (serial : BitVec 32) (ctx : Ctx) :
    (s.folioReport post code serial ctx).topo = s.topo := by
  simp [State.folioReport]

@[simp ↓] theorem State.netReport_topo (s : State) (reporter : Uno) (code : Nat) : (s.netReport reporter code).topo = s.topo := by
  simp [State.netReport]

@[simp ↓] theorem State.lifeReport_topo (s : State) (code index : Nat) : (s.lifeReport code index).topo = s.topo := by
  simp [State.lifeReport]

/-! ### Events and references -/

@[simp ↓] theorem State.pushEvent_topo (s : State) (r : Nat) (e : Event) : (s.pushEvent r e).topo = s.topo := by
  rw [State.pushEvent_eq]
  rfl

@[simp ↓] theorem State.emit_topo (s : State) (k : Nat) (e : Event) : (s.emit k e).topo = s.topo := by
  rw [State.emit_eq]
  rfl

@[simp ↓] theorem State.setRefs_topo (s : State) (kind slot : Nat) (v : Refs) : (s.setRefs kind slot v).topo = s.topo := by
  simp [State.setRefs]

@[simp ↓] theorem State.hubRef_topo (s : State) (kind slot : Nat) : (s.hubRef kind slot).topo = s.topo := by simp [State.hubRef]
@[simp ↓] theorem State.hubUnref_topo (s : State) (kind slot : Nat) : (s.hubUnref kind slot).topo = s.topo := by simp [State.hubUnref]
@[simp ↓] theorem State.bumpGen_topo (s : State) : s.bumpGen.topo = s.topo := by simp [State.bumpGen]
@[simp ↓] theorem State.purgeHolds_topo (s : State) (kind slot : Nat) : (s.purgeHolds kind slot).topo = s.topo := by simp [State.purgeHolds]
@[simp ↓] theorem State.freeRefs_topo (s : State) (kind slot : Nat) : (s.freeRefs kind slot).topo = s.topo := by simp [State.freeRefs]

@[simp ↓] theorem State.diedEvent_topo (s : State) (kind slot : Nat) : (s.diedEvent kind slot).topo = s.topo := by simp [State.diedEvent]

/-! ### Registers and halts -/

@[simp ↓] theorem State.setRegWord_topo (s : State) (r : RegRow) (key v : Nat) : (s.setRegWord r key v).topo = s.topo := by
  simp [State.setRegWord]

@[simp ↓] theorem State.setLonePolicy_topo (s : State) (p c v : Nat) : (s.setLonePolicy p c v).topo = s.topo := by
  simp [State.setLonePolicy]

@[simp ↓] theorem State.rewriteLone_topo (s : State) (p : Nat) : (s.rewriteLone p).topo = s.topo := by
  unfold State.rewriteLone
  refine State.topo_foldl fun t cl => ?_
  split <;> simp

@[simp ↓] theorem State.setHop_topo (s : State) (n : Nat) (h : Hop) : (s.setHop n h).topo = s.topo := by simp [State.setHop]

@[simp ↓] theorem State.acceptHop_topo (s : State) (issuer : Option Nat) (q : HopReq) (mode : HopMode) (origin : HopOrigin) :
    (s.acceptHop issuer q mode origin).1.topo = s.topo := by
  simp [State.acceptHop]

@[simp ↓] theorem State.setBound_topo (s : State) (k : Nat) (v : Boundary) : (s.setBound k v).topo = s.topo := by simp [State.setBound]

/-! ### The trace path -/

@[simp ↓] theorem State.setFunnel_topo (s : State) (p : Nat) (v : List Packet) : (s.setFunnel p v).topo = s.topo := by
  simp [State.setFunnel]

@[simp ↓] theorem State.setStream_topo (s : State) (slot : Nat) (v : Option Stream) : (s.setStream slot v).topo = s.topo := by
  simp [State.setStream]

@[simp ↓] theorem State.setTpart_topo (s : State) (p slot : Nat) (v : TPart) : (s.setTpart p slot v).topo = s.topo := by
  simp [State.setTpart]

@[simp ↓] theorem State.partLose_topo (s : State) (p slot : Nat) (why : BitVec 8) : (s.partLose p slot why).topo = s.topo := by
  simp [State.partLose]

@[simp ↓] theorem State.serialCopy_topo (s : State) (slot p : Nat) (x : Stream) (t : TPart) (isTime : Bool) (ws : List Word) :
    (s.serialCopy slot p x t isTime ws).topo = s.topo := by
  simp [State.serialCopy]

@[simp ↓] theorem State.place_topo (s : State) (p slot : Nat) (x : Stream) (isTime pad : Bool) (ws : List Word) :
    (s.place p slot x isTime pad ws).topo = s.topo := by
  simp [State.place]

@[simp ↓] theorem State.nextPage_topo (s : State) (p slot : Nat) (x : Stream) (base : Time) : TopoIn s.topo (s.nextPage p slot x base) := by
  simp [State.nextPage]

theorem State.room_topo {s t : State} {p slot n : Nat} {x : Stream} {base : Time} {fresh : Bool}
    (h : s.room p slot x n base = some (t, fresh)) : t.topo = s.topo := by
  simp only [State.room] at h
  split at h
  · cases h
    rfl
  · obtain ⟨u, hu, huv⟩ := Option.map_eq_some_iff.mp h
    cases huv
    exact ((State.nextPage_topo ..).all _ hu).trans (by simp)

@[simp ↓] theorem State.rebase_topo (s : State) (p slot : Nat) (x : Stream) (base : Time) : TopoIn s.topo (s.rebase p slot x base) := by
  unfold State.rebase
  split
  · simp
  · next h => simpa using State.room_topo h
  · next h => simpa using State.room_topo h

@[simp ↓] theorem State.near_topo (s : State) (p slot : Nat) (x : Stream) (at_ : Time) : TopoIn s.topo (s.near p slot x at_) := by
  simp [State.near]

@[simp ↓] theorem State.lossPacket_topo (s : State) (p slot : Nat) (x : Stream) : TopoIn s.topo (s.lossPacket p slot x) := by
  unfold State.lossPacket
  dsimp only
  split
  · simp
  · split
    · simp
    · next s1 h1 =>
      obtain ⟨r, hr, hn⟩ := Option.bind_eq_some_iff.mp h1
      have e1 : s1.topo = s.topo := ((State.near_topo ..).all _ hn).trans (State.room_topo hr)
      split
      · simp
      · next s2 _ h2 => simp [State.room_topo h2, e1]

@[simp ↓] theorem State.partFull_topo (s : State) (p slot : Nat) : (s.partFull p slot).topo = s.topo := by simp [State.partFull]

@[simp ↓] theorem State.partPut_topo (s : State) (p slot : Nat) (x : Stream) (k : Packet) : (s.partPut p slot x k).topo = s.topo := by
  unfold State.partPut
  dsimp only
  split
  · rfl
  split
  · simp
  split
  · simp
  split
  · simp
  split
  · simp
  next s1 h1 =>
  have e1 : s1.topo = s.topo := (State.lossPacket_topo ..).all _ h1
  split
  · simp [e1]
  split
  · simp [e1]
  next s2 h2 =>
  have e2 : s2.topo = s.topo := ((State.near_topo ..).all _ h2).trans e1
  split
  · simp [e2]
  next s3 fresh h3 =>
  have e3 : s3.topo = s.topo := (State.room_topo h3).trans e2
  split
  · simp [e3]
  next s4 h4 =>
  have e4 : TopoIn s3.topo (if fresh then s3.lossPacket p slot x else some s3) := by simp
  simp [(e4.all s4 h4).trans e3]

@[simp ↓] theorem State.partStart_topo (s : State) (p slot : Nat) (x : Stream) : (s.partStart p slot x).topo = s.topo := by
  simp [State.partStart]

@[simp ↓] theorem State.funnelWrite_topo (s : State) (q : Nat) (k : Packet) : (s.funnelWrite q k).topo = s.topo := by
  unfold State.funnelWrite
  refine State.topo_foldl fun t i => ?_
  split <;> simp

@[simp ↓] theorem State.flushFunnel_topo (s : State) (q : Nat) : (s.flushFunnel q).topo = s.topo := by simp [State.flushFunnel]

@[simp ↓] theorem State.wrapPart_topo (s : State) (p slot : Nat) (x : Stream) : (s.wrapPart p slot x).topo = s.topo := by
  unfold State.wrapPart
  dsimp only
  split
  · rfl
  split
  · next r _ h =>
    obtain ⟨s1, h1, hr⟩ := Option.bind_eq_some_iff.mp h
    simp [(State.room_topo hr).trans ((State.lossPacket_topo ..).all _ h1)]
  · simp

@[simp ↓] theorem State.endStream_topo (s : State) (slot reason : Nat) : (s.endStream slot reason).topo = s.topo := by
  unfold State.endStream
  split <;> simp

@[simp ↓] theorem State.rescanPart_topo (s : State) (p slot : Nat) : (s.rescanPart p slot).topo = s.topo := by
  unfold State.rescanPart
  split
  · rfl
  dsimp only
  split
  · rfl
  split
  · simp
  · next s2 h =>
    have h2 : s2.topo = s.topo := ((State.nextPage_topo ..).all _ h).trans (by simp)
    cases hl : s2.lossPacket p slot _ with
    | none => exact h2
    | some t => exact ((State.lossPacket_topo ..).all _ hl).trans h2

@[simp ↓] theorem State.rescanParts_topo (s : State) (p : Nat) : (s.rescanParts p).topo = s.topo := by simp [State.rescanParts]

@[simp ↓] theorem State.startWaiting_topo (s : State) (p : Nat) : (s.startWaiting p).topo = s.topo := by
  unfold State.startWaiting
  refine State.topo_foldl fun t i => ?_
  (repeat' split) <;> simp

/-! ### Folios -/

@[simp ↓] theorem State.setJob_topo (s : State) (j : Nat) (v : Option Job) : (s.setJob j v).topo = s.topo := by simp [State.setJob]

@[simp ↓] theorem State.startQueued_topo (s : State) (q : Nat) : (s.startQueued q).topo = s.topo := by
  unfold State.startQueued
  dsimp only
  (repeat' split) <;> simp

@[simp ↓] theorem State.fendResult_topo (s : State) (e slot status : Nat) : (s.fendResult e slot status).topo = s.topo := by
  simp [State.fendResult]

@[simp ↓] theorem State.finishJob_topo (s : State) (slot : Nat) : (s.finishJob slot).topo = s.topo := by
  unfold State.finishJob
  dsimp only
  (repeat' split) <;> simp

@[simp ↓] theorem State.keyUnused_topo (s : State) (slot : Nat) (j : Job) : (s.keyUnused slot j).topo = s.topo := by simp [State.keyUnused]

@[simp ↓] theorem State.cutJob_topo (s : State) (slot : Nat) (finishBegun : Bool) : (s.cutJob slot finishBegun).topo = s.topo := by
  unfold State.cutJob
  split <;> simp

@[simp ↓] theorem State.rescanJobs_topo (s : State) (p : Nat) (adopted : Bool) : (s.rescanJobs p adopted).topo = s.topo := by
  unfold State.rescanJobs
  refine State.topo_foldl fun t i => ?_
  split <;> simp

@[simp ↓] theorem State.dropEngineJobs_topo (s : State) (e : Nat) (forget : Bool) : (s.dropEngineJobs e forget).topo = s.topo := by
  unfold State.dropEngineJobs
  refine State.topo_foldl fun t j => ?_
  dsimp only
  (repeat' split) <;> simp

@[simp ↓] theorem State.dropJob_topo (s : State) (slot : Nat) : (s.dropJob slot).topo = s.topo := by
  unfold State.dropJob
  dsimp only
  (repeat' split) <;> simp

/-! ### The watch -/

@[simp ↓] theorem State.setWatch_topo (s : State) (w : Watch) : (s.setWatch w).topo = s.topo := by simp [State.setWatch]

@[simp ↓] theorem State.setPolicy_topo (s : State) (c : Ctx) (r : Nat) (v : Policy) : (s.setPolicy c r v).topo = s.topo := by
  simp [State.setPolicy]

@[simp ↓] theorem State.setDeadline_topo (s : State) (p i : Nat) (v : Deadline) : (s.setDeadline p i v).topo = s.topo := by
  simp [State.setDeadline]

@[simp ↓] theorem State.issuePolicy_topo (s : State) (h : PolHalt) : (s.issuePolicy h).topo = s.topo := by
  unfold State.issuePolicy
  split <;> simp

@[simp ↓] theorem State.policyAct_topo (s : State) (c : Ctx) (r action issuer : Nat) : (s.policyAct c r action issuer).topo = s.topo := by
  simp [State.policyAct]

@[simp ↓] theorem State.endDeadline_topo (s : State) (p i state result : Nat) (doneT : Time) :
    (s.endDeadline p i state result doneT).topo = s.topo := by
  simp [State.endDeadline]

@[simp ↓] theorem State.freeDeadlines_topo (s : State) (f : Deadline → Bool) (result : Nat) : (s.freeDeadlines f result).topo = s.topo := by
  simp [State.freeDeadlines]

/-- The state as it stands at another meridian value. -/
def State.atTime (s : State) (t : Time) : State := { s with pkg := { s.pkg with meridian := t } }

/-- A report that bears another meridian value. -/
theorem State.reportAt_topo (s : State) (t : Time) (u : Uno) (cls code : Nat) (d : List Byte) (c : Ctx) :
    (((s.atTime t).report u cls code d c).atTime s.pkg.meridian).topo = s.topo := by
  have h : ((s.atTime t).report u cls code d c).topo = (s.atTime t).topo := State.report_topo ..
  generalize (s.atTime t).report u cls code d c = r at h
  have hv : vitalsOf r.posts = vitalsOf s.posts := (funext (State.vitals_of_topo h) :)
  have hd : r.dies = s.dies := (State.dies_of_topo h :)
  have hh : r.held = s.held := (State.held_of_topo h :)
  change ({ r.pkg with meridian := s.pkg.meridian }, r.dies, r.held, vitalsOf r.posts) = s.topo
  rw [State.pkg_of_topo h, hd, hh, hv]
  rfl

@[simp ↓] theorem State.applyMiss_topo (s : State) (p q i : Nat) : (s.applyMiss p q i).topo = s.topo := by
  unfold State.applyMiss
  extract_lets d lone code s1 s2 pkg late r pkg' s3 s4
  have h3 : s3.topo = s2.topo := State.reportAt_topo s2 ..
  simp [s4, h3, s2, s1]

@[simp ↓] theorem State.applyOwed_topo (s : State) (p : Nat) : (s.applyOwed p).topo = s.topo := by
  unfold State.applyOwed
  split <;> simp

@[simp ↓] theorem State.clearDeadlock_topo (s : State) (c : Ctx) : (s.clearDeadlock c).topo = s.topo := by
  simp [State.clearDeadlock, State.setDeadlock]

@[simp ↓] theorem State.clearPolicies_topo (s : State) (c : Ctx) : (s.clearPolicies c).topo = s.topo := by
  unfold State.clearPolicies
  refine (State.topo_foldl fun t r => ?_).trans (State.setWatch_topo ..)
  dsimp only
  split <;> simp

/-! ### Objects that die -/

@[simp ↓] theorem State.unloadSet_topo (s : State) (slot reason : Nat) : (s.unloadSet slot reason).topo = s.topo := by
  unfold State.unloadSet
  split <;> simp [State.setTrigSet]

@[simp ↓] theorem State.rearmChains_topo (s : State) : s.rearmChains.topo = s.topo := by simp [State.rearmChains]
@[simp ↓] theorem State.discardBoundary_topo (s : State) (v : Uno) : (s.discardBoundary v).topo = s.topo := by simp [State.discardBoundary]

@[simp ↓] theorem State.resetPartition_topo (s : State) (v : Uno) (c : Ctx) : (s.resetPartition v c).topo = s.topo := by
  simp [State.resetPartition]

@[simp ↓] theorem State.clearPartition_topo (s : State) (slot : Uno) (g : Group) : (s.clearPartition slot g).topo = s.topo := by
  unfold State.clearPartition
  extract_lets c cart auth s1 s2 s3 s4 s5
  have h2 : s2.topo = s.topo := by
    refine (State.topo_foldl fun t i => ?_).trans (by simp [s1])
    (repeat' split) <;> simp
  have h3 : s3.topo = s2.topo := by
    refine State.topo_foldl fun t i => ?_
    (repeat' split) <;> simp
  simp [s5, s4, h3, h2]

@[simp ↓] theorem State.dropGroup_topo (s : State) (slot : Uno) : (s.dropGroup slot).topo = s.topo := by
  unfold State.dropGroup
  split <;> simp

@[simp ↓] theorem State.perish_topo (s : State) (kind slot : Nat) : (s.perish kind slot).topo = s.topo := by simp [State.perish]

@[simp ↓] theorem State.reapN_topo (n : Nat) (s : State) : (State.reapN n s).topo = s.topo := by
  induction n generalizing s with
  | zero => rfl
  | succ n ih =>
    unfold State.reapN
    split <;> simp [ih]

@[simp ↓] theorem State.reap_topo (s : State) : s.reap.topo = s.topo := by simp [State.reap]

/-- A folio found in the reserve becomes a job again (R186). -/
@[simp ↓] theorem State.recreateJob_topo (s : State) (slot : Nat) : (s.recreateJob slot).topo = s.topo := by
  unfold State.recreateJob
  split <;> simp

/-! ### A post's HUB domain -/

@[simp ↓] theorem State.clearPost_topo (s : State) (p why : Nat) : (s.clearPost p why).topo = s.topo := by simp [State.clearPost]

end Sys2Proof.Machine

/-! SUPPORT. Power-on and start-up steps 1 to 4 (R38, R44, R45, R345, R357): what step 2 writes beside the lifecycle decision. -/

namespace Sys2Proof.Machine

/-- From `s` to `t` only the copies of the lifecycle record and the cartouche path change. -/
structure OnlyRecord (s t : State) : Prop where
  eq : t = { s with life := { s.life with copies := t.life.copies }, cart := t.cart }

theorem OnlyRecord.refl (s : State) : OnlyRecord s s := ⟨rfl⟩

theorem OnlyRecord.trans {s t u : State} (a : OnlyRecord s t) (b : OnlyRecord t u) : OnlyRecord s u := ⟨by rw [b.eq, a.eq]⟩

theorem OnlyRecord.foldl {α : Type} {f : State → α → State} (h : ∀ s a, OnlyRecord s (f s a)) (l : List α) (s : State) :
    OnlyRecord s (l.foldl f s) := by
  induction l generalizing s with
  | nil => exact .refl s
  | cons a l ih => exact (h s a).trans (ih _)

theorem OnlyRecord.lifeReport (s : State) (code i : Nat) : OnlyRecord s (s.lifeReport code i) :=
  ⟨by rw [State.lifeReport, State.reportHub_eq]⟩

theorem OnlyRecord.setStepRec (s : State) (c i : Nat) (v : StepRec) : OnlyRecord s (s.setStepRec c i v) := ⟨rfl⟩

theorem OnlyRecord.writeStep (s : State) (tag src dst slot step : Nat) : OnlyRecord s (s.writeStep tag src dst slot step) := by
  refine .foldl (fun t c => ?_) _ _
  split
  · exact .setStepRec ..
  · exact .refl _

theorem OnlyRecord.repairAt (s : State) (i : Nat) : OnlyRecord s (s.repairAt i) := by
  unfold State.repairAt
  extract_lets here s1
  have h1 : OnlyRecord s s1 := by
    unfold s1
    split
    · exact .lifeReport ..
    · exact .refl s
  split
  · split
    · exact h1
    · exact h1.trans ((OnlyRecord.foldl (fun t c => .setStepRec ..) _ _).trans (.lifeReport ..))
  · exact h1

theorem OnlyRecord.repair (s : State) : OnlyRecord s s.repair := .foldl (fun t i => .repairAt t i) _ _

/-- What step 2 has decided: the package state, and the lifecycle state with its transition. -/
def State.decision (s : State) : Pkg × Bool × Bool × Lc × Bool × Nat :=
  (s.pkg, s.life.decided, s.life.lockdown, s.life.state, s.life.pending, s.life.slot)

theorem OnlyRecord.decision {s t : State} (h : OnlyRecord s t) : t.decision = s.decision := by
  rw [h.eq]
  rfl

theorem State.repairs_decision (s : State) : s.repairs.decision = s.decision := (OnlyRecord.repair s).decision

theorem State.makeDevKeys_decision (s : State) : s.makeDevKeys.decision = s.decision := by
  unfold State.makeDevKeys
  split <;> rfl

theorem State.makeMakerKey_decision (s : State) : s.makeMakerKey.decision = s.decision := by
  unfold State.makeMakerKey
  split <;> rfl

theorem State.loadOp_decision (s : State) : s.loadOp.decision = s.decision := by
  unfold State.loadOp
  split <;> rfl

theorem State.loadKeys_decision (s : State) : s.loadKeys.decision = s.decision := State.loadOp_decision _

theorem State.announce_decision (s : State) (code : Nat) : (s.announce code).decision = s.decision :=
  ((OnlyRecord.lifeReport s code _).trans (.writeStep ..)).decision

/-- The device's attestation key is loaded from flash (R345). -/
theorem State.loadKeys_devApub (s : State) : s.loadKeys.auth.devApub = s.loadKeys.life.devApub := by
  have h (t : State) (ht : t.auth.devApub = t.life.devApub) : t.loadOp.auth.devApub = t.loadOp.life.devApub := by
    unfold State.loadOp
    split <;> exact ht
  exact h _ rfl

theorem State.announce_devApub (s : State) (code : Nat) (h : s.auth.devApub = s.life.devApub) :
    (s.announce code).auth.devApub = (s.announce code).life.devApub := by
  have e := ((OnlyRecord.lifeReport s code (4 * s.life.slot + 3)).trans
    (.writeStep _ 0xA4 s.lastNames.1 s.lastNames.2 s.life.slot 3)).eq
  simp only [State.announce]
  rw [e]
  exact h

/-- Step 2 on a record that decides a state (R345, R357). -/
theorem execLifecycleDecide_decided {s : State} {st : Lc} {pend : Bool} {slot step : Nat} (hstep : s.pkg.bootStep = 1)
    (hup : s.pkg.aonUp = true) (hd : s.derive = .decided st pend slot step) :
    ∃ t, execLifecycleDecide s = .next t ∧ t.decision = ({ s.pkg with bootStep := 2 }, true, false, st, pend, slot) ∧
      t.auth.devApub = t.life.devApub := by
  simp only [execLifecycleDecide, hstep, hup, hd, ne_eq, not_true_eq_false, Bool.not_true, Bool.false_eq_true, or_self, if_false]
  refine ⟨_, rfl, ?_, ?_⟩
  · split <;>
      simp only [State.announce_decision, State.loadKeys_decision, State.makeMakerKey_decision, State.makeDevKeys_decision,
        State.repairs_decision] <;> rfl
  · split
    · exact State.announce_devApub _ _ (State.loadKeys_devApub _)
    · exact State.loadKeys_devApub _

/-- Step 2 on a record that cannot be decided (R359). -/
theorem execLifecycleDecide_locked {s : State} {i : Nat} (hstep : s.pkg.bootStep = 1) (hup : s.pkg.aonUp = true)
    (hd : s.derive = .locked i) :
    ∃ t, execLifecycleDecide s = .next t ∧ t.pkg = { s.pkg with bootStep := 2, degraded := true } ∧ t.life.lockdown = true := by
  simp only [execLifecycleDecide, hstep, hup, hd, ne_eq, not_true_eq_false, Bool.not_true, Bool.false_eq_true, or_self, if_false]
  exact ⟨_, rfl, by rw [(OnlyRecord.lifeReport ..).eq], by rw [(OnlyRecord.lifeReport ..).eq]⟩

theorem State.failover_pkg (s : State) (reporter : Uno) (code : Nat) (lost : Uno) : (s.failover reporter code lost).pkg = s.pkg :=
  State.pkg_of_topo (State.failover_topo ..)

/-- Step 3 with one Compass dead (R45). -/
theorem execBootSelfTest_one {s : State} (hstep : s.pkg.bootStep = 2) (hlock : s.life.lockdown = false)
    (hdead : s.pkg.bothDead = false) (okA : Bool) :
    ∃ t, execBootSelfTest okA (!okA) s = .next t ∧ t.pkg = { s.pkg with
      activeB := !okA, standbyOk := false, healthA := if okA then 1 else 6, healthB := if okA then 6 else 1
      degraded := true, bootStep := 3 } := by
  cases okA <;> simp only [execBootSelfTest, hstep, hlock, hdead] <;>
    exact ⟨_, rfl, by rw [State.failover_pkg]; simp [State.degrade]⟩

/-- Settles O16, command by command: each is its definition, step 2 by `State.decision`. -/
theorem startUpToFirmware : Obligations.StartUpToFirmware := by
  unfold Obligations.StartUpToFirmware
  intro s
  refine ⟨⟨_, rfl, ?_⟩, fun hp ha => ?_, fun hs ha => ⟨fun st pend slot step hd => ?_, fun i hd => ?_⟩,
    fun hs hl hd => ⟨?_, fun okA => ?_, ?_⟩, fun hp => ?_, fun hs => ?_, fun h a b => ?_⟩
  · simp [State.reset, Lifecycle.flash, Update.flash]
  · change execAonResetRelease s = _
    simp [execAonResetRelease, hp, ha]
  · obtain ⟨t, ht, hdec, hkey⟩ := execLifecycleDecide_decided hs ha hd
    simp only [State.decision, Prod.mk.injEq] at hdec
    obtain ⟨hpkg, hdecided, hlock, hstate, hpend, hslot⟩ := hdec
    exact ⟨t, ht, hpkg, hdecided, hlock, hstate, hpend, hslot, hkey⟩
  · exact execLifecycleDecide_locked hs ha hd
  · change execBootSelfTest true true s = _
    simp [execBootSelfTest, hs, hl, hd]
  · exact execBootSelfTest_one hs hl hd okA
  · change execBootSelfTest false false s = _
    simp [execBootSelfTest, hs, hl, hd]
  · change execAonResetRelease s = _
    simp [execAonResetRelease, hp]
  · change execLifecycleDecide s = _
    simp [execLifecycleDecide, hs]
  · change execBootSelfTest a b s = _
    exact if_pos (h.imp_right .inl)

end Sys2Proof.Machine

/-! SUPPORT. The meridian's copies (R28 to R33): what an EPOCH pulse does at one die, and that it reaches each die once. -/

namespace Sys2Proof.Machine

/-! ### Operations that run over a list -/

theorem rangeFrom_eq_range' (a n : Nat) : rangeFrom a n = List.range' a n := by
  induction n generalizing a with
  | zero => rfl
  | succ n ih => rw [rangeFrom, ih, List.range'_succ]

theorem mem_rangeFrom {a n k : Nat} : k ∈ rangeFrom a n ↔ a ≤ k ∧ k < a + n := by
  rw [rangeFrom_eq_range', List.mem_range'_1]

theorem nodup_rangeFrom (a n : Nat) : (rangeFrom a n).Nodup := rangeFrom_eq_range' a n ▸ List.nodup_range'

theorem State.foldl_leaves_mem {α β : Type} (g : State → β) {f : State → α → State} {l : List α} (h : ∀ s, ∀ a ∈ l, g (f s a) = g s)
    (s : State) : g (l.foldl f s) = g s := by
  induction l generalizing s with
  | nil => rfl
  | cons a l ih => exact (ih (fun s b hb => h s b (List.mem_cons_of_mem a hb)) _).trans (h s a List.mem_cons_self)

/-- Where only one item of a list concerns a part of the state, the fold leaves that part as the item does, from some state with that part
as at the start. -/
theorem State.foldl_at {α β : Type} (g : State → β) {f : State → α → State} {l : List α} {d : α} (hd : d ∈ l) (hn : l.Nodup)
    (h : ∀ s, ∀ a ∈ l, a ≠ d → g (f s a) = g s) (s : State) : ∃ u, g u = g s ∧ g (l.foldl f s) = g (f u d) := by
  obtain ⟨l₁, l₂, rfl⟩ := List.append_of_mem hd
  rw [List.nodup_middle, List.nodup_cons, List.mem_append, not_or] at hn
  obtain ⟨⟨hd₁, hd₂⟩, -⟩ := hn
  refine ⟨l₁.foldl f s, State.foldl_leaves_mem g (fun s a ha => h s a (by simp [ha]) (fun e => hd₁ (e ▸ ha))) s, ?_⟩
  rw [List.foldl_append, List.foldl_cons]
  exact State.foldl_leaves_mem g (fun s a ha => h s a (by simp [ha]) (fun e => hd₂ (e ▸ ha))) _

/-! ### One die -/

theorem State.die_of_dies {s t : State} (h : t.dies = s.dies) (k : Nat) : t.die k = s.die k := by rw [State.die, h, State.die]

theorem State.epochCut_congr {s t : State} (hp : t.pkg = s.pkg) (hl : t.links = s.links) (d : Nat) : t.epochCut d = s.epochCut d := by
  simp only [State.epochCut, State.compassDie, State.link, State.meter, hp, hl]

/-- A report leaves the package state, the registers, the links and the dies. -/
theorem State.netReport_leaves (s : State) (u : Uno) (code : Nat) :
    (s.netReport u code).pkg = s.pkg ∧ (s.netReport u code).regs = s.regs ∧ (s.netReport u code).links = s.links ∧
      (s.netReport u code).dies = s.dies := by
  rw [State.netReport, State.report_eq]
  exact ⟨rfl, rfl, rfl, rfl⟩

/-- A die as it takes a load flit's value. -/
def Die.loaded (x : Die) (v : Time) (now : Nat) : Die :=
  { x with copy := { valid := true, skew := (v.toNat : Int) - now }, pending := none, episode := false }

/-- What an EPOCH pulse leaves of a die that it finds as `x`, and which its line may not reach. -/
structure Pulsed (cut : Bool) (now : Nat) (x y : Die) : Prop where
  apart    : cut = true → y = x
  loaded   : ∀ w, cut = false → x.pending = some w → w.toNat ≤ now →
    y = x.loaded w now
  compared : cut = false → x.pending = none → y.copy = x.copy.epoch

/-- A die whose line is cut gets no pulse. -/
theorem State.epochDie_cut {s : State} {d : Nat} (h : s.epochCut d = true) : s.epochDie d = s := if_pos h

/-- The state as a die takes a load flit's value, with every copy in it. -/
def State.loaded (s : State) (d : Nat) (v : Time) : State :=
  { s.setDie d ((s.die d).loaded v s.now) with
    copies := s.copies.filter (fun e => dieOf s.pkg.member e.1 != some d) }

/-- A load flit's value that is due is taken (R28). -/
theorem State.epochDie_load {s : State} {d : Nat} {v : Time} (h : s.epochCut d = false) (hx : (s.die d).pending = some v)
    (hv : v.toNat ≤ s.now) : s.epochDie d = s.loaded d v := by
  simp only [State.epochDie, h, hx, hv, Bool.false_eq_true, if_false, if_true]
  rfl

/-- A comparison finds some copy of the die out of bound. -/
def State.epochOut (s : State) (d : Nat) : Bool :=
  ((s.die d).copy.epoch.valid && (s.die d).copy.epoch.oob) ||
    ((s.oddCopies d).map (fun e => (e.1, e.2.map Copy.epoch))).any (fun e => (e.2.map (fun k => k.valid && k.oob)).getD false)

/-- A die with its copies compared. -/
def State.compared (s : State) (d : Nat) : State :=
  { s.setDie d { s.die d with copy := (s.die d).copy.epoch, episode := s.epochOut d } with
    copies := s.copies.map (fun e => if dieOf s.pkg.member e.1 = some d then (e.1, e.2.map Copy.epoch) else e) }

/-- Without a value that is due the die is compared; an episode that begins is reported (R29, R31). -/
theorem State.epochDie_compare {s : State} {d : Nat} (h : s.epochCut d = false) (hx : ∀ v, (s.die d).pending = some v → s.now < v.toNat) :
    s.epochDie d =
      if s.epochOut d && !(s.die d).episode then (s.compared d).netReport (0x100 + d) 1 else s.compared d := by
  cases hp : (s.die d).pending with
  | none =>
    simp only [State.epochDie, State.compared, State.epochOut, h, hp, Bool.false_eq_true, if_false]
    rfl
  | some v =>
    simp only [State.epochDie, State.compared, State.epochOut, h, hp, Nat.not_le.mpr (hx v hp), Bool.false_eq_true, if_false]
    rfl

/-- A comparison, reported or not, leaves what `State.compared` leaves of the package state, the registers, the links and the dies. -/
theorem State.epochDie_compare_leaves {s : State} {d : Nat} (h : s.epochCut d = false)
    (hx : ∀ v, (s.die d).pending = some v → s.now < v.toNat) :
    (s.epochDie d).pkg = s.pkg ∧ (s.epochDie d).regs = s.regs ∧ (s.epochDie d).links = s.links ∧
      (s.epochDie d).dies = (s.compared d).dies := by
  rw [State.epochDie_compare h hx]
  split
  · exact State.netReport_leaves ..
  · exact ⟨rfl, rfl, rfl, rfl⟩

/-- The pulse at a die leaves the other dies, the package state, the registers and the links (R28, R31). -/
theorem State.epochDie_leaves (s : State) (d : Nat) :
    (s.epochDie d).pkg = s.pkg ∧ (s.epochDie d).regs = s.regs ∧ (s.epochDie d).links = s.links ∧
      ∀ k, k ≠ d → (s.epochDie d).die k = s.die k := by
  by_cases h : s.epochCut d = true
  · rw [State.epochDie_cut h]
    exact ⟨rfl, rfl, rfl, fun _ _ => rfl⟩
  rw [Bool.not_eq_true] at h
  by_cases hx : ∃ v, (s.die d).pending = some v ∧ v.toNat ≤ s.now
  · obtain ⟨v, hv, hle⟩ := hx
    rw [State.epochDie_load h hv hle]
    exact ⟨rfl, rfl, rfl, fun k hk => State.setDie_ne s d ((s.die d).loaded v s.now) k hk⟩
  · simp only [not_exists, not_and, Nat.not_le] at hx
    obtain ⟨hp, hr, hl, hd⟩ := State.epochDie_compare_leaves h hx
    exact ⟨hp, hr, hl, fun k hk => (State.die_of_dies hd k).trans (State.setDie_ne s d _ k hk)⟩

theorem State.epochDie_pulsed (s : State) (d : Nat) : Pulsed (s.epochCut d) s.now (s.die d) ((s.epochDie d).die d) where
  apart h := by rw [State.epochDie_cut h]
  loaded v h hx hle := by
    rw [State.epochDie_load h hx hle]
    exact State.setDie_self s d ((s.die d).loaded v s.now)
  compared h hx := by
    obtain ⟨-, -, -, hd⟩ := State.epochDie_compare_leaves h (d := d) (fun v hv => by simp [hx] at hv)
    rw [State.die_of_dies hd]
    exact congrArg Die.copy (State.setDie_self ..)

/-- A comparison: out of bound beyond 2 ticks, and closer by one tick, or by two beyond 2 (R29, R31). -/
theorem Copy.epoch_valid {c : Copy} (h : c.valid = true) :
    c.epoch.valid = true ∧ c.epoch.oob = decide (2 < c.skew.natAbs) ∧
      c.epoch.skew.natAbs = c.skew.natAbs - (if 2 < c.skew.natAbs then 2 else 1) := by
  simp only [Copy.epoch, h, if_true, true_and]
  constructor
  · rw [decide_eq_decide]
    omega
  · unfold skewStep
    split_ifs <;> omega

/-- The whole pulse: every die of the member by `Pulsed`. -/
theorem execEpoch_spec {s : State} (ht : s.now % 1024 = 0) (hup : s.pkg.aonUp = true) (hlive : s.pkg.bothDead = false) {d : Nat}
    (hd : d < s.pkg.member.dies) :
    ∃ t, execEpoch s = .next t ∧ t.pkg = s.pkg ∧ t.regs = s.regs ∧ Pulsed (s.epochCut d) s.now (s.die d) (t.die d) := by
  refine ⟨(rangeFrom 0 s.pkg.member.dies).foldl (fun t d => t.epochDie d) s, by simp [execEpoch, ht, hup, hlive],
    State.foldl_leaves (·.pkg) (fun t a => (t.epochDie_leaves a).1) _ _,
    State.foldl_leaves (·.regs) (fun t a => (t.epochDie_leaves a).2.1) _ _, ?_⟩
  obtain ⟨u, hu, hfold⟩ := State.foldl_at (fun t => (t.pkg, t.links, t.die d)) (f := fun t d => t.epochDie d)
    (mem_rangeFrom.mpr ⟨Nat.zero_le d, by omega⟩) (nodup_rangeFrom 0 s.pkg.member.dies) (fun t a _ ha => by
      obtain ⟨hp, -, hl, hne⟩ := t.epochDie_leaves a
      simp only [hp, hl, hne d (Ne.symm ha)]) s
  simp only [Prod.mk.injEq] at hu hfold
  obtain ⟨hpkg, hlinks, hdie⟩ := hu
  rw [hfold.2.2]
  simpa only [State.epochCut_congr hpkg hlinks, State.now, hpkg, hdie] using u.epochDie_pulsed d

/-! ### Load flits, PLLs and the wrap -/

theorem execMeridianLoadFlit_due {s : State} {d : Nat} {v : Time} (hd : d < s.pkg.member.dies) (hstep : 5 ≤ s.pkg.bootStep)
    (hlock : (s.die d).pllLocked = true) (hvalid : (s.die d).copy.valid = false) (hfuture : s.now < v.toNat) (hepoch : v.toNat % 1024 = 0)
    (hreload : (s.die d).reloadAt = none ∨ (s.die d).reloadAt = some v) :
    execMeridianLoadFlit d v s = (s.sendUrg 1 (crossing s.pkg.member s.homeDie d)).elim (.next s)
      (fun t => .next (t.setDie d { s.die d with pending := some v, reloadAt := none })) := by
  unfold execMeridianLoadFlit
  extract_lets x
  rw [if_pos ⟨hd, hstep, hlock, by simp [x, hvalid], hfuture, hepoch, hreload⟩]
  cases s.sendUrg 1 (crossing s.pkg.member s.homeDie d) <;> rfl

theorem execPllUnlock_locked {s : State} {d : Nat} (hd : d < s.pkg.member.dies) (hlock : (s.die d).pllLocked = true) :
    ∃ t, execPllUnlock d s = .next t ∧ t.pkg = s.pkg ∧ (t.die d).copy.valid = false ∧ (t.die d).pllLocked = false ∧
      (t.die d).pending = none ∧ ∀ k, k ≠ d → t.die k = s.die k := by
  unfold execPllUnlock
  extract_lets x s1 s2
  rw [if_pos ⟨hd, hlock⟩]
  have h : (s2.report (0x100 + d) Class.powerThermal 1 (leBytes 3 (0x100 + d)) 0).topo = s2.topo := State.report_topo ..
  have hdie (k : Nat) := State.die_of_dies (show _ = s1.dies from State.dies_of_topo h) k
  have hself : s1.die d = { x with
    pllLocked := false, relockWait := false, reloadAt := none, pending := none, copy := {}, episode := false } := State.setDie_self ..
  refine ⟨_, rfl, (State.pkg_of_topo h).trans rfl, ?_, ?_, ?_, fun k hk => (hdie k).trans (State.setDie_ne s d _ k hk)⟩ <;> rw [hdie, hself]

theorem execMeridianWrap_last {s : State} (h : s.pkg.meridian = BitVec.allOnes 64) :
    ∃ t, execMeridianWrap s = .next t ∧ t.pkg = { s.pkg with meridian := 0 } ∧ t.dies = s.dies := by
  unfold execMeridianWrap
  rw [if_neg (not_not_intro h)]
  extract_lets s1 s2
  have h1 : s1.topo = s.topo := State.topo_foldl fun t e => State.flushFunnel_topo ..
  have h2 : s2.topo = s.topo := by
    refine (State.topo_foldl fun t e => ?_).trans h1
    split
    · exact State.topo_foldl fun r p => State.wrapPart_topo ..
    · rfl
  refine ⟨_, rfl, ?_, ?_⟩
  · change { s2.pkg with meridian := 0 } = _
    rw [State.pkg_of_topo h2]
  · change s2.dies = s.dies
    exact State.dies_of_topo h2

/-- Settles O19: the pulse by `execEpoch_spec`, each other command by its definition. -/
theorem meridianCopies : Obligations.MeridianCopies := by
  unfold Obligations.MeridianCopies
  intro s d v x
  refine ⟨fun ht hup hlive hd => ?_, fun hd hstep hlock hvalid hfuture hepoch hreload => ?_,
    fun hd hlock => execPllUnlock_locked hd hlock, fun hd hlock => ?_, fun hwait hlive hstep => ?_, fun h => execMeridianWrap_last h⟩
  · obtain ⟨t, hexec, hpkg, hregs, hcut, hload, hkeep⟩ := execEpoch_spec ht hup hlive hd
    refine ⟨t, hexec, hpkg, hregs, hcut, hload, fun hc hnone hv => ?_⟩
    rw [hkeep hc hnone]
    exact Copy.epoch_valid hv
  · have hexec := execMeridianLoadFlit_due hd hstep hlock hvalid hfuture hepoch hreload
    constructor
    · intro t hsend
      rw [hsend] at hexec
      exact hexec
    · intro hsend
      rw [hsend] at hexec
      exact hexec
  · change execPllRelock d s = _
    exact if_pos ⟨hd, by simp [x, hlock]⟩
  · change execRelockReport d s = _
    exact if_pos ⟨hwait, by simp [hlive], hstep⟩

end Sys2Proof.Machine

/-! SUPPORT. Start-up steps 5 to 8 (R44 to R46, R60): channels mapped out, what enumeration leaves of the dies and of the units held in
reset, the Legend's times, and the flits of the release. -/

namespace Sys2Proof.Machine

/-! ### Channels (R45) -/

/-- A unit is listed as held in reset or mapped out. -/
def State.listed (s : State) (u : Uno) : Bool := Tbl.get false s.held u

theorem State.listed_of_held {s t : State} (h : t.held = s.held) (u : Uno) : t.listed u = s.listed u := by
  rw [State.listed, h, State.listed]

theorem State.holdUnit_listed (s : State) (v u : Uno) : (s.holdUnit v).listed u = (s.listed u || decide (u = v)) := by
  by_cases h : u = v
  · subst h
    simp [State.listed, State.holdUnit]
  · simp [State.listed, State.holdUnit, Tbl.get_set_ne _ _ _ _ _ h, h]

/-- The UNO of channel n of a controller. -/
def chanUno (ctrl n : Nat) : Nat := 0x4000 + 32 * ctrl + n

/-- One channel of a bad-channel map. -/
def State.mapOutOne (s : State) (ctrl : Nat) (bad : BitVec 32) (n : Nat) : State :=
  if bad.getLsbD n && !s.listed (chanUno ctrl n) then
    (s.holdUnit (chanUno ctrl n)).reportHub (chanUno ctrl n) Class.memEcc 3 (leBytes 3 (chanUno ctrl n) ++ leBytes 8 0) 0
  else s

theorem State.mapOut_eq_foldl (s : State) (ctrl : Nat) (bad : BitVec 32) :
    s.mapOut ctrl bad = (rangeFrom 0 32).foldl (fun t n => t.mapOutOne ctrl bad n) s := rfl

theorem State.mapOutOne_frame (s : State) (ctrl : Nat) (bad : BitVec 32) (n : Nat) :
    s.mapOutOne ctrl bad n = { s with held := (s.mapOutOne ctrl bad n).held, cart := (s.mapOutOne ctrl bad n).cart } := by
  unfold State.mapOutOne
  split
  · rw [State.reportHub_eq]
    rfl
  · rfl

theorem State.mapOutOne_listed (s : State) (ctrl : Nat) (bad : BitVec 32) (n : Nat) (u : Uno) :
    (s.mapOutOne ctrl bad n).listed u = (s.listed u || (decide (u = chanUno ctrl n) && bad.getLsbD n)) := by
  unfold State.mapOutOne
  split
  · next h =>
    rw [Bool.and_eq_true] at h
    rw [State.listed_of_held (State.held_of_topo (State.reportHub_topo ..)), State.holdUnit_listed, h.1, Bool.and_true]
  · next h =>
    by_cases hu : u = chanUno ctrl n
    · subst hu
      by_cases hb : bad.getLsbD n = true <;> simp_all
    · simp [hu]

/-- Only the units held and the cartouche path change. -/
theorem State.mapOut_frame (s : State) (ctrl : Nat) (bad : BitVec 32) :
    (s.mapOut ctrl bad).pkg = s.pkg ∧ (s.mapOut ctrl bad).regs = s.regs ∧ (s.mapOut ctrl bad).cores = s.cores := by
  rw [State.mapOut_eq_foldl]
  refine ⟨State.foldl_leaves (·.pkg) (fun t n => ?_) _ _, State.foldl_leaves (·.regs) (fun t n => ?_) _ _,
    State.foldl_leaves (·.cores) (fun t n => ?_) _ _⟩ <;> rw [State.mapOutOne_frame]

/-- A channel of the controller is mapped out where its bit is set. -/
theorem State.mapOut_chan (s : State) (ctrl : Nat) (bad : BitVec 32) {n : Nat} (hn : n < 32) :
    (s.mapOut ctrl bad).listed (chanUno ctrl n) = (s.listed (chanUno ctrl n) || bad.getLsbD n) := by
  obtain ⟨u, hu, hfold⟩ := State.foldl_at (fun t => t.listed (chanUno ctrl n)) (f := fun t n => t.mapOutOne ctrl bad n)
    (mem_rangeFrom.mpr ⟨Nat.zero_le n, by omega⟩) (nodup_rangeFrom 0 32) (fun t a _ ha => by
      simp [State.mapOutOne_listed, chanUno, Ne.symm ha]) s
  rw [State.mapOut_eq_foldl, hfold, State.mapOutOne_listed, hu]
  simp

/-- Units that are no channel of the controller stay as they were. -/
theorem State.mapOut_other (s : State) (ctrl : Nat) (bad : BitVec 32) {u : Nat} (h : u < chanUno ctrl 0 ∨ chanUno ctrl 0 + 32 ≤ u) :
    (s.mapOut ctrl bad).listed u = s.listed u := by
  rw [State.mapOut_eq_foldl]
  refine State.foldl_leaves_mem (fun t => t.listed u) (fun t n hn => ?_) s
  have hne : u ≠ chanUno ctrl n := by
    have hlt := (mem_rangeFrom.mp hn).2
    rintro rfl
    simp only [chanUno] at h
    omega
  simp [State.mapOutOne_listed, hne]

theorem State.hbmWaits_of {s : State} {k : Nat} (hstep : s.pkg.bootStep = 4) (hfw : s.pkg.fwRecovery = false)
    (hk : k < s.pkg.member.posts) (hdone : k ∉ s.pkg.hbmDone) : s.hbmWaits k = true := by
  simp [State.hbmWaits, hstep, hfw, hk, hdone]

/-- What step 5 leaves once a controller's map is taken (R44, R45). -/
structure TookMap (s t : State) (k : Nat) (bad : Nat → Bool) : Prop where
  done  : t.pkg.hbmDone = s.pkg.hbmDone ++ [k]
  regs  : t.regs = s.regs
  cores : t.cores = s.cores
  step  : t.pkg.bootStep = if s.pkg.hbmDone.length + 1 = s.pkg.member.posts then 5 else s.pkg.bootStep
  chan  : ∀ n, n < 32 → t.listed (chanUno k n) = (s.listed (chanUno k n) || bad n)
  other : ∀ u, u < chanUno k 0 ∨ chanUno k 0 + 32 ≤ u → t.listed u = s.listed u

/-- A map taken, and the controller's step ended, from a state that may have been degraded between the two. -/
theorem TookMap.of_mapOut {s t : State} {k : Nat} {bad : BitVec 32} (hp : t.pkg.hbmDone = s.pkg.hbmDone ∧ t.pkg.member = s.pkg.member ∧
    t.pkg.bootStep = s.pkg.bootStep) (hr : t.regs = s.regs) (hc : t.cores = s.cores) (hh : t.held = (s.mapOut k bad).held) :
    TookMap s (t.hbmEnds k) k bad.getLsbD where
  done := congrArg (· ++ [k]) hp.1
  regs := hr
  cores := hc
  step := by simp [State.hbmEnds, hp]
  chan n hn := by
    rw [← State.mapOut_chan s k bad hn]
    exact congrArg (Tbl.get false · (chanUno k n)) hh
  other u hu := by
    rw [← State.mapOut_other s k bad hu]
    exact congrArg (Tbl.get false · u) hh

/-- A degraded state takes a map as another does. -/
theorem TookMap.degrade {s t : State} {k : Nat} {bad : Nat → Bool} (h : TookMap s (t.hbmEnds k) k bad) :
    TookMap s (t.degrade.hbmEnds k) k bad := ⟨h.done, h.regs, h.cores, h.step, h.chan, h.other⟩

theorem State.degrade_hbmEnds_degraded (s : State) (k : Nat) : (s.degrade.hbmEnds k).pkg.degraded = true := rfl

theorem State.hbmEnds_degraded (s : State) (k : Nat) : (s.hbmEnds k).pkg.degraded = s.pkg.degraded := rfl

theorem TookMap.congr {s t : State} {k : Nat} {a b : Nat → Bool} (h : TookMap s t k a) (hab : ∀ n, n < 32 → a n = b n) : TookMap s t k b :=
  { h with chan := fun n hn => hab n hn ▸ h.chan n hn }

theorem execHbmReady_took {s : State} {k : Nat} (bad : BitVec 32) (hw : s.hbmWaits k = true) :
    ∃ t, execHbmReady k bad s = .next t ∧ TookMap s t k bad.getLsbD ∧ t.pkg.degraded = s.pkg.degraded := by
  obtain ⟨hp, hr, hc⟩ := s.mapOut_frame k bad
  exact ⟨_, if_pos hw, .of_mapOut ⟨by rw [hp], by rw [hp], by rw [hp]⟩ hr hc rfl,
    (State.hbmEnds_degraded ..).trans (congrArg (·.degraded) hp)⟩

theorem execHbmReadyTimeout_took {s : State} {k : Nat} (hw : s.hbmWaits k = true) :
    ∃ t, execHbmReadyTimeout k s = .next t ∧ TookMap s t k (fun _ => true) ∧ t.pkg.degraded = true := by
  obtain ⟨hp, hr, hc⟩ := s.mapOut_frame k (BitVec.allOnes 32)
  have h : TookMap s ((s.mapOut k (BitVec.allOnes 32)).hbmEnds k) k (BitVec.allOnes 32).getLsbD :=
    .of_mapOut ⟨by rw [hp], by rw [hp], by rw [hp]⟩ hr hc rfl
  exact ⟨_, if_pos hw, h.degrade.congr fun n hn => by rw [BitVec.getLsbD_allOnes, decide_eq_true hn], State.degrade_hbmEnds_degraded ..⟩

/-! ### What enumeration leaves -/

/-- From `s` to `t` the member, the meridian and the dies stay, and a unit that was held in reset stays held. -/
structure Enumerates (s t : State) : Prop where
  member   : t.pkg.member = s.pkg.member
  meridian : t.pkg.meridian = s.pkg.meridian
  dies     : t.dies = s.dies
  listed   : ∀ u, s.listed u = true → t.listed u = true

theorem Enumerates.refl (s : State) : Enumerates s s := ⟨rfl, rfl, rfl, fun _ => id⟩

theorem Enumerates.trans {s t u : State} (a : Enumerates s t) (b : Enumerates t u) : Enumerates s u :=
  ⟨b.member.trans a.member, b.meridian.trans a.meridian, b.dies.trans a.dies, fun v h => b.listed v (a.listed v h)⟩

theorem Enumerates.of_topo {s t : State} (h : t.topo = s.topo) : Enumerates s t where
  member := by rw [State.pkg_of_topo h]
  meridian := by rw [State.pkg_of_topo h]
  dies := State.dies_of_topo h
  listed u hu := by rwa [State.listed, State.held_of_topo h]

/-- Only the posts, the Legend and counts of the package state change. -/
theorem Enumerates.same {s t : State} (m : t.pkg.member = s.pkg.member) (n : t.pkg.meridian = s.pkg.meridian) (d : t.dies = s.dies)
    (h : t.held = s.held) : Enumerates s t := ⟨m, n, d, fun u hu => by rwa [State.listed, h]⟩

theorem Enumerates.ite {s a b : State} (c : Prop) [Decidable c] (ha : Enumerates s a) (hb : Enumerates s b) :
    Enumerates s (if c then a else b) := by
  split
  · exact ha
  · exact hb

theorem Enumerates.foldl {α : Type} {f : State → α → State} (h : ∀ s a, Enumerates s (f s a)) (l : List α) (s : State) :
    Enumerates s (l.foldl f s) := by
  induction l generalizing s with
  | nil => exact .refl s
  | cons a l ih => exact (h s a).trans (ih _)

theorem Enumerates.isHeld {s t : State} (h : Enumerates s t) {u : Uno} (hu : s.isHeld u = true) : t.isHeld u = true := by
  rw [State.isHeld, List.any_eq_true] at hu ⊢
  obtain ⟨a, ha, hl⟩ := hu
  exact ⟨a, h.member ▸ ha, h.listed a hl⟩

theorem Enumerates.holdUnit (s : State) (u : Uno) : Enumerates s (s.holdUnit u) :=
  ⟨rfl, rfl, rfl, fun v hv => by simp [State.holdUnit_listed, hv]⟩

theorem Enumerates.degrade (s : State) : Enumerates s s.degrade := .same rfl rfl rfl rfl

theorem Enumerates.failover (s : State) (r : Uno) (code : Nat) (u : Uno) : Enumerates s (s.failover r code u) :=
  .of_topo (State.failover_topo ..)

theorem Enumerates.setHealth (s : State) (p h : Nat) : Enumerates s (s.setHealth p h) := .same rfl rfl rfl rfl

theorem Enumerates.holdDie (s : State) (d : Nat) : Enumerates s (s.holdDie d) := by
  unfold State.holdDie
  refine .ite _ (.refl s) ((Enumerates.holdUnit s (0x100 + d)).trans (.same rfl rfl rfl rfl))

theorem Enumerates.startWake (s : State) (p : Nat) : Enumerates s (s.startWake p) := .ite _ (.setHealth ..) (.refl s)

theorem Enumerates.postDies (s : State) (p : Nat) (atStart : Bool) : Enumerates s (s.postDies p atStart) := by
  unfold State.postDies
  extract_lets sib s1 q1 s2 pkg s3 q3 s4
  have h3 : Enumerates s s3 := .same rfl rfl rfl rfl
  have h4 : Enumerates s s4 := h3.trans (.ite _ (.same rfl rfl rfl rfl) (.refl _))
  exact h4.trans (.ite _ (.failover ..) (.startWake ..))

theorem Enumerates.deadPost (s : State) (p : Nat) : Enumerates s (s.deadPost p) :=
  have h := (Enumerates.postDies s p true).trans (.degrade _)
  .ite _ (h.trans (.holdDie ..)) h

theorem Enumerates.deadUnit (s : State) (u : Uno) : Enumerates s (s.deadUnit u) := by
  unfold State.deadUnit
  refine .ite _ (.refl s) ?_
  have hold : Enumerates s (s.holdUnit u).degrade := (Enumerates.holdUnit s u).trans (.degrade _)
  have router : Enumerates s
      (((routerClusters u).foldl (fun t c => t.holdUnit c) s).degrade.reportHub u Class.net 3 (leBytes 3 u) 0) :=
    ((Enumerates.foldl (fun t c => .holdUnit t c) _ s).trans (.degrade _)).trans (.of_topo (State.reportHub_topo ..))
  have unobs : Enumerates s
      (({ s with unobs := Tbl.set false s.unobs u true } : State).degrade.failover s.compassDie 0xC u) :=
    have h : Enumerates s { s with unobs := Tbl.set false s.unobs u true } := .same rfl rfl rfl rfl
    (h.trans (.degrade _)).trans (.failover ..)
  split
  · exact .ite _ (.deadPost ..) (.refl s)
  · exact hold.trans (.failover ..)
  · exact hold.trans (.failover ..)
  · exact router
  · exact router
  · exact unobs
  · exact unobs
  · exact unobs
  · exact .refl s

/-- A cluster or core stands first among its ancestors. -/
theorem mem_ancestors_self {m : Member} {u : Uno} (h : kindOf m u = .cluster ∨ kindOf m u = .core) : u ∈ ancestors m u := by
  have hu : u ≠ 0 := by
    rintro rfl
    simp [kindOf] at h
  obtain h | h := h <;> simp [ancestors, h, ancestorsN, hu]

theorem State.isHeld_of_listed {s : State} {u : Uno} (hk : kindOf s.pkg.member u = .cluster ∨ kindOf s.pkg.member u = .core)
    (h : s.listed u = true) : s.isHeld u = true :=
  List.any_eq_true.mpr ⟨u, mem_ancestors_self hk, h⟩

/-- A cluster or core that enumeration found dead is held in reset (R46). -/
theorem State.deadUnit_isHeld {s : State} {u : Uno} (hk : kindOf s.pkg.member u = .cluster ∨ kindOf s.pkg.member u = .core) :
    (s.deadUnit u).isHeld u = true := by
  by_cases h : s.isHeld u = true
  · simp [State.deadUnit, h]
  have hlisted : (s.holdUnit u).degrade.listed u = true := (State.holdUnit_listed s u u).trans (by simp)
  have held (code : Nat) : (((s.holdUnit u).degrade).failover s.compassDie code u).isHeld u = true :=
    (Enumerates.failover (s.holdUnit u).degrade _ code u).isHeld
      (State.isHeld_of_listed hk hlisted)
  obtain hk | hk := hk <;> simpa [State.deadUnit, h, hk] using held _

theorem State.deadUnits_isHeld {u : Uno} {dead : List Uno} (hu : u ∈ dead) {s : State}
    (hk : kindOf s.pkg.member u = .cluster ∨ kindOf s.pkg.member u = .core) :
    (dead.foldl (fun t v => t.deadUnit v) s).isHeld u = true := by
  obtain ⟨l₁, l₂, rfl⟩ := List.append_of_mem hu
  rw [List.foldl_append, List.foldl_cons]
  have h : Enumerates s (l₁.foldl (fun t v => t.deadUnit v) s) := .foldl (fun t v => .deadUnit t v) _ _
  exact (Enumerates.foldl (fun t v => .deadUnit t v) l₂ _).isHeld (State.deadUnit_isHeld (h.member ▸ hk))

theorem Enumerates.carveAll (s : State) : Enumerates s s.carveAll := by
  unfold State.carveAll
  extract_lets f eff trace s1
  refine (show Enumerates s s1 from .same rfl rfl rfl rfl).trans (.foldl (fun t d => ?_) _ _)
  exact .ite _ (.holdDie ..) (.same rfl rfl rfl rfl)

/-! ### Copies are loaded (R28) -/

/-- One die at the load of step 6. -/
def State.loadCopy (s : State) (d : Nat) : State :=
  if (s.die d).pllLocked && !(s.die d).copy.valid then s.setDie d { s.die d with copy := { valid := true }, pending := none } else s

theorem State.loadCopies_eq_foldl (s : State) : s.loadCopies = (rangeFrom 0 s.pkg.member.dies).foldl (fun t d => t.loadCopy d) s := rfl

theorem State.loadCopy_ne (s : State) {d k : Nat} (h : k ≠ d) : (s.loadCopy d).die k = s.die k := by
  unfold State.loadCopy
  split
  · exact State.setDie_ne _ _ _ _ h
  · rfl

theorem State.loadCopy_valid {s : State} {d : Nat} (h : (s.die d).pllLocked = true) : ((s.loadCopy d).die d).copy.valid = true := by
  unfold State.loadCopy
  split
  · rw [State.setDie_self]
  · next hn => simpa [h] using hn

theorem State.loadCopies_valid {s : State} {d : Nat} (hd : d < s.pkg.member.dies) (h : (s.die d).pllLocked = true) :
    (s.loadCopies.die d).copy.valid = true := by
  obtain ⟨u, hu, hfold⟩ := State.foldl_at (fun t => t.die d) (f := fun t d => t.loadCopy d)
    (mem_rangeFrom.mpr ⟨Nat.zero_le d, by omega⟩) (nodup_rangeFrom 0 s.pkg.member.dies) (fun t a _ ha => State.loadCopy_ne t (Ne.symm ha)) s
  rw [State.loadCopies_eq_foldl, hfold]
  exact State.loadCopy_valid (hu ▸ h)

theorem State.loadCopies_leaves (s : State) : s.loadCopies.pkg = s.pkg ∧ s.loadCopies.held = s.held := by
  rw [State.loadCopies_eq_foldl]
  refine ⟨State.foldl_leaves (·.pkg) (fun t d => ?_) _ _, State.foldl_leaves (·.held) (fun t d => ?_) _ _⟩ <;>
    (unfold State.loadCopy; split <;> rfl)

/-! ### The Legend (R60, R61) -/

theorem State.rewriteLone_legend (s : State) (p : Nat) : (s.rewriteLone p).legend = s.legend := by
  unfold State.rewriteLone
  refine State.foldl_leaves (·.legend) (fun t cl => ?_) _ _
  split
  · unfold State.setLonePolicy
    split <;> rw [State.setRegWord_eq]
  · rfl

theorem State.buildLegend_topo (s : State) : s.buildLegend.topo = s.topo := by
  unfold State.buildLegend
  extract_lets u x keys legend s1
  refine (State.bumpGen_topo _).trans ((State.topo_foldl fun t p => State.rewriteLone_topo ..).trans ?_)
  simp [State.recordHalts, s1]

/-- Both times of the Legend are the present one. -/
theorem State.buildLegend_times (s : State) :
    s.buildLegend.legend.enumT = s.pkg.meridian ∧ s.buildLegend.legend.changeT = s.pkg.meridian := by
  have hpkg : s.buildLegend.pkg.meridian = s.pkg.meridian := by rw [State.pkg_of_topo s.buildLegend_topo]
  refine ⟨?_, hpkg⟩
  unfold State.buildLegend
  extract_lets u x keys legend s1
  exact congrArg (·.enumT) (State.foldl_leaves (·.legend) (fun t p => State.rewriteLone_legend t p) _ s1.recordHalts.draw.draw)

/-- From `s` to `t` only flash, the update state, the cartouche path and the Legend change; the Legend keeps when it was built, and its
last change was that of `s` or is now. -/
structure OnlyUpdate (s t : State) : Prop where
  rest    : t = { s with life := t.life, upd := t.upd, cart := t.cart, legend := t.legend }
  enumT   : t.legend.enumT = s.legend.enumT
  changeT : t.legend.changeT = s.legend.changeT ∨ t.legend.changeT = s.pkg.meridian

theorem OnlyUpdate.refl (s : State) : OnlyUpdate s s := ⟨rfl, rfl, .inl rfl⟩

theorem OnlyUpdate.pkg {s t : State} (h : OnlyUpdate s t) : t.pkg = s.pkg := by rw [h.rest]

theorem OnlyUpdate.topo {s t : State} (h : OnlyUpdate s t) : t.topo = s.topo := by
  rw [h.rest]
  rfl

theorem OnlyUpdate.trans {s t u : State} (a : OnlyUpdate s t) (b : OnlyUpdate t u) : OnlyUpdate s u where
  rest := by rw [b.rest, a.rest]
  enumT := b.enumT.trans a.enumT
  changeT := by
    obtain h | h := b.changeT
    · exact h ▸ a.changeT
    · exact .inr (h.trans (by rw [a.pkg]))

theorem OnlyUpdate.foldl {α : Type} {f : State → α → State} (h : ∀ s a, OnlyUpdate s (f s a)) (l : List α) (s : State) :
    OnlyUpdate s (l.foldl f s) := by
  induction l generalizing s with
  | nil => exact .refl s
  | cons a l ih => exact (h s a).trans (ih _)

/-- An operation that leaves the Legend as it is. -/
theorem OnlyUpdate.same {s t : State} (h : t = { s with life := t.life, upd := t.upd, cart := t.cart }) : OnlyUpdate s t :=
  have hl : t.legend = s.legend := by rw [h]
  ⟨by rw [hl]; exact h, by rw [hl], .inl (by rw [hl])⟩

theorem OnlyUpdate.reportHub (s : State) (u : Uno) (cls code : Nat) (d : List Byte) (c : Ctx) : OnlyUpdate s (s.reportHub u cls code d c) :=
  .same (by rw [State.reportHub_eq])

theorem OnlyUpdate.setSector (s : State) (die p : Nat) (v : Sector) : OnlyUpdate s (s.setSector die p v) := .same rfl

theorem OnlyUpdate.writeOn (s : State) (l : Nat) (programmed : Bool) (die : Nat) : OnlyUpdate s (s.writeOn l programmed die) := by
  unfold State.writeOn
  extract_lets p x
  split
  · exact .setSector ..
  · split
    · exact .refl s
    · exact ((OnlyUpdate.setSector ..).trans (.setSector ..)).trans (.reportHub ..)

theorem OnlyUpdate.writeSector (s : State) (l : Nat) (programmed : Bool) : OnlyUpdate s (s.writeSector l programmed) :=
  .foldl (fun t d => .writeOn t l programmed d) _ _

theorem OnlyUpdate.wornReport (s : State) (ws : List (Nat × Nat)) : OnlyUpdate s (s.wornReport ws) := by
  unfold State.wornReport
  split <;> exact .reportHub ..

theorem OnlyUpdate.setUpd (s : State) (u : Update) : OnlyUpdate s (s.setUpd u) := by
  simp only [State.setUpd]
  split
  · exact .same rfl
  · exact ⟨rfl, rfl, .inr rfl⟩

theorem OnlyUpdate.slotState (s : State) (i st : Nat) : OnlyUpdate s (s.slotState i st) := by
  unfold State.slotState State.writeUpd
  split
  · exact (OnlyUpdate.writeSector ..).trans (.setUpd ..)
  · exact .wornReport ..

theorem OnlyUpdate.updReport (s : State) (code i : Nat) : OnlyUpdate s (s.updReport code i) := .reportHub ..

theorem OnlyUpdate.verifyFails (s : State) (i : Nat) : OnlyUpdate s (s.verifyFails i) :=
  ((OnlyUpdate.slotState s i SlotState.invalid).trans (.same rfl)).trans (.updReport _ 2 i)

/-- The verification of a slot that start-up owes (R409). -/
theorem OnlyUpdate.verifyPending (s : State) : OnlyUpdate s s.verifyPending := by
  unfold State.verifyPending
  split
  · extract_lets upd s1
    have h1 : OnlyUpdate s s1 := .same rfl
    split
    · exact h1.trans ((OnlyUpdate.slotState ..).trans (.updReport ..))
    · exact h1.trans (.verifyFails ..)
  · exact .same rfl

/-! ### Step 6 ends -/

/-- Step 7 ends with step 6 where no post is on its way to running; else the package state is as it was. -/
theorem State.postsSettled_cases (s : State) :
    s.postsSettled = s ∨ (s.pkg.bootStep = 6 ∧ OnlyUpdate { s with pkg := { s.pkg with bootStep := 7 } } s.postsSettled) := by
  unfold State.postsSettled
  split
  · next h => exact .inr ⟨h.1, .verifyPending _⟩
  · exact .inl rfl

theorem State.postsSettled_idle {s : State} (h : s.pkg.bootStep ≠ 6) : s.postsSettled = s :=
  s.postsSettled_cases.resolve_right fun hc => h hc.1

theorem Enumerates.postsSettled (s : State) : Enumerates s s.postsSettled := by
  obtain h | ⟨-, h⟩ := s.postsSettled_cases
  · rw [h]
    exact .refl s
  · have h7 : Enumerates s { s with pkg := { s.pkg with bootStep := 7 } } := .same rfl rfl rfl rfl
    exact h7.trans (.of_topo h.topo)

theorem State.postsSettled_step {s : State} (h : s.pkg.bootStep = 6) : s.postsSettled.pkg.bootStep = 6 ∨ s.postsSettled.pkg.bootStep = 7 := by
  obtain e | ⟨-, e⟩ := s.postsSettled_cases
  · rw [e]
    exact .inl h
  · exact .inr (congrArg (·.bootStep) e.pkg)

/-- A Legend built now is still of now once the posts have settled. -/
theorem State.postsSettled_times {s : State} (he : s.legend.enumT = s.pkg.meridian) (hc : s.legend.changeT = s.pkg.meridian) :
    s.postsSettled.legend.enumT = s.pkg.meridian ∧ s.postsSettled.legend.changeT = s.pkg.meridian := by
  obtain e | ⟨-, e⟩ := s.postsSettled_cases
  · rw [e]
    exact ⟨he, hc⟩
  · exact ⟨e.enumT.trans he, e.changeT.elim (·.trans hc) id⟩

/-- The parts of step 6 before the Legend: dead units, the reserve, the copies and the folios found. -/
def State.enumerated (s : State) (dead : List Uno) : State :=
  let t := (dead.foldl (fun t u => t.deadUnit u) s).carveAll.loadCopies
  (Tbl.keysSome t.folios.jobs).foldl (fun t j => t.recreateJob j) t

/-- The state as step 6 ends. -/
def State.step6 (s : State) : State := { s with pkg := { s.pkg with bootStep := 6 } }

theorem Enumerates.step6 (s : State) : Enumerates s s.step6 := .same rfl rfl rfl rfl

theorem State.step6_settles (s : State) : s.step6.postsSettled.pkg.bootStep = 6 ∨ s.step6.postsSettled.pkg.bootStep = 7 :=
  State.postsSettled_step rfl

theorem State.step6_times {s : State} (he : s.legend.enumT = s.pkg.meridian) (hc : s.legend.changeT = s.pkg.meridian) :
    s.step6.postsSettled.legend.enumT = s.pkg.meridian ∧ s.step6.postsSettled.legend.changeT = s.pkg.meridian :=
  State.postsSettled_times (s := s.step6) he hc

theorem execEnumerationClose_eq {s : State} (h : s.pkg.bootStep = 5) (dead : List Uno) :
    execEnumerationClose dead s = .next (s.enumerated dead).buildLegend.step6.postsSettled := by
  simp only [execEnumerationClose, State.enumerated, State.step6, h, ne_eq, not_true_eq_false, if_false]

theorem Enumerates.carved (s : State) (dead : List Uno) : Enumerates s (dead.foldl (fun t u => t.deadUnit u) s).carveAll :=
  (Enumerates.foldl (fun t u => .deadUnit t u) dead s).trans (.carveAll _)

theorem State.enumerated_topo (s : State) (dead : List Uno) :
    (s.enumerated dead).topo = (dead.foldl (fun t u => t.deadUnit u) s).carveAll.loadCopies.topo :=
  State.topo_foldl fun _ _ => State.recreateJob_topo ..

theorem State.enumerated_meridian (s : State) (dead : List Uno) : (s.enumerated dead).pkg.meridian = s.pkg.meridian := by
  rw [State.pkg_of_topo (s.enumerated_topo dead), (State.loadCopies_leaves _).1, (Enumerates.carved s dead).meridian]

theorem State.enumerated_isHeld {s : State} {dead : List Uno} {u : Uno} (hu : u ∈ dead)
    (hk : kindOf s.pkg.member u = .cluster ∨ kindOf s.pkg.member u = .core) : (s.enumerated dead).isHeld u = true := by
  refine (Enumerates.of_topo (s.enumerated_topo dead)).isHeld ?_
  obtain ⟨hp, hh⟩ := (dead.foldl (fun t u => t.deadUnit u) s).carveAll.loadCopies_leaves
  have hc := (Enumerates.carveAll (dead.foldl (fun t u => t.deadUnit u) s)).isHeld (State.deadUnits_isHeld hu hk)
  simpa only [State.isHeld, hp, hh] using hc

theorem State.enumerated_valid {s : State} {dead : List Uno} {d : Nat} (hd : d < s.pkg.member.dies) (hl : (s.die d).pllLocked = true) :
    ((s.enumerated dead).die d).copy.valid = true := by
  have h := Enumerates.carved s dead
  rw [State.die_of_dies (State.dies_of_topo (s.enumerated_topo dead))]
  exact State.loadCopies_valid (h.member ▸ hd) (by rwa [State.die_of_dies h.dies])

/-! ### Step 8 (R44) -/

/-- Flits that leave spend credits: only the links change. -/
theorem State.sendUrg_eq {n : Nat} {ks : List Nat} {s t : State} (h : State.sendUrg n ks s = some t) : t = { s with links := t.links } := by
  induction ks generalizing s with
  | nil =>
    cases h
    rfl
  | cons k ks ih =>
    simp only [State.sendUrg] at h
    split at h
    · rw [ih h, State.setMeter_frame]
    · cases h

theorem execCoreRelease_due {s : State} (hstep : s.pkg.bootStep = 7) (hrerun : s.pkg.warmRerun = false) (htrial : s.upd.trial = false) :
    execCoreRelease s = (s.sendUrg 2 (treeLinks s.pkg.member s.homeDie)).elim (.next s)
      (fun t => .next { t with pkg := { t.pkg with bootStep := 8, releaseT := t.pkg.meridian, coresHeld := false } }) := by
  unfold execCoreRelease
  rw [if_neg (by simp [hstep, hrerun, htrial])]
  cases s.sendUrg 2 (treeLinks s.pkg.member s.homeDie) <;> rfl

/-- Settles O17: step 5 by `TookMap`, step 6 by `Enumerates` and the load of the copies between its two halves, step 8 by its flits. -/
theorem startUpToCores : Obligations.StartUpToCores := by
  unfold Obligations.StartUpToCores
  intro s k bad dead took
  refine ⟨fun hstep hfw hk hdone => ?_, fun hstep => ?_, fun hstep hrerun htrial => ⟨fun t ht => ?_, fun hnone => ?_⟩⟩
  · have hw := State.hbmWaits_of hstep hfw hk hdone
    have htook {t : State} {map : Nat → Bool} (h : TookMap s t k map) : took t map :=
      ⟨h.done, h.regs, h.cores, hstep ▸ h.step, h.chan, h.other⟩
    obtain ⟨t, ht, hmap, hdeg⟩ := execHbmReady_took bad hw
    obtain ⟨t', ht', hmap', hdeg'⟩ := execHbmReadyTimeout_took hw
    exact ⟨⟨t, ht, htook hmap, hdeg⟩, t', ht', htook hmap', hdeg'⟩
  · have hbuilt : Enumerates (s.enumerated dead) (s.enumerated dead).buildLegend := .of_topo (State.buildLegend_topo _)
    have hall := (hbuilt.trans (.step6 _)).trans (.postsSettled _)
    have hnow := hbuilt.meridian.trans (s.enumerated_meridian dead)
    obtain ⟨he, hc⟩ := (s.enumerated dead).buildLegend_times
    obtain ⟨he', hc'⟩ := State.step6_times (he.trans hbuilt.meridian.symm) (hc.trans hbuilt.meridian.symm)
    refine ⟨_, execEnumerationClose_eq hstep dead, State.step6_settles _, he'.trans hnow, hc'.trans hnow,
      fun u hu hk => hall.isHeld (State.enumerated_isHeld hu hk), fun d hd hl => ?_⟩
    rw [State.die_of_dies hall.dies]
    exact State.enumerated_valid hd hl
  · have h := execCoreRelease_due hstep hrerun htrial
    have hpkg : t.pkg = s.pkg := by rw [State.sendUrg_eq ht]
    rw [ht] at h
    exact h.trans (by rw [Option.elim_some, hpkg])
  · have h := execCoreRelease_due hstep hrerun htrial
    rw [hnone] at h
    exact h

end Sys2Proof.Machine

/-! SUPPORT. Posts that gate, wake and restart (R42, R43, R219): what each way leaves of the post's own power and clocks and of the other
posts. What starts with a post leaves the topology (`State.topo`), so the clocks that it was given stand. -/

namespace Sys2Proof.Machine

/-! ### A post's health -/

@[simp] theorem State.setHealth_self (s : State) (p h : Nat) : (s.setHealth p h).post p = { s.post p with health := h } :=
  State.setPost_self s p { s.post p with health := h }

theorem State.setHealth_ne (s : State) {p k : Nat} (h : Nat) (hk : k ≠ p) : (s.setHealth p h).post k = s.post k :=
  State.setPost_ne s p { s.post p with health := h } k hk

theorem xor_one_ne (p : Nat) : p ^^^ 1 ≠ p := by
  intro h
  have h1 : p ^^^ (p ^^^ 1) = p ^^^ p := congrArg (p ^^^ ·) h
  rw [← Nat.xor_assoc, Nat.xor_self, Nat.zero_xor] at h1
  exact absurd h1 (by decide)

/-- The sibling of a post is another post. -/
theorem State.startWake_sibling (s : State) (p : Nat) : (s.startWake (p ^^^ 1)).post p = s.post p := by
  unfold State.startWake
  split
  · exact State.setHealth_ne s _ (xor_one_ne p).symm
  · rfl

theorem State.startWake_gated {s : State} {p : Nat} (h : (s.post p).health = Health.gated) : s.startWake p = s.setHealth p Health.waking :=
  if_pos h

/-- A post that runs: its clocks start now (R43). -/
theorem State.postStarts_post (s : State) (p : Nat) :
    (s.postStarts p).pkg = s.pkg ∧
      ((s.postStarts p).post p).vitals = (Health.ok, s.pkg.meridian, s.pkg.meridian, (s.post p).adoptWanted) := by
  unfold State.postStarts
  extract_lets s1 q s2
  have h : ((((s2.rewriteLone p).startWaiting p).applyOwed p).startQueued p).topo = s2.topo := by simp
  refine ⟨(State.pkg_of_topo h).trans rfl, (State.vitals_of_topo h p).trans ?_⟩
  have h2 : s2.post p = { s1.post p with hbT := s.pkg.meridian, ackT := s.pkg.meridian, lastAck := none, hbOut := false, ackDue := false,
                                         startDead := false, memError := false } := State.setPost_self ..
  have h1 : s1.post p = { s.post p with health := Health.ok } := State.setHealth_self ..
  rw [h2, h1]
  rfl

/-- A post that is declared lost: its half is to be adopted (R216). -/
theorem State.postDies_post (s : State) (p : Nat) (atStart : Bool) :
    ((s.postDies p atStart).post p).health = Health.lost ∧ ((s.postDies p atStart).post p).adoptWanted = true ∧
      (s.postDies p atStart).pkg.bootStep = s.pkg.bootStep := by
  unfold State.postDies
  extract_lets sib s1 q1 s2 pkg s3 q3 s4
  have h2 : s2.post p = _ := State.setPost_self ..
  have h3 : (s3.post p).health = Health.lost ∧ (s3.post p).adoptWanted = true := by
    change (s2.post p).health = _ ∧ (s2.post p).adoptWanted = _
    rw [h2]
    exact ⟨congrArg (·.health) (State.setHealth_self s p Health.lost), rfl⟩
  have h4 : (s4.post p).health = Health.lost ∧ (s4.post p).adoptWanted = true ∧ s4.pkg.bootStep = s.pkg.bootStep := by
    unfold s4
    split
    · rw [State.setHealth_ne _ _ (xor_one_ne p).symm, State.setPost_self]
      exact ⟨h3.1, h3.2, rfl⟩
    · exact ⟨h3.1, h3.2, rfl⟩
  obtain ⟨hh, ha, hb⟩ := h4
  split
  · have ht := State.failover_topo s4 s4.compassDie 0xA (0x100 + p / 2)
    have hv := State.vitals_of_topo ht p
    simp only [Post.vitals, Prod.mk.injEq] at hv
    obtain ⟨hv, -, -, hw⟩ := hv
    exact ⟨hv.trans hh, hw.trans ha, (congrArg (·.bootStep) (State.pkg_of_topo ht)).trans hb⟩
  · rw [State.startWake_sibling]
    refine ⟨hh, ha, ?_⟩
    unfold State.startWake
    split <;> exact hb

/-! ### Commands of a post -/

theorem State.clearPost_hopRing (s : State) (p why : Nat) : (s.clearPost p why).hopRing p = {} := by
  unfold State.clearPost
  extract_lets s1 e lo s2
  exact Tbl.get_set_self ({} : HopRing) _ p {}

theorem State.clearPost_clampLog (s : State) (p why : Nat) : (s.clearPost p why).clampLog p = {} := by
  unfold State.clearPost
  extract_lets s1 e lo s2
  exact Tbl.get_set_self ({} : ClampLog) _ p {}

/-- A platform session's command whose tests all pass has its effect. -/
theorem State.judged_platform {s : State} {c : CmdCtx} (h : Claims.Platform s c) {l : List (Bool × Nat)} {f : State → State}
    (hl : firstFail l = none) : s.judged c l f = f s := by
  obtain ⟨⟨hopen, hlive, hfw⟩, -, -⟩ := h
  exact State.judged_ok hlive hfw hopen hl

/-- POST_POWER 0 of a running post that nothing uses gates it (R42). -/
theorem execPostPower_gates {s : State} {c : CmdCtx} {p : Nat} (h : Claims.Platform s c) (hp : p < s.pkg.member.posts)
    (hok : (s.post p).health = Health.ok) (hfree : s.postInUse p = false) :
    Claims.Done (.postPower c p 0) s c noObject 0 ((s.clearPost p 0).setHealth p Health.gated) := by
  obtain ⟨-, hlock, hright⟩ := id h
  change execPostPower c p 0 s = _
  simp only [execPostPower]
  rw [State.judged_platform h (by simp [firstFail, hp, hlock, hright, hok, hfree, Health.ok, Health.lost, Health.adopted])]
  simp [hok]

/-- POST_POWER 1 of a gated post starts its wake (R43). -/
theorem execPostPower_wakes {s : State} {c : CmdCtx} {p : Nat} (h : Claims.Platform s c) (hp : p < s.pkg.member.posts)
    (hgated : (s.post p).health = Health.gated) :
    Claims.Done (.postPower c p 1) s c noObject 0 (s.setHealth p Health.waking) := by
  obtain ⟨-, hlock, hright⟩ := id h
  change execPostPower c p 1 s = _
  simp only [execPostPower]
  rw [State.judged_platform h (by simp [firstFail, hp, hlock, hright, hgated, Health.gated, Health.lost, Health.adopted])]
  simp [State.startWake_gated hgated]

/-- POST_RESTART of a running or lost post: the command completes once the post is RESTARTING (R219). -/
theorem execPostRestart_restarts {s : State} {c : CmdCtx} {p n : Nat} (h : Claims.Platform s c) (hp : p < s.pkg.member.posts)
    (hh : (s.post p).health = Health.ok ∨ (s.post p).health = Health.lost) :
    ∃ u, Claims.Done (.postRestart c p n) s c noObject 0 u ∧ (u.post p).health = Health.restarting ∧ (u.post p).restored = false := by
  obtain ⟨-, hlock, hright⟩ := id h
  change ∃ u, execPostRestart c p n s = _ ∧ _
  simp only [execPostRestart]
  rw [State.judged_platform h (by obtain hh | hh := hh <;> simp [firstFail, hp, hlock, hright, hh])]
  refine ⟨_, rfl, ?_⟩
  have hne : (s.post p).health ≠ Health.adopted := by obtain hh | hh := hh <;> simp [hh, Health.ok, Health.lost, Health.adopted]
  rw [State.setHealth_self, State.setPost_self]
  exact ⟨rfl, decide_eq_false hne⟩

/-! ### Wakes and restarts that end -/

section
variable {s : State} {p : Nat} (hw : (s.post p).health = Health.waking) (hstep : 7 ≤ s.pkg.bootStep) (hp : p < s.pkg.member.posts)
  (hheld : s.isHeld (halfUno p) = false)

include hw hstep hp hheld

theorem postWakeDone_counts :
    ¬ ((s.post p).health ≠ Health.waking ∨ s.pkg.bootStep < 6 ∨ s.pkg.member.posts ≤ p ∨ s.isHeld (halfUno p)) := by
  rintro (h | h | h | h)
  · exact h hw
  · omega
  · omega
  · exact absurd (h.symm.trans hheld) (by decide)

/-- A wake that ends in or after step 7 of start-up and passes: the post runs (R43). -/
theorem execPostWakeDone_runs : execPostWakeDone p true s = .next (s.postStarts p) := by
  have hset : (s.postStarts p).postsSettled = s.postStarts p :=
    State.postsSettled_idle (by rw [(s.postStarts_post p).1]; omega)
  rw [execPostWakeDone, if_neg (postWakeDone_counts hw hstep hp hheld), if_pos rfl, hset]

/-- One that fails: the post is lost. -/
theorem execPostWakeDone_lost : execPostWakeDone p false s = .next (s.postDies p false) := by
  have hset : (s.postDies p false).postsSettled = s.postDies p false :=
    State.postsSettled_idle (by rw [(s.postDies_post p false).2.2]; omega)
  rw [execPostWakeDone, if_neg (postWakeDone_counts hw hstep hp hheld), if_neg Bool.false_ne_true, if_neg (by omega), hset]

end

/-- A post that has re-homed runs, its half its own again (R219). -/
theorem State.postResumes_post (s : State) (p : Nat) :
    ((s.postResumes p).post p).vitals = (Health.ok, s.pkg.meridian, s.pkg.meridian, false) := by
  unfold State.postResumes
  extract_lets q s1
  have h : ((s1.rescanJobs p false).rescanParts p).topo = s1.topo := by simp
  have hpkg : ((s1.rescanJobs p false).rescanParts p).pkg = s.pkg := (State.pkg_of_topo h).trans rfl
  have hv := State.vitals_of_topo h p
  have h1 : s1.post p = { s.post p with adoptWanted := false } := State.setPost_self ..
  rw [h1] at hv
  simp only [Post.vitals, Prod.mk.injEq] at hv
  obtain ⟨-, -, -, hwant⟩ := hv
  rw [(State.postStarts_post _ p).2, hpkg, hwant]

/-! ### Commands that wait -/

/-- A command that waits is executed as it stands, without its place among those that wait (R43, R378). -/
theorem execHeldRequestResume_held {s : State} {i : Nat} {w : Instr} (hw : s.host.waiting[i]? = some w) (hheld : (heldCtx w).isSome = true)
    (hlive : s.pkg.bothDead = false) :
    execHeldRequestResume i s = exec w { s with host := { s.host with waiting := s.host.waiting.eraseIdx i } } := by
  simp only [execHeldRequestResume, hlive, hw, Bool.false_eq_true, if_false]
  cases w <;> simp [heldCtx] at hheld <;> rfl

/-- Settles O21, command by command. -/
theorem postsSleepAndRestart : Obligations.PostsSleepAndRestart := by
  unfold Obligations.PostsSleepAndRestart
  intro s c p n i q
  refine ⟨fun hplat hp => ⟨fun hok hfree => ?_, fun hgated => ?_, fun hh => execPostRestart_restarts hplat hp hh⟩,
    fun hw hstep hp hheld => ⟨?_, ?_⟩, fun hr => ⟨fun hres => ?_, fun hres => ?_, fun hres => ?_⟩, fun w hw hheld hlive => ?_,
    fun hnone => ?_⟩
  · have ht := s.clearPost_topo p 0
    refine ⟨_, execPostPower_gates hplat hp hok hfree, by rw [State.setHealth_self], s.clearPost_hopRing p 0,
      s.clearPost_clampLog p 0, fun k hk => ?_⟩
    rw [State.setHealth_ne _ _ hk]
    exact State.health_of_topo ht k
  · exact ⟨_, execPostPower_wakes hplat hp hgated, by rw [State.setHealth_self], fun k hk => State.setHealth_ne s _ hk⟩
  · obtain ⟨-, hv⟩ := s.postStarts_post p
    simp only [Post.vitals, Prod.mk.injEq] at hv
    obtain ⟨hhealth, hhb, hack, -⟩ := hv
    exact ⟨_, execPostWakeDone_runs hw hstep hp hheld, hhealth, hhb, hack⟩
  · obtain ⟨hhealth, hwant, -⟩ := s.postDies_post p false
    exact ⟨_, execPostWakeDone_lost hw hstep hp hheld, hhealth, hwant⟩
  · have hv := s.postResumes_post p
    simp only [Post.vitals, Prod.mk.injEq] at hv
    obtain ⟨hhealth, hhb, -, hwant⟩ := hv
    refine ⟨s.postResumes p, ?_, hhealth, hhb, hwant⟩
    change execPostRestartDone p true s = _
    simp [execPostRestartDone, show (s.post p).health = _ from hr, show (s.post p).restored = _ from hres]
  · obtain ⟨hhealth, -, -⟩ := (s.failover s.compassDie 9 (halfUno p)).postDies_post p false
    refine ⟨_, ?_, hhealth⟩
    change execPostRestartDone p false s = _
    simp [execPostRestartDone, show (s.post p).health = _ from hr, show (s.post p).restored = _ from hres]
  · refine ⟨(s.setPost p { q with restored := false, rehomed := true }).setHealth p Health.adopted, ?_, ?_⟩
    · change execPostRestartDone p true s = _
      simp [execPostRestartDone, show (s.post p).health = _ from hr, show (s.post p).restored = _ from hres, q]
    · rw [State.setHealth_self, State.setPost_self]
      exact ⟨rfl, rfl⟩
  · obtain ⟨t, ht, -⟩ := exec_goesOn w { s with host := { s.host with waiting := s.host.waiting.eraseIdx i } }
    exact ⟨t, (execHeldRequestResume_held hw hheld hlive).trans ht, ht⟩
  · change execHeldRequestResume i s = _
    simp [execHeldRequestResume, hnone]

end Sys2Proof.Machine

/-! SUPPORT. Groups and partitions (R57, R58): a member range that closes on a table of groups that lists a key twice. -/

namespace Sys2Proof.Machine

/-- A live group of one cluster, as a slot of the table. -/
def clusterGroup : Option Group := some { members := [(0x1000, 1)], ctx := 0, level := 1, partition := false, freezeSet := 0 }

/-- Session 1 of a package in BLANK, with software groups 0 to 2; group 1 is listed twice, first as a free slot and then as a live one. -/
def groupListedTwice : State := { State.reset with
  groups := [(0xF00000, clusterGroup), (0xF00001, none), (0xF00001, clusterGroup), (0xF00002, clusterGroup)]
  auth := { sessions := [(1, some { isPort := false, ring := 0, nonce := 0, scheck := 0, openT := 0 })] } }

/-- A group record (Table QR-10) of context 0 whose one member range is software groups 0 to 2. -/
def threeGroupsRecord : List Byte := [1, 0, 0, 0, 0, 0, 0, 0, 0x00, 0x00, 0xF0, 0, 3, 0, 0, 0]

theorem parseGroup_threeGroups : parseGroup threeGroupsRecord = ⟨1, 0, [(0xF00000, 3)], true⟩ := by
  decide

/-- GROUP_CREATE of a free slot with that record passes every check: both ends of the range read live. -/
theorem groupListedTwice_permits :
    groupListedTwice.holdRoom 1 ObjKind.group 3 = true ∧
      firstFail (groupListedTwice.groupChecks (some 1) 0xF00003 (parseGroup threeGroupsRecord) false) = none := by
  decide

/-- The range keeps group 1, by its second entry; a read of its slot meets the first, and finds it free. -/
theorem groupListedTwice_closes :
    ([(0xF00000, 3)].flatMap groupListedTwice.closeRange).any (fun m => memberHas m 0xF00001) = true ∧
      groupListedTwice.group 0xF00001 = none := by
  decide

/-- Refutes O51: its GROUP_CREATE clause takes any table of groups, and in `groupListedTwice` the range of groups 0 to 2 keeps group 1,
which reads free. -/
theorem not_sharedObjects : ¬ Obligations.SharedObjects := by
  unfold Obligations.SharedObjects
  intro h
  obtain ⟨hroom, hchecks⟩ := groupListedTwice_permits
  obtain ⟨hkept, hfree⟩ := groupListedTwice_closes
  obtain ⟨-, hcreate, -⟩ := h groupListedTwice ⟨1, some 0, 0, false, 0, 0⟩ 0 0 _ rfl rfl rfl
  obtain ⟨-, hmade⟩ := hcreate 0xF00003 threeGroupsRecord rfl hroom
  obtain ⟨_, -, -, hmembers, -⟩ := hmade hchecks
  rw [parseGroup_threeGroups] at hmembers
  obtain ⟨-, hlive⟩ := hmembers 0xF00001 hkept
  exact absurd (hlive (by decide) (by decide)) (by simp [hfree])

end Sys2Proof.Machine

/-! SUPPORT. Quill words (R75, R77, R272; Table QE-2): the commands of the opcode table, their words, and what a word that is not the one
fetched does. -/

namespace Sys2Proof.Machine

/-! ### The parts of a word -/

theorem quillWordOf_opcode {op : Nat} (h : op < 256) (f : BitVec 24) : (quillWordOf op f >>> 24).toNat = op := by
  have := f.isLt
  simp only [quillWordOf, BitVec.toNat_ushiftRight, BitVec.toNat_ofNat, Nat.shiftRight_eq_div_pow]
  omega

theorem quillWordOf_fields (op : Nat) (f : BitVec 24) : (quillWordOf op f).setWidth 24 = f := by
  have := f.isLt
  apply BitVec.eq_of_toNat_eq
  simp only [quillWordOf, BitVec.toNat_setWidth, BitVec.toNat_ofNat]
  omega

theorem quillWordOf_parts (w : BitVec 32) : quillWordOf (w >>> 24).toNat (w.setWidth 24) = w := by
  have := w.isLt
  apply BitVec.eq_of_toNat_eq
  simp only [quillWordOf, BitVec.toNat_setWidth, BitVec.toNat_ofNat, BitVec.toNat_ushiftRight, Nat.shiftRight_eq_div_pow]
  omega

theorem bitsOf_opcode (w : BitVec 32) : bitsOf w.toNat 24 8 = (w >>> 24).toNat := by
  have := w.isLt
  simp only [bitsOf, BitVec.toNat_ushiftRight, Nat.shiftRight_eq_div_pow]
  omega

/-! ### The opcode table -/

/-- The opcodes that the table lists are those that Table QR-1 defines. -/
theorem mem_quillTable_opcodes (n : Nat) : n ∈ quillTable.map (·.1) ↔ opDefined n = true := by
  simp only [quillTable, opDefined, List.map_cons, List.map_nil, List.mem_cons, List.not_mem_nil, Bool.or_eq_true,
    decide_eq_true_eq, or_false]
  constructor <;> intro h <;> omega

/-- A command of the table spells the word of its opcode. -/
theorem quillWord_quillTable : ∀ x ∈ quillTable, ∀ (e : Nat) (f : BitVec 24), quillWord (x.2 e f) = some (e, quillWordOf x.1 f) := by
  simp [quillTable, quillWord]

/-- A command of the table executes its word by the outcome that the word has. -/
theorem exec_quillTable : ∀ x ∈ quillTable, ∀ (e : Nat) (f : BitVec 24) (s : State),
    exec (x.2 e f) s = .next (s.executeQ e x.1 f (s.doWord e x.1 f)) := by
  simp only [quillTable, List.forall_mem_cons, List.not_mem_nil, false_implies, implies_true, and_true]
  and_intros <;> exact fun _ _ _ => rfl

/-! ### Decoding -/

/-- What a word decodes to is the table's command of its opcode with its other bits. -/
theorem quillDecode_eq_some {e : Nat} {w : BitVec 32} {i : Instr} (h : quillDecode e w = some i) :
    ∃ x ∈ quillTable, x.2 e (w.setWidth 24) = i ∧ quillWordOf x.1 (w.setWidth 24) = w := by
  obtain ⟨c, hc, rfl⟩ := Option.map_eq_some_iff.mp h
  obtain ⟨l, r, hl, -⟩ := List.lookup_eq_some_iff.mp hc
  have hmem : ((w >>> 24).toNat, c) ∈ l ++ ((w >>> 24).toNat, c) :: r := List.mem_append_right l List.mem_cons_self
  exact ⟨(_, c), hl ▸ hmem, rfl, quillWordOf_parts w⟩

theorem quillDecode_eq_none {e : Nat} {w : BitVec 32} : quillDecode e w = none ↔ opDefined (bitsOf w.toNat 24 8) = false := by
  rw [← Bool.not_eq_true, ← mem_quillTable_opcodes, bitsOf_opcode, quillDecode, Option.map_eq_none_iff, List.lookup_eq_none_iff]
  simp only [List.mem_map, not_exists, not_and, bne_iff_ne]
  exact forall₂_congr fun x _ => ne_comm

theorem quillDecode_quillWordOf {op : Nat} (h : op < 256) (e : Nat) (f : BitVec 24) :
    quillDecode e (quillWordOf op f) = (quillTable.lookup op).map (fun c => c e f) := by
  rw [quillDecode, quillWordOf_opcode h, quillWordOf_fields]

theorem quillWord_of_quillDecode {e : Nat} {w : BitVec 32} {i : Instr} (h : quillDecode e w = some i) : quillWord i = some (e, w) := by
  obtain ⟨x, hx, rfl, hw⟩ := quillDecode_eq_some h
  rw [quillWord_quillTable x hx, hw]

/-- A command that spells a word is the one that the word decodes to, or UNDEFINED_OPCODE of that word. -/
theorem quillWord_cases {i : Instr} {e : Nat} {w : BitVec 32} (h : quillWord i = some (e, w)) :
    i = .undefinedOpcode e w ∨ quillDecode e w = some i := by
  revert h
  fun_cases quillWord i <;> intro h <;> cases h
  -- UNDEFINED_OPCODE is the last of `quillWord`'s cases that spells a word; the others are the table's rows.
  case case63.refl => exact .inl rfl
  all_goals exact .inr (quillDecode_quillWordOf (by decide) _ _)

/-! ### A word that the engine has not fetched -/

/-- A word executes only on an engine that runs and has fetched it (R75). -/
theorem State.executeQ_idle {s : State} {e op : Nat} {f : BitVec 24} (d : Did)
    (h : (s.engine e).state ≠ .running ∨ (s.engine e).fetch ≠ wordOf op f) : s.executeQ e op f d = s := by
  refine if_neg fun hrun => ?_
  rw [Bool.and_eq_true, beq_iff_eq, beq_iff_eq] at hrun
  exact h.elim (· hrun.1) (· hrun.2)

theorem exec_undefinedOpcode_defined {e : Nat} {w : BitVec 32} (s : State) (h : opDefined (bitsOf w.toNat 24 8) = true) :
    exec (.undefinedOpcode e w) s = .next s := if_pos h

theorem exec_undefinedOpcode {e : Nat} {w : BitVec 32} (s : State) (h : opDefined (bitsOf w.toNat 24 8) = false) :
    exec (.undefinedOpcode e w) s = .next (s.executeQ e (bitsOf w.toNat 24 8) (w.setWidth 24) (.fault Cause.undef)) :=
  if_neg (by simp [h])

theorem wordOf_parts (w : BitVec 32) : wordOf (bitsOf w.toNat 24 8) (w.setWidth 24) = w := by
  rw [bitsOf_opcode]
  exact quillWordOf_parts w

theorem exec_quillWord_idle {i : Instr} {e : Nat} {w : BitVec 32} {s : State} (hw : quillWord i = some (e, w))
    (h : (s.engine e).state ≠ .running ∨ (s.engine e).fetch ≠ w) : exec i s = .next s := by
  obtain rfl | hdec := quillWord_cases hw
  · cases hdef : opDefined (bitsOf w.toNat 24 8) with
    | true => exact exec_undefinedOpcode_defined s hdef
    | false => rw [exec_undefinedOpcode s hdef, State.executeQ_idle _ (by rwa [wordOf_parts])]
  · obtain ⟨x, hx, rfl, hparts⟩ := quillDecode_eq_some hdec
    rw [exec_quillTable x hx, State.executeQ_idle _ (hparts.symm ▸ h : _ ∨ _ ≠ quillWordOf _ _)]

/-- Settles O59: what a word spells by the table, both ways; that a word not fetched executes nothing, by the one form in which every Quill
command executes. -/
theorem quillWordsAndFetch : Obligations.QuillWordsAndFetch := by
  refine ⟨fun e w i => quillWord_of_quillDecode, fun e w i hw hdef => (quillWord_cases hw).resolve_left (hdef w),
    fun e w => quillDecode_eq_none, fun e w i s => exec_quillWord_idle, fun e w s hdec => ?_⟩
  refine exec_undefinedOpcode_defined s (by_contra fun hundef => ?_)
  rw [Bool.not_eq_true, ← quillDecode_eq_none (e := e)] at hundef
  simp [hundef] at hdec

end Sys2Proof.Machine

/-! SUPPORT. What a Quill word leaves of its engine (R76, R272, R276, R278), how its checks are judged, and the bytes of a number (R8). -/

namespace Sys2Proof.Machine

/-! ### Charging, landing and going on -/

@[simp] theorem Engine.charge_regs (g : Engine) (n : Nat) : (g.charge n).regs = g.regs := by unfold Engine.charge; split <;> rfl
@[simp] theorem Engine.charge_pc (g : Engine) (n : Nat) : (g.charge n).pc = g.pc := by unfold Engine.charge; split <;> rfl
@[simp] theorem Engine.charge_dmem (g : Engine) (n : Nat) : (g.charge n).dmem = g.dmem := by unfold Engine.charge; split <;> rfl
@[simp] theorem Engine.charge_stack (g : Engine) (n : Nat) : (g.charge n).stack = g.stack := by unfold Engine.charge; split <;> rfl
@[simp] theorem Engine.charge_tags (g : Engine) (n : Nat) : (g.charge n).tags = g.tags := by unfold Engine.charge; split <;> rfl
@[simp] theorem Engine.charge_events (g : Engine) (n : Nat) : (g.charge n).events = g.events := by unfold Engine.charge; split <;> rfl

@[simp] theorem Engine.charge_land_pmem (g : Engine) (n : Nat) : (g.charge n).land.pmem = g.land.pmem := by
  unfold Engine.charge
  split
  · cases h : g.pst <;> simp [Engine.land, h]
  · rfl

@[simp] theorem Engine.charge_zero (g : Engine) : g.charge 0 = g := by
  unfold Engine.charge
  split
  · rw [Nat.sub_zero, Machine.word, BitVec.ofNat_toNat, BitVec.setWidth_eq]
  · rfl

@[simp] theorem Engine.land_regs (g : Engine) : g.land.regs = g.regs := by unfold Engine.land; split <;> rfl
@[simp] theorem Engine.land_pc (g : Engine) : g.land.pc = g.pc := by unfold Engine.land; split <;> rfl
@[simp] theorem Engine.land_dmem (g : Engine) : g.land.dmem = g.dmem := by unfold Engine.land; split <;> rfl
@[simp] theorem Engine.land_stack (g : Engine) : g.land.stack = g.stack := by unfold Engine.land; split <;> rfl
@[simp] theorem Engine.land_tags (g : Engine) : g.land.tags = g.tags := by unfold Engine.land; split <;> rfl
@[simp] theorem Engine.land_budget (g : Engine) : g.land.budget = g.budget := by unfold Engine.land; split <;> rfl
@[simp] theorem Engine.land_events (g : Engine) : g.land.events = g.events := by unfold Engine.land; split <;> rfl
@[simp] theorem Engine.land_force (g : Engine) : g.land.force = g.force := by unfold Engine.land; split <;> rfl

@[simp] theorem Engine.land_pst (g : Engine) : g.land.pst = none := by
  unfold Engine.land
  split
  · assumption
  · rfl

/-- Once landed, a store does not land again. -/
theorem Engine.land_of_pst {g : Engine} (h : g.pst = none) : g.land = g := by simp [Engine.land, h]

@[simp] theorem Engine.advance_dmem (g old : Engine) : (g.advance old).dmem = g.dmem := Engine.land_dmem g

/-- A budget that cannot carry one cycle is 0, and a charge leaves it there (R76). -/
theorem Engine.charge_of_broke {g : Engine} (h : g.broke 1 = true) : g.charge 1 = g := by
  obtain ⟨htimed, hlow⟩ : g.timed = true ∧ g.budget.toNat < 1 := by simpa [Engine.broke] using h
  have hzero : g.budget = 0 := BitVec.eq_of_toNat_eq (by simp; omega)
  rw [Engine.charge, if_pos htimed, hzero]
  exact congrArg (fun b => { g with budget := b }) hzero.symm

/-- No cycles are always carried. -/
@[simp] theorem Engine.broke_zero (g : Engine) : g.broke 0 = false := by simp [Engine.broke]

/-! ### Checks -/

theorem firstFail_eq_none {xs : List (Bool × Nat)} : firstFail xs = none ↔ ∀ x ∈ xs, x.1 = true := by
  induction xs with
  | nil => simp
  | cons x xs ih =>
    obtain ⟨b, c⟩ := x
    cases b <;> simp [ih]

/-- Checks that all hold leave the outcome (R272). -/
theorem checked_all {xs : List (Bool × Nat)} (h : ∀ x ∈ xs, x.1 = true) (d : Did) : checked xs d = d := by
  rw [checked, firstFail_eq_none.mpr h]

/-! ### The bytes of a number -/

@[simp] theorem length_leBytes (n v : Nat) : (leBytes n v).length = n := by
  induction n generalizing v with
  | zero => rfl
  | succ n ih => simp [leBytes, ih]

theorem getElem_leBytes {n v k : Nat} (h : k < (leBytes n v).length) : (leBytes n v)[k] = BitVec.ofNat 8 (v / 256 ^ k) := by
  induction n generalizing v k with
  | zero => exact absurd h (by simp [leBytes])
  | succ n ih =>
    cases k with
    | zero => simp [leBytes]
    | succ k =>
      simp only [leBytes, List.getElem_cons_succ]
      rw [ih, Nat.div_div_eq_div_mul, ← Nat.pow_succ']

/-- A number written over its bytes is read back byte by byte. -/
theorem Memory.read_leBytes (m : List Host.Cell) (a v : Nat) {n k : Nat} (h : k < n) :
    Memory.read (Memory.writeBytes m a (leBytes n v)) (a + k) = BitVec.ofNat 8 (v / 256 ^ k) := by
  rw [Memory.read_writeBytes_in _ m a k (by simpa using h), getElem_leBytes]

/-! ### Local memory (R78, R278, R282) -/

section
variable {s : State} {e op n : Nat} {f : BitVec 24}

/-- An aligned access within the declared data memory passes its checks. -/
theorem Engine.dataChecks_all {g : Engine} (ha : g.local_ f % n = 0) (hb : g.local_ f + n ≤ g.dataBytes) :
    ∀ x ∈ g.dataChecks f n, x.1 = true := by
  simp [Engine.dataChecks, Engine.inData, ha, hb]

theorem Engine.progChecks_all {g : Engine} (h : g.local_ f < g.codeWords) : ∀ x ∈ g.progChecks f, x.1 = true := by
  simp [Engine.progChecks, h]

theorem QuillReady.loads (h : QuillReady s e op f) (ha : (s.engine e).local_ f % n = 0)
    (hb : (s.engine e).local_ f + n ≤ (s.engine e).dataBytes) :
    OnlyEngine s (s.executeQ e op f (s.loadData e f n)) e
      ((s.engine e).retired (fd f) (word (leNat (Memory.readBytes (s.engine e).dmem ((s.engine e).local_ f) n)))) := by
  rw [State.loadData, checked_all (Engine.dataChecks_all ha hb)]
  exact h.writes _ _

/-- A store within the declared data memory: the engine with the bytes of q[d] written at the address. -/
theorem QuillReady.stores (h : QuillReady s e op f) (ha : (s.engine e).local_ f % n = 0)
    (hb : (s.engine e).local_ f + n ≤ (s.engine e).dataBytes) :
    OnlyEngine s (s.executeQ e op f (s.storeData e f n)) e
      (({ s.engine e with
          dmem := Memory.writeBytes (s.engine e).dmem ((s.engine e).local_ f) (leBytes n ((s.engine e).q (fd f)).toNat)
        }.charge 1).advance (s.engine e)) := by
  rw [State.storeData, checked_all (Engine.dataChecks_all ha hb)]
  exact h.seqEnd (OnlyEngine.set s e _)

/-- A store changes the addressed bytes alone. -/
theorem QuillReady.stores_bytes (h : QuillReady s e op f) (ha : (s.engine e).local_ f % n = 0)
    (hb : (s.engine e).local_ f + n ≤ (s.engine e).dataBytes) :
    let g := s.engine e
    let x := g.local_ f
    let t := s.executeQ e op f (s.storeData e f n)
    OnlyEngine s t e (({ g with dmem := (t.engine e).dmem }.charge 1).advance g) ∧
      (∀ k, k < n → Memory.read (t.engine e).dmem (x + k) = BitVec.ofNat 8 ((g.q (fd f)).toNat / 256 ^ k)) ∧
      (∀ a, a < x ∨ x + n ≤ a → Memory.read (t.engine e).dmem a = Memory.read g.dmem a) := by
  intro g x t
  have o := h.stores ha hb
  have hmem : (t.engine e).dmem = Memory.writeBytes g.dmem x (leBytes n (g.q (fd f)).toNat) := by
    rw [o.here, Engine.advance_dmem, Engine.charge_dmem]
  rw [hmem]
  exact ⟨o, fun k hk => Memory.read_leBytes _ _ _ hk, fun a ha => Memory.read_writeBytes_out _ _ _ _ (by simpa using ha)⟩

theorem QuillReady.storesProgram (h : QuillReady s e 0x44 f) (hx : (s.engine e).local_ f < (s.engine e).codeWords) :
    OnlyEngine s (s.executeQ e 0x44 f (s.doPst e f)) e { ((s.engine e).charge 1).advance (s.engine e) with
      pst := some ((s.engine e).local_ f, ((s.engine e).q (fd f)).setWidth 32) } := by
  obtain ⟨hrun, hfetch, hbudget, hlast⟩ := h
  rw [State.doPst, checked_all (Engine.progChecks_all hx), State.executeQ_run _ hrun hfetch]
  simp only [State.perform, hbudget, Bool.false_eq_true, if_false, Nat.not_le.mpr hlast, decide_false, Bool.and_false]
  exact OnlyEngine.set s e _

theorem QuillReady.loadsProgram (h : QuillReady s e 0x45 f) (hx : (s.engine e).local_ f < (s.engine e).codeWords) :
    OnlyEngine s (s.executeQ e 0x45 f (s.doLdp e f)) e
      ((s.engine e).retired (fd f) (((s.engine e).land.word ((s.engine e).local_ f)).setWidth 64)) := by
  rw [State.doLdp, checked_all (Engine.progChecks_all hx)]
  exact h.writes _ _

end

/-- Settles O6: a load writes the register, a store the addressed bytes, PST the pending store; LDP reads what has landed and what is about
to. -/
theorem quillLocalMemory : Obligations.QuillLocalMemory := by
  intro s e f
  refine ⟨fun h ⟨ha, hb⟩ => ⟨_, rfl, h.loads ha hb⟩, fun h ⟨ha, hb⟩ => ⟨_, rfl, h.loads ha hb⟩,
    fun h ⟨ha, hb⟩ => ⟨_, rfl, h.stores_bytes ha hb⟩, fun h ⟨ha, hb⟩ => ⟨_, rfl, h.stores_bytes ha hb⟩,
    fun h hx => ⟨_, rfl, h.storesProgram hx⟩, fun h hx => ⟨_, rfl, h.loadsProgram hx⟩⟩

/-! ### UWAIT (R81, R83, R283) -/

section
variable {s : State} {e : Nat} {f : BitVec 24} {t : Tag}

/-- The engine as UWAIT consumes tag `n` with its response. -/
def Engine.consumed (g : Engine) (f : BitVec 24) (n st : Nat) (v : Word) : Engine :=
  ((g.setTag n none).setQ (fd f) v).setQ (fb f) (Machine.word st)

theorem State.doUwait_answered {st : Nat} {v : Word} (hsp : fsp f = 0) (ht : ft f = 0)
    (hn : ((s.engine e).q (fa f)).toNat < (s.engine e).tagLimit) (htag : (s.engine e).tag ((s.engine e).q (fa f)).toNat = some t)
    (hread : t.op.readType = true) (hres : t.result = some (st, v)) :
    s.doUwait e f = .seq (s.setEngine e ((s.engine e).consumed f ((s.engine e).q (fa f)).toNat st v)) 1 := by
  simp [State.doUwait, ht, hsp, hn, htag, hread, hres, Engine.consumed]

theorem State.doUwait_unanswered (hsp : fsp f = 0) (ht : ft f = 0) (hn : ((s.engine e).q (fa f)).toNat < (s.engine e).tagLimit)
    (htag : (s.engine e).tag ((s.engine e).q (fa f)).toNat = some t) (hread : t.op.readType = true) (hres : t.result = none) :
    s.doUwait e f = .wait s := by
  simp [State.doUwait, ht, hsp, hn, htag, hread, hres]

theorem State.doUwait_all (hsp : fsp f = 0) (ht : ft f = 1) (ha : fa f = 0) (hb : fb f = 0) (hdone : (s.engine e).allDone = true) :
    s.doUwait e f = .seq (s.setQ e (fd f) (word (s.engine e).readTags)) 1 := by
  simp [State.doUwait, ht, hsp, ha, hb, hdone]

end

/-- Settles O8, by the three outcomes of UWAIT that it names. -/
theorem quillUwait : Obligations.QuillUwait := by
  intro s e f t g n h hsp
  refine ⟨fun st v ht hn htag hread hres => ⟨_, rfl, ?_⟩, fun ht hn htag hread hres => ⟨_, rfl, ?_⟩,
    fun ht ha hb hdone => ⟨_, rfl, ?_⟩⟩
  · rw [State.doUwait_answered hsp ht hn htag hread hres]
    exact h.seqEnd (OnlyEngine.set s e _)
  · rw [State.doUwait_unanswered hsp ht hn htag hread hres]
    exact h.waits (OnlyEngine.same s e)
  · rw [State.doUwait_all hsp ht ha hb hdone]
    exact h.writes _ _

end Sys2Proof.Machine

/-! SUPPORT. Tagged instructions at issue (R42, R80, R81, R272, R283): the lowest free tag is held, and a probe's posts are used. -/

namespace Sys2Proof.Machine

/-! ### The posts that a probe uses (R42) -/

/-- A session uses one post. -/
def State.usePost (s : State) (k p : Nat) : State :=
  if (s.post p).users.contains k then s else s.setPost p { s.post p with users := (s.post p).users ++ [k] }

theorem State.usePosts_eq_foldl (s : State) (k : Nat) (ps : List Nat) : s.usePosts k ps = ps.foldl (fun t p => t.usePost k p) s := rfl

theorem State.usePost_setEngine (s : State) (e : Nat) (h : Engine) (k p : Nat) :
    (s.setEngine e h).usePost k p = (s.usePost k p).setEngine e h := by
  unfold State.usePost
  rw [apply_ite (fun r : State => r.setEngine e h)]
  rfl

theorem State.addresses_setEngine (s : State) (e : Nat) (h : Engine) (who : Option Nat) (u : Uno) :
    (s.setEngine e h).addresses who u = (s.addresses who u).setEngine e h := by
  unfold State.addresses
  rw [State.setEngine_pkg]
  split
  · rw [State.usePosts_eq_foldl, State.usePosts_eq_foldl]
    exact List.foldl_hom (fun r : State => r.setEngine e h) fun t p => t.usePost_setEngine e h _ p
  · rfl

/-- The posts of these units are used by an engine's owner. -/
def State.probed (s : State) (who : Option Nat) (us : List Uno) : State := us.foldl (fun r u => r.addresses who u) s

theorem State.probed_setEngine (s : State) (e : Nat) (h : Engine) (who : Option Nat) (us : List Uno) :
    (s.setEngine e h).probed who us = (s.probed who us).setEngine e h :=
  List.foldl_hom (fun r : State => r.setEngine e h) fun t u => t.addresses_setEngine e h who u

/-! ### Issue (R81, R283) -/

/-- The units that an operation addresses at issue. -/
def Tag.addressed (t : Tag) : List Uno := if t.op.isProbe then t.unit :: t.units else []

/-- The engine that holds tag `n` for an operation issued at a time. -/
def Engine.holding (g : Engine) (n : Nat) (t : Tag) (now : Time) : Engine := { g with
  tagSeq := g.tagSeq + 1
  tags := Tbl.set none g.tags n (some { t with seq := g.tagSeq, issued := now }) }

/-- The engine as the instruction issues: a read-type operation writes its tag to q[d]. -/
def Engine.issued (g : Engine) (d n : Nat) (t : Tag) (now : Time) : Engine :=
  if t.op.readType then (g.holding n t now).setQ d (Machine.word n) else g.holding n t now

section
variable {s : State} {e op n : Nat} {f : BitVec 24} {t : Tag} {checks : List (Bool × Nat)}

theorem State.issueTag_eq (hn : (s.engine e).freeTag = some n) (d : Nat) :
    s.issueTag e d t =
      (s.probed (s.engine e).owner t.addressed).setEngine e ((s.engine e).issued d n t s.pkg.meridian) := by
  rw [← State.probed_setEngine]
  unfold State.issueTag Tag.addressed Engine.issued
  simp only [hn]
  cases t.op.isProbe <;> rfl

/-- A tagged instruction that passes its checks, on a ready engine with a free tag. -/
theorem QuillReady.issues (h : QuillReady s e op f) (d : Did) (hn : (s.engine e).freeTag = some n) (hd : d = s.tagged e f checks t)
    (hc : ∀ x ∈ checks, x.1 = true) :
    OnlyEngine (s.probed (s.engine e).owner t.addressed) (s.executeQ e op f d) e
      ((((s.engine e).issued (fd f) n t s.pkg.meridian).charge 1).advance (s.engine e)) := by
  obtain ⟨hrun, hfetch, hbudget, hlast⟩ := h
  have hall : ∀ x ∈ checks ++ [((s.engine e).freeTag.isSome, Cause.tagExhausted)], x.1 = true := by
    simpa [or_imp, forall_and, hn] using hc
  rw [hd, State.tagged, checked_all hall, State.issueTag_eq hn, State.executeQ_run _ hrun hfetch,
    State.perform_seq _ _ hbudget hlast hrun, State.setEngine_self]
  exact (OnlyEngine.set _ e _).again _

/-! ### The checks of each instruction hold -/

theorem State.probeChecks_all {write : Bool} (ht : ft f = 0) (hsp : spLegal f = true) (hx : ((s.engine e).q (fb f)).toNat % spWidth f = 0)
    (hu : ((s.engine e).q (fa f)).toNat < 2 ^ 24)
    (hreach : s.unitReach ((s.engine e).q (fa f)).toNat (spSpace f) ((s.engine e).q (fb f)).toNat (spWidth f) write = true)
    (hmay : s.mayReach (s.engine e).owner ((s.engine e).q (fa f)).toNat (spSpace f) ((s.engine e).q (fb f)).toNat write = true) :
    ∀ x ∈ s.probeChecks e f write, x.1 = true := by
  simpa [State.probeChecks, ht, hsp, hx, hreach, hmay, unoFits] using hu

theorem State.recordChecks_all {k : Nat} (h : ft f = 0 ∧ fsp f = 0 ∧ ((s.engine e).q (fb f)).toNat % 8 = 0 ∧
      ((s.engine e).q (fb f)).toNat + k ≤ (s.engine e).dataBytes) :
    ∀ x ∈ s.recordChecks e f k, x.1 = true := by
  simp [State.recordChecks, h, Engine.inData]

theorem State.netTargets_eq {write : Bool} (hu : ((s.engine e).q (fa f)).toNat < 2 ^ 24) :
    s.netTargets e f write =
      s.netUnits ((s.engine e).q (fa f)).toNat (spSpace f) ((s.engine e).q (fb f)).toNat (spWidth f) write :=
  if_pos (decide_eq_true hu)

theorem State.netChecks_all {write : Bool} (hsp : spLegal f = true) (hx : ((s.engine e).q (fb f)).toNat % spWidth f = 0)
    (hsome : s.netTargets e f write ≠ [])
    (hmay : ∀ y ∈ s.netTargets e f write, s.mayReach (s.engine e).owner y (spSpace f) ((s.engine e).q (fb f)).toNat write = true)
    (hctx : ∀ k ∈ s.ctxsIn ((s.engine e).q (fa f)).toNat, s.mayProbe (s.engine e).owner k (spSpace f) write = true) :
    ∀ x ∈ s.netChecks e f write, x.1 = true := by
  simpa [State.netChecks, hsp, hx, hsome] using ⟨hmay, hctx⟩

end

/-- Checks of one kind before those of another. -/
theorem all_append {xs ys : List (Bool × Nat)} (hx : ∀ x ∈ xs, x.1 = true) (hy : ∀ y ∈ ys, y.1 = true) : ∀ z ∈ xs ++ ys, z.1 = true :=
  fun z hz => (List.mem_append.mp hz).elim (hx z) (hy z)

/-- Settles O7: each instruction's checks hold, and what then issues is one lemma's. -/
theorem quillTaggedInstructionsIssue : Obligations.QuillTaggedInstructionsIssue := by
  intro s e f n g u x held probed reads writes probe net units low record groupLen planLen hn
  have huno (hu : u < 2 ^ 24) : unoFits (g.q (fa f)) = true := decide_eq_true hu
  refine ⟨fun h ht hp => ⟨_, rfl, ?_⟩, fun h ht hp => ⟨_, rfl, ?_⟩, fun h hrec hu => ⟨_, rfl, ?_⟩, fun h ht hsp hu => ⟨_, rfl, ?_⟩,
    fun h hrec hg hu => ⟨_, rfl, ?_⟩, fun h hrec hplan hu => ⟨_, rfl, ?_⟩, fun h ht hsp hu => ⟨_, rfl, ?_⟩,
    fun h ht hp => ⟨_, rfl, ?_⟩, fun h ht hp => ⟨_, rfl, ?_⟩, fun h hrec hu => ⟨_, rfl, ?_⟩⟩
  · obtain ⟨hsp, hx, hu, hreach, hmay⟩ := hp
    exact h.issues (s.doUread e f) hn rfl (State.probeChecks_all ht hsp hx hu hreach hmay)
  · obtain ⟨hsp, hx, hu, hreach, hmay⟩ := hp
    exact h.issues (s.doUwrite e f) hn rfl (State.probeChecks_all ht hsp hx hu hreach hmay)
  · exact h.issues (s.doUdesc e f) hn rfl (all_append (State.recordChecks_all hrec) (by simpa using huno hu))
  · exact h.issues (s.doUchild e f) hn rfl (by simpa [ht, hsp] using huno hu)
  · exact h.issues (s.doUgroup e f) hn rfl (all_append (State.recordChecks_all hrec) (by simpa [Engine.inData] using ⟨hg, huno hu⟩))
  · exact h.issues (s.doFbegin e f) hn rfl (all_append (State.recordChecks_all hrec)
      (by simpa [Engine.inData, Engine.slotFits] using ⟨hplan, hu⟩))
  · exact h.issues (s.doFseg e f) hn rfl (by simpa [ht, hsp, Engine.slotFits] using hu)
  · obtain ⟨hsp, hx, hu, hsome, hmay, hctx⟩ := hp
    rw [show units false = s.netTargets e f false from (State.netTargets_eq hu).symm]
    rw [← State.netTargets_eq hu] at hsome hmay
    exact h.issues (s.doReduce e f) hn rfl (List.forall_mem_cons.mpr ⟨decide_eq_true ht, State.netChecks_all hsp hx hsome hmay hctx⟩)
  · obtain ⟨hsp, hx, hu, hsome, hmay, hctx⟩ := hp
    rw [show units true = s.netTargets e f true from (State.netTargets_eq hu).symm]
    rw [← State.netTargets_eq hu] at hsome hmay
    exact h.issues (s.doMcast e f) hn rfl (List.forall_mem_cons.mpr ⟨by simp [ht], State.netChecks_all hsp hx hsome hmay hctx⟩)
  · exact h.issues (s.doCart e f) hn rfl (all_append (State.recordChecks_all hrec) (by simpa using hu))

end Sys2Proof.Machine

/-! SUPPORT. Faults (R76, R77, R86, R277): what a faulting word leaves of its engine, whatever its report sets pending. -/

namespace Sys2Proof.Machine

/-! ### A report and an engine -/

/-- The engine with these events pending too. -/
def Engine.pend (g : Engine) (v : BitVec 16) : Engine := { g with events := g.events ||| v }

@[simp] theorem Engine.pend_zero (g : Engine) : g.pend 0#16 = g := by
  rw [Engine.pend, BitVec.or_zero]

theorem State.engineEvent_engine (s : State) (e bit k : Nat) : ∃ v, (s.engineEvent e bit).engine k = (s.engine k).pend v := by
  by_cases hk : k = e
  · subst hk
    exact ⟨_, State.setEngine_self ..⟩
  · exact ⟨0#16, (State.setEngine_ne _ _ _ _ hk).trans (Engine.pend_zero _).symm⟩

theorem State.cartEngine_engine (s : State) (u : Uno) (k : Nat) : ∃ v, (s.cartEngine u).engine k = (s.engine k).pend v := by
  unfold State.cartEngine
  split
  · exact State.engineEvent_engine ..
  · exact ⟨0#16, (Engine.pend_zero _).symm⟩

/-- A report leaves every engine as it was, but for events that it may set (Table QE-5). -/
theorem State.report_engine (s : State) (u : Uno) (cls code : Nat) (d : List Byte) (c : Ctx) (k : Nat) :
    ∃ v, (s.report u cls code d c).engine k = (s.engine k).pend v := by
  have lone (p : Nat) (r : Rec) : ((s.cartEngine u).loneWrite p r).engine k = (s.cartEngine u).engine k := by
    rw [State.loneWrite_eq]
    rfl
  have take (j : Nat) (r : Rec) : ((s.cartEngine u).pointTake j r).engine k = (s.cartEngine u).engine k := by
    rw [State.pointTake_eq]
    rfl
  unfold State.report
  split
  · exact ⟨0#16, (Engine.pend_zero _).symm⟩
  · dsimp only
    (repeat' split) <;> simp only [lone, take] <;> exact State.cartEngine_engine s u k

/-! ### A fault (R86) -/

theorem State.dropEngineJobs_noJobs {s : State} (h : s.folios.jobs = []) (e : Nat) (forget : Bool) : s.dropEngineJobs e forget = s := by
  simp [State.dropEngineJobs, h, Tbl.keysSome]

/-- The engine as it faults, its report aside. -/
def Engine.faultedBy (g : Engine) (c : Nat) (now : Time) : Engine :=
  { g.land.unwait with state := .faulted, cause := c, fpc := g.pc, faultT := now }

section
variable {s t : State} {e c : Nat} {i : Instr}

theorem State.faultEngine_engine (hj : s.folios.jobs = []) (e c : Nat) :
    ∃ v, (s.faultEngine e c).engine e = ((s.engine e).faultedBy c s.pkg.meridian).pend v := by
  unfold State.faultEngine
  rw [State.dropEngineJobs_noJobs (by rw [State.report_eq]; exact hj)]
  obtain ⟨v, hv⟩ := State.report_engine (s.setEngine e ((s.engine e).faultedBy c s.pkg.meridian)) _ Class.seqFault c
    (leBytes 1 (if e = 128 then 0x80 else e) ++ leBytes 4 (s.engine e).progId ++ leBytes 2 (s.engine e).pc ++ leBytes 1 c)
    (s.engine e).ctxid e
  exact ⟨v, hv.trans (by rw [State.setEngine_self])⟩

/-- A state whose engine stands as faulted after one charged cycle is a fault's. -/
theorem faulted_of_engine {v : BitVec 16} (hx : exec i s = .next t)
    (ht : t.engine e = (((s.engine e).charge 1).faultedBy c s.pkg.meridian).pend v) :
    Claims.Faulted s e i c := by
  have habsorb : (s.engine e).events &&& ((s.engine e).events ||| v) = (s.engine e).events := by
    ext j
    simpa using Or.inl
  refine ⟨t, hx, ?_⟩
  simp only [ht]
  simp [Engine.faultedBy, Engine.pend, Engine.unwait, habsorb]

/-- A fault in an engine's first cycle. -/
theorem faulted_of_faultAfter (hj : s.folios.jobs = []) (hx : exec i s = .next (s.faultAfter e 1 c)) : Claims.Faulted s e i c := by
  obtain ⟨v, hv⟩ := State.faultEngine_engine (s := s.setEngine e ((s.engine e).charge 1)) hj e c
  rw [State.setEngine_self] at hv
  exact faulted_of_engine hx hv

/-- A fault for want of budget: nothing is left to charge. -/
theorem faulted_of_broke (hj : s.folios.jobs = []) (hb : (s.engine e).broke 1 = true) (hx : exec i s = .next (s.faultEngine e c)) :
    Claims.Faulted s e i c := by
  obtain ⟨v, hv⟩ := State.faultEngine_engine hj e c
  rw [← Engine.charge_of_broke hb] at hv
  exact faulted_of_engine hx hv

end

/-! ### The words that fault -/

section
variable {s : State} {e c : Nat}

theorem State.perform_broke (b : Bool) (d : Did) (hb : (s.engine e).broke 1 = true) : s.perform e b d = s.faultEngine e Cause.deadline := by
  simp [State.perform, hb]

theorem State.perform_last (d : Did) (hb : (s.engine e).broke 1 = false) (hl : (s.engine e).codeWords ≤ (s.engine e).pc + 1) :
    s.perform e true d = s.faultAfter e 1 Cause.pmemBound := by
  simp [State.perform, hb, hl]

theorem State.perform_fault {b : Bool} (hr : (s.engine e).state = .running) (hb : (s.engine e).broke 1 = false)
    (hl : b = true → (s.engine e).pc + 1 < (s.engine e).codeWords) : s.perform e b (.fault c) = s.faultAfter e 1 c := by
  have hseq : (b && decide ((s.engine e).codeWords ≤ (s.engine e).pc + 1)) = false := by
    cases b
    · rfl
    · simpa using hl rfl
  simp [State.perform, hb, hseq, hr]

end

/-- A word of an undefined opcode does not go on in sequence. -/
theorem Engine.inSequence_undefined (g : Engine) {op : Nat} (f : BitVec 24) (h : opDefined op = false) : g.inSequence op f = false := by
  unfold Engine.inSequence
  split
  case h_13 => exact h
  all_goals exact absurd h (by decide)

/-- The register operations of Table QR-6 execute in one form. -/
theorem exec_registerOps : ∀ x ∈ Claims.binaryOps ++ Claims.compareOps, ∀ (e : Nat) (f : BitVec 24) (s : State),
    ∃ op, exec (x.1 e f) s = .next (s.executeQ e x.2.1 f (s.binary e f op)) := by
  simp only [Claims.binaryOps, Claims.compareOps, List.cons_append, List.nil_append, List.forall_mem_cons, List.not_mem_nil,
    false_implies, implies_true, and_true]
  and_intros <;> exact fun _ _ _ => ⟨_, rfl⟩

theorem inSequence_registerOps : ∀ x ∈ Claims.binaryOps ++ Claims.compareOps, ∀ (g : Engine) (f : BitVec 24),
    g.inSequence x.2.1 f = true := by
  simp only [Claims.binaryOps, Claims.compareOps, List.cons_append, List.nil_append, List.forall_mem_cons, List.not_mem_nil,
    false_implies, implies_true, and_true]
  and_intros <;> exact fun _ _ => rfl

/-- Settles O12: each cause by the branch of `State.perform` that raises it, and one lemma for what a fault leaves. -/
theorem quillFaults : Obligations.QuillFaults := by
  intro s e f w g faults hj
  refine ⟨fun hr hfetch hb hundef => ?_, fun x hx hready hlow => ?_,
    fun x hx hr hfetch => ⟨fun hb => ?_, fun hb hl => ?_⟩, fun hstate hb => ?_⟩
  · have hop : bitsOf w.toNat 24 8 = w.toNat / 2 ^ 24 := Nat.mod_eq_of_lt (Nat.div_lt_of_lt_mul w.isLt)
    rw [← hop] at hundef
    refine faulted_of_faultAfter hj ((exec_undefinedOpcode s hundef).trans (congrArg _ ?_))
    rw [State.executeQ_run _ hr (hfetch.trans (wordOf_parts w).symm), Engine.inSequence_undefined _ _ hundef]
    exact State.perform_fault hr hb nofun
  · obtain ⟨op, hop⟩ := exec_registerOps x hx e f s
    obtain ⟨hr, hfetch, hb, hl⟩ := hready
    have hrsvd : s.binary e f op = .fault Cause.rsvd := by
      rw [State.binary, beq_false_of_ne hlow]
      rfl
    refine faulted_of_faultAfter hj (hop.trans (congrArg _ ?_))
    rw [State.executeQ_run _ hr hfetch, hrsvd]
    exact State.perform_fault hr hb fun _ => hl
  · obtain ⟨op, hop⟩ := exec_registerOps x hx e f s
    refine faulted_of_broke hj hb (hop.trans (congrArg _ ?_))
    rw [State.executeQ_run _ hr hfetch]
    exact State.perform_broke _ _ hb
  · obtain ⟨op, hop⟩ := exec_registerOps x hx e f s
    refine faulted_of_faultAfter hj (hop.trans (congrArg _ ?_))
    rw [State.executeQ_run _ hr hfetch, inSequence_registerOps x hx]
    exact State.perform_last _ hb hl.le
  · refine faulted_of_broke hj hb ?_
    have hcond : ((g.state == .running || g.state == .waiting) && g.broke 1) = true := by simpa [hb] using hstate
    exact congrArg _ (if_pos hcond)

end Sys2Proof.Machine

/-! SUPPORT. The engine's own events (R81 to R84): the end of a wait, and a tag as its probe is served, answered or given up. -/

namespace Sys2Proof.Machine

/-! ### The end of a wait (R84, R279) -/

section
variable {s : State} {e : Nat} {f : BitVec 24}

/-- The word in the fetch window is executed by its opcode and its other bits. -/
theorem State.fetched_wordOf {op : Nat} (hop : op < 256) (h : (s.engine e).fetch = wordOf op f) : s.fetched e = s.doWord e op f := by
  change s.doWord e (bitsOf (s.engine e).fetch.toNat 24 8) ((s.engine e).fetch.setWidth 24) = _
  rw [bitsOf_opcode, h]
  exact congrArg₂ (s.doWord e) (quillWordOf_opcode hop f) (quillWordOf_fields op f)

/-- The enabled pending events that WAITEV's mask names. -/
def Engine.awaited (g : Engine) (f : BitVec 24) : BitVec 16 := g.events &&& g.evmask &&& BitVec.ofNat 16 (fimm f)

theorem State.doWaitev_come (ha : fa f = 0) (hm : fimm f < 4096) (hr : (s.engine e).awaited f ≠ 0) :
    s.doWaitev e f = .seq (s.takeEvents e (fd f) ((s.engine e).awaited f)) 1 := by
  have hmask : fimm f ≠ 0 := fun h => hr (by simp [Engine.awaited, h])
  have hhigh : bitsOf (fimm f) 12 4 = 0 := by simp [bitsOf, Nat.div_eq_of_lt hm]
  unfold State.doWaitev
  rw [checked_all (by simp [ha, hhigh, hmask])]
  exact if_neg hr

/-- A wait that ends with its word complete: its cycle was charged as the wait began. -/
theorem OnlyEngine.endWait {s1 : State} {g : Engine} (hw : (s.engine e).state = .waiting) (hb : (s.engine e).broke 1 = false)
    (hl : (s.engine e).pc + 1 < (s.engine e).codeWords) (hd : s.fetched e = .seq s1 1) (o : OnlyEngine s s1 e g) :
    OnlyEngine s (s.endWait e) e (g.advance (s.engine e)) := by
  have hend : s.endWait e = s1.setEngine e ((s1.engine e).advance (s.engine e)) := by
    simp [State.endWait, hw, hd, State.perform, hb, Nat.not_le.mpr hl]
  rw [hend, o.here]
  exact o.again _

/-- The engine with these events taken into a register. -/
def Engine.tookEvents (g : Engine) (d : Nat) (r : BitVec 16) : Engine :=
  { g with events := g.events &&& ~~~r }.setQ d (r.setWidth 64)

theorem OnlyEngine.takeEvents (s : State) (e d : Nat) (r : BitVec 16) :
    OnlyEngine s (s.takeEvents e d r) e ((s.engine e).tookEvents d r) :=
  OnlyEngine.set s e _

/-- An engine that goes on after a wait runs the word fetched before it. -/
theorem Engine.advance_waiting {old : Engine} (h : old.state = .waiting) (g : Engine) :
    (g.advance old).fetch = g.next ∧ (g.advance old).state = .running :=
  ⟨if_pos h, rfl⟩

@[simp] theorem Engine.setQ_next (g : Engine) (i : Nat) (v : Word) : (g.setQ i v).next = g.next := by
  unfold Engine.setQ
  split <;> rfl

end

/-! ### Tags that complete (R81, R82) -/

theorem OnlyEngine.event {s t : State} {e : Nat} {g : Engine} (o : OnlyEngine s t e g) (bit : Nat) :
    OnlyEngine s (t.engineEvent e bit) e (g.pend (BitVec.ofNat 16 (2 ^ bit))) :=
  o.here ▸ o.again ((t.engine e).pend (BitVec.ofNat 16 (2 ^ bit)))

section
variable {s : State} {e tag : Nat} {t : Tag}

theorem State.completeTag_uread (hop : t.op = .uread) (st : Nat) (v : Word) :
    s.completeTag e tag t st v = (s.setEngine e ((s.engine e).setTag tag (some { t with
      answer := some (st, v), result := some (st, v) }))).engineEvent e 0 := by
  unfold State.completeTag
  rw [show t.answerBytes = none by simp [Tag.answerBytes, hop], hop]
  rfl

theorem State.completeTag_uwrite {d : Word} (hop : t.op = .uwrite d) (st : Nat) (v : Word) :
    s.completeTag e tag t st v = (s.setEngine e { (s.engine e).setTag tag none with
      wfail := (s.engine e).wfail || decide (st ≠ 0) }).engineEvent e 0 := by
  unfold State.completeTag
  rw [show t.answerBytes = none by simp [Tag.answerBytes, hop], hop]
  rfl

/-- A read's tag is filled, and event PROBE is set. -/
theorem OnlyEngine.completeTag_uread (hop : t.op = .uread) (st : Nat) (v : Word) :
    OnlyEngine s (s.completeTag e tag t st v) e
      (((s.engine e).setTag tag (some { t with answer := some (st, v), result := some (st, v) })).pend 1) := by
  rw [State.completeTag_uread hop]
  exact (OnlyEngine.set s e _).event 0

/-- A write's tag is freed, and event PROBE is set. -/
theorem OnlyEngine.completeTag_uwrite {d : Word} (hop : t.op = .uwrite d) (st : Nat) (v : Word) :
    OnlyEngine s (s.completeTag e tag t st v) e
      ({ (s.engine e).setTag tag none with wfail := (s.engine e).wfail || decide (st ≠ 0) }.pend 1) := by
  rw [State.completeTag_uwrite hop]
  exact (OnlyEngine.set s e _).event 0

theorem execProbeResponse_answered {a : Nat × Word} (ht : (s.engine e).tag tag = some t) (ha : t.answer = some a)
    (hr : t.result = none) (hw : s.tagAwaits e t = false) :
    execProbeResponse e tag s = .next (s.completeTag e tag t a.1 a.2) := by
  simp [execProbeResponse, ht, ha, hr, hw]

theorem execProbeTimeout_early (ht : (s.engine e).tag tag = some t) (hnow : s.now < t.issued.toNat + 8000) :
    execProbeTimeout e tag s = .next s := by
  simp [execProbeTimeout, ht, hnow]

theorem execProbeTimeout_uread (ht : (s.engine e).tag tag = some t) (hop : t.op = .uread) (hr : t.result = none)
    (hnow : t.issued.toNat + 8000 ≤ s.now) (hw : s.tagAwaits e t = false) :
    execProbeTimeout e tag s = .next (s.completeTag e tag t 1 0) := by
  simp [execProbeTimeout, ht, hop, hr, hw, TagOp.bounded, TagOp.readType, Nat.not_lt.mpr hnow]

/-- A UCHILD is served with the child that it asks for, and changes no unit. -/
theorem execProbeRequestServed_uchild {n : Nat} (ht : (s.engine e).tag tag = some t) (hop : t.op = .uchild n) (ha : t.answer = none)
    (hb : s.tagBlocked e t = false) (answers : List (Uno × Word)) :
    execProbeRequestServed e tag answers s = .next (s.setEngine e ((s.engine e).setTag tag
      (some { t with answer := some (0, s.childWord t.unit n), begun := false, bytes := [] }))) := by
  simp [execProbeRequestServed, ht, ha, hb, State.serve, State.servedBytes, hop]

end

/-- Settles O13: each event by the equation of its command, and what a tag that completes leaves of its engine. -/
theorem quillWaitsAndProbes : Obligations.QuillWaitsAndProbes := by
  intro s e tag f t answers g r
  refine ⟨fun hw hfetch hb hl ha hm hr => ?_, fun ht a v hop hans hres hwait => ?_, fun ht a v d hop hans hres hwait => ?_,
    fun ht hnow => execProbeTimeout_early ht hnow, fun ht hop hres hnow hwait => ?_, fun n ht hop hans hblocked => ?_⟩
  · have hstep := OnlyEngine.endWait hw hb hl ((State.fetched_wordOf (by decide) hfetch).trans (State.doWaitev_come ha hm hr))
      (OnlyEngine.takeEvents s e (fd f) r)
    obtain ⟨hnext, hstate⟩ := Engine.advance_waiting hw (g.tookEvents (fd f) r)
    exact ⟨_, rfl, hstep, by rw [hstep.here, hnext, Engine.tookEvents, Engine.setQ_next], by rw [hstep.here, hstate]⟩
  · have hsame : { t with answer := some (a, v), result := some (a, v) } = { t with result := some (a, v) } := by rw [← hans]
    exact ⟨_, execProbeResponse_answered ht hans hres hwait, hsame ▸ OnlyEngine.completeTag_uread hop a v⟩
  · exact ⟨_, execProbeResponse_answered ht hans hres hwait, OnlyEngine.completeTag_uwrite hop a v⟩
  · exact ⟨_, execProbeTimeout_uread ht hop hres hnow hwait, OnlyEngine.completeTag_uread hop 1 0⟩
  · exact ⟨_, execProbeRequestServed_uchild ht hop hans hblocked answers, OnlyEngine.set s e _⟩

end Sys2Proof.Machine

/-! SUPPORT. QL_CTRL (R70 to R72, R85, R89 to R91): a write by the session that may give its command, and what each command makes of the
engine. -/

namespace Sys2Proof.Machine

/-! ### A write of one command -/

/-- The number of command bits set (Table QE-9). -/
def commandBits (bits : Nat) : Nat := ((rangeFrom 0 7).filter (fun i => bitAt (bits % 128) i)).length

/-- No command bit: nothing is done. -/
theorem State.ownerCommand_none (s : State) (e : Nat) : s.ownerCommand e 0 = s := rfl

section
variable {s : State} {p : Path} {e slot : Nat} (hengine : s.hasEngine e = true) (hanswers : s.engineAnswers e = true)
  (hbar : s.barGone p = false) (hactor : s.actor p = some slot)
include hengine hanswers hbar hactor

/-- The owner's write of at most one command, without KICK. -/
theorem State.qlCtrl_owned (howner : (s.engine e).owner = some slot) {bits : Nat} (hkick : bitAt bits 7 = false)
    (hone : commandBits bits ≤ 1) : s.qlCtrl p e bits = s.ownerCommand e (bits % 128) := by
  have hseveral : ¬1 < commandBits bits := Nat.not_lt.mpr hone
  unfold commandBits at hseveral
  simp [State.qlCtrl, hengine, hanswers, hbar, hactor, State.ownsEngine, howner, hkick, hseveral]

/-- KICK alone, by the owner. -/
theorem State.qlCtrl_kick (howner : (s.engine e).owner = some slot) : s.qlCtrl p e 128 = s.engineEvent e 7 := by
  have hkick : bitAt 128 7 = true := by decide
  have hseveral : ¬1 < commandBits 128 := by decide
  unfold commandBits at hseveral
  simp [State.qlCtrl, hengine, hanswers, hbar, hactor, State.ownsEngine, howner, hkick, hseveral, State.ownerCommand_none]

/-- TAKE of an idle resident engine, by a session at FULL on context 0 (R70). -/
theorem State.qlCtrl_take (hfree : (s.engine e).owner = none) (hres : (s.engine e).state = .resident) (hidle : s.residentIdle e = true)
    (hlevel : s.levelOn (some slot) 0 = 2) : s.qlCtrl p e 1 = s.setEngine e ((s.engine e).takenBy slot) := by
  have hkick : bitAt 1 7 = false := by decide
  have hseveral : ¬1 < commandBits 1 := by decide
  unfold commandBits at hseveral
  simp [State.qlCtrl, hengine, hanswers, hbar, hactor, State.ownsEngine, hfree, hkick, hseveral, State.freeCommand, State.takeChecks,
    hres, hidle, hlevel]

end

/-! ### Engines that go on, start and stand still -/

@[simp] theorem Engine.goto_regs (g : Engine) (w : Nat) : (g.goto w).regs = g.regs := Engine.land_regs g
@[simp] theorem Engine.goto_tags (g : Engine) (w : Nat) : (g.goto w).tags = g.tags := Engine.land_tags g
@[simp] theorem Engine.goto_stack (g : Engine) (w : Nat) : (g.goto w).stack = g.stack := Engine.land_stack g
@[simp] theorem Engine.goto_events (g : Engine) (w : Nat) : (g.goto w).events = g.events := Engine.land_events g
@[simp] theorem Engine.goto_force (g : Engine) (w : Nat) : (g.goto w).force = g.force := Engine.land_force g
@[simp] theorem Engine.goto_budget (g : Engine) (w : Nat) : (g.goto w).budget = g.budget := Engine.land_budget g
@[simp] theorem Engine.goto_fetch (g : Engine) (w : Nat) : (g.goto w).fetch = g.land.word w := rfl
@[simp] theorem Engine.advance_regs (g old : Engine) : (g.advance old).regs = g.regs := Engine.land_regs g
@[simp] theorem Engine.advance_pc (g old : Engine) : (g.advance old).pc = old.pc + 1 := rfl
@[simp] theorem Engine.halt_regs (g : Engine) (r : Nat) : (g.halt r).regs = g.regs := Engine.land_regs g
@[simp] theorem Engine.halt_pc (g : Engine) (r : Nat) : (g.halt r).pc = g.pc := Engine.land_pc g

/-- What the budget carries rests on the header in force and the budget. -/
theorem Engine.broke_congr {g h : Engine} (hf : h.force = g.force) (hb : h.budget = g.budget) (n : Nat) : h.broke n = g.broke n := by
  simp [Engine.broke, Engine.timed, Engine.hdrBudget, Engine.hdrField, hf, hb]

theorem Engine.codeWords_congr {g h : Engine} (hf : h.force = g.force) : h.codeWords = g.codeWords := by
  simp [Engine.codeWords, Engine.hdrField, hf]

/-- What START clears, before the engine goes to ENTRY (R90). -/
structure Engine.Started (g h : Engine) : Prop where
  state  : h.state = .running
  pc     : h.pc = g.entry
  fetch  : h.fetch = g.land.word g.entry
  regs   : h.regs = []
  tags   : h.tags = []
  stack  : h.stack = []
  events : h.events = 0

theorem Engine.Started.status {g h : Engine} (a : g.Started h) (st : Nat) : g.Started { h with cmdStatus := st } :=
  ⟨a.state, a.pc, a.fetch, a.regs, a.tags, a.stack, a.events⟩

theorem Engine.started_started (g : Engine) : g.Started g.started := by
  have hentry : g.land.entry = g.entry := by simp [Engine.entry, Engine.hdrField]
  unfold Engine.started
  dsimp only
  constructor
  · rfl
  · exact hentry
  · rw [Engine.goto_fetch, Engine.land_of_pst]
    · exact congrArg (Tbl.get 0 g.land.pmem) hentry
    · exact Engine.land_pst g
  all_goals simp

/-! ### What each command makes of the engine (Table QE-8) -/

/-- CMD_STATUS written after what a command did to its engine. -/
theorem OnlyEngine.status {s t : State} {e : Nat} {g : Engine} (o : OnlyEngine s t e g) (st : Nat) :
    OnlyEngine s (t.qlStatus e st) e { g with cmdStatus := st } :=
  o.here ▸ o.again { t.engine e with cmdStatus := st }

section
variable {s : State} {e : Nat}

/-- The engine with the image that its header words declare in force (R89). -/
def Engine.withImage (g : Engine) : Engine := { g with state := .loaded, loaded := true, force := g.hdr, dirty := false }

theorem State.loadImage_passes (h : firstFail (s.qlImageChecks e) = none) :
    s.loadImage e = (s.setEngine e (s.engine e).withImage, Status.ok) := by
  simp [State.loadImage, h, Engine.withImage]

theorem OnlyEngine.ownerCommand_load (hload : (s.engine e).loadable = true) (h : firstFail (s.qlImageChecks e) = none) :
    OnlyEngine s (s.ownerCommand e 2) e { (s.engine e).withImage with cmdStatus := 0 } := by
  have hstill : (s.engine e).still = true := (Bool.and_eq_true_iff.mp hload).1
  have heq : s.ownerCommand e 2 = (s.setEngine e (s.engine e).withImage).qlStatus e 0 := by
    simp [State.ownerCommand, hstill, hload, State.loadImage_passes h, show qlStatusOf Status.ok = 0 by decide]
  exact heq ▸ (OnlyEngine.set s e _).status 0

theorem OnlyEngine.ownerCommand_start (hstate : (s.engine e).state = .loaded) (hloaded : (s.engine e).loaded = true)
    (hclean : (s.engine e).dirty = false) :
    OnlyEngine s (s.ownerCommand e 4) e { (s.engine e).started with cmdStatus := 0 } := by
  have heq : s.ownerCommand e 4 = (s.setEngine e (s.engine e).started).qlStatus e 0 := by
    simp [State.ownerCommand, hstate, hloaded, hclean]
  exact heq ▸ (OnlyEngine.set s e _).status 0

/-- STOP once what the cycle does has been done: the engine that still runs or waits stands still (R85). -/
theorem OnlyEngine.ownerCommand_stop {t : State} {g : Engine} (hrun : (s.engine e).state = .running ∨ (s.engine e).state = .waiting)
    (hstop : s.stopEngine e = t.setEngine e (g.halt 1)) (o : OnlyEngine s t e g) :
    OnlyEngine s (s.ownerCommand e 8) e { g.land.unwait with state := .stopped, stopReason := 1, cmdStatus := 0 } := by
  have heq : s.ownerCommand e 8 = (t.setEngine e (g.halt 1)).qlStatus e 0 := by
    simp [State.ownerCommand, hrun, hstop, Engine.halt]
  exact heq ▸ (o.again _).status 0

/-- An engine that is about to execute NOP. -/
theorem State.fetched_nop (h : (s.engine e).fetch = 0) : s.fetched e = .seq s 1 :=
  State.fetched_wordOf (op := 0) (f := 0) (by decide) (h.trans (by decide))

/-- STOP of an engine that is about to execute NOP: the NOP completes first (assumption 150). -/
theorem State.stopEngine_nop (hr : (s.engine e).state = .running) (hfetch : (s.engine e).fetch = 0) (hb : (s.engine e).broke 1 = false)
    (hl : (s.engine e).pc + 1 < (s.engine e).codeWords) :
    s.stopEngine e = (s.setEngine e (((s.engine e).charge 1).advance (s.engine e))).setEngine e
      ((((s.engine e).charge 1).advance (s.engine e)).halt 1) := by
  simp [State.stopEngine, hr, State.fetched_nop hfetch, State.perform_seq _ _ hb hl hr, Engine.advance]

/-- STOP of an engine that goes on waiting: the wait is abandoned (R85). -/
theorem State.stopEngine_wait (hw : (s.engine e).state = .waiting) (hwait : s.fetched e = .wait s) (hb : (s.engine e).broke 1 = false) :
    s.stopEngine e = s.setEngine e ((s.engine e).halt 1) := by
  simp [State.stopEngine, State.endWait, hw, hwait, State.perform, hb]

/-- The engine refetched for STEP. -/
def Engine.refetched (g : Engine) : Engine := { g.goto g.pc with stepBlocked := false }

theorem Engine.refetched_ready {g : Engine} (hfetch : g.land.word g.pc = 0) (hb : g.broke 1 = false) (hl : g.pc + 1 < g.codeWords) :
    g.refetched.state = .running ∧ g.refetched.fetch = 0 ∧ g.refetched.broke 1 = false ∧ g.refetched.pc + 1 < g.refetched.codeWords := by
  have hforce : g.refetched.force = g.force := Engine.goto_force g g.pc
  refine ⟨rfl, hfetch, ?_, ?_⟩
  · rw [Engine.broke_congr hforce (Engine.goto_budget g g.pc), hb]
  · rw [Engine.codeWords_congr hforce]
    exact hl

/-- The engine after STEP over a NOP. -/
def Engine.stepped (g : Engine) : Engine := ((g.refetched.charge 1).advance g.refetched).halt 2

/-- A stepped engine stands at the next word with the registers that it had (Table QE-8, Table QE-10). -/
structure Engine.Stepped (g h : Engine) : Prop where
  state  : h.state = .stopped
  reason : h.stopReason = 2
  pc     : h.pc = g.pc + 1
  regs   : h.regs = g.regs

theorem Engine.Stepped.status {g h : Engine} (a : g.Stepped h) (st : Nat) : g.Stepped { h with cmdStatus := st } :=
  ⟨a.state, a.reason, a.pc, a.regs⟩

theorem Engine.stepped_stepped (g : Engine) : g.Stepped g.stepped where
  state := rfl
  reason := rfl
  pc := Engine.halt_pc _ 2
  regs := by simp [Engine.stepped, Engine.refetched]

/-- STEP over a NOP executes it and stands still at the next word (Table QE-8). -/
theorem State.stepEngine_nop (hfetch : (s.engine e).land.word (s.engine e).pc = 0) (hb : (s.engine e).broke 1 = false)
    (hl : (s.engine e).pc + 1 < (s.engine e).codeWords) :
    s.stepEngine e = ((s.setEngine e (s.engine e).refetched).setEngine e
      (((s.engine e).refetched.charge 1).advance (s.engine e).refetched)).setEngine e (s.engine e).stepped := by
  have h := Engine.refetched_ready hfetch hb hl
  rw [← State.setEngine_self s e (s.engine e).refetched] at h
  obtain ⟨hr, hnop, hb1, hl1⟩ := h
  have hseq := State.fetched_nop hnop
  unfold State.stepEngine
  dsimp only
  rw [← Engine.refetched, hseq]
  dsimp only
  rw [State.perform_seq _ _ hb1 hl1 hr]
  simp [Engine.advance, Engine.stepped]

theorem OnlyEngine.ownerCommand_continue (hstate : (s.engine e).state = .stopped) :
    OnlyEngine s (s.ownerCommand e 16) e { (s.engine e).goto (s.engine e).pc with cmdStatus := 0 } := by
  have heq : s.ownerCommand e 16 = (s.setEngine e ((s.engine e).goto (s.engine e).pc)).qlStatus e 0 := by
    simp [State.ownerCommand, hstate]
  exact heq ▸ (OnlyEngine.set s e _).status 0

theorem OnlyEngine.ownerCommand_step (hstate : (s.engine e).state = .stopped) (hfetch : (s.engine e).land.word (s.engine e).pc = 0)
    (hb : (s.engine e).broke 1 = false) (hl : (s.engine e).pc + 1 < (s.engine e).codeWords) :
    OnlyEngine s (s.ownerCommand e 32) e { (s.engine e).stepped with cmdStatus := 0 } := by
  have heq : s.ownerCommand e 32 = (s.stepEngine e).qlStatus e 0 := by simp [State.ownerCommand, hstate]
  rw [heq, State.stepEngine_nop hfetch hb hl]
  exact (((OnlyEngine.set s e _).again _).again _).status 0

/-- RELEASE, where the program leaves no job and the hub no object (R72). -/
theorem State.release_noJobs {slot : Nat} (howner : (s.engine e).owner = some slot) (hjobs : s.folios.jobs = []) (hrefs : s.host.refs = []) :
    ((s.ownerCommand e 64).engine e).state = .restoring ∧ ((s.ownerCommand e 64).engine e).owner = none ∧
      ((s.ownerCommand e 64).engine e).tags = [] := by
  have hreap (h : Engine) : (s.setEngine e h).reap = s.setEngine e h := by
    unfold State.reap
    rw [State.setEngine_host, hrefs]
    rfl
  simp [State.ownerCommand, State.returnEngine, howner, State.dropEngineJobs_noJobs hjobs, hreap, State.qlStatus]

end

/-- Settles O14: the path's write reaches one command, and each command by what it makes of its engine. -/
theorem quillControl : Obligations.QuillControl := by
  intro s p e slot g becomes owned hengine hanswers hbar hactor
  have command (bits : Nat) (howner : owned) (hkick : bitAt bits 7 = false) (hone : commandBits bits ≤ 1) :
      Host.Outcome.next (s.qlCtrl p e bits) = (.next (s.ownerCommand e (bits % 128)) : Out) :=
    congrArg _ (State.qlCtrl_owned hengine hanswers hbar hactor howner hkick hone)
  refine ⟨fun hfree hres hidle hlevel => ?_, fun ho hload himage => ?_, fun ho hstate hloaded hclean => ?_,
    fun ho hr hfetch hb hl => ?_, fun ho hw hwait hb => ?_, fun ho hstate => ?_, fun ho hstate hb hl hfetch => ?_,
    fun ho hjobs hrefs => ?_, fun ho => ?_, fun hstate => ?_⟩
  · exact ⟨_, congrArg Host.Outcome.next (State.qlCtrl_take hengine hanswers hbar hactor hfree hres hidle hlevel), OnlyEngine.set s e _⟩
  · exact ⟨_, command 2 ho (by decide) (by decide), OnlyEngine.ownerCommand_load hload himage⟩
  · obtain ⟨hrun, hpc, hfetch, hregs, htags, hstack, hevents⟩ := g.started_started.status 0
    exact ⟨_, { g.started with cmdStatus := 0 }, command 4 ho (by decide) (by decide),
      OnlyEngine.ownerCommand_start hstate hloaded hclean, hrun, hpc, hfetch, hregs, htags, hstack, hevents, rfl⟩
  · have o := OnlyEngine.ownerCommand_stop (.inl hr) (State.stopEngine_nop hr hfetch hb hl) (OnlyEngine.set s e _)
    exact ⟨_, command 8 ho (by decide) (by decide), o⟩
  · have o := OnlyEngine.ownerCommand_stop (.inr hw) (State.stopEngine_wait hw hwait hb) (OnlyEngine.same s e)
    exact ⟨_, command 8 ho (by decide) (by decide), o⟩
  · exact ⟨_, command 16 ho (by decide) (by decide), OnlyEngine.ownerCommand_continue hstate⟩
  · obtain ⟨hstopped, hreason, hpc, hregs⟩ := g.stepped_stepped.status 0
    exact ⟨_, { g.stepped with cmdStatus := 0 }, command 32 ho (by decide) (by decide),
      OnlyEngine.ownerCommand_step hstate hfetch hb hl, hstopped, hreason, hpc, hregs, rfl⟩
  · exact ⟨_, command 64 ho (by decide) (by decide), State.release_noJobs ho hjobs hrefs⟩
  · exact ⟨_, congrArg Host.Outcome.next (State.qlCtrl_kick hengine hanswers hbar hactor ho), OnlyEngine.set s e _⟩
  · exact ⟨_, congrArg Host.Outcome.next (if_pos hstate), OnlyEngine.set s e _⟩

end Sys2Proof.Machine

/-! SUPPORT. The host's writes of an engine's memories and ENGINE_LOAD (R72, R88 to R90, R379). -/

namespace Sys2Proof.Machine

/-! ### Words of bytes (R8) -/

theorem leNat_leBytes (n v : Nat) : leNat (leBytes n v) = v % 256 ^ n := by
  induction n generalizing v with
  | zero => simp [leBytes, leNat, Nat.mod_one]
  | succ n ih =>
    rw [leBytes, leNat, ih, BitVec.toNat_ofNat, Nat.pow_succ' (n := n)]
    exact Nat.mod_mul.symm

/-- The low bytes of a number are those of its residue. -/
theorem leBytes_mod (n v : Nat) : leBytes n (v % 2 ^ (8 * n)) = leBytes n v := by
  rw [Nat.pow_mul]
  change leBytes n (v % 256 ^ n) = leBytes n v
  induction n generalizing v with
  | zero => rfl
  | succ n ih =>
    have hlow : BitVec.ofNat 8 (v % 256 ^ (n + 1)) = BitVec.ofNat 8 v := by
      apply BitVec.eq_of_toNat_eq
      rw [BitVec.toNat_ofNat, BitVec.toNat_ofNat, Nat.pow_succ' (n := n)]
      exact Nat.mod_mul_right_mod v 256 (256 ^ n)
    rw [leBytes, leBytes, hlow, Nat.pow_succ', Nat.mod_mul_right_div_self, ih]

theorem leBytes_add (m n v : Nat) : leBytes (m + n) v = leBytes m v ++ leBytes n (v / 256 ^ m) := by
  induction m generalizing v with
  | zero => simp [leBytes]
  | succ m ih => rw [Nat.succ_add, leBytes, ih, leBytes, List.cons_append, Nat.div_div_eq_div_mul, ← Nat.pow_succ']

/-- The bytes of a number spell its 4-byte parts. -/
theorem numbersOf_leBytes (n v : Nat) :
    numbersOf 4 (n + 1) (leBytes (4 + 4 * n) v) = v % 2 ^ 32 :: numbersOf 4 n (leBytes (4 * n) (v / 2 ^ 32)) := by
  rw [leBytes_add]
  change leNat (List.take 4 _) :: numbersOf 4 n (List.drop 4 _) = _
  rw [List.take_left' (length_leBytes 4 v), List.drop_left' (length_leBytes 4 v), leNat_leBytes,
    show 256 ^ 4 = 2 ^ 32 by norm_num]

@[simp] theorem length_numbersOf (k n : Nat) (bs : List Byte) : (numbersOf k n bs).length = n := by
  induction n generalizing bs with
  | zero => rfl
  | succ n ih => simp [numbersOf, ih]

/-! ### Program words -/

/-- Words stored change program memory alone. -/
theorem Engine.storeWords_eq (g : Engine) (w : Nat) (vs : List Nat) : g.storeWords w vs = { g with pmem := (g.storeWords w vs).pmem } := by
  induction vs generalizing g w with
  | nil => rfl
  | cons v vs ih => rw [Engine.storeWords, ih]

theorem Engine.storeWords_out (g : Engine) (w : Nat) (vs : List Nat) (x : Nat) (h : x < w ∨ w + vs.length ≤ x) :
    (g.storeWords w vs).word x = g.word x := by
  induction vs generalizing g w with
  | nil => rfl
  | cons v vs ih =>
    rw [List.length_cons] at h
    rw [Engine.storeWords, ih _ _ (by omega)]
    exact Tbl.get_set_ne _ _ _ _ _ (by omega)

theorem Engine.storeWords_head (g : Engine) (w v : Nat) (vs : List Nat) : (g.storeWords w (v :: vs)).word w = BitVec.ofNat 32 v := by
  rw [Engine.storeWords, Engine.storeWords_out _ _ _ _ (.inl (Nat.lt_succ_self w))]
  exact Tbl.get_set_self ..

theorem Engine.storeWords_second (g : Engine) (w a b : Nat) (vs : List Nat) :
    (g.storeWords w (a :: b :: vs)).word (w + 1) = BitVec.ofNat 32 b := by
  rw [Engine.storeWords, Engine.storeWords_head]

/-- The words that `n` bytes of a number store. -/
def wordsOf (n v : Nat) : List Nat := numbersOf 4 (n / 4) (leBytes n v)

theorem wordsOf_four (v : Nat) : wordsOf 4 v = [v % 2 ^ 32] := numbersOf_leBytes 0 v

theorem wordsOf_eight (v : Nat) : wordsOf 8 v = [v % 2 ^ 32, v / 2 ^ 32 % 2 ^ 32] :=
  (numbersOf_leBytes 1 v).trans (congrArg _ (numbersOf_leBytes 0 _))

theorem ofNat_mod_word (v : Nat) : BitVec.ofNat 32 (v % 2 ^ 32) = BitVec.ofNat 32 v :=
  BitVec.eq_of_toNat_eq (by simp)

/-! ### ENGINE_MEMORY_WRITE (R72, R90) -/

/-- The bytes of an access. -/
def accessBytes (w8 : Bool) : Nat := if w8 then 8 else 4

section
variable {s : State} {p : Path} {e off slot n : Nat} (hengine : s.hasEngine e = true) (hanswers : s.engineAnswers e = true)
  (hbar : s.barGone p = false) (hactor : s.actor p = some slot) (howner : (s.engine e).owner = some slot)
  (halign : off % n = 0) (hfits : off + n ≤ 65536)
include hengine hanswers hbar hactor howner halign hfits

/-- A write that the owner may make is made (R72). -/
theorem State.engineMemWrite_owned (prog : Bool) (v : Nat) : s.engineMemWrite p e prog off n v =
    s.setEngine e { (if prog then (s.engine e).storeWords (off / 4) (numbersOf 4 (n / 4) (leBytes n v))
      else { s.engine e with dmem := Memory.writeBytes (s.engine e).dmem off (leBytes n v) }) with dirty := true } := by
  have hreached : (!s.hasEngine e || !s.engineAnswers e || s.barGone p) = false := by simp [hengine, hanswers, hbar]
  have howns : s.ownsEngine (s.actor p) e = true := by simp [State.ownsEngine, hactor, howner]
  unfold State.engineMemWrite
  rw [hreached, howns, halign]
  simp only [Bool.false_eq_true, if_false]
  exact if_neg (by simpa using hfits)

theorem State.engineMemWrite_data (v : Nat) : s.engineMemWrite p e false off n (v % 2 ^ (8 * n)) = s.setEngine e { s.engine e with
    dmem := Memory.writeBytes (s.engine e).dmem off (leBytes n v), dirty := true } := by
  rw [State.engineMemWrite_owned hengine hanswers hbar hactor howner halign hfits, leBytes_mod]
  rfl

theorem State.engineMemWrite_program (v : Nat) : s.engineMemWrite p e true off n (v % 2 ^ (8 * n)) = s.setEngine e { s.engine e with
    pmem := ((s.engine e).storeWords (off / 4) (wordsOf n v)).pmem, dirty := true } := by
  rw [State.engineMemWrite_owned hengine hanswers hbar hactor howner halign hfits, leBytes_mod]
  exact congrArg (fun h : Engine => s.setEngine e { h with dirty := true }) (Engine.storeWords_eq ..)

end

/-- What the words of an access store: the number's low word, its high word on 8 bytes, and nothing beyond. -/
theorem Engine.storeWords_access (g : Engine) (w v : Nat) (w8 : Bool) :
    let h := g.storeWords w (wordsOf (accessBytes w8) v)
    h.word w = BitVec.ofNat 32 v ∧ (w8 = true → h.word (w + 1) = BitVec.ofNat 32 (v / 2 ^ 32)) ∧
      (∀ x, x < w ∨ w + accessBytes w8 / 4 ≤ x → h.word x = g.word x) := by
  intro h
  refine ⟨?_, ?_, fun x hx => Engine.storeWords_out _ _ _ _ (by simpa [wordsOf] using hx)⟩
  · cases w8
    · exact (congrArg (fun l => (g.storeWords w l).word w) (wordsOf_four v)).trans ((Engine.storeWords_head ..).trans (ofNat_mod_word v))
    · exact (congrArg (fun l => (g.storeWords w l).word w) (wordsOf_eight v)).trans ((Engine.storeWords_head ..).trans (ofNat_mod_word v))
  · rintro rfl
    exact (congrArg (fun l => (g.storeWords w l).word (w + 1)) (wordsOf_eight v)).trans
      ((Engine.storeWords_second ..).trans (ofNat_mod_word _))

/-! ### ENGINE_LOAD (R88, R89, R379) -/

section
variable {s : State} {c : CmdCtx} {e : Nat} {image : List Byte} (hsession : (s.session c.session).isSome = true)
  (hlive : s.pkg.bothDead = false) (hfw : s.pkg.fwRecovery = false) (hengine : s.hasEngine e = true)
  (howner : (s.engine e).owner = some c.session) (hload : (s.engine e).loadable = true)

/-- The state with the image placed, on which LOAD's checks run. -/
def State.placed (s : State) (e : Nat) (image : List Byte) : State := s.setEngine e ((s.engine e).placeImage image)

include hengine howner hload in
/-- The checks before LOAD's own hold. -/
theorem firstFail_engineLoad (xs : List (Bool × Nat)) :
    firstFail ([(s.hasEngine e, Status.cmdFormat), (s.ownsEngine c.who e, Status.unitDenied),
      ((s.engine e).loadable, Status.wrongState)] ++ xs) = firstFail xs := by
  simp [hengine, hload, State.ownsEngine, howner, CmdCtx.who]

include hsession hlive hfw hengine howner hload

theorem execEngineLoad_passes (h : firstFail ((s.placed e image).qlImageChecks e) = none) :
    execEngineLoad c e image s = .next ((((s.placed e image).loadImage e).1.qlStatus e 0).complete c Status.ok
      (objectWord ObjKind.engine e) 0) :=
  congrArg _ (State.judged_ok hlive hfw hsession ((firstFail_engineLoad hengine howner hload _).trans h))

theorem execEngineLoad_refused {st : Nat} (h : firstFail ((s.placed e image).qlImageChecks e) = some st) :
    execEngineLoad c e image s = .next (s.refuse c st) :=
  congrArg _ (State.judged_refused hlive hfw hsession ((firstFail_engineLoad hengine howner hload _).trans h))

end

/-- A completion touches no engine. -/
theorem State.complete_engine (s : State) (c : CmdCtx) (st : Nat) (o : BitVec 32) (d : Word) (e : Nat) :
    (s.complete c st o d).engine e = s.engine e := by
  rw [State.complete_eq]
  rfl

/-- Settles O15: a write's bytes and words by what the memories read back, and ENGINE_LOAD by the verdict on the image as placed. -/
theorem engineMemoryAndLoad : Obligations.EngineMemoryAndLoad := by
  intro s p e off slot w8 v c image g n
  refine ⟨fun hengine hanswers hbar hactor howner halign hfits => ⟨?_, ?_⟩, ?_⟩
  · refine ⟨_, congrArg Host.Outcome.next (State.engineMemWrite_data hengine hanswers hbar hactor howner halign hfits v.toNat), ?_⟩
    rw [State.setEngine_self]
    exact ⟨OnlyEngine.set s e _, fun k hk => Memory.read_leBytes _ _ _ hk,
      fun a ha => Memory.read_writeBytes_out _ _ _ _ (by rw [length_leBytes]; exact ha)⟩
  · refine ⟨_, congrArg Host.Outcome.next (State.engineMemWrite_program hengine hanswers hbar hactor howner halign hfits v.toNat), ?_⟩
    rw [State.setEngine_self]
    exact ⟨OnlyEngine.set s e _, g.storeWords_access (off / 4) v.toNat w8⟩
  · intro hsession hlive hfw hengine howner hload s1
    refine ⟨fun hpass => ?_, fun st hfail => execEngineLoad_refused hsession hlive hfw hengine howner hload hfail⟩
    refine ⟨_, execEngineLoad_passes hsession hlive hfw hengine howner hload hpass, rfl, ?_⟩
    rw [State.complete_engine, State.loadImage_passes (s := s.placed e image) hpass, State.qlStatus, State.setEngine_self,
      State.setEngine_self]
    exact ⟨rfl, rfl⟩

end Sys2Proof.Machine

/-! SUPPORT. What the shared operations leave of the contour (chapter 04): the package state, the meridian's copies, the core taps, the HOPs
and the class instances. Reports, events, HOP records, chains and posts write none of those; one equation for each operation says so. -/

namespace Sys2Proof.Machine

/-- The package state, the dies, the copies, the core taps, the HOPs and the class instances. -/
def State.contour (s : State) : Pkg × Tbl Die × Tbl (Option Copy) × Tbl Core × Tbl (Option Hop) × Tbl Hold :=
  (s.pkg, s.dies, s.copies, s.cores, s.hops, s.insts)

theorem State.contour_iff {s t : State} : t.contour = s.contour ↔ t.pkg = s.pkg ∧ t.dies = s.dies ∧ t.copies = s.copies ∧
    t.cores = s.cores ∧ t.hops = s.hops ∧ t.insts = s.insts := by
  simp only [State.contour, Prod.mk.injEq]

section
variable {s t : State} (hpkg : t.pkg = s.pkg) (hdies : t.dies = s.dies) (hcopies : t.copies = s.copies) (u : Uno)
include hpkg hdies hcopies

/-- A unit's copy lies in the package state, the dies and the copies. -/
theorem State.copy_congr : t.copy u = s.copy u := by
  unfold State.copy State.die
  rw [hpkg, hdies, hcopies]

theorem State.copyNow_congr : t.copyNow u = s.copyNow u := by
  unfold State.copyNow State.now
  rw [State.copy_congr hpkg hdies hcopies, hpkg]

end

section
variable {s t : State} (h : t.contour = s.contour)
include h

theorem State.pkg_of_contour : t.pkg = s.pkg := (State.contour_iff.mp h).1

theorem State.cores_of_contour : t.cores = s.cores := (State.contour_iff.mp h).2.2.2.1

theorem State.core_of_contour (u : Uno) : t.core u = s.core u := by
  rw [State.core, State.cores_of_contour h, State.core]

theorem State.hops_of_contour : t.hops = s.hops := (State.contour_iff.mp h).2.2.2.2.1

theorem State.hop_of_contour (n : Nat) : t.hop n = s.hop n := by
  rw [State.hop, State.hops_of_contour h, State.hop]

theorem State.insts_of_contour : t.insts = s.insts := (State.contour_iff.mp h).2.2.2.2.2

end

/-! ### Operations that leave it -/

@[simp] theorem State.report_contour (s : State) (u : Uno) (cls code : Nat) (d : List Byte) (c : Ctx) :
    (s.report u cls code d c).contour = s.contour := by
  rw [State.report_eq]
  rfl

@[simp] theorem State.hopLate_contour (s : State) (n : Nat) (u : Uno) (code : Nat) : (s.hopLate n u code).contour = s.contour := by
  unfold State.hopLate
  split
  · rfl
  · exact State.report_contour ..

@[simp] theorem State.postLate_contour (s : State) (n : Nat) (u : Uno) (code : Nat) : (s.postLate n u code).contour = s.contour := by
  unfold State.postLate
  split
  · rfl
  · exact State.report_contour ..

@[simp] theorem State.hopLateIf_contour (s : State) (b : Bool) (n : Nat) (u : Uno) (code : Nat) :
    (s.hopLateIf b n u code).contour = s.contour := by
  unfold State.hopLateIf
  split
  · exact State.hopLate_contour ..
  · rfl

@[simp] theorem State.emit_contour (s : State) (k : Nat) (e : Event) : (s.emit k e).contour = s.contour := by
  rw [State.emit_eq]
  rfl

/-- A change of flags shows in the Legend alone. -/
theorem State.flaggedFrom_frame (s t : State) : s.flaggedFrom t = { t with legend := (s.flaggedFrom t).legend } := by
  unfold State.flaggedFrom
  split <;> rfl

@[simp] theorem State.flaggedFrom_contour (s t : State) : (s.flaggedFrom t).contour = t.contour := by
  rw [State.flaggedFrom_frame]
  rfl

@[simp] theorem State.writeRecord_contour (s : State) (p n : Nat) : (s.writeRecord p n).contour = s.contour := by
  unfold State.writeRecord
  split
  · rfl
  · dsimp only
    split
    · rfl
    · split <;> rfl

@[simp] theorem State.rearmChains_contour (s : State) : s.rearmChains.contour = s.contour := rfl

@[simp] theorem State.deliverParked_contour (s : State) (u : Uno) : (s.deliverParked u).contour = s.contour := rfl

theorem State.sendUrg_contour {n : Nat} {ks : List Nat} {s t : State} (h : State.sendUrg n ks s = some t) : t.contour = s.contour := by
  rw [State.sendUrg_eq h]
  rfl

/-! ### A HOP at a core -/

@[simp] theorem State.setCore_hop (s : State) (u : Uno) (c : Core) (n : Nat) : (s.setCore u c).hop n = s.hop n := rfl
@[simp] theorem State.setHop_core (s : State) (n : Nat) (h : Hop) (u : Uno) : (s.setHop n h).core u = s.core u := rfl

@[simp] theorem Hop.at_put_self (h : Hop) (u : Uno) (v : HopCore) : (h.put u v).at u = v := Tbl.get_set_self ..

theorem Hop.at_put_ne (h : Hop) (v : HopCore) {u w : Uno} (hw : w ≠ u) : (h.put u v).at w = h.at w := Tbl.get_set_ne _ _ _ _ _ hw

/-- The HOP once a core has taken its result code (R121). -/
def Hop.took (h : Hop) (u : Uno) (code phase delta : Nat) : Hop :=
  { h.put u { code := code, delta := delta, order := h.confirms, phase := phase } with confirms := h.confirms + 1 }

@[simp] theorem Hop.at_took_self (h : Hop) (u : Uno) (code phase delta : Nat) :
    (h.took u code phase delta).at u = { code := code, delta := delta, order := h.confirms, phase := phase } :=
  Hop.at_put_self ..

theorem Hop.at_took_ne (h : Hop) (code phase delta : Nat) {u w : Uno} (hw : w ≠ u) : (h.took u code phase delta).at w = h.at w :=
  Hop.at_put_ne _ _ hw

theorem State.hopCode_some {s : State} {n : Nat} {h : Hop} (hhop : s.hop n = some h) (u : Uno) (code phase delta : Nat) :
    s.hopCode n u code phase delta = s.setHop n (h.took u code phase delta) := by
  simp only [State.hopCode, hhop]
  rfl

/-- A result code changes nothing but the HOPs. -/
theorem State.hopCode_frame (s : State) (n : Nat) (u : Uno) (code phase delta : Nat) :
    s.hopCode n u code phase delta = { s with hops := (s.hopCode n u code phase delta).hops } := by
  unfold State.hopCode
  split <;> rfl

@[simp] theorem State.hopCode_core (s : State) (n : Nat) (u : Uno) (code phase delta : Nat) (v : Uno) :
    (s.hopCode n u code phase delta).core v = s.core v := by
  rw [State.hopCode_frame]
  rfl

@[simp] theorem State.hopCode_insts (s : State) (n : Nat) (u : Uno) (code phase delta : Nat) :
    (s.hopCode n u code phase delta).insts = s.insts := by
  rw [State.hopCode_frame]

/-! ### Class instances -/

/-- A hold changed by `f` on each of these instances. -/
def State.eachInst (s : State) (f : Hold → Hold) (ks : List Nat) : State :=
  ks.foldl (fun t k => t.setInst (k / 0x1000000) (k % 0x1000000) (f (t.inst (k / 0x1000000) (k % 0x1000000)))) s

/-- The parts of a class key give the key. -/
theorem State.inst_key (s : State) (k : Nat) : s.inst (k / 0x1000000) (k % 0x1000000) = Tbl.get {} s.insts k := by
  rw [State.inst, Nat.div_add_mod']

theorem State.setInst_key (s : State) (k : Nat) (v : Hold) :
    s.setInst (k / 0x1000000) (k % 0x1000000) v = { s with insts := Tbl.set {} s.insts k v } := by
  rw [State.setInst, Nat.div_add_mod']

theorem State.eachInst_frame (s : State) (f : Hold → Hold) (ks : List Nat) :
    s.eachInst f ks = { s with insts := (s.eachInst f ks).insts } := by
  induction ks generalizing s with
  | nil => rfl
  | cons k ks ih => exact ih _

/-- A change that is the same when made twice reaches each of the listed instances, and no other. -/
theorem State.eachInst_inst {f : Hold → Hold} (hf : ∀ x, f (f x) = f x) (ks : List Nat) (s : State) (k : Nat) :
    (s.eachInst f ks).inst (k / 0x1000000) (k % 0x1000000) =
      if k ∈ ks then f (s.inst (k / 0x1000000) (k % 0x1000000)) else s.inst (k / 0x1000000) (k % 0x1000000) := by
  induction ks generalizing s with
  | nil => rfl
  | cons j ks ih =>
    have hstep : s.eachInst f (j :: ks) =
      State.eachInst (s.setInst (j / 0x1000000) (j % 0x1000000) (f (s.inst (j / 0x1000000) (j % 0x1000000)))) f ks := rfl
    rw [hstep, ih, State.setInst_key, State.inst_key, State.inst_key, State.inst_key]
    by_cases hj : k = j
    · subst hj
      simp [hf]
    · simp [hj, Tbl.get_set_ne _ _ _ _ _ hj]

theorem Hold.put_put (x : Hold) (p : Bool) : (x.put p).put p = x.put p := by cases p <;> rfl

theorem Hold.drop_drop (x : Hold) (p : Bool) : (x.drop p).drop p = x.drop p := by cases p <;> rfl

/-- The HOP once these instances are awaited no more. -/
def Hop.acted (h : Hop) (ks : List Nat) : Hop := { h with iwait := h.iwait.filter (fun k => !ks.contains k) }

/-- The state once HOP n has changed these instances. -/
def State.heldBy (s : State) (n : Nat) (h : Hop) (f : Hold → Hold) (ks : List Nat) : State :=
  (s.flaggedFrom (s.eachInst f ks)).setHop n (h.acted ks)

section
variable {s : State} {n : Nat} {h : Hop} (hhop : s.hop n = some h)
include hhop

theorem State.freezeAt_some (u : Uno) : s.freezeAt n u = s.heldBy n h (fun x => x.put h.platform) (s.actedBy h u) := by
  simp only [State.freezeAt, hhop]
  rfl

theorem State.releaseAt_some (ks : List Nat) : s.releaseAt n ks = s.heldBy n h (fun x => x.drop h.platform) ks := by
  simp only [State.releaseAt, hhop]
  rfl

end

section
variable (s : State) (n : Nat) (h : Hop) (f : Hold → Hold) (ks : List Nat)

/-- Beside the instances and the HOP, only the Legend shows it (R61). -/
theorem State.heldBy_frame : s.heldBy n h f ks = { s with
    legend := (s.heldBy n h f ks).legend, hops := Tbl.set none s.hops n (some (h.acted ks)), insts := (s.eachInst f ks).insts } := by
  unfold State.heldBy
  rw [State.flaggedFrom_frame, State.eachInst_frame]
  rfl

@[simp] theorem State.heldBy_cores : (s.heldBy n h f ks).cores = s.cores := by rw [State.heldBy_frame]

@[simp] theorem State.heldBy_core (u : Uno) : (s.heldBy n h f ks).core u = s.core u := by rw [State.core, State.heldBy_cores, State.core]

theorem State.heldBy_inst (cls : Nat) (u : Uno) : (s.heldBy n h f ks).inst cls u = (s.eachInst f ks).inst cls u := by
  rw [State.inst, State.heldBy_frame]
  rfl

@[simp] theorem State.heldBy_hop : (s.heldBy n h f ks).hop n = some (h.acted ks) := State.setHop_self ..

end

end Sys2Proof.Machine

/-! SUPPORT. Halt commands (R92 to R97): the request of a command of the Compass, turned away or accepted. -/

namespace Sys2Proof.Machine

/-- Posts that a session uses are none of the HOPs, the cores and the class instances. -/
theorem State.usePosts_leaves (s : State) (k : Nat) (ps : List Nat) : (s.usePosts k ps).hops = s.hops ∧
    (s.usePosts k ps).hopNext = s.hopNext ∧ (s.usePosts k ps).cores = s.cores ∧ (s.usePosts k ps).insts = s.insts := by
  have h := State.foldl_leaves (fun t : State => (t.hops, t.hopNext, t.cores, t.insts)) (f := fun t p => t.usePost k p)
    (fun t p => by unfold State.usePost; split <;> rfl) ps s
  simpa only [Prod.mk.injEq, ← State.usePosts_eq_foldl] using h

/-- The active Compass reads the master at any time, so a request goes out at once and becomes an immediate halt only where it asks for one
(R97). -/
theorem State.hopImm_compass (s : State) (q : HopReq) : s.hopImm none q = q.imm := by simp [State.hopImm, State.issuerNow]

theorem State.issueHop_refused {s : State} {issuer : Option Nat} {q : HopReq} {st : Nat} (h : s.hopCheck issuer q = some st)
    (origin : HopOrigin) : s.issueHop issuer q origin = (s, .error st) := by
  simp only [State.issueHop, h]

theorem State.issueHop_accepted {s : State} {issuer : Option Nat} {q : HopReq} (h : s.hopCheck issuer q = none) (origin : HopOrigin) :
    s.issueHop issuer q origin =
      ((s.acceptHop issuer q (if s.hopImm issuer q then .urgent else .contour) origin).1, .ok s.hopNext) := by
  simp only [State.issueHop, h]
  rfl

/-- The HOP that a command's request becomes. -/
def State.commandHop (s : State) (c : CmdCtx) (q : HopReq) : Hop :=
  s.newHop none q (if q.imm then .urgent else .contour) (.command c.session c.tag c.queue)

/-- The state with that HOP under the next serial number, and with the posts of its scope in use. -/
def State.commandIssued (s : State) (c : CmdCtx) (q : HopReq) : State :=
  (s.acceptHop none q (if q.imm then .urgent else .contour) (.command c.session c.tag c.queue)).1.usePosts c.session (s.postsIn q.scope)

theorem State.acceptHop_hop (s : State) (issuer : Option Nat) (q : HopReq) (mode : HopMode) (origin : HopOrigin) (n : Nat) :
    (s.acceptHop issuer q mode origin).1.hop n = if n = s.hopNext then some (s.newHop issuer q mode origin) else s.hop n := by
  change (s.setHop s.hopNext (s.newHop issuer q mode origin)).hop n = _
  split
  · next hn => rw [hn, State.setHop_self]
  · next hn => exact State.setHop_ne _ _ _ _ hn

theorem State.commandIssued_hop (s : State) (c : CmdCtx) (q : HopReq) (n : Nat) :
    (s.commandIssued c q).hop n = if n = s.hopNext then some (s.commandHop c q) else s.hop n := by
  rw [State.hop, State.commandIssued, (State.usePosts_leaves ..).1]
  exact State.acceptHop_hop ..

section
variable {s : State} {c : CmdCtx} {kind : HopKind} {imm : Bool} {v : Uno} {m : Word} (heard : Claims.Heard s c)
include heard

theorem State.judged_allowed (st : Nat) (f : State → State) : s.judged c [(true, st)] f = f s := by
  obtain ⟨hsession, hlive, hfw⟩ := heard
  exact State.judged_ok hlive hfw hsession rfl

theorem State.hopCommand_badMode : s.hopCommand c kind false imm v m = s.refuse c Status.cmdFormat := by
  obtain ⟨hsession, hlive, hfw⟩ := heard
  exact State.judged_refused hlive hfw hsession rfl

theorem State.hopCommand_refused {st : Nat} (hcheck : s.hopCheck none (Claims.request c kind imm v m) = some st) :
    s.hopCommand c kind true imm v m = s.refuse c st := by
  unfold Claims.request at hcheck
  simp only [State.hopCommand, State.judged_allowed heard, State.issueHop_refused hcheck]

theorem State.hopCommand_accepted (hcheck : s.hopCheck none (Claims.request c kind imm v m) = none) :
    s.hopCommand c kind true imm v m = (s.commandIssued c (Claims.request c kind imm v m)).complete c Status.ok
      (objectWord ObjKind.hop (s.commandHop c (Claims.request c kind imm v m)).id.toNat) 0 := by
  unfold Claims.request at hcheck ⊢
  simp only [State.hopCommand, State.judged_allowed heard, State.issueHop_accepted hcheck, State.hopImm_compass,
    State.acceptHop_hop, if_true, Option.map_some, Option.getD_some]
  rfl

end

/-- Each of the five commands is a request of its kind; only a HALT can ask to be immediate (Table HO-3). -/
theorem exec_hopCommand {mode : Nat} (hmode : mode ≤ 1) (s : State) (c : CmdCtx) (v : Uno) (m : Word) :
    ∀ x ∈ [(Instr.haltCommand c v mode m, HopKind.halt, mode == 1), (.stepCommand c v m, .step, false),
        (.resumeCommand c v m, .resume, false), (.freezeCommand c v m, .freeze, false), (.thawCommand c v m, .thaw, false)],
      exec x.1 s = .next (s.hopCommand c x.2.1 true x.2.2 v m) := by
  have hhalt : exec (.haltCommand c v mode m) s = .next (s.hopCommand c .halt true (mode == 1) v m) := by
    change Host.Outcome.next (s.hopCommand c .halt (decide (mode ≤ 1)) (mode == 1) v m) = _
    rw [decide_eq_true hmode]
  simpa only [List.forall_mem_cons] using ⟨hhalt, rfl, rfl, rfl, rfl, fun _ h => nomatch h⟩

/-- Settles O24: a request that the checks turn away is refused, and one that passes them is the HOP of `State.newHop`, whose issuer is the
Compass. -/
theorem hopCommands : Obligations.HopCommands := by
  intro s c v m mode heard
  refine ⟨fun hmode => ?_, fun hmode x hx => ⟨fun st hcheck => ?_, fun hcheck => ?_⟩⟩
  · change Host.Outcome.next (s.hopCommand c .halt (decide (mode ≤ 1)) (mode == 1) v m) = _
    rw [decide_eq_false (Nat.not_le.mpr hmode), State.hopCommand_badMode heard]
  · rw [exec_hopCommand hmode s c v m x hx, State.hopCommand_refused heard hcheck]
  · obtain ⟨-, hnext, hcores, hinsts⟩ := State.usePosts_leaves
      (s.acceptHop none (Claims.request c x.2.1 x.2.2 v m) (if x.2.2 then .urgent else .contour) (.command c.session c.tag c.queue)).1
      c.session (s.postsIn v)
    refine ⟨s.commandIssued c (Claims.request c x.2.1 x.2.2 v m), s.commandHop c (Claims.request c x.2.1 x.2.2 v m), ?_, ?_, hnext, ?_,
      hcores, hinsts, rfl, rfl, rfl, rfl, rfl, rfl, rfl, ?_, ?_⟩
    · rw [Claims.Done, exec_hopCommand hmode s c v m x hx, State.hopCommand_accepted heard hcheck]
    · rw [State.commandIssued_hop, if_pos rfl]
    · intro n hn
      rw [State.commandIssued_hop, if_neg hn]
    · intro himm
      simp [State.commandHop, State.newHop, Claims.request, himm, State.issuerNow, State.now, word]
    · intro himm
      simp [State.commandHop, State.newHop, Claims.request, himm, State.issuerNow]

end Sys2Proof.Machine

/-! SUPPORT. Core taps that stop (R97 to R102, R104, R122): what a HALT makes of a running core, and that it concerns no other core. -/

namespace Sys2Proof.Machine

/-! ### A running core stops -/

/-- The core as a HALT stops it (R98, R114, R163). -/
def Core.stoppedBy (c : Core) (n : Nat) (h : Hop) (code : Nat) (at_ : Time) : Core :=
  { c.halt n h.platform with run := .stopped, settled := false, s := at_, cutCode := code, cutS := at_, cutT := h.t }

/-- A core reads as given, and HOP n holds its code while it settles. -/
structure StoppedUnder (t : State) (n : Nat) (u : Uno) (c : Core) (code : Nat) : Prop where
  core : t.core u = c
  hop  : ∃ h, t.hop n = some h ∧ (h.at u).code = code ∧ (h.at u).phase = 2

section
variable {s : State} {n : Nat} {u : Uno} {h : Hop} (hhop : s.hop n = some h) (hrun : (s.core u).run = .running)
include hhop hrun

theorem State.stopCore_running (at_ : Time) (code : Nat) : s.stopCore n u at_ code =
    (s.setCore u ((s.core u).stoppedBy n h code at_)).setHop n (h.took u code 2 (s.sinceT n at_)) := by
  simp only [State.stopCore, hhop, hrun]
  exact State.hopCode_some ((State.setCore_hop ..).trans hhop) ..

theorem State.stopCore_stopped (at_ : Time) (code : Nat) :
    StoppedUnder (s.stopCore n u at_ code) n u ((s.core u).stoppedBy n h code at_) code := by
  rw [State.stopCore_running hhop hrun]
  exact ⟨by simp, h.took u code 2 (s.sinceT n at_), State.setHop_self .., by simp, by simp⟩

end

/-- A HALT that a tap takes on: not a lone policy's, while a Compass lives and the core's copy is within its bound, of a core that runs awake
and that no PRECISE chain has stopped for it. -/
structure Haltable (s : State) (h : Hop) (u : Uno) (x : Nat) : Prop where
  run     : (s.core u).run = .running
  awake   : (s.core u).asleep = false
  other   : (s.core u).preciseFor h = false
  inBound : (s.copy u).oob = false
  copy    : s.copyNow u = some x
  origin  : ∀ p k, h.origin ≠ .lone p k
  live    : s.pkg.bothDead = false

theorem Haltable.loneCode {s : State} {h : Hop} {u : Uno} {x : Nat} (a : Haltable s h u x) (code : Nat) : s.loneCode h code = code := by
  unfold State.loneCode
  split
  · next p k horigin => exact absurd horigin (a.origin p k)
  · rw [a.live]
    rfl
  · rfl

theorem Haltable.timedCode {s : State} {h : Hop} {u : Uno} {x : Nat} (a : Haltable s h u x) (code : Nat) : s.timedCode u code = code := by
  simp [State.timedCode, a.inBound]

/-- An immediate halt stops the core on receipt with code IMMEDIATE (R104). -/
theorem Haltable.tapHalt_immediate {s : State} {h : Hop} {u : Uno} {x : Nat} (a : Haltable s h u x) (n : Nat) (hmode : h.mode ≠ .contour) :
    s.tapHalt n h u = s.stopCore n u (word x) 6 := by
  simp [State.tapHalt, a.other, a.awake, a.copy, hmode, a.loneCode, a.timedCode, a.inBound, State.hopLateIf]

/-- A HALT whose time is ahead is queued (R97). -/
theorem Haltable.tapHalt_ahead {s : State} {h : Hop} {u : Uno} {x : Nat} (a : Haltable s h u x) (n : Nat) (hmode : h.mode = .contour)
    (ht : x + 2 < h.t.toNat) : s.tapHalt n h u = s.queueHalt u { hop := n, kind := .halt, t := h.t } := by
  simp [State.tapHalt, a.other, a.awake, a.copy, hmode, Nat.not_le.mpr ht]

/-- At its target time a HALT stops the core with code STOPPED (R98). -/
theorem Haltable.matchHalt {s : State} {h : Hop} {u : Uno} {x : Nat} (a : Haltable s h u x) (n d : Nat) :
    s.matchHalt n h u d = s.stopCore n u (h.t + BitVec.ofNat 64 d) 0 := by
  simp [State.matchHalt, a.copy, a.loneCode, a.timedCode, a.inBound, State.hopLateIf]

theorem State.queueHalt_empty {s : State} {u : Uno} (hq : (s.core u).queue = []) (o : TimedOp) :
    s.queueHalt u o = s.setCore u { s.core u with queue := [o] } := by
  simp [State.queueHalt, hq, haltCovers, insertOp]

/-- A HALT that reaches a tap in its scope for the first time. -/
theorem State.tapReceive_halt {s : State} {n : Nat} {u : Uno} {h : Hop} (hhop : s.hop n = some h) (hkind : h.kind = .halt)
    (hu : u ∈ h.cores) (hphase : (h.at u).phase = 0) (hq : (s.core u).queue = []) (ha : (s.core u).absorbed = []) :
    s.tapReceive n u = s.tapHalt n h u := by
  simp [State.tapReceive, hhop, hkind, hu, hphase, hq, ha]

/-- A core that has met a HOP receives it no more. -/
theorem State.tapReceive_met {s : State} {n : Nat} {u : Uno} {h : Hop} (hhop : s.hop n = some h) (hphase : (h.at u).phase ≠ 0) :
    s.tapReceive n u = s := by
  simp [State.tapReceive, hhop, hphase]

/-- With an empty queue it stops the core as its HOP has it, when it is an immediate one or a pulse (R104). -/
theorem Haltable.tapReceive_immediate {s : State} {h : Hop} {u : Uno} {x : Nat} (a : Haltable s h u x) {n : Nat} (hhop : s.hop n = some h)
    (hkind : h.kind = .halt) (hmode : h.mode ≠ .contour) (hu : u ∈ h.cores) (hphase : (h.at u).phase = 0)
    (hq : (s.core u).queue = []) (ha : (s.core u).absorbed = []) :
    StoppedUnder (s.tapReceive n u) n u ((s.core u).stoppedBy n h 6 (word x)) 6 := by
  rw [State.tapReceive_halt hhop hkind hu hphase hq ha, a.tapHalt_immediate n hmode]
  exact State.stopCore_stopped hhop a.run _ _

theorem StoppedUnder.freezeAt {s : State} {n : Nat} {u : Uno} {c : Core} {code : Nat} (a : StoppedUnder s n u c code) (v : Uno) :
    StoppedUnder (s.freezeAt n v) n u c code := by
  obtain ⟨h, hhop, hcode, hphase⟩ := a.hop
  rw [State.freezeAt_some hhop]
  exact ⟨(State.heldBy_core ..).trans a.core, h.acted _, State.heldBy_hop .., hcode, hphase⟩

/-! ### Other cores -/

/-- What the tap of core `u` knows of HOP n. -/
def Hop.terms (u : Uno) (h : Hop) : HopKind × HopMode × Bool × Time × HopOrigin × List Uno × HopCore :=
  (h.kind, h.mode, h.platform, h.t, h.origin, h.cores, h.at u)

/-- What the tap of core `u` acts by: the package state, the copies, its core, and HOP n. -/
def State.tapView (s : State) (n : Nat) (u : Uno) :
    Pkg × Tbl Die × Tbl (Option Copy) × Core × Option (HopKind × HopMode × Bool × Time × HopOrigin × List Uno × HopCore) :=
  (s.pkg, s.dies, s.copies, s.core u, (s.hop n).map (Hop.terms u))

theorem State.tapView_of_contour {s t : State} (h : t.contour = s.contour) (n : Nat) (u : Uno) : t.tapView n u = s.tapView n u := by
  obtain ⟨hp, hd, hc, -, -, -⟩ := State.contour_iff.mp h
  rw [State.tapView, hp, hd, hc, State.core_of_contour h, State.hop_of_contour h, State.tapView]

/-- Equal views hold equal cores, copies and terms of HOP n. -/
theorem Haltable.of_tapView {s t : State} {n : Nat} {u : Uno} {h : Hop} {x : Nat} (hv : t.tapView n u = s.tapView n u)
    (a : Haltable s h u x) (hhop : s.hop n = some h) :
    ∃ h', t.hop n = some h' ∧ h'.terms u = h.terms u ∧ t.core u = s.core u ∧ Haltable t h' u x := by
  simp only [State.tapView, Prod.mk.injEq, hhop, Option.map_some, Option.map_eq_some_iff] at hv
  obtain ⟨hpkg, hdies, hcopies, hcore, h', hhop', hterms⟩ := hv
  have horigin : h'.origin = h.origin := congrArg (fun y => y.2.2.2.2.1) hterms
  refine ⟨h', hhop', hterms, hcore, ?_⟩
  constructor
  · exact hcore ▸ a.run
  · exact hcore ▸ a.awake
  · rw [Core.preciseFor, hcore, horigin]
    exact a.other
  · rw [State.copy_congr hpkg hdies hcopies]
    exact a.inBound
  · rw [State.copyNow_congr hpkg hdies hcopies]
    exact a.copy
  · exact horigin ▸ a.origin
  · exact hpkg ▸ a.live

/-- A HOP written with the terms that it had. -/
theorem State.setHop_tapView {s : State} {k : Nat} {h h' : Hop} {u : Uno} (hhop : s.hop k = some h) (ht : h'.terms u = h.terms u) (n : Nat) :
    (s.setHop k h').tapView n u = s.tapView n u := by
  have hterms : ((s.setHop k h').hop n).map (Hop.terms u) = (s.hop n).map (Hop.terms u) := by
    by_cases hn : n = k
    · rw [hn, State.setHop_self, hhop, Option.map_some, Option.map_some, ht]
    · rw [State.setHop_ne _ _ _ _ hn]
  rw [State.tapView, hterms]
  rfl

@[simp] theorem State.hopLate_tapView (s : State) (k : Nat) (w : Uno) (code n : Nat) (u : Uno) :
    (s.hopLate k w code).tapView n u = s.tapView n u := State.tapView_of_contour (State.hopLate_contour ..) n u

@[simp] theorem State.hopLateIf_tapView (s : State) (b : Bool) (k : Nat) (w : Uno) (code n : Nat) (u : Uno) :
    (s.hopLateIf b k w code).tapView n u = s.tapView n u := State.tapView_of_contour (State.hopLateIf_contour ..) n u

section
variable {u v : Uno} (hne : u ≠ v)
include hne

@[simp] theorem State.setCore_tapView (s : State) (c : Core) (n : Nat) : (s.setCore v c).tapView n u = s.tapView n u := by
  rw [State.tapView, State.setCore_ne _ _ _ _ hne]
  rfl

@[simp] theorem State.hopCode_tapView (s : State) (k code phase delta n : Nat) : (s.hopCode k v code phase delta).tapView n u = s.tapView n u := by
  cases hk : s.hop k with
  | none => simp only [State.hopCode, hk]
  | some h =>
    rw [State.hopCode_some hk]
    exact State.setHop_tapView hk (by rw [Hop.terms, Hop.at_took_ne _ _ _ _ hne]; rfl) n

@[simp] theorem State.stopCore_tapView (s : State) (k : Nat) (at_ : Time) (code n : Nat) :
    (s.stopCore k v at_ code).tapView n u = s.tapView n u := by
  unfold State.stopCore
  dsimp only
  split
  · rfl
  · split
    · simp [hne]
    · split <;> simp [hne]

@[simp] theorem State.queueHalt_tapView (s : State) (o : TimedOp) (n : Nat) : (s.queueHalt v o).tapView n u = s.tapView n u := by
  unfold State.queueHalt
  dsimp only
  split
  · simp [hne]
  · split
    · simp [hne]
    · split <;> simp [hne]

@[simp] theorem State.tapHalt_tapView (s : State) (k : Nat) (h : Hop) (n : Nat) : (s.tapHalt k h v).tapView n u = s.tapView n u := by
  unfold State.tapHalt
  dsimp only
  split
  · simp [hne]
  · split
    · simp [hne, State.confirmCore]
    · split
      · simp [hne]
      · split
        · simp [hne]
        · split <;> simp [hne]

@[simp] theorem State.tapTimed_tapView (s : State) (k : Nat) (h : Hop) (n : Nat) : (s.tapTimed k h v).tapView n u = s.tapView n u := by
  unfold State.tapTimed
  dsimp only
  split <;> simp [hne, State.confirmCore]

/-- A request at one core's tap concerns no other core's. -/
theorem State.tapReceive_tapView (s : State) (k n : Nat) : (s.tapReceive k v).tapView n u = s.tapView n u := by
  unfold State.tapReceive
  split
  · rfl
  · split
    · rfl
    · split <;> simp [hne]

end

/-- A list of cores receives an immediate HALT: each that can stops at its own turn, whatever the others do. -/
theorem Haltable.tapsReceive_immediate {s : State} {h : Hop} {u : Uno} {x : Nat} (a : Haltable s h u x) {n : Nat} (hhop : s.hop n = some h)
    (hkind : h.kind = .halt) (hmode : h.mode ≠ .contour) (hu : u ∈ h.cores) (hphase : (h.at u).phase = 0)
    (hq : (s.core u).queue = []) (ha : (s.core u).absorbed = []) {us : List Uno} (hus : u ∈ us) :
    StoppedUnder (us.foldl (fun t v => t.tapReceive n v) s) n u ((s.core u).stoppedBy n h 6 (word x)) 6 := by
  obtain ⟨before, after, rfl, hbefore⟩ := List.eq_append_cons_of_mem hus
  have hview := State.foldl_leaves_mem (fun t : State => t.tapView n u) (f := fun t v => t.tapReceive n v) (l := before)
    (fun t v hv => State.tapReceive_tapView (ne_of_mem_of_not_mem hv hbefore).symm t n n) s
  obtain ⟨h', hhop', hterms, hcore, a'⟩ := Haltable.of_tapView hview a hhop
  simp only [Hop.terms, Prod.mk.injEq] at hterms
  obtain ⟨hkind', hmode', hplatform, ht, -, hcores, hat⟩ := hterms
  have hturn := a'.tapReceive_immediate hhop' (hkind'.trans hkind) (hmode' ▸ hmode) (hcores ▸ hu) (hat ▸ hphase) (hcore ▸ hq) (hcore ▸ ha)
  rw [hcore, show (s.core u).stoppedBy n h' 6 (word x) = (s.core u).stoppedBy n h 6 (word x) by
    rw [Core.stoppedBy, hplatform, ht, Core.stoppedBy]] at hturn
  rw [List.foldl_append, List.foldl_cons]
  refine List.foldlRecOn (motive := fun t => StoppedUnder t n u ((s.core u).stoppedBy n h 6 (word x)) 6) _ _ hturn fun t ht v _ => ?_
  obtain ⟨k, hk, hcode, hphase2⟩ := ht.hop
  by_cases hv : u = v
  · rw [← hv, State.tapReceive_met hk (by omega)]
    exact ht
  · have hsame := State.tapReceive_tapView hv t n n
    simp only [State.tapView, Prod.mk.injEq, hk, Option.map_some, Option.map_eq_some_iff, Hop.terms] at hsame
    obtain ⟨-, -, -, hcore2, k', hk', -, -, -, -, -, -, hat2⟩ := hsame
    exact ⟨hcore2.trans ht.core, k', hk', hat2 ▸ hcode, hat2 ▸ hphase2⟩

/-! ### A request arrives at a unit -/

/-- The HOP once its request has reached a unit. -/
def State.arrivedHop (s : State) (h : Hop) (unit : Uno) : Hop :=
  { h with sent := h.sent ++ s.hopLinks h unit, heard := h.heard.filter (· != unit) ++ [unit] }

/-- The state in which the unit's taps receive it: the half's record begun (R125). -/
def State.arrived (s : State) (n : Nat) (h : Hop) (unit : Uno) : State :=
  match postOf s.pkg.member unit with
  | some p => (s.setHop n (s.arrivedHop h unit)).writeRecord p n
  | none => s.setHop n (s.arrivedHop h unit)

theorem State.arrived_contour (s : State) (n : Nat) (h : Hop) (unit : Uno) :
    (s.arrived n h unit).contour = (s.setHop n (s.arrivedHop h unit)).contour := by
  unfold State.arrived
  split
  · exact State.writeRecord_contour ..
  · rfl

theorem State.takeHop_eq (s : State) (n : Nat) (h : Hop) (unit : Uno) : s.takeHop n h unit =
    let t := (s.reached h unit).foldl (fun t u => t.tapReceive n u) (s.arrived n h unit)
    if h.kind == .halt && h.mode != .contour then t.freezeAt n unit else t := rfl

/-- The request leaves the unit's view of the HOP as it was. -/
theorem State.arrived_tapView {s : State} {n : Nat} {h : Hop} (hhop : s.hop n = some h) (unit : Uno) (u : Uno) :
    (s.arrived n h unit).tapView n u = s.tapView n u :=
  (State.tapView_of_contour (State.arrived_contour ..) n u).trans (State.setHop_tapView (h' := s.arrivedHop h unit) hhop rfl n)

theorem execHopMulticast_takes {s s0 : State} {n : Nat} {h : Hop} {unit : Uno} (hhop : s.hop n = some h) (hpresent : s.present unit = true)
    (hstatus : h.status = 1) (haddressed : s.addressed h unit = true) (hsend : s.sendUrg 2 (s.hopLinks h unit) = some s0) :
    exec (.hopMulticast n unit) s = .next (s0.takeHop n h unit) := by
  change execHopMulticast n unit s = _
  simp [execHopMulticast, hhop, hpresent, hstatus, haddressed, hsend]

section
variable {s : State} {h : Hop} {u : Uno} {x : Nat} (a : Haltable s h u x) {n : Nat} (hhop : s.hop n = some h) (hstatus : h.status = 1)
  (hpresent : s.present u = true) (hreached : s.reached h u = [u]) {s0 : State} (hsend : s.sendUrg 2 (s.hopLinks h u) = some s0)
include a hhop hstatus hpresent hreached hsend

/-- The request reaches the tap of core `u`: what the tap then makes of the HOP as it stands there. -/
theorem Haltable.execHopMulticast_core : ∃ h', (s0.arrived n h u).hop n = some h' ∧ h'.terms u = h.terms u ∧
    (s0.arrived n h u).core u = s.core u ∧ Haltable (s0.arrived n h u) h' u x ∧ (s0.arrived n h u).insts = s.insts ∧
    exec (.hopMulticast n u) s = .next (if h.kind == .halt && h.mode != .contour then ((s0.arrived n h u).tapReceive n u).freezeAt n u
      else (s0.arrived n h u).tapReceive n u) := by
  have hsent := State.sendUrg_contour hsend
  have hhop0 : s0.hop n = some h := (State.hop_of_contour hsent n).trans hhop
  have hview := (State.arrived_tapView hhop0 u u).trans (State.tapView_of_contour hsent n u)
  obtain ⟨h', hhop', hterms, hcore, a'⟩ := Haltable.of_tapView hview a hhop
  have hinsts : (s0.arrived n h u).insts = s0.insts := (State.insts_of_contour (State.arrived_contour ..) :)
  refine ⟨h', hhop', hterms, hcore, a', hinsts.trans (State.insts_of_contour hsent), ?_⟩
  have haddressed : s.addressed h u = true := by simp [State.addressed, hreached]
  have hreached0 : s0.reached h u = [u] := by rw [← hreached, State.reached, State.pkg_of_contour hsent, State.reached]
  rw [execHopMulticast_takes hhop hpresent hstatus haddressed hsend, State.takeHop_eq, hreached0]
  rfl

variable (hkind : h.kind = .halt) (hu : u ∈ h.cores) (hphase : (h.at u).phase = 0) (hq : (s.core u).queue = [])
  (ha : (s.core u).absorbed = [])
include hkind hu hphase hq ha

theorem Haltable.execHopMulticast_ahead (hmode : h.mode = .contour) (ht : x + 2 < h.t.toNat) : ∃ t, exec (.hopMulticast n u) s = .next t ∧
    t.core u = { s.core u with queue := [{ hop := n, kind := .halt, t := h.t }] } ∧ t.insts = s.insts := by
  obtain ⟨h', hhop', hterms, hcore, a', hinsts, hexec⟩ :=
    a.execHopMulticast_core hhop hstatus hpresent hreached hsend
  simp only [Hop.terms, Prod.mk.injEq] at hterms
  obtain ⟨hkind', hmode', -, ht', -, hcores, hat⟩ := hterms
  rw [← hcore] at hq ha
  have hqueued : (s0.arrived n h u).tapReceive n u = (s0.arrived n h u).setCore u
      { (s0.arrived n h u).core u with queue := [{ hop := n, kind := .halt, t := h'.t }] } := by
    rw [State.tapReceive_halt hhop' (hkind'.trans hkind) (hcores ▸ hu) (hat ▸ hphase) hq ha,
      a'.tapHalt_ahead n (hmode'.trans hmode) (ht' ▸ ht), State.queueHalt_empty hq]
  rw [hkind, hmode, hqueued, hcore, ht'] at hexec
  exact ⟨_, hexec, State.setCore_self .., hinsts⟩

theorem Haltable.execHopMulticast_urgent (hmode : h.mode = .urgent) : ∃ t, exec (.hopMulticast n u) s = .next t ∧
    StoppedUnder t n u ((s.core u).stoppedBy n h 6 (word x)) 6 := by
  obtain ⟨h', hhop', hterms, hcore, a', hinsts, hexec⟩ :=
    a.execHopMulticast_core hhop hstatus hpresent hreached hsend
  simp only [Hop.terms, Prod.mk.injEq] at hterms
  obtain ⟨hkind', hmode', hplatform, ht', -, hcores, hat⟩ := hterms
  have hstop := a'.tapReceive_immediate hhop' (hkind'.trans hkind) (by simp [hmode', hmode]) (hcores ▸ hu) (hat ▸ hphase)
    (hcore ▸ hq) (hcore ▸ ha)
  rw [hcore, Core.stoppedBy, hplatform, ht', ← Core.stoppedBy] at hstop
  rw [hkind, hmode] at hexec
  exact ⟨_, hexec, hstop.freezeAt u⟩

end

/-- At T less 2 the head of the queue stops its core (R98, R122). -/
theorem Haltable.execTargetTimeMatch_head {s : State} {h : Hop} {u : Uno} {x : Nat} (a : Haltable s h u x) {n : Nat} (hhop : s.hop n = some h)
    (hq : (s.core u).queue = [{ hop := n, kind := .halt, t := h.t }]) (ha : (s.core u).absorbed = []) (ht : h.t.toNat ≤ x + 2) (d : Nat) :
    ∃ t, exec (.targetTimeMatch u d) s = .next t ∧
      StoppedUnder t n u (({ s.core u with queue := [] } : Core).stoppedBy n h 0 (h.t + BitVec.ofNat 64 d)) 0 := by
  have hexec : exec (.targetTimeMatch u d) s = .next ((s.setCore u { s.core u with queue := [] }).matchHalt n h u d) := by
    change execTargetTimeMatch u d s = _
    simp [execTargetTimeMatch, hq, ha, State.reachedTime, a.copy, ht, hhop, Option.filter]
  have a1 : Haltable (s.setCore u { s.core u with queue := [] }) h u x := by
    constructor
    · simp [a.run]
    · simp [a.awake]
    · simpa [Core.preciseFor] using a.other
    · exact a.inBound
    · exact a.copy
    · exact a.origin
    · exact a.live
  refine ⟨_, hexec, ?_⟩
  rw [a1.matchHalt]
  have hstop := State.stopCore_stopped (s := s.setCore u { s.core u with queue := [] }) hhop a1.run (h.t + BitVec.ofNat 64 d) 0
  rwa [State.setCore_self] at hstop

/-- The cores of a HOP in a die that a channel's pulse stops (R104). -/
def State.pulsedCores (s : State) (h : Hop) (chan die : Nat) : List Uno :=
  h.cores.filter (fun u => dieOf s.pkg.member u == some die && (s.core u).lmask.getLsbD chan)

/-- The units of a die that freeze on a pulse (R113). -/
def pulsedUnits (die : Nat) : List Uno :=
  [2 * die, 2 * die + 1].flatMap (fun p => halfClusters p ++ [0x3300 + p]) ++ (if die = 0 then [0x3000] else [])

/-- With one HOP in the block, a pulse of its channel, sent when the HOP was, is that HOP's. -/
theorem execLatticeHaltPulse_only {s : State} {h : Hop} {n chan die : Nat} (hhops : s.hops = [(n, some h)]) (hstatus : h.status = 1)
    (hlane : s.laneHop h chan = true) (hchan : chan < 16) (hdie : die < s.pkg.member.dies) :
    exec (.latticeHaltPulse chan die h.t) s = .next ((pulsedUnits die).foldl (fun r v => r.freezeAt n v)
      ((s.pulsedCores h chan die).foldl (fun r v => r.tapReceive n v)
        ((((s.pulsedCores h chan die).filterMap (postOf s.pkg.member)).eraseDups).foldl (fun r p => r.writeRecord p n) s))) := by
  have hmet : ¬(s.pkg.member.dies ≤ die ∨ 16 ≤ chan) := by omega
  refine (if_neg hmet).trans ?_
  rw [hhops, List.foldl_cons, List.foldl_nil]
  simp only [hstatus, hlane, beq_self_eq_true, Bool.and_self, if_true]
  rfl

/-- A pulse of the channel stops every core of the die that its mask includes (R104). -/
theorem Haltable.execLatticeHaltPulse_core {s : State} {h : Hop} {u : Uno} {x : Nat} (a : Haltable s h u x) {n chan die : Nat}
    (hhops : s.hops = [(n, some h)]) (hkind : h.kind = .halt) (hmode : h.mode = .lattice) (hstatus : h.status = 1) (hu : u ∈ h.cores)
    (hphase : (h.at u).phase = 0) (hq : (s.core u).queue = []) (ha : (s.core u).absorbed = []) (hlane : s.laneHop h chan = true)
    (hmask : (s.core u).lmask.getLsbD chan = true) (hchan : chan < 16) (hdie : dieOf s.pkg.member u = some die)
    (hcarried : die < s.pkg.member.dies) :
    ∃ t, exec (.latticeHaltPulse chan die h.t) s = .next t ∧ StoppedUnder t n u ((s.core u).stoppedBy n h 6 (word x)) 6 := by
  have hhop : s.hop n = some h := by simp [State.hop, hhops, Tbl.get]
  have hus : u ∈ s.pulsedCores h chan die := by simp [State.pulsedCores, hu, hdie, hmask]
  refine ⟨_, execLatticeHaltPulse_only hhops hstatus hlane hchan hcarried, ?_⟩
  refine List.foldlRecOn (motive := fun t => StoppedUnder t n u ((s.core u).stoppedBy n h 6 (word x)) 6) _ _ ?_
    fun t ht v _ => ht.freezeAt v
  have hrecords := State.foldl_leaves State.contour (f := fun r p => r.writeRecord p n) (fun r p => State.writeRecord_contour r p n)
    ((s.pulsedCores h chan die).filterMap (postOf s.pkg.member)).eraseDups s
  obtain ⟨h', hhop', hterms, hcore, a'⟩ := Haltable.of_tapView (State.tapView_of_contour hrecords n u) a hhop
  obtain rfl : h = h' := Option.some.inj (hhop.symm.trans ((State.hop_of_contour hrecords n).symm.trans hhop'))
  rw [← hcore] at hq ha ⊢
  exact a'.tapsReceive_immediate hhop' hkind (by simp [hmode]) hu hphase hq ha hus

/-! ### Sleep and wake (R102) -/

/-- A running core with nothing queued goes to sleep. -/
theorem execCoreSleep_idle {s : State} {u : Uno} {x : Nat} (hkind : kindOf s.pkg.member u = .core) (hpresent : s.present u = true)
    (hawake : (s.core u).asleep = false) (hrun : (s.core u).run = .running) (hq : (s.core u).queue = []) (ha : (s.core u).absorbed = [])
    (hcopy : s.copyNow u = some x) :
    exec (.coreSleep u) s = .next (s.setCore u { s.core u with asleep := true, sleepT := word x }) := by
  change execCoreSleep u s = _
  simp [execCoreSleep, hkind, hpresent, hawake, hrun, hq, ha, hcopy]

theorem execCoreWakeRequest_free {s : State} {u : Uno} (hasleep : (s.core u).asleep = true) (hfree : (s.core u).free = true) :
    exec (.coreWakeRequest u) s = .next (s.setCore u { s.core u with asleep := false, wakeHeld := false, run := .running }) := by
  change execCoreWakeRequest u s = _
  simp [execCoreWakeRequest, hasleep, hfree]

theorem execCoreWakeRequest_held {s : State} {u : Uno} (hasleep : (s.core u).asleep = true) (hheld : (s.core u).free = false) :
    exec (.coreWakeRequest u) s = .next (s.setCore u { s.core u with wakeHeld := true }) := by
  change execCoreWakeRequest u s = _
  simp [execCoreWakeRequest, hasleep, hheld]

/-- A stopped core, with its queue empty, as the statement writes it. -/
theorem Core.stoppedBy_eq (c : Core) (n : Nat) (h : Hop) (code : Nat) (at_ : Time) :
    ({ c with queue := [] } : Core).stoppedBy n h code at_ = { Claims.held c h.platform with
      queue := [], run := .stopped, settled := false, s := at_, cutCode := code, cutS := at_, cutT := h.t
      stops := c.stops.filter (· != n) ++ [n] } := by
  cases hp : h.platform <;> simp [Core.stoppedBy, Core.halt, Core.hold, Claims.held, hp]

/-- Settles O25: a tap takes a HALT by its mode and its copy; of a pulse, what it makes of the other cores is their own. -/
theorem haltAtTheTap : Obligations.HaltAtTheTap := by
  intro s n x d chan die u h c stopped
  refine ⟨fun hrun hawake hother hbound ha hcopy hhop hkind hstatus hu hphase horigin hlive => ?_, ?_, ?_⟩
  · have a : Haltable s h u x := ⟨hrun, hawake, hother, hbound, hcopy, horigin, hlive⟩
    have hstopped (code : Nat) (at_ : Time) (hq : c.queue = []) : (s.core u).stoppedBy n h code at_ = stopped code at_ := by
      refine Eq.trans ?_ (Core.stoppedBy_eq c n h code at_)
      rw [← hq]
    refine ⟨fun hq hpresent hreached hsend => ⟨fun hmode ht => ?_, fun hmode => ?_⟩, fun hq ht hd => ?_,
      fun hq hhops hmode hlane hmask hchan hdie hcarried => ?_⟩
    · obtain ⟨s0, hsend⟩ := Option.isSome_iff_exists.mp hsend
      exact a.execHopMulticast_ahead hhop hstatus hpresent hreached hsend hkind hu hphase hq ha hmode ht
    · obtain ⟨s0, hsend⟩ := Option.isSome_iff_exists.mp hsend
      obtain ⟨t, hexec, ht⟩ := a.execHopMulticast_urgent hhop hstatus hpresent hreached hsend hkind hu hphase hq ha hmode
      exact ⟨t, hexec, ht.core.trans (hstopped 6 (word x) hq), ht.hop⟩
    · obtain ⟨t, hexec, hstop⟩ := a.execTargetTimeMatch_head hhop hq ha ht d
      exact ⟨t, hexec, hstop.core.trans (Core.stoppedBy_eq ..), hstop.hop⟩
    · obtain ⟨t, hexec, ht⟩ := a.execLatticeHaltPulse_core hhops hkind hmode hstatus hu hphase hq ha hlane hmask hchan hdie hcarried
      exact ⟨t, hexec, ht.core.trans (hstopped 6 (word x) hq)⟩
  · exact fun hkind hpresent hawake hrun hq ha hcopy => execCoreSleep_idle hkind hpresent hawake hrun hq ha hcopy
  · exact fun hasleep => ⟨execCoreWakeRequest_free hasleep, execCoreWakeRequest_held hasleep⟩

end Sys2Proof.Machine

/-! SUPPORT. Class instances and the taps that freeze and thaw (R112 to R115, R122). -/

namespace Sys2Proof.Machine

/-! ### A FREEZE or THAW at a core tap -/

/-- A tap that takes the operation at the head of its queue. -/
theorem State.tapApplies_head {s : State} {n : Nat} {h : Hop} {u : Uno} {o : TimedOp} {r : List TimedOp} (hhop : s.hop n = some h)
    (hq : (s.core u).queue = o :: r) (ho : o.hop = n) :
    ∃ code, s.tapApplies n u = (s.setCore u { s.core u with queue := r }).setHop n (h.took u code 3 0) := by
  simp only [State.tapApplies, hq, List.head?_cons, ho, bne_self_eq_false, Bool.false_eq_true, if_false, State.confirmCore,
    State.hopCode_some ((State.setCore_hop ..).trans hhop), List.drop_one, List.tail_cons]
  exact ⟨_, rfl⟩

/-- The instances, and those that HOP n has yet to act on. -/
def State.awaits (s : State) (n : Nat) : Tbl Hold × Option (List Nat) := (s.insts, (s.hop n).map (·.iwait))

theorem State.hopCode_awaits (s : State) (n : Nat) (u : Uno) (code phase delta : Nat) :
    (s.hopCode n u code phase delta).awaits n = s.awaits n := by
  cases hn : s.hop n with
  | none => simp only [State.hopCode, hn]
  | some h =>
    rw [State.hopCode_some hn, State.awaits, State.setHop_self, State.awaits, hn]
    rfl

/-- A core that takes the operation leaves the class instances to their own taps. -/
theorem State.tapApplies_awaits (s : State) (n : Nat) (u : Uno) : (s.tapApplies n u).awaits n = s.awaits n := by
  unfold State.tapApplies
  dsimp only
  split
  · rfl
  · split
    · rfl
    · exact State.hopCode_awaits ..

theorem State.coresApply_awaits (s : State) (n : Nat) (h : Hop) (u : Uno) : (s.coresApply n h u).awaits n = s.awaits n :=
  State.foldl_leaves (fun t : State => t.awaits n) (f := fun t v => t.tapApplies n v) (fun t v => State.tapApplies_awaits t n v) _ s

/-! ### A unit's taps act on a HOP's instances -/

/-- From `s` to `t` the taps of unit `u` have made `f` of the instances of HOP n that they act on, and its core taps have taken a FREEZE or a
THAW that heads their queue. -/
def ActedAt (s t : State) (n : Nat) (u : Uno) (h : Hop) (f : Hold → Hold) : Prop :=
  (∀ k, t.inst (k / 2 ^ 24) (k % 2 ^ 24) = if k ∈ s.actedBy h u then f (s.inst (k / 2 ^ 24) (k % 2 ^ 24)) else
    s.inst (k / 2 ^ 24) (k % 2 ^ 24)) ∧
  ∃ h', t.hop n = some h' ∧ h'.iwait = h.iwait.filter (fun k => !(s.actedBy h u).contains k) ∧
    (h.kind = .halt ∨ s.reached h u = [] → h' = { h with iwait := h'.iwait } ∧ t.cores = s.cores) ∧
    (∀ v o r, h.kind ≠ .halt → s.reached h u = [v] → (s.core v).queue = o :: r → o.hop = n →
      t.core v = { s.core v with queue := r } ∧ (h'.at v).phase = 3)

section
variable (s : State) (n : Nat) (u : Uno) (h : Hop) {f : Hold → Hold} (hf : ∀ x, f (f x) = f x)
include hf

/-- A HALT leaves the cores alone. -/
theorem State.heldBy_acted (hkind : h.kind = .halt) : ActedAt s (s.heldBy n h f (s.actedBy h u)) n u h f :=
  ⟨fun _ => (State.heldBy_inst ..).trans (State.eachInst_inst hf ..), h.acted (s.actedBy h u), State.heldBy_hop .., rfl,
    fun _ => ⟨rfl, State.heldBy_cores ..⟩, fun _ _ _ hother => absurd hkind hother⟩

/-- A FREEZE or THAW goes on to the cores. -/
theorem State.coresApply_acted (hkind : h.kind ≠ .halt) :
    ActedAt s ((s.heldBy n h f (s.actedBy h u)).coresApply n h u) n u h f := by
  have hawaits := State.coresApply_awaits (s.heldBy n h f (s.actedBy h u)) n h u
  simp only [State.awaits, Prod.mk.injEq, State.heldBy_hop, Option.map_some, Option.map_eq_some_iff] at hawaits
  obtain ⟨hinsts, h', hhop', hiwait⟩ := hawaits
  have hreached : (s.heldBy n h f (s.actedBy h u)).reached h u = s.reached h u := by
    rw [State.reached, State.heldBy_frame, State.reached]
  refine ⟨fun k => ?_, h', hhop', hiwait, fun hnone => ?_, fun v o r _ hv hq ho => ?_⟩
  · rw [State.inst, hinsts]
    exact (State.heldBy_inst ..).trans (State.eachInst_inst hf ..)
  · have hstay : (s.heldBy n h f (s.actedBy h u)).coresApply n h u = s.heldBy n h f (s.actedBy h u) := by
      rw [State.coresApply, hreached, hnone.resolve_left hkind, List.foldl_nil]
    rw [hstay] at hhop' ⊢
    obtain rfl := Option.some.inj ((State.heldBy_hop ..).symm.trans hhop')
    exact ⟨rfl, State.heldBy_cores ..⟩
  · have htakes : (s.heldBy n h f (s.actedBy h u)).coresApply n h u = (s.heldBy n h f (s.actedBy h u)).tapApplies n v := by
      rw [State.coresApply, hreached, hv, List.foldl_cons, List.foldl_nil]
    have hqueue : ((s.heldBy n h f (s.actedBy h u)).core v).queue = o :: r := by rw [State.heldBy_core, hq]
    obtain ⟨code, happlies⟩ := State.tapApplies_head (State.heldBy_hop ..) hqueue ho
    rw [htakes, happlies] at hhop' ⊢
    obtain rfl := Option.some.inj ((State.setHop_self ..).symm.trans hhop')
    simp

end

/-! ### The two commands -/

theorem Hold.put_eq (x : Hold) (p : Bool) : x.put p = { x with platform := x.platform || p, context := x.context || !p } := by
  cases p <;> simp [Hold.put]

theorem Hold.drop_eq (x : Hold) (p : Bool) : x.drop p = { x with platform := x.platform && !p, context := false } := by
  cases p <;> simp [Hold.drop]

section
variable {s : State} {n : Nat} {u : Uno} {h : Hop} (hhop : s.hop n = some h) (hdue : s.classDue n h u = true)
include hhop hdue

theorem execClassFreeze_halt (hkind : h.kind = .halt) : exec (.classFreeze n u) s = .next (s.freezeAt n u) := by
  change execClassFreeze n u s = _
  simp [execClassFreeze, hhop, hdue, hkind]

theorem execClassFreeze_freeze (hkind : h.kind = .freeze) :
    exec (.classFreeze n u) s = .next ((s.freezeAt n u).coresApply n h u) := by
  change execClassFreeze n u s = _
  simp [execClassFreeze, hhop, hdue, hkind]

theorem execClassThaw_thaw (hkind : h.kind = .thaw) :
    exec (.classThaw n u) s = .next ((s.releaseAt n (s.actedBy h u)).coresApply n h u) := by
  change execClassThaw n u s = _
  simp [execClassThaw, hhop, hdue, hkind]

end

/-- Settles O26: putting a hold bit twice, or dropping it twice, is as once, so that one listed twice takes it as any other. -/
theorem classFreezeAndThaw : Obligations.ClassFreezeAndThaw := by
  intro s n u h hhop hdue
  have hput : (fun x : Hold => x.put h.platform) = fun x : Hold =>
    { x with platform := x.platform || h.platform, context := x.context || !h.platform } := funext fun x => x.put_eq _
  have hdrop : (fun x : Hold => x.drop h.platform) = fun x : Hold =>
    { x with platform := x.platform && !h.platform, context := false } := funext fun x => x.drop_eq _
  have hputs (x : Hold) : (x.put h.platform).put h.platform = x.put h.platform := x.put_put _
  have hdrops (x : Hold) : (x.drop h.platform).drop h.platform = x.drop h.platform := x.drop_drop _
  refine ⟨?_, fun hkind => ⟨_, execClassThaw_thaw hhop hdue hkind, ?_⟩⟩
  · rintro (hkind | hkind)
    · refine ⟨_, execClassFreeze_halt hhop hdue hkind, ?_⟩
      rw [State.freezeAt_some hhop, ← hput]
      exact State.heldBy_acted s n u h hputs hkind
    · refine ⟨_, execClassFreeze_freeze hhop hdue hkind, ?_⟩
      rw [State.freezeAt_some hhop, ← hput]
      exact State.coresApply_acted s n u h hputs (by simp [hkind])
  · rw [State.releaseAt_some hhop, ← hdrop]
    exact State.coresApply_acted s n u h hdrops (by simp [hkind])

end Sys2Proof.Machine

/-! SUPPORT. Routers and boundary queues (R106, R107, R109, R110, R420). -/

namespace Sys2Proof.Machine

/-! ### Flits -/

/-- A flit that reaches a boundary queue that holds waits there (R110). -/
theorem execFlitParked_holding {s : State} {r : Nat} {f : Flit} {b : Nat} (hb : b = boundKey r ((clusterOf s.pkg.member f.dst).getD 0))
    (hholding : (s.bound b).holding = true) (port : Nat) :
    exec (.flitParked r port f) s = .next (s.setBound b { s.bound b with flits := (s.bound b).flits ++ [f] }) := by
  subst hb
  exact if_pos hholding

/-- A flit for a stopped core whose routers are in scope is parked at the core's port (R106). -/
theorem execFlitParked_port {s : State} {r port : Nat} {u : Uno} {f : Flit}
    (hfree : (s.bound (boundKey r ((clusterOf s.pkg.member f.dst).getD 0))).holding = false)
    (hport : portCore s.pkg.member r port = some u) (hpresent : s.present u = true) (hparks : s.parks u = true)
    (hdst : coreOf s.pkg.member f.dst = some u) : exec (.flitParked r port f) s = .next (s.park r port f) := by
  change execFlitParked r port f s = _
  simp [execFlitParked, hfree, hport, hpresent, hparks, hdst]

/-! ### Boundaries -/

theorem execBoundaryHoldStart_due {s : State} {n r : Nat} {cl : Uno} {h : Hop} (hhop : s.hop n = some h) (hkind : h.kind = .halt)
    (hrouter : kindOf s.pkg.member r = .xbar ∨ kindOf s.pkg.member r = .cnet) (hpresent : s.present r = true)
    (hcluster : kindOf s.pkg.member cl = .cluster) (hscope : s.inScope h.scope cl = true)
    (hdue : h.mode ≠ .contour ∨ s.reachedTime r h.t.toNat = true) (hfree : (s.bound (boundKey r cl)).holding = false) :
    exec (.boundaryHoldStart n r cl) s = .next (s.setBound (boundKey r cl) { holding := true, hop := n }) := by
  change execBoundaryHoldStart n r cl s = _
  simp [execBoundaryHoldStart, hhop, hkind, hrouter, hpresent, hcluster, hscope, hdue, hfree]

/-- A boundary queue that a RESUME releases: it holds for a cluster in scope whose cores run again with nothing parked (R117). -/
def State.releases (s : State) (h : Hop) (e : Nat × Boundary) : Bool :=
  e.2.holding && s.inScope h.scope (e.1 % 0x10000) && (s.clusterCores (e.1 % 0x10000)).all (fun u =>
    (s.core u).run == .running && (corePorts s.pkg.member u).all (fun k => s.rport k.1 k.2 == {}))

theorem execBoundaryRelease_resume {s : State} {n : Nat} {h : Hop} (hhop : s.hop n = some h) (hkind : h.kind = .resume) :
    exec (.boundaryRelease n) s = .next (s.bounds.foldl (fun t e => if s.releases h e then t.setBound e.1 {} else t) s) := by
  change execBoundaryRelease n s = _
  simp only [execBoundaryRelease, hhop, hkind]
  rfl

/-- A list of boundary queues of which some are emptied: one that is stays so. -/
theorem State.foldl_setBound_empty {p : Nat × Boundary → Bool} {l : List (Nat × Boundary)} {e : Nat × Boundary} (he : e ∈ l)
    (hp : p e = true) (s : State) : (l.foldl (fun t e => if p e then t.setBound e.1 {} else t) s).bound e.1 = {} := by
  obtain ⟨before, after, rfl⟩ := List.append_of_mem he
  rw [List.foldl_append, List.foldl_cons, if_pos hp]
  refine List.foldlRecOn (motive := fun t : State => t.bound e.1 = {}) _ _ (State.setBound_self ..) fun t ht a _ => ?_
  split
  · by_cases hkey : e.1 = a.1
    · rw [hkey, State.setBound_self]
    · rw [State.setBound_ne _ _ _ _ hkey, ht]
  · exact ht

/-- Settles O27: the flits by where they are, and a release that empties a boundary queue leaves it empty. -/
theorem routersAndBoundaries : Obligations.RoutersAndBoundaries := by
  intro s r port n u cl f h b
  refine ⟨fun hholding => execFlitParked_holding rfl hholding port, fun hfree hport hpresent hparks hdst => ⟨fun hroom => ?_, fun hfull => ?_⟩,
    fun hhop hkind hrouter hpresent hcluster hscope hdue hfree =>
      execBoundaryHoldStart_due hhop hkind hrouter hpresent hcluster hscope hdue hfree, fun hhop hkind => ?_⟩
  · rw [execFlitParked_port hfree hport hpresent hparks hdst, State.park, if_pos hroom]
  · rw [execFlitParked_port hfree hport hpresent hparks hdst, State.park, if_neg (Nat.not_lt.mpr hfull)]
  · refine ⟨_, execBoundaryRelease_resume hhop hkind, ?_, fun e he hholding hscope hruns => State.foldl_setBound_empty he ?_ s⟩
    · refine State.foldl_leaves (fun t : State => t.cores) (fun t e => ?_) _ s
      split <;> rfl
    · simp only [State.releases, hholding, hscope, Bool.true_and, List.all_eq_true, Bool.and_eq_true, beq_iff_eq]
      exact hruns

end Sys2Proof.Machine

/-! SUPPORT. A stopped core settles, steps and resumes (R108, R114, R116, R117). -/

namespace Sys2Proof.Machine

/-! ### Settling (R108) -/

/-- A HOP at whose core the settling is awaited is confirmed there. -/
def Hop.settledAt (u : Uno) (h : Hop) : Hop := if (h.at u).phase = 2 then h.put u { h.at u with phase := 3 } else h

theorem Hop.settledAt_waiting {u : Uno} {h : Hop} (hphase : (h.at u).phase = 2) : ((h.settledAt u).at u).phase = 3 := by
  rw [Hop.settledAt, if_pos hphase, Hop.at_put_self]

theorem Hop.settledAt_other {u : Uno} {h : Hop} (hphase : (h.at u).phase ≠ 2) : h.settledAt u = h := if_neg hphase

theorem Tbl.get_map_some {α β : Type} (f : α → β) (t : Tbl (Option α)) (k : Nat) :
    Tbl.get none (t.map (fun e => (e.1, e.2.map f))) k = (Tbl.get none t k).map f := by
  induction t with
  | nil => rfl
  | cons e t ih =>
    simp only [List.map_cons, Tbl.get]
    split
    · rfl
    · exact ih

theorem execCoreSettled_drained {s : State} {u : Uno} (hrun : (s.core u).run = .stopped) (hsettled : (s.core u).settled = false) :
    exec (.coreSettled u) s = .next { s.setCore u { s.core u with settled := true } with
      hops := s.hops.map (fun e => (e.1, e.2.map (Hop.settledAt u))) } := by
  have hwaits : ¬((s.core u).run != .stopped || (s.core u).settled) = true := by simp [hrun, hsettled]
  exact if_neg hwaits

/-! ### Steps (R116) -/

/-- A key whose every value becomes the default. -/
theorem Tbl.get_mapVals_default {α : Type} [DecidableEq α] {d : α} {f : Nat → α → α} {k : Nat} (hf : ∀ v, f k v = d) (t : Tbl α) :
    Tbl.get d (Tbl.mapVals d f t) k = d := by
  induction t with
  | nil => rfl
  | cons e t ih =>
    obtain ⟨i, v⟩ := e
    by_cases hk : i = k
    · subst hk
      simp [Tbl.mapVals, hf, ih]
    · by_cases hv : f i v = d
      · simp [Tbl.mapVals, hv, ih]
      · simp [Tbl.mapVals, Tbl.get, hv, hk, ih]

/-- A port that delivers to a core is empty once its parked flits have been delivered (R107). -/
theorem State.deliverParked_rport (s : State) {u : Uno} {k : Nat × Nat} (hk : k ∈ corePorts s.pkg.member u) :
    (s.deliverParked u).rport k.1 k.2 = {} := by
  change Tbl.get {} (Tbl.mapVals {} _ s.rports) (k.1 * 256 + k.2) = {}
  apply Tbl.get_mapVals_default
  exact fun _ => if_pos (List.contains_iff_mem.mpr (List.mem_map_of_mem (List.mem_append_left _ hk)))

/-- The core once the operation at the head of its queue is taken. -/
def Core.tookHead (c : Core) : Core := { c with queue := c.queue.drop 1 }

/-- The core as a STEP starts it. -/
def Core.stepped (c : Core) (n : Nat) : Core := { c.tookHead with run := .stepping n, settled := false }

/-- A core on which no hold of a higher class stands (R114). -/
def Core.obeys (c : Core) (h : Hop) : Prop := h.platform = true ∨ c.holdP = false

theorem execStepStart_due {s : State} {n : Nat} {u : Uno} {h : Hop} {o : TimedOp} (hhop : s.hop n = some h) (hkind : h.kind = .step)
    (hdue : s.dueOp u n = some o) (hawake : (s.core u).asleep = false) (hrun : (s.core u).run = .stopped)
    (hobeys : (s.core u).obeys h) : ∃ code, exec (.stepStart n u) s = .next
      ((((s.setCore u (s.core u).tookHead).setCore u ((s.core u).stepped n)).deliverParked u).hopCode n u code 1 0) := by
  have hfree : (!h.platform && (s.core u).holdP) = false := by
    rcases hobeys with hp | hp <;> simp [hp]
  refine ⟨if o.late then 2 else if (s.copyNow u).isNone then 4 else 0, ?_⟩
  change execStepStart n u s = _
  simp only [execStepStart, hhop, hdue, State.setCore_self]
  rw [if_neg (by simp [hkind]), if_neg (by simp [hawake]), if_neg (by simp [hrun]), if_neg (by simp [hfree])]
  rfl

/-- A STEP goes on until its boundaries can have run (assumption 161). -/
theorem execStepEnd_early {s : State} {n x : Nat} {u : Uno} {h : Hop} (hhop : s.hop n = some h) (hrun : (s.core u).run = .stepping n)
    (hcopy : s.copyNow u = some x) (htime : x < h.t.toNat + stepTime h.steps) : exec (.stepEnd u) s = .next s := by
  change execStepEnd u s = _
  simp [execStepEnd, hhop, hrun, State.tapNow, hcopy, htime]

/-- The core as the end of its STEP stops it (R116, R163). -/
def Core.stepEnded (c : Core) (h : Hop) (code : Nat) (at_ : Time) : Core :=
  { c with run := .stopped, settled := false, s := at_, cutCode := code, cutS := at_, cutT := h.t }

theorem execStepEnd_ends {s : State} {n x : Nat} {u : Uno} {h : Hop} (hhop : s.hop n = some h) (hrun : (s.core u).run = .stepping n)
    (hcopy : s.copyNow u = some x) (htime : h.t.toNat + stepTime h.steps ≤ x) : ∃ code skewed, exec (.stepEnd u) s = .next
      (((s.setCore u ((s.core u).stepEnded h code (word x))).hopCode n u code 2 (s.sinceT n (word x))).hopLateIf skewed n u 2) := by
  have hlate : ¬s.tapNow u < h.t.toNat + stepTime h.steps := by simpa [State.tapNow, hcopy] using htime
  refine ⟨s.startCode u false (h.at u).code, (s.copyNow u).isNone || (s.copy u).oob, ?_⟩
  change execStepEnd u s = _
  simp only [execStepEnd, hrun, hhop, if_neg hlate, hcopy]
  rfl

/-! ### Resumes (R117) -/

/-- The instances that a release stage frees. -/
def Hop.stageInsts (h : Hop) (stage : Nat) : List Nat := h.iwait.filter (fun k => (stageClasses stage).contains (k / 0x1000000))

/-- A stage's instances released. -/
def State.stageFreed (s : State) (n : Nat) (h : Hop) (stage : Nat) : State := s.heldBy n h (fun x => x.drop h.platform) (h.stageInsts stage)

/-- At −8 ns the routers deliver what was parked for the cores that the RESUME frees. -/
def State.stageDelivers (s : State) (h : Hop) (stage : Nat) : State :=
  if stage = 2 then h.cores.foldl (fun t u =>
    if (t.core u).run == .stopped && ((t.core u).unhold h.platform).free then t.deliverParked u else t) s else s

/-- What a stage makes of the state: at T_r the cores start, and chains may be armed again (R142). -/
def State.staged (s : State) (n : Nat) (h : Hop) (stage d : Nat) : State :=
  if stage = 3 then (h.cores.foldl (fun t u => t.resumeCore n h d u) ((s.stageFreed n h stage).stageDelivers h stage)).rearmChains
  else (s.stageFreed n h stage).stageDelivers h stage

theorem execResumeRelease_due {s : State} {n stage : Nat} {h : Hop} (hhop : s.hop n = some h) (hkind : h.kind = .resume)
    (hdue : s.stageDue h.t stage = true) (d : Nat) : exec (.resumeRelease n stage d) s = .next (s.staged n h stage d) := by
  change execResumeRelease n stage d s = _
  have hwaits : ¬(h.kind != .resume || !s.stageDue h.t stage) = true := by simp [hkind, hdue]
  simp only [execResumeRelease, hhop, if_neg hwaits, State.releaseAt_some hhop]
  rfl

theorem State.stageDelivers_contour (s : State) (h : Hop) (stage : Nat) : (s.stageDelivers h stage).contour = s.contour := by
  unfold State.stageDelivers
  split
  · refine State.foldl_leaves State.contour (fun t u => ?_) _ s
    split <;> rfl
  · rfl

theorem State.resumeCore_insts (s : State) (n : Nat) (h : Hop) (d : Nat) (u : Uno) : (s.resumeCore n h d u).insts = s.insts := by
  unfold State.resumeCore
  split
  · rfl
  · dsimp only
    repeat' split
    all_goals simp [State.confirmCore]

theorem State.staged_cores (s : State) (n : Nat) (h : Hop) {stage : Nat} (hstage : stage ≠ 3) (d : Nat) :
    (s.staged n h stage d).cores = s.cores := by
  rw [State.staged, if_neg hstage, State.cores_of_contour (State.stageDelivers_contour ..)]
  exact State.heldBy_cores ..

theorem State.staged_insts (s : State) (n : Nat) (h : Hop) (stage d : Nat) :
    (s.staged n h stage d).insts = (s.stageFreed n h stage).insts := by
  have hdelivers : ((s.stageFreed n h stage).stageDelivers h stage).insts = (s.stageFreed n h stage).insts :=
    State.insts_of_contour (State.stageDelivers_contour ..)
  unfold State.staged
  split
  · exact (State.foldl_leaves (fun t : State => t.insts) (fun t u => State.resumeCore_insts t n h d u) _ _).trans hdelivers
  · exact hdelivers

/-- The instances of a due stage are held by no context, and by the platform only where the RESUME is not of its class. -/
theorem State.stageFreed_inst (s : State) (n : Nat) (h : Hop) {stage k : Nat} (hk : k ∈ h.iwait)
    (hclass : (stageClasses stage).contains (k / 2 ^ 24) = true) :
    (s.stageFreed n h stage).inst (k / 2 ^ 24) (k % 2 ^ 24) = (s.inst (k / 2 ^ 24) (k % 2 ^ 24)).drop h.platform := by
  have hmem : k ∈ h.stageInsts stage := List.mem_filter.mpr ⟨hk, hclass⟩
  refine (State.heldBy_inst ..).trans ((State.eachInst_inst (fun x => x.drop_drop _) ..).trans ?_)
  rw [if_pos hmem]
  rfl

theorem Core.unhold_holds {c : Core} {h : Hop} (hobeys : c.obeys h) :
    (c.unhold h.platform).holdP = false ∧ (c.unhold h.platform).holdC = false := by
  rcases hobeys with hp | hp
  · rw [hp]
    exact ⟨rfl, rfl⟩
  · cases h.platform <;> simp [Core.unhold, hp]

/-- The core as a RESUME starts it (R102, R117, R163). -/
def Core.resumed (c : Core) (h : Hop) (code : Nat) (start : Time) : Core := { c.tookHead.unhold h.platform with
  run := .running, settled := true, precise := none, stops := [], cutCode := code, cutS := start, cutT := h.t }

/-- At T_r a stopped core whose holds the RESUME clears runs (R117). -/
theorem State.resumeCore_starts {s : State} {n : Nat} {u : Uno} {h : Hop} {o : TimedOp} (hdue : s.dueOp u n = some o)
    (hawake : (s.core u).asleep = false) (hrun : (s.core u).run = .stopped) (hobeys : (s.core u).obeys h) (d : Nat) :
    ∃ code start, (s.resumeCore n h d u).core u = (s.core u).resumed h code start := by
  obtain ⟨hplatform, hcontext⟩ := Core.unhold_holds (c := (s.core u).tookHead) hobeys
  have hfree : ((s.core u).tookHead.unhold h.platform).free = true := by
    rw [Core.free, hplatform, hcontext]
    rfl
  have hstarts : ∃ code start delta, s.resumeCore n h d u =
      ((s.setCore u (s.core u).tookHead).setCore u ((s.core u).resumed h code start)).hopCode n u code 3 delta := by
    simp only [State.resumeCore, hdue]
    rw [if_neg (by simp [hawake]), if_neg (by simp [hrun])]
    exact ⟨_, _, _, if_pos hfree⟩
  obtain ⟨code, start, delta, hstarts⟩ := hstarts
  exact ⟨code, start, by rw [hstarts, State.hopCode_core, State.setCore_self]⟩

/-- The due operation of a tap lies in its queue and in its copy. -/
theorem State.dueOp_congr {s t : State} {u : Uno} (hcore : t.core u = s.core u) (hcopy : t.copyNow u = s.copyNow u) (n : Nat) :
    t.dueOp u n = s.dueOp u n := by
  simp only [State.dueOp, State.reachedTime, hcore, hcopy]

theorem State.heldBy_copyNow (s : State) (n : Nat) (h : Hop) (f : Hold → Hold) (ks : List Nat) (u : Uno) :
    (s.heldBy n h f ks).copyNow u = s.copyNow u :=
  State.copyNow_congr (by rw [State.heldBy_frame]) (by rw [State.heldBy_frame]) (by rw [State.heldBy_frame]) u

/-- Settles O28: what was parked for a core stands in its own ports, and a release stage frees its classes before the cores start. -/
theorem settleStepResume : Obligations.SettleStepResume := by
  intro s n x stage d u h o hhop c
  refine ⟨fun hrun hsettled => ?_, fun hkind hdue hawake hrun hobeys => ?_, fun hrun hcopy htime => execStepEnd_early hhop hrun hcopy htime,
    fun hrun hcopy htime => ?_, fun hkind hdue => ⟨?_, ?_⟩⟩
  · refine ⟨_, h.settledAt u, execCoreSettled_drained hrun hsettled, ?_, ?_, Hop.settledAt_waiting, Hop.settledAt_other⟩
    · exact congrArg Core.settled (State.setCore_self s u _)
    · exact (Tbl.get_map_some ..).trans (congrArg (Option.map _) hhop)
  · obtain ⟨code, hexec⟩ := execStepStart_due hhop hkind hdue hawake hrun hobeys
    refine ⟨_, hexec, ?_, fun k hk => ?_⟩
    · rw [State.hopCode_core, State.core_of_contour (State.deliverParked_contour ..), State.setCore_self]
      rfl
    · rw [State.rport, State.hopCode_frame]
      exact State.deliverParked_rport _ hk
  · obtain ⟨code, skewed, hexec⟩ := execStepEnd_ends hhop hrun hcopy htime
    refine ⟨_, hexec, ?_⟩
    rw [State.core_of_contour (State.hopLateIf_contour ..), State.hopCode_core, State.setCore_self]
    exact ⟨rfl, rfl, rfl, rfl⟩
  · refine ⟨_, execResumeRelease_due hhop hkind hdue d, fun hstage => State.staged_cores s n h hstage d, fun k hk hclass => ?_⟩
    have hdrop : (s.staged n h stage d).inst (k / 2 ^ 24) (k % 2 ^ 24) = (s.inst (k / 2 ^ 24) (k % 2 ^ 24)).drop h.platform := by
      rw [State.inst, State.staged_insts]
      exact State.stageFreed_inst s n h hk hclass
    rw [hdrop, Hold.drop_eq]
    exact ⟨rfl, fun hp => by simp [hp]⟩
  · rintro rfl hcores hop hawake hrun hobeys
    have hstage : s.staged n h 3 d = ((s.stageFreed n h 3).resumeCore n h d u).rearmChains := by
      rw [State.staged, hcores]
      rfl
    have hcore : (s.stageFreed n h 3).core u = s.core u := State.heldBy_core ..
    obtain ⟨code, start, hstarts⟩ := State.resumeCore_starts (s := s.stageFreed n h 3)
      ((State.dueOp_congr hcore (State.heldBy_copyNow ..) n).trans hop) (by rw [hcore, hawake]) (by rw [hcore, hrun])
      (by rw [hcore]; exact hobeys) d
    refine ⟨_, execResumeRelease_due hhop hkind hdue d, ?_⟩
    obtain ⟨hplatform, hcontext⟩ := Core.unhold_holds (c := c.tookHead) hobeys
    rw [hstage, State.core_of_contour (State.rearmChains_contour _), hstarts, hcore]
    exact ⟨rfl, hplatform, hcontext, rfl⟩

end Sys2Proof.Machine

/-! SUPPORT. A command's HOP completes (R108, R118 to R121): confirmations that the issuer takes, and the deadline. -/

namespace Sys2Proof.Machine

/-! ### Flags (R108, R118) -/

/-- Flags of cores and objects are none of the HOPs. -/
theorem State.hopFlags_hop (s : State) (h : Hop) (n : Nat) : (s.hopFlags h).hop n = s.hop n := by
  rw [State.hopFlags, State.hop_of_contour (State.flaggedFrom_contour ..)]
  split
  case h_4 => rfl
  all_goals
    refine (State.foldl_leaves (fun t : State => t.hop n) (fun t o => ?_) _ _).trans
      (State.foldl_leaves (fun t : State => t.hop n) (fun t u => ?_) _ _)
    all_goals
      dsimp only
      split <;> rfl

/-- A HALT sets HALTED at its settled stopped core. -/
theorem State.hopFlags_halted {s : State} {h : Hop} {u : Uno} (hkind : h.kind = .halt) (hcores : h.cores = [u])
    (hrun : (s.core u).run = .stopped) (hsettled : (s.core u).settled = true) : ((s.hopFlags h).core u).halted = true := by
  rw [State.hopFlags, State.core_of_contour (State.flaggedFrom_contour ..)]
  simp only [hkind, hcores, List.foldl_cons, List.foldl_nil]
  rw [State.foldl_leaves (fun t : State => t.core u) (fun t o => by split <;> rfl), if_pos (by simp [hrun, hsettled]), State.setCore_self]

/-! ### Completion (R121) -/

/-- The HOP with its status and DONE time. -/
def Hop.completed (h : Hop) (status : Nat) (now : Time) : Hop := { h with status := status, doneT := if status = 4 then 0 else now }

section
variable {s : State} {n : Nat} {h : Hop} {sess : Nat} {tag : Word} {qq : Option Nat} (hhop : s.hop n = some h)
  (horigin : h.origin = .command sess tag qq)
include hhop horigin

/-- A command's HOP completes with its flags and an event for its session, which is none of the contour. -/
theorem State.completeHop_command (status : Nat) : (s.completeHop n status).contour =
    ((s.setHop n (h.completed status s.pkg.meridian)).hopFlags (h.completed status s.pkg.meridian)).contour := by
  unfold State.completeHop
  rw [hhop]
  dsimp only
  split
  · exact State.emit_contour ..
  all_goals next hother => cases horigin.symm.trans hother

theorem State.completeHop_hop (status : Nat) : (s.completeHop n status).hop n = some (h.completed status s.pkg.meridian) := by
  rw [State.hop_of_contour (State.completeHop_command hhop horigin status), State.hopFlags_hop, State.setHop_self]

end

/-! ### Halves (R125) -/

/-- Steps that each change the halves of a HOP alone. -/
theorem Hop.foldl_halves {g : Hop → Nat → Hop} (hg : ∀ a p, g a p = { a with halves := (g a p).halves }) (l : List Nat) (h : Hop) :
    l.foldl g h = { h with halves := (l.foldl g h).halves } := by
  induction l generalizing h with
  | nil => rfl
  | cons p l ih =>
    rw [List.foldl_cons]
    refine (ih (g h p)).trans ?_
    rw [hg h p]

theorem State.halfDone_frame (s : State) (h : Hop) : s.halfDone h = { h with halves := (s.halfDone h).halves } :=
  Hop.foldl_halves (fun a p => by dsimp only; split <;> rfl) _ h

@[simp] theorem State.halfDone_at (s : State) (h : Hop) (u : Uno) : (s.halfDone h).at u = h.at u := by
  rw [State.halfDone_frame]
  rfl

@[simp] theorem State.halfDone_cores (s : State) (h : Hop) : (s.halfDone h).cores = h.cores := by rw [State.halfDone_frame]
@[simp] theorem State.halfDone_iwait (s : State) (h : Hop) : (s.halfDone h).iwait = h.iwait := by rw [State.halfDone_frame]
@[simp] theorem State.halfDone_kind (s : State) (h : Hop) : (s.halfDone h).kind = h.kind := by rw [State.halfDone_frame]
@[simp] theorem State.halfDone_origin (s : State) (h : Hop) : (s.halfDone h).origin = h.origin := by rw [State.halfDone_frame]

/-! ### The last confirmation (R118) -/

/-- The status that the code of a HOP's one core gives (R121). -/
def soleStatus (code : Nat) : Nat := if codePartial code then 5 else if codeLate code then 3 else 2

theorem Hop.statusOf_sole {h : Hop} {u : Uno} (hphase : (h.at u).phase = 4) (hcode : (h.at u).code ≠ 8) :
    h.statusOf [u] = soleStatus (h.at u).code := by
  simp [Hop.statusOf, hphase, hcode, soleStatus]

theorem Hop.at_confirmed {h : Hop} {u : Uno} (hown : (h.at u).own = none) :
    (h.confirmed u).at u = { h.at u with phase := 4, own := none } := by
  rw [Hop.confirmed, Hop.at_put_self, hown]
  rfl

theorem execHopConfirmation_last {s : State} {n : Nat} {u : Uno} {h : Hop} (hhop : s.hop n = some h) (hstatus : h.status = 1)
    (hlive : s.pkg.bothDead = false) (hcores : h.cores = [u]) (hreached : s.reached h u = [u]) (hphase : (h.at u).phase = 3)
    (hown : (h.at u).own = none) (hiwait : h.iwait = []) : exec (.hopConfirmation n u) s =
      .next ((s.setHop n (s.halfDone (h.confirmed u))).completeHop n ((s.halfDone (h.confirmed u)).statusOf [u])) := by
  have hcores1 : (h.confirmed u).cores = [u] := hcores
  have hiwait1 : (h.confirmed u).iwait = [] := hiwait
  have hcomplete : (s.halfDone (h.confirmed u)).complete = true := by
    simp [Hop.complete, hcores1, hiwait1, Hop.at_confirmed hown]
  change execHopConfirmation n u s = _
  simp [execHopConfirmation, hhop, hreached, hphase, hstatus, hcomplete, State.issuerGone, hlive, hcores1]

/-! ### The deadline (R119) -/

/-- What the deadline makes of a core's result: UNCONFIRMED where the issuer has taken none and the core has not stopped to settle. -/
def HopCore.overdue (k : HopCore) : HopCore :=
  match k.phase with
  | 0 | 1 => { k with code := 8 }
  | 3 => { k with code := 8, own := some k.code }
  | _ => k

theorem Hop.at_overdue (h : Hop) (u k : Uno) : (h.overdue u).at k = if k = u then (h.at k).overdue else h.at k := by
  by_cases hk : k = u
  · subst hk
    rw [if_pos rfl]
    unfold Hop.overdue
    dsimp only
    split <;> simp [HopCore.overdue, *]
  · rw [if_neg hk]
    unfold Hop.overdue
    dsimp only
    split <;> simp [Hop.at_put_ne _ _ hk]

theorem HopCore.overdue_phase (k : HopCore) : k.overdue.phase = k.phase := by
  unfold HopCore.overdue
  split <;> rfl

theorem HopCore.overdue_unconfirmed {k : HopCore} (h : k.phase < 2 ∨ k.phase = 3) : k.overdue.code = 8 := by
  have hphase : k.phase = 0 ∨ k.phase = 1 ∨ k.phase = 3 := by omega
  rcases hphase with hp | hp | hp <;> simp [HopCore.overdue, hp]

theorem HopCore.overdue_settling {k : HopCore} (h : k.phase = 2) : k.overdue = k := by simp [HopCore.overdue, h]

theorem HopCore.overdue_stays {k : HopCore} (h : k.code = 8) : k.overdue.code = 8 := by
  unfold HopCore.overdue
  split
  · rfl
  · rfl
  · rfl
  · exact h

/-- A core whose confirmation the issuer has not taken is UNCONFIRMED once its turn has come. -/
theorem Hop.overdues_unconfirmed {us : List Uno} {k : Uno} (hk : k ∈ us) {h : Hop} (hphase : (h.at k).phase < 2 ∨ (h.at k).phase = 3) :
    ((us.foldl (fun a u => a.overdue u) h).at k).code = 8 := by
  obtain ⟨before, after, rfl⟩ := List.append_of_mem hk
  have hbefore : ((before.foldl (fun a u => a.overdue u) h).at k).phase = (h.at k).phase := by
    refine List.foldlRecOn (motive := fun a : Hop => (a.at k).phase = (h.at k).phase) _ _ rfl fun a ha u _ => ?_
    rw [Hop.at_overdue]
    split
    · rw [HopCore.overdue_phase, ha]
    · exact ha
  rw [List.foldl_append, List.foldl_cons]
  refine List.foldlRecOn (motive := fun a : Hop => (a.at k).code = 8) _ _ ?_ fun a ha u _ => ?_
  · rw [Hop.at_overdue, if_pos rfl]
    exact HopCore.overdue_unconfirmed (hbefore ▸ hphase)
  · rw [Hop.at_overdue]
    split
    · exact HopCore.overdue_stays ha
    · exact ha

/-- One that has stopped and not settled keeps its result. -/
theorem Hop.overdues_settling (us : List Uno) {k : Uno} {h : Hop} (hphase : (h.at k).phase = 2) :
    (us.foldl (fun a u => a.overdue u) h).at k = h.at k := by
  refine List.foldlRecOn (motive := fun a : Hop => a.at k = h.at k) _ _ rfl fun a ha u _ => ?_
  rw [Hop.at_overdue, ha, HopCore.overdue_settling hphase, ite_self]

/-- The HOP as the deadline leaves it: its cores overdue, and its unfinished halves with the status that they then have and DONE time 0. -/
def State.pastDue (s : State) (h : Hop) : Hop :=
  ((h.cores.filterMap (postOf s.pkg.member)).eraseDups).foldl (fun a p => if (Tbl.get none a.halves p).isNone then
    { a with halves := Tbl.set none a.halves p (some (a.statusOf (hopHalf s.pkg.member a p), 0)) } else a)
    (h.cores.foldl (fun a u => a.overdue u) h)

theorem State.pastDue_frame (s : State) (h : Hop) :
    s.pastDue h = { h.cores.foldl (fun a u => a.overdue u) h with halves := (s.pastDue h).halves } :=
  Hop.foldl_halves (fun a p => by split <;> rfl) _ _

theorem State.pastDue_at (s : State) (h : Hop) (k : Uno) : (s.pastDue h).at k = (h.cores.foldl (fun a u => a.overdue u) h).at k := by
  rw [State.pastDue_frame]
  rfl

theorem Hop.overdue_origin (h : Hop) (u : Uno) : (h.overdue u).origin = h.origin := by
  unfold Hop.overdue
  dsimp only
  split <;> rfl

theorem State.pastDue_origin (s : State) (h : Hop) : (s.pastDue h).origin = h.origin := by
  rw [State.pastDue_frame]
  exact List.foldlRecOn (motive := fun a : Hop => a.origin = h.origin) _ _ rfl fun a ha u _ => (Hop.overdue_origin a u).trans ha

/-- At its deadline a HOP is reported where it is overdue, and completes with DEADLINE. -/
theorem execHopDeadline_due {s : State} {n : Nat} {h : Hop} (hhop : s.hop n = some h) (hstatus : h.status = 1)
    (hlive : s.pkg.bothDead = false) (hdue : h.deadlineFrom + 1000 * h.deadline ≤ s.now) :
    ∃ t : State, t.contour = (s.setHop n (s.pastDue h)).contour ∧ exec (.hopDeadline n) s = .next (t.completeHop n 4) := by
  have hwaits : ¬(h.status ≠ 1 || decide (s.now < h.deadlineFrom + 1000 * h.deadline) || s.issuerGone h) = true := by
    simp [hstatus, State.issuerGone, hlive, hdue]
  have hlate (code : Nat) (us : List Uno) (t : State) : (us.foldl (fun t u => t.postLate n u code) t).contour = t.contour :=
    State.foldl_leaves State.contour (fun t u => State.postLate_contour t n u code) us t
  refine ⟨_, (hlate 4 (h.cores.filter (fun u => (h.at u).phase == 2)) _).trans
    (hlate 3 (h.cores.filter (fun u => (h.at u).phase != 2 && (h.at u).phase != 4)) _), ?_⟩
  change execHopDeadline n s = _
  simp only [execHopDeadline, hhop, if_neg hwaits]
  rfl

/-- Settles O29: the last confirmation gives the HOP the status of its code, and the deadline leaves a core's own code only where the core
has stopped to settle. -/
theorem hopCompletion : Obligations.HopCompletion := by
  intro s n sess tag qq u h hhop hstatus hlive horigin
  refine ⟨fun hcores hreached hphase hown hiwait => ?_, fun hdue => ?_⟩
  · have horigin1 : (s.halfDone (h.confirmed u)).origin = .command sess tag qq := (State.halfDone_origin ..).trans horigin
    have hhop1 := State.setHop_self s n (s.halfDone (h.confirmed u))
    have hat : (s.halfDone (h.confirmed u)).at u = { h.at u with phase := 4, own := none } :=
      (State.halfDone_at ..).trans (Hop.at_confirmed hown)
    refine ⟨_, _, execHopConfirmation_last hhop hstatus hlive hcores hreached hphase hown hiwait,
      State.completeHop_hop hhop1 horigin1 _, fun hcode => ?_, fun hkind hrun hsettled => ?_⟩
    · have hsole : (s.halfDone (h.confirmed u)).statusOf [u] = soleStatus (h.at u).code := by
        rw [Hop.statusOf_sole (by rw [hat]) (by rw [hat]; exact hcode), hat]
      have hnot4 : soleStatus (h.at u).code ≠ 4 := by
        unfold soleStatus
        split
        · decide
        · split <;> decide
      rw [hsole]
      exact ⟨if_neg hnot4, rfl⟩
    · rw [State.core_of_contour (State.completeHop_command hhop1 horigin1 _)]
      exact State.hopFlags_halted ((State.halfDone_kind ..).trans hkind) ((State.halfDone_cores ..).trans hcores) hrun hsettled
  · obtain ⟨t, ht, hexec⟩ := execHopDeadline_due hhop hstatus hlive hdue
    have hhop1 : t.hop n = some (s.pastDue h) := (State.hop_of_contour ht n).trans (State.setHop_self ..)
    refine ⟨_, _, hexec, State.completeHop_hop hhop1 ((State.pastDue_origin ..).trans horigin) 4, rfl, rfl, fun k hk hphase => ?_,
      fun k _ hphase => ?_⟩
    · exact (congrArg HopCore.code (State.pastDue_at s h k)).trans (Hop.overdues_unconfirmed hk hphase)
    · exact congrArg HopCore.code ((State.pastDue_at s h k).trans (Hop.overdues_settling _ hphase))

end Sys2Proof.Machine

/-! SUPPORT. Chains (R135 to R138): a stage met, the last stage's fire with an event action, and what brings a source to a chain. -/

namespace Sys2Proof.Machine

/-! ### A stage is met (R136, R137) -/

/-- The chain copy at a key watches for a source of a set at its current stage, and no stage of it was met in this cycle. -/
def State.Meets (s : State) (key slot src cyc : Nat) : Prop :=
  (s.chain key).owner = some slot ∧ (s.chain key).watching = true ∧ stageSrc (s.chain key).stageWord = src ∧
    (s.chain key).metT ≠ some (s.pkg.meridian, cyc) ∧ s.cntCond (key / 16) (s.chain key) slot = true

/-- The chain copy at a key with its next stage current. -/
def State.advanced (s : State) (key cyc : Nat) : State :=
  s.setChain key { s.chain key with stage := (s.chain key).stage + 1, metT := some (s.pkg.meridian, cyc) }

theorem State.stageMatch_unowned {s : State} {key : Nat} (h : (s.chain key).owner = none) (slot src : Nat) (u : Uno) (cyc : Nat) :
    s.stageMatch key slot src u cyc = (s, false) := by
  simp [State.stageMatch, h]

section
variable {s : State} {key slot src cyc : Nat} (m : s.Meets key slot src cyc)
include m

theorem State.Meets.stageMatch (u : Uno) : s.stageMatch key slot src u cyc =
    if (s.chain key).stage + 1 = actStages (s.chain key).act.toNat then (s.fire key u cyc, true) else (s.advanced key cyc, false) := by
  obtain ⟨howner, hwatching, hsrc, hmet, hcond⟩ := m
  have hall : ((s.chain key).owner == some slot && (s.chain key).watching && stageSrc (s.chain key).stageWord == src &&
      (s.chain key).metT != some (s.pkg.meridian, cyc) && s.cntCond (key / 16) (s.chain key) slot) = true := by
    simp [howner, hwatching, hsrc, hmet, hcond]
  exact if_pos hall

theorem State.Meets.stageMatch_last (u : Uno) (hlast : (s.chain key).stage + 1 = actStages (s.chain key).act.toNat) :
    (s.stageMatch key slot src u cyc).1 = s.fire key u cyc := by
  rw [m.stageMatch, if_pos hlast]

theorem State.Meets.stageMatch_early (u : Uno) (hearly : (s.chain key).stage + 1 ≠ actStages (s.chain key).act.toNat) :
    (s.stageMatch key slot src u cyc).1 = s.advanced key cyc := by
  rw [m.stageMatch, if_neg hearly]

end

/-! ### A station's source (R135) -/

/-- Where only one item of a list changes a state, the fold is that item's change. -/
theorem State.foldl_only {α : Type} {f : State → α → State} {l : List α} {k : α} (hk : k ∈ l) (hn : l.Nodup) {s : State}
    (hbefore : ∀ a ∈ l, a ≠ k → f s a = s) (hafter : ∀ a ∈ l, a ≠ k → f (f s k) a = f s k) : l.foldl f s = f s k := by
  obtain ⟨l₁, l₂, rfl⟩ := List.append_of_mem hk
  rw [List.nodup_middle, List.nodup_cons, List.mem_append, not_or] at hn
  obtain ⟨⟨hk₁, hk₂⟩, -⟩ := hn
  have stays {l : List α} {t : State} (h : ∀ a ∈ l, f t a = t) : l.foldl f t = t :=
    List.foldlRecOn (motive := (· = t)) l f rfl fun r hr a ha => hr ▸ h a ha
  rw [List.foldl_append, List.foldl_cons, stays fun a ha => hbefore a (by simp [ha]) fun e => hk₁ (e ▸ ha)]
  exact stays fun a ha => hafter a (by simp [ha]) fun e => hk₂ (e ▸ ha)

/-- At a holder with one owned chain, a source changes nothing but that chain's stage. -/
theorem State.Meets.sourceAt {s : State} {holder slot src cyc n k : Nat} (m : s.Meets (holder * 16 + k) slot src cyc) (hk : k < n)
    (hothers : ∀ j, j < n → j ≠ k → (s.chain (holder * 16 + j)).owner = none) (u : Uno)
    (hearly : (s.chain (holder * 16 + k)).stage + 1 ≠ actStages (s.chain (holder * 16 + k)).act.toNat) :
    s.sourceAt holder slot src u n cyc = s.advanced (holder * 16 + k) cyc := by
  rw [← m.stageMatch_early u hearly]
  refine State.foldl_only (f := fun t j => (t.stageMatch (holder * 16 + j) slot src u cyc).1) (mem_rangeFrom.mpr (by omega))
    (nodup_rangeFrom 0 n) (fun j hj hne => ?_) (fun j hj hne => ?_)
  · rw [State.stageMatch_unowned (hothers j (by have := mem_rangeFrom.mp hj; omega) hne)]
  · have hother := hothers j (by have := mem_rangeFrom.mp hj; omega) hne
    rw [m.stageMatch_early u hearly, State.stageMatch_unowned]
    rwa [State.advanced, State.setChain_ne _ _ _ _ (by omega)]

theorem execScmpMatch_hit {s : State} {cl n cyc : Nat} {ev : ScmpEvent} {u : Uno} {slot : Nat} (hn : n < 8)
    (hkind : kindOf s.pkg.member cl = .cluster) (hpresent : s.present cl = true)
    (hacts : s.acts (s.cmp (cmpKey cl (8 + n))).ctl.toNat cl = true) (hhit : s.scmpHit cl (s.cmp (cmpKey cl (8 + n))) ev = some u)
    (howner : (s.cmp (cmpKey cl (8 + n))).owner = some slot) :
    execScmpMatch cl n ev cyc s = .next (s.sourceAt cl slot (s.cmp (cmpKey cl (8 + n))).elem u 4 cyc) := by
  simp [execScmpMatch, hn, hkind, hpresent, hacts, hhit, howner]

/-! ### A fire with an event action (R138) -/

/-- The record that a set's half keeps of its fires takes one on a unit. -/
def SetHalf.fired (v : SetHalf) (now : Time) (u : Uno) : SetHalf := { fires := sat32 v.fires 1, last := now, who := u }

/-- The chain copy as it restarts after a fire that neither halts nor is suppressed. -/
def Chain.fired (c : Chain) (now : Time) (cyc : Nat) : Chain := { c with fires := sat32 c.fires 1, stage := 0, metT := some (now, cyc) }

/-- A fire as the chain and its half of the set count it, before the action. -/
def State.fireCounted (s : State) (key slot p : Nat) (u : Uno) (cyc : Nat) : State :=
  ({ s with halves := Tbl.set {} s.halves (slot * 128 + p) ((Tbl.get ({} : SetHalf) s.halves (slot * 128 + p)).fired s.pkg.meridian u) }).setChain
    key ((s.chain key).fired s.pkg.meridian cyc)

/-- The event action of a chain that rearms does no more than count and set event CHAIN. -/
theorem State.fire_event {s : State} {key slot p : Nat} {x : TrigSet} (howner : (s.chain key).owner = some slot)
    (hset : s.trigSet slot = some x) (hpost : postOf s.pkg.member (key / 16) = some p)
    (haction : actAction (s.chain key).act.toNat = 6) (hrearm : actRearm (s.chain key).act.toNat = true) (u : Uno) (cyc : Nat) :
    s.fire key u cyc = (s.fireCounted key slot p u cyc).chainEvent x.owner := by
  simp [State.fire, State.fireCounted, SetHalf.fired, Chain.fired, howner, hset, hpost, haction, hrearm, Elem.isHalt]

theorem State.chainEvent_frame (s : State) (owner : Nat) : s.chainEvent owner = { s with engines := (s.chainEvent owner).engines } :=
  List.foldlRecOn (motive := fun t : State => t = { s with engines := t.engines }) _ _ rfl fun t ht e _ => by
    rw [State.engineEvent_eq, ht]

/-- A read of a table is the default or a listed value. -/
theorem Tbl.get_default_or_mem {α : Type} (d : α) (t : Tbl α) (k : Nat) : Tbl.get d t k = d ∨ (k, Tbl.get d t k) ∈ t := by
  induction t with
  | nil => exact .inl rfl
  | cons e r ih =>
    obtain ⟨i, v⟩ := e
    by_cases hk : i = k
    · simp [Tbl.get, hk]
    · simpa [Tbl.get, hk, Ne.symm hk] using ih

/-- An event once set stays set as others are. -/
theorem State.engineEvent_stays {s : State} {k i : Nat} (h : (s.engine k).events.getLsbD i = true) (e bit : Nat) :
    ((s.engineEvent e bit).engine k).events.getLsbD i = true := by
  obtain ⟨v, hv⟩ := State.engineEvent_engine s e bit k
  rw [hv, Engine.pend, BitVec.getLsbD_or, h, Bool.true_or]

theorem State.engineEvent_chain (s : State) (e : Nat) : ((s.engineEvent e 3).engine e).events.getLsbD 3 = true := by
  simp [State.engineEvent]

/-- Every engine of the owner sees CHAIN (Table QE-5). -/
theorem State.chainEvent_seen {s : State} {owner e : Nat} (h : (s.engine e).owner = some owner) :
    ((s.chainEvent owner).engine e).events.getLsbD 3 = true := by
  have hlisted : (e, s.engine e) ∈ s.engines.filter (fun g => g.2.owner == some owner) := by
    refine List.mem_filter.mpr ⟨(Tbl.get_default_or_mem ({} : Engine) s.engines e).resolve_left fun hnone => ?_, by simp [h]⟩
    rw [State.engine, hnone] at h
    exact nomatch h
  obtain ⟨l₁, l₂, hl⟩ := List.append_of_mem hlisted
  rw [State.chainEvent, hl, List.foldl_append, List.foldl_cons]
  exact List.foldlRecOn (motive := fun t : State => (t.engine e).events.getLsbD 3 = true) _ _ (State.engineEvent_chain ..)
    fun t ht g _ => State.engineEvent_stays ht g.1 3

/-! ### Sources and windows of one chain (R136, R137) -/

section
variable {s : State} {h : Holder} {k : Nat}

theorem execStageSourceArrival_arrives {slot src cyc : Nat} {us : List Uno} {u : Uno} (hk : k < (holderUnit h).2)
    (howner : (s.chain ((holderUnit h).1 * 16 + k)).owner = some slot) (hmin : (us.filter (s.arrives h slot src)).min? = some u) :
    execStageSourceArrival h k src us cyc s = .next (s.stageMatch ((holderUnit h).1 * 16 + k) slot src u cyc).1 := by
  simp only [execStageSourceArrival, howner, hmin, if_pos hk]

theorem execChainWindowExpiry_passed (hk : k < (holderUnit h).2) (hwatching : (s.chain ((holderUnit h).1 * 16 + k)).watching = true)
    (hstage : 0 < (s.chain ((holderUnit h).1 * 16 + k)).stage)
    (hwindow : stageWindow (s.chain ((holderUnit h).1 * 16 + k)).stageWord ≠ 0) (hruns : ∀ core, h = .tap core → s.executes core = true) :
    execChainWindowExpiry h k s =
      .next (s.setChain ((holderUnit h).1 * 16 + k) (s.chain ((holderUnit h).1 * 16 + k)).restart) := by
  cases h <;> simp [execChainWindowExpiry, hk, hwatching, hstage, hwindow, hruns]

end

/-- Settles O32: a source that is met advances its chain or fires it (`Meets.stageMatch`), and the fire counts before it acts
(`fire_event`). -/
theorem chains : Obligations.Chains := by
  intro s cl n k slot src p cyc u us ev x h met key g
  refine ⟨?_, fun hk hmin hmet => ⟨fun hearly => ?_, fun hlast haction hrearm hset hpost => ?_⟩, fun hk hwatching hstage hwindow hruns =>
    execChainWindowExpiry_passed hk hwatching hstage hwindow hruns⟩
  · intro hn hkind hpresent c hacts hhit howner helem hk hothers hmet hearly
    have m : s.Meets (cl * 16 + k) slot src cyc := hmet
    refine (execScmpMatch_hit hn hkind hpresent hacts hhit howner).trans (congrArg Host.Outcome.next ?_)
    exact helem ▸ m.sourceAt hk hothers u hearly
  · have m : s.Meets key slot src cyc := hmet
    have ⟨howner, _⟩ := hmet
    exact (execStageSourceArrival_arrives hk howner hmin).trans (congrArg Host.Outcome.next (m.stageMatch_early u hearly))
  · have m : s.Meets key slot src cyc := hmet
    have ⟨howner, _⟩ := hmet
    refine ⟨(s.fireCounted key slot p u cyc).chainEvent x.owner, (execStageSourceArrival_arrives hk howner hmin).trans ?_, ?_, ?_, ?_,
      fun e he => State.chainEvent_seen he⟩
    · rw [m.stageMatch_last u hlast, State.fire_event howner hset hpost haction hrearm]
    · rw [State.chainEvent_frame]
      exact State.setChain_self ..
    · rw [State.chainEvent_frame]
      exact congrArg SetHalf.who (Tbl.get_set_self ..)
    · rw [State.chainEvent_frame]
      exact congrArg SetHalf.last (Tbl.get_set_self ..)

end Sys2Proof.Machine

/-! SUPPORT. Trigger sets (R146, R147, R391): the copies of a set as they are placed, armed and removed. -/

namespace Sys2Proof.Machine

/-! ### What the copies of a set leave alone -/

/-- The set slots, the package state and the counted objects. -/
def State.desk (s : State) : Tbl (Option TrigSet) × Pkg × Tbl Refs := (s.sets, s.pkg, s.host.refs)

section
variable {s t : State} (h : t.desk = s.desk)
include h

theorem State.trigSet_of_desk (k : Nat) : t.trigSet k = s.trigSet k := by
  rw [State.trigSet, show t.sets = s.sets from congrArg (·.1) h, State.trigSet]

theorem State.pkg_of_desk : t.pkg = s.pkg := congrArg (·.2.1) h

theorem State.refs_of_desk (kind slot : Nat) : t.refs kind slot = s.refs kind slot := by
  rw [State.refs, show t.host.refs = s.host.refs from congrArg (·.2.2) h, State.refs]

end

theorem State.setRefs_self (s : State) (kind slot : Nat) (v : Refs) : (s.setRefs kind slot v).refs kind slot = v := Tbl.get_set_self ..

theorem State.setRefs_ne (s : State) {kind slot kind' slot' : Nat} (v : Refs) (h : refKey kind' slot' ≠ refKey kind slot) :
    (s.setRefs kind slot v).refs kind' slot' = s.refs kind' slot' := Tbl.get_set_ne _ _ _ _ _ h

/-! Not by `rfl` alone: simp would then rewrite by definition, and the kernel would evaluate the words that a copy is written with. -/

@[simp ↓] theorem State.setCmp_desk (s : State) (k : Nat) (v : Cmp) : (s.setCmp k v).desk = s.desk := by rw [State.desk, State.desk]; rfl
@[simp ↓] theorem State.setCnt_desk (s : State) (k : Nat) (v : Cnt) : (s.setCnt k v).desk = s.desk := by rw [State.desk, State.desk]; rfl
@[simp ↓] theorem State.setChain_desk (s : State) (k : Nat) (v : Chain) : (s.setChain k v).desk = s.desk := by rw [State.desk, State.desk]; rfl

theorem State.placeCopy_desk (s : State) (x : TrigSet) (slot i : Nat) (e : Elem) (u : Uno) : (s.placeCopy x slot i e u).desk = s.desk := by
  unfold State.placeCopy
  dsimp only
  (repeat' split) <;> simp

theorem State.reservePlaces_desk (s : State) (slot i : Nat) (e : Elem) : (s.reservePlaces slot i e).desk = s.desk := by
  unfold State.reservePlaces
  split
  · exact State.foldl_leaves State.desk (fun t p => by split <;> rfl) _ _
  · rfl

/-- A set's lattice channel is written in the masks of cores alone. -/
theorem State.maskLane_frame (s : State) (x : TrigSet) (on : Bool) : s.maskLane x on = { s with cores := (s.maskLane x on).cores } := by
  unfold State.maskLane
  split
  · rfl
  · exact List.foldlRecOn (motive := fun t : State => t = { s with cores := t.cores }) _ _ rfl fun t ht u _ => by rw [ht]; rfl

theorem State.placeSet_desk (s : State) (slot : Nat) (x : TrigSet) : (s.placeSet slot x).desk = (s.setTrigSet slot (some x)).desk := by
  unfold State.placeSet
  rw [State.maskLane_frame]
  refine State.foldl_leaves State.desk (fun t e => ?_) (numbered x.elems) (s.setTrigSet slot (some x))
  rw [State.reservePlaces_desk]
  exact State.foldl_leaves State.desk (fun t u => State.placeCopy_desk t x slot e.1 e.2 u) _ _

theorem State.usePosts_desk (s : State) (k : Nat) (ps : List Nat) : (s.usePosts k ps).desk = s.desk :=
  State.foldl_leaves State.desk (f := fun t p => t.usePost k p) (fun t p => by unfold State.usePost; split <;> rfl) ps s

/-- A new object takes its creator's hold and a Legend change, both elsewhere. -/
theorem State.newRef_desk (s : State) (sess kind slot : Nat) :
    (s.newRef sess kind slot).desk = (s.setRefs kind slot { live := true, creator := sess }).desk := by
  unfold State.newRef State.addHoldOf
  split <;> rfl

/-! ### SET_LOAD (R146, R391) -/

/-- The set with the lattice channel that it needs (R23). -/
def State.laned (s : State) (x : TrigSet) : TrigSet := { x with lane := if x.needsLane then s.freeLane else none }

/-- A set placed in its slot, with its creator's reference. -/
def State.setCreated (s : State) (sess slot : Nat) (x : TrigSet) : State := (s.placeSet slot x).newRef sess ObjKind.set slot

/-- A hub reference on a set's job, if it has one. -/
def State.jobRef (s : State) : Option Nat → State
  | some j => s.hubRef ObjKind.job j
  | none => s

/-- The state in which the load of a set completes. -/
def State.setLoaded (s : State) (sess slot : Nat) (x : TrigSet) : State :=
  ((s.setCreated sess slot x).jobRef x.job).usePosts sess (s.setWakePosts x ++ x.elems.flatMap s.elemPosts)

section
variable (s : State) (sess slot : Nat) (x : TrigSet)

/-- A created set stands in its slot and is live. -/
theorem State.setCreated_desk :
    (s.setCreated sess slot x).desk = ((s.setTrigSet slot (some x)).setRefs ObjKind.set slot { live := true, creator := sess }).desk := by
  rw [State.setCreated, State.newRef_desk]
  exact congrArg (fun d => (d.1, d.2.1, Tbl.set {} d.2.2 (refKey ObjKind.set slot) { live := true, creator := sess }))
    (State.placeSet_desk s slot x)

theorem State.jobRef_leaves (o : Option Nat) (kind k : Nat) :
    (s.jobRef o).sets = s.sets ∧ (s.jobRef o).pkg = s.pkg ∧ ((s.jobRef o).refs kind k).live = (s.refs kind k).live := by
  cases o with
  | none => exact ⟨rfl, rfl, rfl⟩
  | some j =>
    refine ⟨rfl, rfl, ?_⟩
    by_cases h : refKey kind k = refKey ObjKind.job j
    · rw [State.refs, h]
      exact (congrArg Refs.live (State.setRefs_self s ObjKind.job j _)).trans (by rw [State.refs, State.refs, h])
    · exact congrArg Refs.live (State.setRefs_ne s _ h)

theorem State.setLoaded_trigSet (k : Nat) : (s.setLoaded sess slot x).trigSet k = (s.setTrigSet slot (some x)).trigSet k := by
  obtain ⟨hsets, -⟩ := (s.setCreated sess slot x).jobRef_leaves x.job 0 0
  rw [State.setLoaded, State.trigSet_of_desk (State.usePosts_desk ..), State.trigSet, hsets]
  exact State.trigSet_of_desk (State.setCreated_desk s sess slot x) k

theorem State.setLoaded_pkg : (s.setLoaded sess slot x).pkg = s.pkg := by
  obtain ⟨-, hpkg, -⟩ := (s.setCreated sess slot x).jobRef_leaves x.job 0 0
  rw [State.setLoaded, State.pkg_of_desk (State.usePosts_desk ..), hpkg]
  exact State.pkg_of_desk (s := (s.setTrigSet slot (some x)).setRefs _ _ _) (State.setCreated_desk s sess slot x)

theorem State.setLoaded_live : ((s.setLoaded sess slot x).refs ObjKind.set slot).live = true := by
  obtain ⟨-, -, hlive⟩ := (s.setCreated sess slot x).jobRef_leaves x.job ObjKind.set slot
  rw [State.setLoaded, State.refs_of_desk (State.usePosts_desk ..), hlive, State.refs_of_desk (State.setCreated_desk s sess slot x),
    State.setRefs_self]

end

/-- The set that a load reads from its argument, to be armed after the default lead (R147, assumption 53). -/
def State.setRead (s : State) (c : CmdCtx) (arg : List Byte) : TrigSet :=
  setOf c.session (s.setPlatform c.who (fieldAt arg 0x0C 2)) arg (word (s.now + s.defLead none))

/-- What a load judges before the wake of posts. -/
def State.loadChecks (s : State) (c : CmdCtx) (slot : Nat) (arg : List Byte) : List (Bool × Nat) :=
  [(decide (slot < 1024), Status.cmdFormat), (s.holdRoom c.session ObjKind.set slot, Status.holdFull)] ++
    s.setChecks c slot arg (s.setRead c arg)

/-- The table of sets has 1,024 slots (R380). -/
theorem State.creates_set (s : State) (c : CmdCtx) (slot : Nat) (l : List (Bool × Nat)) (f : State → State) :
    s.creates c ObjKind.set slot l f =
      s.judged c ([(decide (slot < 1024), Status.cmdFormat), (s.holdRoom c.session ObjKind.set slot, Status.holdFull)] ++ l) f := by
  have hslot : kindSlotOk ObjKind.set slot = decide (slot < 1024) := by
    simp [kindSlotOk, kindSlots, ObjKind.set, ObjKind.session, ObjKind.job]
  rw [State.creates, hslot]

section
variable {s : State} {c : CmdCtx} {slot : Nat} {arg : List Byte} (heard : Claims.Heard s c)
include heard

theorem execSetLoad_refused {st : Nat} (h : firstFail (s.loadChecks c slot arg) = some st) :
    execSetLoad c slot arg s = .next (s.refuse c st) := by
  obtain ⟨hsession, hlive, hfw⟩ := heard
  refine congrArg Host.Outcome.next ((State.creates_set ..).trans (State.judged_refused hlive hfw hsession h))

/-- Past the first checks, with no post to wake, a load is judged by its resources. -/
theorem execSetLoad_judged (h : firstFail (s.loadChecks c slot arg) = none)
    (hawake : (s.setWakePosts (s.setRead c arg)).all (fun p => !s.postAsleep p) = true) :
    let x := s.setRead c arg
    execSetLoad c slot arg s = .next (s.judged c (s.setChecks2 x) fun s =>
      (s.setLoaded c.session slot (s.laned x)).complete c Status.ok (objectWord ObjKind.set slot) 0) := by
  obtain ⟨hsession, hlive, hfw⟩ := heard
  intro x
  have hnone : (s.setWakePosts x).filter s.postAsleep = [] := by
    simpa using hawake
  refine congrArg Host.Outcome.next ((State.creates_set ..).trans ((State.judged_ok hlive hfw hsession h).trans ?_))
  change (if !((s.setWakePosts x).filter s.postAsleep).isEmpty then _ else _) = _
  rw [hnone]
  refine congrArg (s.judged c (s.setChecks2 x)) (funext fun s => ?_)
  unfold State.setLoaded State.jobRef
  rfl
end

/-! ### SET_ARM (R147) -/

theorem execSetArm_due {s : State} {slot : Nat} {x : TrigSet} (hset : s.trigSet slot = some x) (hstate : x.state = 1)
    (hdue : x.tArm.toNat ≤ s.now) : execSetArm slot s = .next (s.armSet slot x) := by
  simp only [execSetArm, hset, hstate, hdue, and_self, if_true]

theorem State.armSet_trigSet (s : State) (slot : Nat) (x : TrigSet) : (s.armSet slot x).trigSet slot = some { x with state := 2 } :=
  Tbl.get_set_self none s.sets slot (some { x with state := 2 })

theorem State.armSet_cmp {s : State} (w : Tbl.wf {} s.cmps = true) (slot : Nat) (x : TrigSet) (k : Nat) : (s.armSet slot x).cmp k =
    if (s.cmp k).owner = some slot then { s.cmp k with ctl := (s.cmp k).ctl ||| 1 } else s.cmp k := by
  refine (Tbl.get_mapVals k w rfl).trans ?_
  simp only [beq_iff_eq]
  rfl

theorem State.armSet_chain {s : State} (w : Tbl.wf {} s.chains = true) (slot : Nat) (x : TrigSet) (k : Nat) : (s.armSet slot x).chain k =
    if (s.chain k).owner = some slot then { s.chain k with state := 2 } else s.chain k := by
  refine (Tbl.get_mapVals k w rfl).trans ?_
  simp only [beq_iff_eq]
  rfl

/-! ### SET_DISARM (R147, R393) -/

/-- What a read of a table gives has a property that the default and every listed value have. -/
theorem Tbl.get_forall {α : Type} {P : α → Prop} {d : α} {t : Tbl α} (hd : P d) (ht : ∀ e ∈ t, P e.2) (k : Nat) : P (Tbl.get d t k) := by
  rcases Tbl.get_default_or_mem d t k with h | h
  · rwa [h]
  · exact ht _ h

/-- Without the entries of an owner no read is of that owner. -/
theorem Tbl.get_disowned {α : Type} (owner : α → Option Nat) {d : α} (hd : owner d = none) (t : Tbl α) (slot k : Nat) :
    owner (Tbl.get d (t.filter (fun e => owner e.2 != some slot)) k) ≠ some slot :=
  Tbl.get_forall (P := fun v => owner v ≠ some slot) (by simp [hd]) (fun e he => by simpa using (List.mem_filter.mp he).2) k

theorem State.pushEvent_refs (s : State) (r : Nat) (e : Event) : (s.pushEvent r e).host.refs = s.host.refs := by
  unfold State.pushEvent
  dsimp only
  (repeat' split) <;> rfl

theorem State.emit_refs (s : State) (k : Nat) (e : Event) : (s.emit k e).host.refs = s.host.refs := by
  unfold State.emit
  split
  · rfl
  · split <;> split
    · rfl
    · exact State.pushEvent_refs ..
    · exact State.pushEvent_refs ..
    · rfl

theorem State.reap_noRefs {s : State} (h : s.host.refs = []) : s.reap = s := by
  rw [State.reap, h]
  rfl

section
variable {s : State} {slot : Nat} {x : TrigSet}

theorem State.removeSet_pkg : (s.removeSet slot x).pkg = s.pkg := by
  rw [State.removeSet, State.maskLane_frame]

theorem State.removeSet_refs : (s.removeSet slot x).host.refs = s.host.refs := by
  rw [State.removeSet, State.maskLane_frame]

theorem State.removeSet_trigSet : (s.removeSet slot x).trigSet slot = none := Tbl.get_set_self none (s.maskLane x false).sets slot none

theorem State.removeSet_cmp (k : Nat) : ((s.removeSet slot x).cmp k).owner ≠ some slot :=
  Tbl.get_disowned Cmp.owner (d := {}) rfl (s.maskLane x false).cmps slot k

theorem State.removeSet_cnt (k : Nat) : ((s.removeSet slot x).cnt k).owner ≠ some slot :=
  Tbl.get_disowned Cnt.owner (d := {}) rfl (s.maskLane x false).cnts slot k

theorem State.removeSet_chain (k : Nat) : ((s.removeSet slot x).chain k).owner ≠ some slot :=
  Tbl.get_disowned Chain.owner (d := {}) rfl (s.maskLane x false).chains slot k

/-- Beside the removal, a freed slot changes the holds, the counts and the Legend, and SET_UNLOADED the host's side and the port. -/
theorem State.disarmNow_frame (hset : s.trigSet slot = some x) (hjob : x.job = none) : s.disarmNow slot =
    { s.removeSet slot x with auth := (s.disarmNow slot).auth, legend := (s.disarmNow slot).legend, host := (s.disarmNow slot).host,
                              port := (s.disarmNow slot).port } := by
  simp only [State.disarmNow, hset, hjob]
  rw [State.emit_eq]
  rfl

theorem State.disarmNow_refs (hset : s.trigSet slot = some x) (hjob : x.job = none) (hrefs : s.host.refs = []) :
    (s.disarmNow slot).host.refs = [] := by
  simp only [State.disarmNow, hset, hjob]
  rw [State.emit_refs]
  change Tbl.set {} (s.removeSet slot x).host.refs _ {} = []
  rw [State.removeSet_refs, hrefs]
  rfl

theorem execSetDisarm_unloading (hset : s.trigSet slot = some x) (hstate : x.state = 5) (hlive : s.pkg.bothDead = false)
    (hrefs : s.host.refs = []) (hjob : x.job = none) : execSetDisarm slot s = .next (s.disarmNow slot) := by
  simp only [execSetDisarm, hset, hstate, hlive]
  rw [State.reap_noRefs (State.disarmNow_refs hset hjob hrefs)]
  rfl

end

/-- Settles O30: a load is judged as `execSetLoad_judged` says and leaves the set of `State.setLoaded`; arming changes every copy of the
set, and disarming filters them out. -/
theorem triggerSets : Obligations.TriggerSets := by
  intro s c slot arg x0 checks
  refine ⟨fun heard => ⟨fun st hst => execSetLoad_refused heard hst, fun hok hawake => ?_⟩, fun x hset => ⟨?_, ?_⟩⟩
  · have ⟨hsession, hlive, hfw⟩ := heard
    refine ⟨fun st hst => ?_, fun hok2 => ?_⟩
    · refine (execSetLoad_judged heard hok hawake).trans (congrArg _ ?_)
      exact State.judged_refused hlive hfw hsession hst
    · refine ⟨s.setLoaded c.session slot (s.laned x0), s.laned x0, ?_, ?_, rfl, rfl, rfl, rfl, State.setLoaded_live .., fun k hk => ?_,
        State.setLoaded_pkg ..⟩
      · refine (execSetLoad_judged heard hok hawake).trans (congrArg _ ?_)
        exact State.judged_ok hlive hfw hsession hok2
      · rw [State.setLoaded_trigSet, State.setTrigSet_self]
      · rw [State.setLoaded_trigSet, State.setTrigSet_ne _ _ _ _ hk]
  · intro hstate hdue hcmps hchains
    exact ⟨s.armSet slot x, execSetArm_due hset hstate hdue, State.armSet_trigSet .., State.armSet_cmp hcmps slot x,
      State.armSet_chain hchains slot x⟩
  · intro hstate hlive hrefs hjob
    refine ⟨s.disarmNow slot, execSetDisarm_unloading hset hstate hlive hrefs hjob, ?_⟩
    rw [State.disarmNow_frame hset hjob]
    exact ⟨State.removeSet_trigSet, State.removeSet_cmp, State.removeSet_cnt, State.removeSet_chain, State.removeSet_pkg (slot := slot)⟩

end Sys2Proof.Machine

/-! SUPPORT. Dump jobs (R158 to R160, R165, R391): what creation and start write beside the job itself. -/

namespace Sys2Proof.Machine

/-! ### References -/

/-- A hub reference makes no object live and ends none. -/
theorem State.hubRef_live (s : State) (kind slot kind' slot' : Nat) :
    ((s.hubRef kind slot).refs kind' slot').live = (s.refs kind' slot').live := by
  by_cases h : refKey kind' slot' = refKey kind slot
  · rw [State.refs, h]
    exact (congrArg Refs.live (State.setRefs_self s kind slot _)).trans (by rw [State.refs, State.refs, h])
  · exact congrArg Refs.live (State.setRefs_ne s _ h)

theorem State.hubRef_hub (s : State) (kind slot : Nat) : ((s.hubRef kind slot).refs kind slot).hub = (s.refs kind slot).hub + 1 :=
  congrArg Refs.hub (State.setRefs_self s kind slot _)

/-! ### JOB_CREATE (R158, R159, R165) -/

/-- The table of jobs has 64 slots (R380). -/
theorem State.creates_job (s : State) (c : CmdCtx) (slot : Nat) (l : List (Bool × Nat)) (f : State → State) :
    s.creates c ObjKind.job slot l f =
      s.judged c ([(decide (slot < 64), Status.cmdFormat), (s.holdRoom c.session ObjKind.job slot, Status.holdFull)] ++ l) f := by
  have hslot : kindSlotOk ObjKind.job slot = decide (slot < 64) := by
    simp [kindSlotOk, kindSlots, ObjKind.job, ObjKind.session]
  rw [State.creates, hslot]

/-- A new object takes its place among the counted ones, in its creator's holds and in the Legend. -/
theorem State.newRef_frame (s : State) (sess kind slot : Nat) : s.newRef sess kind slot =
    { s with host := (s.newRef sess kind slot).host, auth := (s.newRef sess kind slot).auth, legend := (s.newRef sess kind slot).legend } := by
  unfold State.newRef State.addHoldOf
  split <;> rfl

/-- The new job in its slot, the next serial, and its creator's reference. -/
def State.jobMade (s : State) (slot owner : Nat) (engine : Option Nat) (arg : List Byte) : State :=
  State.newRef { s with folios := { s.folios with
    jobs := Tbl.set none s.folios.jobs slot (some (s.jobOf owner engine arg)), serial := nextSerial s.folios.serial } } owner ObjKind.job slot

/-- A hub reference on a folio's scope, where that is a group. -/
def State.scopeRef (s : State) (v : Uno) : State :=
  if kindOf s.pkg.member v = .group then s.hubRef ObjKind.group (v - 0xF00000) else s

section
variable (s : State) (slot owner : Nat) (engine : Option Nat) (arg : List Byte)

theorem State.createJob_eq : s.createJob slot owner engine arg =
    ((s.jobMade slot owner engine arg).jobRef (s.jobOf owner engine arg).refJob).scopeRef (s.jobOf owner engine arg).scope := by
  have hpkg (o : Option Nat) : ((s.jobMade slot owner engine arg).jobRef o).pkg = s.pkg := by
    rw [((s.jobMade slot owner engine arg).jobRef_leaves o 0 0).2.1, State.jobMade, State.newRef_frame]
  rw [State.scopeRef, hpkg]
  unfold State.createJob State.jobRef State.jobMade
  rfl

theorem State.jobMade_live : ((s.jobMade slot owner engine arg).refs ObjKind.job slot).live = true := by
  rw [State.jobMade, State.refs_of_desk (State.newRef_desk ..), State.setRefs_self]

theorem State.scopeRef_leaves (v : Uno) (kind k : Nat) : (s.scopeRef v).folios = s.folios ∧ (s.scopeRef v).cores = s.cores ∧
    ((s.scopeRef v).refs kind k).live = (s.refs kind k).live := by
  unfold State.scopeRef
  split
  · exact ⟨rfl, rfl, State.hubRef_live ..⟩
  · exact ⟨rfl, rfl, rfl⟩

theorem State.jobRef_folios (o : Option Nat) : (s.jobRef o).folios = s.folios ∧ (s.jobRef o).cores = s.cores := by
  cases o <;> exact ⟨rfl, rfl⟩

theorem State.createJob_folios : (s.createJob slot owner engine arg).folios = { s.folios with
    jobs := Tbl.set none s.folios.jobs slot (some (s.jobOf owner engine arg)), serial := nextSerial s.folios.serial } := by
  rw [State.createJob_eq, (State.scopeRef_leaves _ _ 0 0).1, (State.jobRef_folios ..).1, State.jobMade, State.newRef_frame]

theorem State.createJob_cores : (s.createJob slot owner engine arg).cores = s.cores := by
  rw [State.createJob_eq, (State.scopeRef_leaves _ _ 0 0).2.1, (State.jobRef_folios ..).2, State.jobMade, State.newRef_frame]

theorem State.createJob_live : ((s.createJob slot owner engine arg).refs ObjKind.job slot).live = true := by
  rw [State.createJob_eq, (State.scopeRef_leaves ..).2.2, (State.jobRef_leaves ..).2.2, State.jobMade_live]

end

/-- Posts that a session uses are written in the posts alone. -/
theorem State.usePosts_frame (s : State) (k : Nat) (ps : List Nat) : s.usePosts k ps = { s with posts := (s.usePosts k ps).posts } :=
  List.foldlRecOn (motive := fun t : State => t = { s with posts := t.posts }) ps (fun t p => t.usePost k p) rfl fun t ht p _ => by
    unfold State.usePost
    split
    · exact ht
    · rw [ht]
      rfl

/-- The state in which the creation of a job completes. -/
def State.jobCreated (s : State) (sess slot : Nat) (arg : List Byte) : State :=
  (s.createJob slot sess none arg).usePosts sess (s.folioPosts (parsePlan arg))

section
variable (s : State) (sess slot : Nat) (arg : List Byte)

theorem State.jobCreated_folios : (s.jobCreated sess slot arg).folios = { s.folios with
    jobs := Tbl.set none s.folios.jobs slot (some (s.jobOf sess none arg)), serial := nextSerial s.folios.serial } := by
  rw [State.jobCreated, State.usePosts_frame, ← State.createJob_folios]

theorem State.jobCreated_job (k : Nat) : (s.jobCreated sess slot arg).job k = (s.setJob slot (some (s.jobOf sess none arg))).job k := by
  rw [State.job, State.jobCreated_folios]
  rfl

theorem State.jobCreated_cores : (s.jobCreated sess slot arg).cores = s.cores := by
  rw [State.jobCreated, State.usePosts_frame]
  exact State.createJob_cores ..

theorem State.jobCreated_live : ((s.jobCreated sess slot arg).refs ObjKind.job slot).live = true := by
  rw [State.jobCreated, State.refs_of_desk (State.usePosts_desk ..), State.createJob_live]

end

/-- What a creation judges before the wake of posts. -/
def State.createChecks (s : State) (c : CmdCtx) (slot : Nat) (arg : List Byte) : List (Bool × Nat) :=
  [(decide (slot < 64), Status.cmdFormat), (s.holdRoom c.session ObjKind.job slot, Status.holdFull)] ++ s.planChecks c.who slot arg

section
variable {s : State} {c : CmdCtx} {slot : Nat} {arg : List Byte} (heard : Claims.Heard s c)
include heard

theorem execJobCreate_refused {st : Nat} (h : firstFail (s.createChecks c slot arg) = some st) :
    execJobCreate c slot arg s = .next (s.refuse c st) := by
  obtain ⟨hsession, hlive, hfw⟩ := heard
  exact congrArg Host.Outcome.next ((State.creates_job ..).trans (State.judged_refused hlive hfw hsession h))

theorem execJobCreate_created (h : firstFail (s.createChecks c slot arg) = none) (hawake : s.planSleeping arg = [])
    (h2 : firstFail (s.planChecks2 arg none) = none) :
    Claims.Done (.jobCreate c slot arg) s c (objectWord ObjKind.job slot) 0 (s.jobCreated c.session slot arg) := by
  obtain ⟨hsession, hlive, hfw⟩ := heard
  refine congrArg Host.Outcome.next ((State.creates_job ..).trans ((State.judged_ok hlive hfw hsession h).trans ?_))
  simp only [hawake]
  exact State.judged_ok hlive hfw hsession h2

end

/-! ### JOB_START (R160) -/

/-- The first events that need these posts start their wakes. -/
def State.wakes (s : State) (ps : List Nat) : State := ps.foldl (fun t p => t.autoStart p) s

/-- A wake that starts changes the posts and the Legend. -/
theorem State.autoStart_frame (s : State) (p : Nat) :
    s.autoStart p = { s with posts := (s.autoStart p).posts, legend := (s.autoStart p).legend } := by
  unfold State.autoStart State.startWake
  split
  · split <;> rfl
  · rfl

theorem State.wakes_frame (s : State) (ps : List Nat) :
    s.wakes ps = { s with posts := (s.wakes ps).posts, legend := (s.wakes ps).legend } :=
  List.foldlRecOn (motive := fun t : State => t = { s with posts := t.posts, legend := t.legend }) ps _ rfl fun t ht p _ => by
    rw [State.autoStart_frame, ht]

/-- What a post's service of halves rests on: that it runs, that its sibling may serve its half, and that it serves its sibling's. -/
def Post.service (q : Post) : Bool × Bool × Bool := (q.health == 1, q.health == 5 || q.restored, q.adopting)

theorem State.server_congr {s t : State} (h : ∀ p, (t.post p).service = (s.post p).service) (q : Nat) : t.server q = s.server q := by
  have hruns (p : Nat) : t.postRuns p = s.postRuns p := congrArg (·.1) (h p)
  have hleft : ((t.post q).health == 5 || (t.post q).restored) = ((s.post q).health == 5 || (s.post q).restored) :=
    congrArg (·.2.1) (h q)
  have hadopting (p : Nat) : (t.post p).adopting = (s.post p).adopting := congrArg (·.2.2) (h p)
  simp only [State.server, hruns, hleft, hadopting]

/-- A wake that starts changes no half's service: gated and waking, the post runs as little. -/
theorem State.autoStart_service (s : State) (p q : Nat) : ((s.autoStart p).post q).service = (s.post q).service := by
  unfold State.autoStart State.startWake
  split
  · split
    · next hgated =>
      by_cases hq : q = p
      · subst hq
        refine (congrArg Post.service (State.setPost_self ..)).trans ?_
        simp [Post.service, hgated, Health.gated, Health.waking]
      · exact congrArg Post.service (State.setPost_ne _ _ _ _ hq)
    · rfl
  · rfl

theorem State.wakes_server (s : State) (ps : List Nat) (q : Nat) : (s.wakes ps).server q = s.server q :=
  State.server_congr (fun p => State.foldl_leaves (fun t => (t.post p).service) (fun t k => t.autoStart_service k p) ps s) q

/-- A part as its capture starts (R160, R191): it waits where its post's engine is claimed, and is ADOPTED where a sibling serves its half. -/
def State.partStarted (s : State) (y : Part) : Part :=
  { y with state := if s.engineClaimed y.post then 2 else 3, adopted := y.adopted || ((s.server y.post).getD y.post != y.post) }

theorem State.wakes_partStarted (s : State) (ps : List Nat) : (s.wakes ps).partStarted = s.partStarted := by
  have hclaimed (q : Nat) : (s.wakes ps).engineClaimed q = s.engineClaimed q := by
    rw [State.wakes_frame]
    rfl
  funext y
  simp only [State.partStarted, hclaimed, State.wakes_server]

/-- A start makes the job CAPTURING with its parts started, and takes a hub reference. -/
theorem State.startJob_started (s : State) (slot : Nat) (j : Job) (skipHalt fend : Bool) :
    (∃ j', (s.startJob slot j skipHalt fend).job slot = some j' ∧ j'.state = .capturing ∧ j'.fendBegun = fend ∧ j'.segs = j.segs ∧
      j'.parts = j.parts.map s.partStarted) ∧
    ((s.startJob slot j skipHalt fend).refs ObjKind.job slot).hub = (s.refs ObjKind.job slot).hub + 1 := by
  refine ⟨⟨_, Tbl.get_set_self none _ slot (some _), rfl, rfl, rfl, rfl⟩, (State.hubRef_hub ..).trans ?_⟩
  split <;> rfl

theorem execJobStart_started {s : State} {c : CmdCtx} {slot : Nat} {j : Job} (heard : Claims.Heard s c) (hjob : s.job slot = some j)
    (hslot : slot < 64) (hmay : s.mayFolio c.who j.ctx = true) (hcreated : j.state = .created) (hpower : s.pkg.pwrWarn = false)
    (hhalted : s.haltedUnit j.scope = true) :
    Claims.Done (.jobStart c slot) s c (objectWord ObjKind.job slot) 0
      ((s.wakes (j.parts.map (·.post))).startJob slot j false true) := by
  obtain ⟨hsession, hlive, hfw⟩ := heard
  have hok : firstFail ([(decide (slot < 64), Status.cmdFormat), (s.mayFolio c.who j.ctx, Status.unitDenied)] ++ s.startChecks j false) =
      none := by
    simp [firstFail, State.startChecks, hslot, hmay, hcreated, hpower, hhalted]
  change execJobStart c slot s = _
  simp only [execJobStart, hjob]
  exact congrArg Host.Outcome.next (State.judged_ok hlive hfw hsession hok)

/-- The one part of the one job that waits starts (R160). -/
theorem State.startQueued_only {s : State} {slot post : Nat} {j : Job} {x : Part} (hjobs : s.folios.jobs = [(slot, some j)])
    (hparts : j.parts = [x]) (hpost : x.post = post) (hwaits : x.state = 2) :
    s.startQueued post = s.setJob slot (some { j with parts := [{ x with state := 3 }] }) := by
  simp [State.startQueued, State.capturing, State.job, Tbl.get, hjobs, hparts, hpost, hwaits]

/-- Settles O33: a created job stands as `jobOf` makes it, a start is `startJob` after the wakes of its posts, which change no half's
service, and a waiting part starts by `startQueued`. -/
theorem jobsCreateAndStart : Obligations.JobsCreateAndStart := by
  intro s c slot post arg j x checks
  refine ⟨fun heard => ⟨fun st hst => execJobCreate_refused heard hst, fun hok hawake hok2 => ?_,
    fun hjob hslot hmay hcreated hpower hhalted => ?_⟩, fun hjobs hparts hpost hwaits => ?_⟩
  · refine ⟨s.jobCreated c.session slot arg, s.jobOf c.session none arg, execJobCreate_created heard hok hawake hok2, ?_, rfl, rfl, rfl, rfl,
      ?_, State.jobCreated_live .., fun k hk => ?_, State.jobCreated_cores ..⟩
    · rw [State.jobCreated_job, State.setJob_self]
    · rw [State.jobCreated_folios]
    · rw [State.jobCreated_job, State.setJob_ne _ _ _ _ hk]
  · obtain ⟨⟨j', hj', hstate, hfend, hsegs, hstarted⟩, hhub⟩ :=
      (s.wakes (j.parts.map (·.post))).startJob_started slot j false true
    refine ⟨_, j', execJobStart_started heard hjob hslot hmay hcreated hpower hhalted, hj', hstate, hfend, hsegs, ?_, ?_⟩
    · rw [hstarted, State.wakes_partStarted]
      rfl
    · rw [hhub, State.wakes_frame]
      rfl
  · exact congrArg Host.Outcome.next (State.startQueued_only hjobs hparts hpost hwaits)

end Sys2Proof.Machine

/-! SUPPORT. Capture (R161, R168, R171 to R173, R179): which segment a part reads, the block that it stores, and how parts and jobs end. -/

namespace Sys2Proof.Machine

/-! ### What reports and events leave of folios -/

/-- The folio state and the counted objects. -/
def State.docket (s : State) : Folios × Tbl Refs := (s.folios, s.host.refs)

section
variable {s t : State} (h : t.docket = s.docket)
include h

theorem State.folios_of_docket : t.folios = s.folios := congrArg (·.1) h

theorem State.job_of_docket (k : Nat) : t.job k = s.job k := by
  rw [State.job, State.folios_of_docket h, State.job]

theorem State.refs_of_docket : t.host.refs = s.host.refs := congrArg (·.2) h

end

@[simp] theorem State.folioReport_docket (s : State) (post code : Nat) (serial : BitVec 32) (ctx : Ctx) :
    (s.folioReport post code serial ctx).docket = s.docket := by
  rw [State.folioReport, State.report_eq]
  rfl

@[simp] theorem State.emit_docket (s : State) (k : Nat) (e : Event) : (s.emit k e).docket = s.docket := by
  rw [State.docket, State.emit_refs, State.emit_eq]
  rfl

@[simp] theorem State.engineEvent_docket (s : State) (e bit : Nat) : (s.engineEvent e bit).docket = s.docket := rfl

@[simp] theorem State.fendResult_docket (s : State) (e slot status : Nat) : (s.fendResult e slot status).docket = s.docket := by
  unfold State.fendResult
  dsimp only
  split <;> rfl

/-! ### A job ends (R166, R176) -/

/-- The job as its trailer and header are written. -/
def Job.finished (j : Job) (t : Time) : Job :=
  { j with state := if j.whole then .complete else .incomplete, endT := t, key := none, total := j.totalBytes }

/-- The end of a job writes it and, where it ran, drops the capture's reference; its report and its events are of neither. -/
theorem State.finishJob_eq {s : State} {slot : Nat} {j : Job} (hjob : s.job slot = some j) (hlive : j.ended = false) :
    ∃ t : State, t.docket = (s.setJob slot (some (j.finished s.pkg.meridian))).docket ∧
      s.finishJob slot = if j.running then t.hubUnref ObjKind.job slot else t := by
  unfold State.finishJob
  simp only [hjob, hlive, Bool.false_eq_true, if_false]
  refine ⟨_, ?_, rfl⟩
  (repeat' split) <;> simp [Job.finished, *]

theorem State.finishJob_job {s : State} {slot : Nat} {j : Job} (hjob : s.job slot = some j) (hlive : j.ended = false) (k : Nat) :
    (s.finishJob slot).job k = (s.setJob slot (some (j.finished s.pkg.meridian))).job k := by
  obtain ⟨t, ht, hfinish⟩ := State.finishJob_eq hjob hlive
  rw [hfinish, ← State.job_of_docket ht]
  split <;> rfl

/-- Without counted objects there is no reference to drop. -/
theorem State.hubUnref_noRefs {s : State} (h : s.host.refs = []) (kind slot : Nat) : (s.hubUnref kind slot).host.refs = [] := by
  simp only [State.hubUnref, State.setRefs, State.refs, h]
  rfl

theorem State.finishJob_noRefs {s : State} {slot : Nat} {j : Job} (hjob : s.job slot = some j) (hlive : j.ended = false)
    (hrefs : s.host.refs = []) : (s.finishJob slot).host.refs = [] := by
  obtain ⟨t, ht, hfinish⟩ := State.finishJob_eq hjob hlive
  have hnone : t.host.refs = [] := (State.refs_of_docket ht).trans hrefs
  rw [hfinish]
  split
  · exact State.hubUnref_noRefs hnone ..
  · exact hnone

theorem Job.live_of_running {j : Job} (h : j.running = true) : j.ended = false := by
  cases hs : j.state <;> simp_all [Job.running, Job.ended]

/-! ### Which segment a part reads (R161, R171) -/

/-- Part k reads planned segment i now, and the segment holds bytes. -/
structure Job.Reads (j : Job) (k i : Nat) (g : Seg) : Prop where
  seg     : j.segs[i]? = some g
  current : j.curSeg k = some i
  planned : i < j.planned
  holds   : g.len ≠ 0

theorem Job.Reads.settleSegs {j : Job} {k i : Nat} {g : Seg} (h : j.Reads k i g) (s : State) (n : Nat) : s.settleSegs k n j = j := by
  cases n with
  | zero => rfl
  | succ n => simp [State.settleSegs, h.current, h.seg, h.planned, h.holds]

theorem State.settleSegs_dry (s : State) {j : Job} {k : Nat} (h : j.curSeg k = none) (n : Nat) : s.settleSegs k n j = j := by
  cases n with
  | zero => rfl
  | succ n => simp [State.settleSegs, h]

/-- Segments settle: the parts stay, and so does every planned segment that holds bytes. -/
structure Job.Settles (j j' : Job) : Prop where
  parts   : j'.parts = j.parts
  planned : j'.planned = j.planned
  segs    : ∀ i g, i < j.planned → j.segs[i]? = some g → g.len ≠ 0 → j'.segs[i]? = some g

theorem Job.Settles.refl (j : Job) : j.Settles j := ⟨rfl, rfl, fun _ _ _ h _ => h⟩

theorem Job.Settles.trans {a b c : Job} (h : a.Settles b) (h' : b.Settles c) : a.Settles c :=
  ⟨h'.parts.trans h.parts, h'.planned.trans h.planned,
    fun i g hi hg hlen => h'.segs i g (h.planned ▸ hi) (h.segs i g hi hg hlen) hlen⟩

/-- An empty planned segment is captured. -/
theorem Job.Settles.setSeg {j : Job} {i : Nat} {g : Seg} (hg : j.segs[i]? = some g) (hempty : g.len = 0) (g' : Seg) :
    j.Settles { j with segs := j.segs.set i g' } := by
  refine ⟨rfl, rfl, fun n x hn hx hlen => ?_⟩
  have hne : i ≠ n := by
    rintro rfl
    rw [hg] at hx
    cases hx
    exact hlen hempty
  rw [List.getElem?_set_ne hne, hx]

/-- A special segment is formed. -/
theorem Job.Settles.formSpecial (s : State) {j : Job} {k i : Nat} (hi : ¬ i < j.planned) (g : Seg) : j.Settles (s.formSpecial j k i g) := by
  have hform : ∃ g', (s.formSpecial j k i g).parts = j.parts ∧ (s.formSpecial j k i g).planned = j.planned ∧
      (s.formSpecial j k i g).segs = j.segs.set i g' := by
    unfold State.formSpecial
    split <;> exact ⟨_, rfl, rfl, rfl⟩
  obtain ⟨g', hparts, hplanned, hsegs⟩ := hform
  refine ⟨hparts, hplanned, fun n x hn hx _ => ?_⟩
  rw [hsegs, List.getElem?_set_ne (by omega), hx]

theorem State.settleSegs_settles (s : State) (k n : Nat) (j : Job) : j.Settles (s.settleSegs k n j) := by
  induction n generalizing j with
  | zero => exact .refl j
  | succ n ih =>
    unfold State.settleSegs
    split
    · exact .refl j
    · next i _ =>
      split
      · exact .refl j
      · next g hg =>
        split
        · split
          · next hempty => exact (Job.Settles.setSeg hg hempty _).trans (ih _)
          · exact .refl j
        · next hi =>
          split
          · exact .refl j
          · exact (Job.Settles.formSpecial s hi g).trans (ih _)

/-- A part that draws to its end changes its state alone. -/
theorem State.drainPart_part (s : State) {j : Job} {k : Nat} {y : Part} (h : j.parts[k]? = some y) :
    ∃ st, (s.drainPart j k).parts[k]? = some { y with state := st } := by
  have hsettled := (s.settleSegs_settles k (j.segs.length + 1) j).parts
  unfold State.drainPart
  dsimp only
  split
  · exact ⟨4, by simp [hsettled, h]⟩
  · exact ⟨y.state, by rw [hsettled, h]⟩

theorem State.drainPart_seg (s : State) {j : Job} (k : Nat) {i : Nat} {g : Seg} (hi : i < j.planned) (hg : j.segs[i]? = some g)
    (hlen : g.len ≠ 0) : (s.drainPart j k).segs[i]? = some g := by
  have hsettled := (s.settleSegs_settles k (j.segs.length + 1) j).segs i g hi hg hlen
  unfold State.drainPart
  dsimp only
  split <;> exact hsettled

/-! ### The block that is stored (R168) -/

theorem sealBlock_eq (key : Option (BitVec 256)) (serial : BitVec 32) (post seg num coding : Nat) (raw coded : List Byte) :
    let b := sealBlock key serial post seg num coding raw coded
    b.coding = coding ∧ b.seg = seg ∧ b.num = num ∧ b.raw = raw ∧ b.coded = coded := by
  cases key <;> exact ⟨rfl, rfl, rfl, rfl, rfl⟩

/-- A segment once a block of `n` bytes of it has been stored as block `num` of its part. -/
def Seg.stored (g : Seg) (num n : Nat) : Seg :=
  { g with firstBlock := if g.done = 0 then num else g.firstBlock, blocks := g.blocks + 1, done := g.done + n,
           captured := decide (g.len ≤ g.done + n) }

theorem Job.store_part {j : Job} {k : Nat} {x : Part} (hx : j.parts[k]? = some x) (i : Nat) (g : Seg) (coding : Nat) (raw coded : List Byte)
    (demoted : Bool) : ∃ y b, (j.store k i g coding raw coded demoted).parts[k]? = some y ∧ y.blocks = x.blocks ++ [b] ∧
      y.bytes = x.bytes + storedSize b.coded.length ∧ b.coding = coding ∧ b.seg = i ∧ b.num = x.blocks.length ∧ b.raw = raw ∧
      b.coded = coded := by
  obtain ⟨hk, -⟩ := List.getElem?_eq_some_iff.mp hx
  obtain ⟨hcoding, hseg, hnum, hraw, hcoded⟩ := sealBlock_eq j.key j.serial x.post i x.blocks.length coding raw coded
  simp only [Job.store, List.getD_eq_getElem?_getD, hx, Option.getD_some]
  refine ⟨_, _, List.getElem?_set_self hk, rfl, ?_, hcoding, hseg, hnum, hraw, hcoded⟩
  rw [hcoded]
  rfl

theorem Job.store_seg {j : Job} {i : Nat} (hi : i < j.segs.length) (k : Nat) (g : Seg) (coding : Nat) (raw coded : List Byte)
    (demoted : Bool) : ∃ num, (j.store k i g coding raw coded demoted).segs[i]? = some (g.stored num raw.length) :=
  ⟨_, List.getElem?_set_self hi⟩

/-! ### How a block is coded (R156, R163, R172) -/

theorem slice_length (bs : List Byte) (off n : Nat) : (slice bs off n).length = n := by
  simp [slice]

theorem length_rangeFrom (a n : Nat) : (rangeFrom a n).length = n := by
  rw [rangeFrom_eq_range', List.length_range']

theorem State.ownLines_length (s : State) (j : Job) (g : Seg) (foreign : List Nat) (raw : List Byte) :
    (s.ownLines j g foreign raw).length = raw.length := by
  unfold State.ownLines
  split
  · simp [length_rangeFrom]
  · rfl

/-- A line of another owner reads as zeros, and every other byte as it is. -/
theorem State.ownLines_getD (s : State) (j : Job) (g : Seg) (foreign : List Nat) (raw : List Byte) {i : Nat} (hi : i < raw.length) :
    (s.ownLines j g foreign raw).getD i 0 =
      if !(s.deniable j && s.inL2 g && foreign.contains (i / 64)) then raw.getD i 0 else 0 := by
  unfold State.ownLines
  by_cases hkept : (s.deniable j && s.inL2 g) = true
  · simp only [hkept]
    simp [rangeFrom_eq_range', hi]
  · rw [if_neg hkept, Bool.eq_false_iff.mpr hkept]
    rfl

section
variable (s : State) (j : Job) (g : Seg) (n : Nat) (foreign : List Nat) (coded : Option (List Byte))

theorem State.codeBlock_denied (h : s.deniedAt j g = true) (bs : List Byte) :
    s.codeBlock j g n (.bytes bs) foreign coded = (6, List.replicate n 0, []) := if_pos h

theorem State.codeBlock_notHalted (hd : s.deniedAt j g = false) (h : s.notHaltedAt j g = true) (bs : List Byte) :
    s.codeBlock j g n (.bytes bs) foreign coded = (8, List.replicate n 0, []) := by
  simp [State.codeBlock, hd, h]

/-- Readable bytes without a reference or Stroke are coded 0 where all are zero, else 1. -/
theorem State.codeBlock_plain (hd : s.deniedAt j g = false) (hn : s.notHaltedAt j g = false) (href : s.refBlock j g = none) (bs : List Byte) :
    let raw := s.ownLines j g foreign (slice bs 0 n)
    s.codeBlock j g n (.bytes bs) foreign none = if raw.any (fun v => v != 0) then (1, raw, raw) else (0, raw, []) := by
  have hall (raw : List Byte) : raw.all (fun b => b == 0) = !raw.any (fun v => v != 0) := by
    rw [List.all_eq_not_any_not]
    rfl
  intro raw
  simp only [State.codeBlock, hd, hn, href, ite_self, hall]
  cases raw.any (fun v => v != 0) <;> rfl

theorem State.codeBlock_length (src : BlockSource) : (s.codeBlock j g n src foreign coded).2.1.length = n := by
  cases src with
  | eccError => exact List.length_replicate
  | bytes bs =>
    have hraw : (s.ownLines j g foreign (slice bs 0 n)).length = n := by rw [State.ownLines_length, slice_length]
    unfold State.codeBlock
    dsimp only
    (repeat' split) <;> simp [hraw]

end

/-! ### CAPTURE_BLOCK (R161, R172, R173) -/

/-- The read of a reference block marks it and is reported: of the rest nothing changes. -/
theorem State.readRef_frame (s : State) (j : Job) (g : Seg) (post : Nat) (ecc : Bool) : s.readRef j g post ecc =
    { s with folios := (s.readRef j g post ecc).folios, cart := (s.readRef j g post ecc).cart, posts := (s.readRef j g post ecc).posts,
             engines := (s.readRef j g post ecc).engines } := by
  unfold State.readRef
  split
  · rfl
  · split
    · rfl
    · split
      · rfl
      · dsimp only
        split
        · rw [State.folioReport, State.report_eq]
          rfl
        · rfl

/-- A segment as its next block is read: it has taken its flags with its first. -/
def State.segRead (s : State) (j : Job) (g : Seg) : Seg := if g.done = 0 then s.segFlags (j.refJob.bind s.job) g else g

theorem State.segRead_eq (s : State) (j : Job) (g : Seg) :
    s.segRead j g = { g with live := (s.segRead j g).live, delta := (s.segRead j g).delta } := by
  unfold State.segRead
  split <;> rfl

section
variable (s : State) (j j' : Job) (g g' : Seg) (post : Nat) (ecc : Bool)

theorem State.readRef_deniedAt : (s.readRef j' g' post ecc).deniedAt j (s.segRead j g) = s.deniedAt j g := by
  rw [State.readRef_frame, State.segRead_eq]
  rfl

theorem State.readRef_notHaltedAt : (s.readRef j' g' post ecc).notHaltedAt j (s.segRead j g) = s.notHaltedAt j g := by
  rw [State.readRef_frame, State.segRead_eq]
  rfl

theorem State.readRef_ownLines (foreign : List Nat) (raw : List Byte) :
    (s.readRef j' g' post ecc).ownLines j (s.segRead j g) foreign raw = s.ownLines j g foreign raw := by
  rw [State.readRef_frame, State.segRead_eq]
  rfl

end

/-- Without a reference job there is no reference block to read (R173). -/
theorem State.refAt_noRef (s : State) {j : Job} (h : j.refJob = none) (g : Seg) : s.refAt j g = none := by
  simp [State.refAt, h]

theorem State.refBlock_noRef (s : State) {j : Job} (h : j.refJob = none) (g : Seg) : s.refBlock j g = none := by
  simp [State.refBlock, s.refAt_noRef h]

/-- The bytes of a planned segment come from the units. -/
theorem State.blockSource_planned (s : State) {j : Job} {i : Nat} (h : i < j.planned) (q : Nat) (g : Seg) (src : BlockSource) :
    s.blockSource j q i g src = src := if_pos h

/-- The state as a block stands stored in a job: the part draws to its end if it can, an unreadable source is reported, and the engine whose
program made the job hears of the segment's end. -/
def State.blockTaken (s : State) (slot post k seg : Nat) (j : Job) (coding : Nat) (j' : Job) : State :=
  let s1 := s.setJob slot (some (s.drainPart j' k))
  let s2 := if coding = 7 then s1.folioReport ((s.server post).getD post) 6 j.serial j.ctx else s1
  match j.engine with
  | some e => if (match j'.segs[seg]? with | some x => x.captured | none => false) then s2.engineEvent e 2 else s2
  | none => s2

theorem State.blockTaken_job (s : State) (slot post k seg : Nat) (j : Job) (coding : Nat) (j' : Job) :
    (s.blockTaken slot post k seg j coding j').job slot = some (s.drainPart j' k) := by
  refine (State.job_of_docket (s := s.setJob slot (some (s.drainPart j' k))) ?_ slot).trans (State.setJob_self ..)
  unfold State.blockTaken
  dsimp only
  (repeat' split) <;> simp

/-- Part k of a running job captures on a post that is served, and reads a planned segment (R160, R161). -/
structure State.Captures (s : State) (slot post k seg : Nat) (j : Job) (x : Part) (g : Seg) : Prop where
  job       : s.job slot = some j
  running   : j.running = true
  part      : j.partAt post = some k
  listed    : j.parts[k]? = some x
  served    : (s.server post).isSome = true
  capturing : x.state = 3
  power     : s.pkg.pwrWarn = false
  reads     : j.Reads k seg g

section
variable {s : State} {slot post k seg : Nat} {j : Job} {x : Part} {g : Seg}

/-- A block of the segment that a capturing part reads is coded and stored. -/
theorem execCaptureBlock_stores (h : s.Captures slot post k seg j x g) (src : BlockSource) (foreign : List Nat) (ecc : Bool) :
    let g' := s.segRead j g
    let r := s.readRef j g' post ecc
    let b := r.codeBlock j g' (min 4096 (g'.len - g'.done)) src foreign none
    ∃ demoted, execCaptureBlock slot post seg src foreign ecc none s =
      .next (r.blockTaken slot post k seg j b.1 (j.store k seg g' b.1 b.2.1 b.2.2 demoted)) := by
  have hlive : (j.running && ((j.parts[k]?).map (·.state)) == some 3 && (s.server post).isSome && !s.pkg.pwrWarn) = true := by
    simp [h.running, h.listed, h.capturing, h.served, h.power]
  intro g' r b
  refine ⟨r.demotes j post (((j.parts[k]?).map (fun x => 65536 * x.start64k + x.bytes)).getD 0) (storedSize b.2.2.length), ?_⟩
  simp only [execCaptureBlock, h.job, h.part, hlive, h.reads.settleSegs, h.reads.seg, h.reads.current,
    State.blockSource_planned _ h.reads.planned, Bool.not_true, Bool.false_eq_true, if_false, ne_eq, not_true_eq_false]
  rfl

end

/-- The block has the coding, the raw and the coded bytes that a read of the segment gives. -/
def Block.CodedAs (b : Block) (s : State) (j : Job) (g : Seg) (post : Nat) (ecc : Bool) (n : Nat) (src : BlockSource)
    (foreign : List Nat) : Prop :=
  (b.coding, b.raw, b.coded) = (s.readRef j (s.segRead j g) post ecc).codeBlock j (s.segRead j g) n src foreign none

section
variable {b : Block} {s : State} {j : Job} {g : Seg} {post n : Nat} {ecc : Bool} {foreign : List Nat}

theorem Block.CodedAs.length {src : BlockSource} (h : b.CodedAs s j g post ecc n src foreign) : b.raw.length = n :=
  (congrArg (·.2.1.length) h).trans (State.codeBlock_length ..)

theorem Block.CodedAs.unreadable (h : b.CodedAs s j g post ecc n .eccError foreign) : b.coding = 7 ∧ b.coded = [] :=
  ⟨congrArg (·.1) h, congrArg (·.2.2) h⟩

variable {bs : List Byte} (h : b.CodedAs s j g post ecc n (.bytes bs) foreign)
include h

theorem Block.CodedAs.denied (hd : s.deniedAt j g = true) : b.coding = 6 ∧ b.coded = [] := by
  have hb := h.trans (State.codeBlock_denied _ _ _ _ _ _ ((s.readRef_deniedAt ..).trans hd) bs)
  exact ⟨congrArg (·.1) hb, congrArg (·.2.2) hb⟩

theorem Block.CodedAs.notHalted (hd : s.deniedAt j g = false) (hn : s.notHaltedAt j g = true) : b.coding = 8 ∧ b.coded = [] := by
  have hb := h.trans (State.codeBlock_notHalted _ _ _ _ _ _ ((s.readRef_deniedAt ..).trans hd) ((s.readRef_notHaltedAt ..).trans hn) bs)
  exact ⟨congrArg (·.1) hb, congrArg (·.2.2) hb⟩

theorem Block.CodedAs.plain (hd : s.deniedAt j g = false) (hn : s.notHaltedAt j g = false) (href : j.refJob = none) :
    b.raw = s.ownLines j g foreign (slice bs 0 n) ∧ (b.raw.any (fun v => v != 0) = true → b.coding = 1 ∧ b.coded = b.raw) ∧
      (b.raw.any (fun v => v != 0) = false → b.coding = 0 ∧ b.coded = []) := by
  have hb := h.trans (State.codeBlock_plain _ _ _ n foreign ((s.readRef_deniedAt ..).trans hd) ((s.readRef_notHaltedAt ..).trans hn)
    (State.refBlock_noRef _ href _) bs)
  rw [State.readRef_ownLines] at hb
  split at hb
  · next hany =>
    obtain ⟨hcoding, hraw, hcoded⟩ : b.coding = 1 ∧ b.raw = _ ∧ b.coded = _ := by simpa only [Prod.mk.injEq] using hb
    rw [hraw, hcoded]
    exact ⟨rfl, fun _ => ⟨hcoding, rfl⟩, fun hno => absurd hany (by rw [hno]; exact Bool.false_ne_true)⟩
  · next hnone =>
    obtain ⟨hcoding, hraw, hcoded⟩ : b.coding = 0 ∧ b.raw = _ ∧ b.coded = _ := by simpa only [Prod.mk.injEq] using hb
    rw [hraw, hcoded]
    exact ⟨rfl, fun hany => absurd hany hnone, fun _ => ⟨hcoding, rfl⟩⟩

end

/-- What CAPTURE_BLOCK leaves of the part that captures and of the segment that it reads. -/
theorem captureBlock_stored {s : State} {slot post k seg : Nat} {j : Job} {x : Part} {g : Seg} (h : s.Captures slot post k seg j x g)
    (src : BlockSource) (foreign : List Nat) (ecc : Bool) :
    let n := min 4096 (g.len - g.done)
    ∃ t j' y b g', exec (.captureBlock slot post seg src foreign ecc none) s = .next t ∧ t.job slot = some j' ∧
      j'.parts[k]? = some y ∧ y.blocks = x.blocks ++ [b] ∧ y.bytes = x.bytes + storedSize b.coded.length ∧
      b.seg = seg ∧ b.num = x.blocks.length ∧ j'.segs[seg]? = some g' ∧ g'.done = g.done + b.raw.length ∧
      g'.captured = decide (g.len ≤ g.done + b.raw.length) ∧ b.CodedAs s j g post ecc n src foreign := by
  obtain ⟨demoted, hexec⟩ := execCaptureBlock_stores h src foreign ecc
  obtain ⟨hdone, hlen⟩ : (s.segRead j g).done = g.done ∧ (s.segRead j g).len = g.len := by
    rw [State.segRead_eq]
    exact ⟨rfl, rfl⟩
  rw [hdone, hlen] at hexec
  obtain ⟨hseg, -⟩ := List.getElem?_eq_some_iff.mp h.reads.seg
  generalize hr : s.readRef j (s.segRead j g) post ecc = r at hexec
  generalize hcode : r.codeBlock j (s.segRead j g) (min 4096 (g.len - g.done)) src foreign none = code at hexec
  obtain ⟨y, b, hy, hblocks, hbytes, hcoding, hbseg, hnum, hraw, hcoded⟩ :=
    Job.store_part h.listed seg (s.segRead j g) code.1 code.2.1 code.2.2 demoted
  obtain ⟨num, hstored⟩ := Job.store_seg hseg k (s.segRead j g) code.1 code.2.1 code.2.2 demoted
  obtain ⟨st, hdrained⟩ := r.drainPart_part hy
  have hkept := r.drainPart_seg k (j := j.store k seg (s.segRead j g) code.1 code.2.1 code.2.2 demoted) h.reads.planned hstored
    (hlen ▸ h.reads.holds : (s.segRead j g).len ≠ 0)
  refine ⟨_, _, { y with state := st }, b, _, hexec, State.blockTaken_job .., hdrained, hblocks, hbytes, hbseg, hnum, hkept, ?_, ?_, ?_⟩
  · rw [hraw, ← hdone]
    rfl
  · rw [hraw, ← hdone, ← hlen]
    rfl
  · rw [Block.CodedAs, hcoding, hraw, hcoded, hr, hcode]

/-! ### COMMITTED_POINTER, PART_END and JOB_DONE (R159, R166, R176, R179) -/

/-- A part once HBM has acknowledged its next 64 KB (R179): its buffer holds no more than the bytes beyond take (R180, assumption 165). -/
def Part.acknowledged (x : Part) : Part :=
  { x with committed := x.committed + 65536, wcb := min x.wcb (min 64 ((x.bytes + 255) / 256 - (x.committed + 65536) / 256)) }

section
variable {s : State} {slot post k : Nat} {j : Job} {x : Part}

theorem execCommittedPointer_acknowledged (hjob : s.job slot = some j) (hpart : j.partAt post = some k) (hx : j.parts[k]? = some x)
    (hopen : x.state = 3 ∨ x.state = 4) (hroom : x.committed + 65536 ≤ x.bytes) :
    ∃ t j', exec (.committedPointer slot post) s = .next t ∧ t.job slot = some j' ∧ j'.parts[k]? = some x.acknowledged ∧
      j'.segs = j.segs := by
  change ∃ t j', execCommittedPointer slot post s = .next t ∧ _
  simp only [execCommittedPointer, hjob, hpart]
  refine ⟨_, _, rfl, State.setJob_self .., ?_, rfl⟩
  simp [hx, hopen, hroom, Part.acknowledged, Part.buffered]

theorem execPartEnd_ends (hjob : s.job slot = some j) (hrunning : j.running = true) (hpart : j.partAt post = some k)
    (hx : j.parts[k]? = some x) (hserver : (s.server post).isSome = true) (hopen : x.state = 3 ∨ x.state = 4) (hdry : j.curSeg k = none)
    (hfend : j.fendBegun = true) :
    ∃ t j' y, exec (.partEnd slot post) s = .next t ∧ t.job slot = some j' ∧ j'.parts[k]? = some y ∧
      y.state = (if j.cutShort then 6 else 5) ∧ y.committed = x.bytes ∧ y.blocks = x.blocks ∧ j'.segs = j.segs := by
  obtain ⟨hk, -⟩ := List.getElem?_eq_some_iff.mp hx
  have hends : (j.running && (((j.parts[k]?).map (·.state)).getD 0 == 3 || ((j.parts[k]?).map (·.state)).getD 0 == 4) && j.partDry k &&
      (s.server post).isSome) = true := by
    simp [hrunning, hx, hopen, Job.partDry, hfend, hdry, hserver]
  have hgetD : j.parts.getD k { post := 0, lead := false, start64k := 0, res64k := 0 } = x := by
    rw [List.getD_eq_getElem?_getD, hx, Option.getD_some]
  change ∃ t j' y, execPartEnd slot post s = .next t ∧ _
  simp only [execPartEnd, hjob, hpart, State.settleSegs_dry s hdry, hends, if_true]
  refine ⟨_, _, _, rfl, State.setJob_self .., List.getElem?_set_self hk, rfl, ?_, ?_, rfl⟩ <;> rw [hgetD]

theorem execJobDone_finishes (hjob : s.job slot = some j) (hrunning : j.running = true) (hfend : j.fendBegun = true)
    (hparts : j.parts.all (fun y => y.state == 5 || y.state == 6) = true) (hserver : (s.server j.leadPost).isSome = true)
    (hlive : s.pkg.bothDead = false) (hrefs : s.host.refs = []) : exec (.jobDone slot) s = .next (s.finishJob slot) := by
  have hdone : (j.running && (j.fendBegun || j.cutShort) && j.parts.all (fun x => x.state == 5 || x.state == 6) &&
      (s.server j.leadPost).isSome && (!s.pkg.bothDead || j.lone)) = true := by
    simp only [hrunning, hfend, hparts, hserver, hlive, Bool.true_or, Bool.and_true, Bool.not_false]
  change execJobDone slot s = _
  simp only [execJobDone, hjob, hdone, if_true]
  rw [State.reap_noRefs (State.finishJob_noRefs hjob (Job.live_of_running hrunning) hrefs)]

end

/-- Settles O34: a block is stored and coded as `captureBlock_stored` and the lemmas of `Block.CodedAs` say; the pointer moves by
`Part.acknowledged`, and a part and a job end by `execPartEnd_ends` and `Job.finished`. -/
theorem captureAndEnd : Obligations.CaptureAndEnd := by
  intro s slot post k seg src bs foreign ecc j x g hjob n kept
  refine ⟨fun hrunning hpart hx hserver => ⟨fun hcapturing hpower hg hcur hplanned hlen => ?_, fun hopen hdry hfend =>
    execPartEnd_ends hjob hrunning hpart hx hserver hopen hdry hfend⟩, fun hpart hx hopen hroom =>
    execCommittedPointer_acknowledged hjob hpart hx hopen hroom, fun hrunning hfend hparts hserver hlive hrefs => ?_⟩
  · have captures : s.Captures slot post k seg j x g :=
      ⟨hjob, hrunning, hpart, hx, hserver, hcapturing, hpower, hg, hcur, hplanned, hlen⟩
    obtain ⟨t, j', y, b, g', hexec, hj', hy, hblocks, hbytes, hseg, hnum, hg', hdone, hcaptured, hcoded⟩ :=
      captureBlock_stored captures src foreign ecc
    rw [hcoded.length] at hdone hcaptured
    refine ⟨t, j', y, b, g', hexec, hj', hy, hblocks, hbytes, hseg, hnum, hcoded.length, hg', hdone, hcaptured, ?_, ?_, ?_, ?_⟩
    · rintro rfl
      exact hcoded.unreadable
    · rintro rfl
      exact hcoded.denied
    · rintro rfl
      exact hcoded.notHalted
    · rintro rfl hd hn href
      obtain ⟨hraw, hplain⟩ := hcoded.plain hd hn href
      refine ⟨fun i hi => ?_, hplain⟩
      rw [hraw, State.ownLines_getD _ _ _ _ _ (by rwa [slice_length])]
  · refine ⟨_, j.finished s.pkg.meridian, execJobDone_finishes hjob hrunning hfend hparts hserver hlive hrefs, ?_, rfl, rfl, rfl, rfl⟩
    rw [State.finishJob_job hjob (Job.live_of_running hrunning), State.setJob_self]

end Sys2Proof.Machine

/-! SUPPORT. Exports of folios (R182 to R184, R335, R378, R397). -/

namespace Sys2Proof.Machine

section
variable {s : State} {c : CmdCtx} {slot off len i : Nat} {j : Job} {x : Export}

/-! ### FOLIO_EXPORT (R183, R184) -/

/-- What a FOLIO_EXPORT of these operands begins. -/
def folioExport (c : CmdCtx) (slot : Nat) (render : Bool) (off len : Nat) : Export :=
  { job := some slot, stream := 0, post := 0, consume := false, render := render, toPort := c.queue.isNone, session := c.session,
    tag := c.tag, queue := c.queue, off := off, len := len }

/-- What begins joins the running exports and holds its object; its aperture is the port's own. -/
theorem State.startExport_leaves (s : State) (x : Export) (kind slot : Nat) :
    (s.startExport x kind slot).folios = { s.folios with exports := s.folios.exports ++ [x] } ∧
      ((s.startExport x kind slot).refs kind slot).hub = (s.refs kind slot).hub + 1 := by
  have hub : ((State.hubRef { s with folios := { s.folios with exports := s.folios.exports ++ [x] } } kind slot).refs kind slot).hub =
      (s.refs kind slot).hub + 1 := State.hubRef_hub ..
  unfold State.startExport
  dsimp only
  split <;> exact ⟨rfl, hub⟩

theorem execFolioExport_begins (heard : Claims.Heard s c) (hslot : slot < 64) (hroom : c.queue = none ∨ len ≤ c.resLen)
    (hfree : s.taken 128 = false) (hjob : s.job slot = some j) (hmay : s.mayExport c.who j false = true) (hlen : 0 < len)
    (hended : j.ended = true) (hnone : s.folios.exports = []) (hrange : off + len ≤ j.total) :
    Claims.Done (.folioExport c slot false off len) s c (objectWord ObjKind.job slot) 0
      (s.startExport (folioExport c slot false off len) ObjKind.job slot) := by
  obtain ⟨hsession, hlive, hfw⟩ := heard
  have hholds : c.holds len = true := by
    rcases hroom with h | h <;> simp [CmdCtx.holds, h]
  change execFolioExport c slot false off len s = _
  simp only [execFolioExport, hjob]
  refine congrArg Host.Outcome.next ((State.judged_ok hlive hfw hsession ?_).trans ?_)
  · simp [firstFail, hslot, hholds, hfree, hmay]
  · rw [if_neg (by omega)]
    refine State.judged_ok hlive hfw hsession ?_
    simp [firstFail, hjob, hended, hnone, State.portExport, hrange]

/-! ### EXPORT_CHUNK (R182, R335) -/

theorem State.setExport_export (s : State) {i : Nat} {y : Export} (h : s.folios.exports[i]? = some y) (x : Export) :
    (s.setExport i x).folios.exports[i]? = some x := by
  obtain ⟨hi, -⟩ := List.getElem?_eq_some_iff.mp h
  exact List.getElem?_set_self hi

/-- One of the exports runs: it is listed, its status is 0, bytes are left to move, and a Compass lives. -/
structure State.Exports (s : State) (i : Nat) (x : Export) : Prop where
  listed : s.folios.exports[i]? = some x
  status : x.status = 0
  left   : x.moved < x.len
  live   : s.pkg.bothDead = false

theorem execExportChunk_denied (h : s.Exports i x) (hmay : s.exportAllowed x = false) :
    exec (.exportChunk i 0 false) s = .next (s.setExport i { x with status := Status.unitDenied }) := by
  change execExportChunk i 0 false s = _
  simp [execExportChunk, h.listed, h.status, h.left, h.live, hmay]

/-- The first read-back of a job of HINT 2 invalidates its lines (R181). -/
def State.linesRead (s : State) (slot from_ n : Nat) : State :=
  match s.job slot with
  | some j => if j.hint = 2 then s.setJob slot (some (j.readBack from_ n)) else s
  | none => s

theorem State.linesRead_exports (s : State) (slot from_ n : Nat) : (s.linesRead slot from_ n).folios.exports = s.folios.exports := by
  unfold State.linesRead
  split
  · split <;> rfl
  · rfl

theorem State.linesRead_jobs (s : State) {slot : Nat} (h : ∀ y, s.job slot = some y → y.hint ≠ 2) (from_ n : Nat) :
    (s.linesRead slot from_ n).folios.jobs = s.folios.jobs := by
  unfold State.linesRead
  split
  · next y hy => rw [if_neg (h y hy)]
  · rfl

theorem State.linesRead_job_ne (s : State) {slot k : Nat} (hk : k ≠ slot) (from_ n : Nat) : (s.linesRead slot from_ n).job k = s.job k := by
  unfold State.linesRead
  split
  · split
    · exact State.setJob_ne _ _ _ _ hk
    · rfl
  · rfl

/-- A chunk of a folio that leaves for host memory. -/
theorem State.moveChunk_folio (s : State) (i : Nat) {x : Export} {slot : Nat} (hjob : x.job = some slot) (hhost : x.toPort = false) :
    let t := (s.linesRead slot (x.off + x.moved) (s.exportBytes x).length).setExport i
      { x with moved := x.moved + (s.exportBytes x).length, paused := none }
    s.moveChunk i x = { t with host := { t.host with result := s.exportBytes x } } := by
  simp only [State.moveChunk, hjob, hhost, Option.isNone_some, Bool.false_and, Bool.false_eq_true, if_false]
  rfl

theorem State.markEcc_zero (s : State) (slot off : Nat) : s.markEcc slot off 0 = s := by
  unfold State.markEcc
  split <;> rfl

section
variable (h : s.Exports i x) (hmay : s.exportAllowed x = true) (hhost : x.toPort = false) (hbus : s.pkg.busMaster = true)
  (hjob : x.job = some slot)
include h hmay hhost hbus hjob

theorem execExportChunk_moves : exec (.exportChunk i 0 false) s = .next (s.moveChunk i x) := by
  change execExportChunk i 0 false s = _
  simp [execExportChunk, h.listed, h.status, h.left, h.live, hmay, hhost, hbus, hjob, State.markEcc_zero]

/-- Header, tables or trailer that read back uncorrectable stop it with FOLIO_DAMAGED. -/
theorem execExportChunk_damaged : ∃ t, exec (.exportChunk i 0 true) s = .next t ∧
    t.folios.exports[i]? = some { x with status := Status.folioDamaged } := by
  change ∃ t, execExportChunk i 0 true s = .next t ∧ _
  simp only [execExportChunk, h.listed, h.status, h.live, Nat.not_le.mpr h.left, hmay, hhost, hbus, hjob]
  refine ⟨_, rfl, State.setExport_export _ (y := x) ?_ _⟩
  split
  · rw [State.folios_of_docket (State.folioReport_docket ..)]
    exact h.listed
  · exact h.listed

end

/-! ### EXPORT_PAUSE_TIMEOUT and EXPORT_DONE (R183, R393, R397) -/

theorem execExportPauseTimeout_due {t0 : Time} (h : s.Exports i x) (hpaused : x.paused = some t0)
    (hdue : t0.toNat + 1000000000 ≤ s.now) :
    exec (.exportPauseTimeout i) s = .next (s.setExport i { x with status := Status.destGone }) := by
  change execExportPauseTimeout i s = _
  simp only [execExportPauseTimeout, h.listed, hpaused, h.status, hdue, h.live]
  rfl

/-- EXPORT_DONE is written; a port session that has closed hears none. -/
def State.exportHeard (s : State) (x : Export) : State :=
  if x.toPort ∧ (s.session x.session).isNone then s else s.exportEvent x x.status

theorem State.exportHeard_docket (s : State) (x : Export) : (s.exportHeard x).docket = s.docket := by
  unfold State.exportHeard State.exportEvent
  split <;> simp

/-- Without counted objects a dropped reference ends nothing. -/
theorem State.hubUnref_reap_folios {s : State} (h : s.host.refs = []) (kind slot : Nat) : (s.hubUnref kind slot).reap.folios = s.folios := by
  rw [State.reap_noRefs (State.hubUnref_noRefs h kind slot)]
  rfl

theorem execExportDone_ends (h : s.folios.exports[i]? = some x) (hlive : s.pkg.bothDead = false) (hover : x.status ≠ 0 ∨ x.len ≤ x.moved)
    (hrefs : s.host.refs = []) : ∃ t, exec (.exportDone i) s = .next t ∧
      t.folios = { s.folios with exports := s.folios.exports.eraseIdx i } := by
  have hends : ¬((x.status = 0 ∧ x.moved < x.len) ∨ s.pkg.bothDead = true) := by
    simp [hlive]
    omega
  have gone {t : State} (ht : t.docket = ({ s.folios with exports := s.folios.exports.eraseIdx i }, s.host.refs)) (kind slot : Nat) :
      (t.hubUnref kind slot).reap.folios = { s.folios with exports := s.folios.exports.eraseIdx i } :=
    (State.hubUnref_reap_folios ((congrArg (·.2) ht).trans hrefs) kind slot).trans (congrArg (·.1) ht)
  have told := State.exportHeard_docket { s with folios := { s.folios with exports := s.folios.exports.eraseIdx i } } x
  change ∃ t, execExportDone i s = .next t ∧ _
  simp only [execExportDone, h, if_neg hends]
  refine ⟨_, rfl, ?_⟩
  split <;> refine gone ?_ _ _ <;> split <;> exact told

end

/-- Settles O35: exports begin by `startExport`, a chunk leaves by `moveChunk_folio`, and `execExportDone_ends` erases what has ended. -/
theorem folioExports : Obligations.FolioExports := by
  intro s c slot off len i j x t0
  refine ⟨fun heard hslot hroom hfree hjob hmay hlen hended hnone hrange => ?_, fun hx hlive => ⟨fun hstatus hleft => ?_,
    fun hover hrefs => ?_⟩⟩
  · obtain ⟨hfolios, hhub⟩ := s.startExport_leaves (folioExport c slot false off len) ObjKind.job slot
    refine ⟨_, folioExport c slot false off len, execFolioExport_begins heard hslot hroom hfree hjob hmay hlen hended hnone hrange, ?_, rfl,
      rfl, rfl, rfl, rfl, hhub, ?_⟩ <;> rw [hfolios]
    rw [hnone, List.nil_append]
  · have exports : s.Exports i x := ⟨hx, hstatus, hleft, hlive⟩
    refine ⟨execExportChunk_denied exports, fun hmay hhost hbus hjob => ⟨⟨s.moveChunk i x, execExportChunk_moves exports hmay hhost hbus hjob,
      ?_⟩, execExportChunk_damaged exports hmay hhost hbus hjob⟩, execExportPauseTimeout_due exports⟩
    rw [State.moveChunk_folio s i hjob hhost]
    refine ⟨rfl, fun y hy hhint => State.linesRead_jobs s (fun z hz => ?_) _ _, fun k hk => State.linesRead_job_ne s hk _ _,
      State.setExport_export _ (y := x) (by rw [State.linesRead_exports, hx]) _⟩
    cases hy.symm.trans hz
    exact hhint
  · obtain ⟨t, ht, hfolios⟩ := execExportDone_ends hx hlive hover hrefs
    exact ⟨t, ht, by rw [hfolios], by rw [hfolios]⟩

end Sys2Proof.Machine

/-! SUPPORT. PWR_WARN (R185, R187, R188): every engine's event, and what drains and the end of every folio leave of the others. -/

namespace Sys2Proof.Machine

/-! ### Events that stand -/

/-- Every event that is set in an engine of `s` is set in it in `t`. -/
structure EventsStand (s t : State) : Prop where
  stands : ∀ e i, (s.engine e).events.getLsbD i = true → (t.engine e).events.getLsbD i = true

theorem EventsStand.refl (s : State) : EventsStand s s := ⟨fun _ _ h => h⟩

theorem EventsStand.trans {s t u : State} (a : EventsStand s t) (b : EventsStand t u) : EventsStand s u :=
  ⟨fun e i h => b.stands e i (a.stands e i h)⟩

theorem EventsStand.same {s t : State} (h : t.engines = s.engines) : EventsStand s t :=
  ⟨fun e i hs => by rwa [State.engine, h]⟩

theorem EventsStand.leaving {s t u : State} (h : EventsStand s t) (e : u.engines = t.engines) : EventsStand s u := h.trans (.same e)

theorem EventsStand.past {s t u : State} (h : EventsStand t u) (e : t.engines = s.engines) : EventsStand s u :=
  (EventsStand.same e).trans h

theorem EventsStand.pend {s t : State} (h : ∀ k, ∃ v, t.engine k = (s.engine k).pend v) : EventsStand s t :=
  ⟨fun e i hs => by
    obtain ⟨v, hv⟩ := h e
    rw [hv, Engine.pend, BitVec.getLsbD_or, hs, Bool.true_or]⟩

theorem EventsStand.ite {s a b : State} (c : Prop) [Decidable c] (ha : EventsStand s a) (hb : EventsStand s b) :
    EventsStand s (if c then a else b) := by
  split
  · exact ha
  · exact hb

theorem EventsStand.foldl {α : Type} {f : State → α → State} (h : ∀ s a, EventsStand s (f s a)) (l : List α) (s : State) :
    EventsStand s (l.foldl f s) :=
  List.foldlRecOn (motive := EventsStand s) l f (.refl s) fun t ht a _ => ht.trans (h t a)

theorem EventsStand.engineEvent (s : State) (e bit : Nat) : EventsStand s (s.engineEvent e bit) := .pend (s.engineEvent_engine e bit)

theorem EventsStand.report (s : State) (u : Uno) (cls code : Nat) (d : List Byte) (c : Ctx) : EventsStand s (s.report u cls code d c) :=
  .pend (s.report_engine u cls code d c)

theorem EventsStand.folioReport (s : State) (post code : Nat) (serial : BitVec 32) (ctx : Ctx) :
    EventsStand s (s.folioReport post code serial ctx) := .report ..

theorem EventsStand.netReport (s : State) (u : Uno) (code : Nat) : EventsStand s (s.netReport u code) := .report ..

theorem EventsStand.emit (s : State) (k : Nat) (e : Event) : EventsStand s (s.emit k e) := .same (by rw [State.emit_eq])

/-! ### Folios that end -/

theorem EventsStand.fendResult (s : State) (e slot status : Nat) : EventsStand s (s.fendResult e slot status) := by
  refine .ite _ ⟨fun k i h => ?_⟩ (.refl s)
  by_cases hk : k = e
  · subst hk
    rw [State.setEngine_self]
    exact h
  · rw [State.setEngine_ne _ _ _ _ hk]
    exact h

theorem EventsStand.finishJob (s : State) (slot : Nat) : EventsStand s (s.finishJob slot) := by
  unfold State.finishJob
  split
  · exact .refl s
  · next j _ =>
    refine .ite _ (.refl s) ?_
    extract_lets ran whole j1 s1 s2 s3 s4
    have h1 : EventsStand s s1 := .same rfl
    have h2 : EventsStand s1 s2 := .ite _ (.refl s1) (.ite _ (.folioReport ..) (.refl s1))
    have h4 : EventsStand s3 s4 := by
      unfold s4
      split
      · exact (EventsStand.fendResult ..).trans (.engineEvent ..)
      · exact .refl s3
    have h := h1.trans (h2.trans ((EventsStand.emit ..).trans h4))
    exact .ite _ (h.leaving rfl) h

theorem State.keyUnused_engines (s : State) (slot : Nat) (j : Job) : (s.keyUnused slot j).engines = s.engines := by
  unfold State.keyUnused
  split <;> rfl

theorem State.hubRef_engines (s : State) (kind slot : Nat) : (s.hubRef kind slot).engines = s.engines := rfl

theorem EventsStand.cutJob (s : State) (slot : Nat) (finishBegun : Bool) : EventsStand s (s.cutJob slot finishBegun) := by
  unfold State.cutJob
  split
  · exact .refl s
  · next j _ =>
    refine .ite _ (.refl s) ?_
    extract_lets begun segs j1 s1 s2 j2
    have h1 : s1.engines = s.engines := rfl
    have h2 : EventsStand s s2 := (EventsStand.same h1).trans (.ite _ (.same ((State.keyUnused_engines ..).trans (State.hubRef_engines ..)))
      (.refl s1))
    exact .ite _ h2 (h2.trans (.past (.finishJob (s2.setJob slot (some j2)) slot) rfl))

theorem EventsStand.wcbLoss (s : State) (slot : Nat) (j : Job) (q reason lines : Nat) :
    EventsStand s (s.wcbLoss slot j q reason lines) := by
  unfold State.wcbLoss
  exact .past (.folioReport ..) rfl

theorem EventsStand.drainAll (s : State) (reason : Nat) (us : List Undrained) : EventsStand s (s.drainAll reason us) := by
  refine .foldl (fun t u => ?_) us s
  unfold State.drainPost
  refine .ite _ (.refl t) ?_
  split
  · exact .wcbLoss ..
  · exact .refl t

theorem State.keepDrained_engines (s : State) (slot : Nat) (us : List Undrained) : (s.keepDrained slot us).engines = s.engines := by
  unfold State.keepDrained
  split
  · rfl
  · split <;> rfl

/-! ### Objects that die -/

theorem State.unloadSet_engines (s : State) (slot reason : Nat) : (s.unloadSet slot reason).engines = s.engines := by
  unfold State.unloadSet
  split
  · rfl
  · split <;> rfl

theorem State.endStream_engines (s : State) (slot reason : Nat) : (s.endStream slot reason).engines = s.engines := by
  unfold State.endStream
  split
  · rfl
  · split
    · rfl
    · have parts (t : State) : ((rangeFrom 0 s.pkg.member.posts).foldl (fun t p =>
          if (t.tpart p slot).state = 0 then t else t.setTpart p slot { t.tpart p slot with state := 5 }) t).engines = t.engines :=
        State.foldl_leaves (·.engines) (fun u p => by split <;> rfl) _ t
      dsimp only
      split <;> exact parts _

theorem State.clearDeadlock_engines (s : State) (c : Ctx) : (s.clearDeadlock c).engines = s.engines := rfl

theorem State.clearPolicies_engines (s : State) (c : Ctx) : (s.clearPolicies c).engines = s.engines :=
  State.foldl_leaves (·.engines) (fun t r => by dsimp only; split <;> rfl) _ _

theorem State.freeDeadlines_engines (s : State) (f : Deadline → Bool) (result : Nat) : (s.freeDeadlines f result).engines = s.engines := by
  refine State.foldl_leaves (·.engines) (fun t e => ?_) _ _
  split
  · split
    · rw [State.endDeadline, State.emit_eq]
      rfl
    · rfl
  · rfl

theorem EventsStand.discardBoundary (s : State) (v : Uno) : EventsStand s (s.discardBoundary v) :=
  .foldl (f := fun t (e : Nat × Boundary) => if s.inScope v (e.1 % 0x10000) then
      (e.2.flits.foldl (fun r _ => r.netReport (e.1 / 0x10000) 2) t).setBound e.1 {} else t)
    (fun t e => .ite _ (.leaving (.foldl (fun r _ => .netReport r (e.1 / 0x10000) 2) e.2.flits t) rfl) (.refl t)) s.bounds s

theorem State.resetPartition_engines (s : State) (v : Uno) (c : Ctx) : (s.resetPartition v c).engines = s.engines :=
  State.foldl_leaves (·.engines) (f := fun t u => t.setCore u { t.core u with
    run := .running, settled := true, asleep := false, wakeHeld := false, holdP := false, holdC := false, halted := false, precise := none,
    stops := [], fmd := 0 }) (fun _ _ => rfl) (s.coresIn v) s

theorem EventsStand.clearPartition (s : State) (slot : Uno) (g : Group) : EventsStand s (s.clearPartition slot g) := by
  unfold State.clearPartition
  extract_lets c cart auth s1 s2 s3 s4 s5
  have h2 : s2.engines = s.engines :=
    State.foldl_leaves (·.engines) (fun t i => by
      split
      · split
        · exact State.unloadSet_engines ..
        · rfl
      · rfl) _ s1
  have h3 : s3.engines = s2.engines :=
    State.foldl_leaves (·.engines) (fun t i => by
      split
      · split
        · exact State.endStream_engines ..
        · rfl
      · rfl) _ s2
  have h4 : s4.engines = s3.engines := (State.freeDeadlines_engines ..).trans
    ((State.clearDeadlock_engines ..).trans (State.clearPolicies_engines s3 c))
  have h5 : EventsStand s4 s5 := (EventsStand.discardBoundary ..).trans (.same (State.resetPartition_engines ..))
  exact (h5.past (h4.trans (h3.trans h2))).leaving rfl

theorem EventsStand.dropGroup (s : State) (slot : Uno) : EventsStand s (s.dropGroup slot) := by
  unfold State.dropGroup
  split
  · exact .refl s
  · next g _ =>
    extract_lets s1 s2
    have h1 : EventsStand s s1 := .ite _ (.clearPartition ..) (.refl s)
    have h2 : s2.engines = s1.engines :=
      State.foldl_leaves (·.engines) (f := fun t u => t.hubUnref ObjKind.group (u - 0xF00000)) (fun _ _ => rfl) (s1.memberGroups g) s1
    exact h1.leaving h2

theorem State.dropJob_engines (s : State) (slot : Nat) : (s.dropJob slot).engines = s.engines := by
  unfold State.dropJob
  dsimp only
  (repeat' split) <;> rfl

theorem State.freeRefs_engines (s : State) (kind slot : Nat) : (s.freeRefs kind slot).engines = s.engines := rfl

theorem EventsStand.diedEvent (s : State) (kind slot : Nat) : EventsStand s (s.diedEvent kind slot) := .emit ..

theorem EventsStand.perish (s : State) (kind slot : Nat) : EventsStand s (s.perish kind slot) := by
  unfold State.perish
  extract_lets _ s1
  have h1 : EventsStand s s1 := .leaving (.diedEvent s kind slot) rfl
  have job : ((s1.dropJob slot).freeRefs kind slot).engines = s1.engines :=
    (State.freeRefs_engines ..).trans (State.dropJob_engines s1 slot)
  have group : EventsStand s1 ((s1.dropGroup (0xF00000 + slot)).freeRefs kind slot) :=
    (EventsStand.dropGroup s1 (0xF00000 + slot)).leaving (State.freeRefs_engines ..)
  exact h1.trans (.ite _ (.same job) (.ite _ (.same (State.unloadSet_engines ..)) (.ite _ (.same (State.endStream_engines ..)) group)))

theorem EventsStand.reap (s : State) : EventsStand s s.reap := by
  have each (n : Nat) (t : State) : EventsStand t (State.reapN n t) := by
    induction n generalizing t with
    | zero => exact .refl t
    | succ n ih =>
      unfold State.reapN
      split
      · exact .refl t
      · exact (EventsStand.perish ..).trans (ih _)
  exact each _ s

/-! ### Every engine is told (R185) -/

theorem State.engineEvent_set (s : State) (e : Nat) {bit : Nat} (h : bit < 16) :
    ((s.engineEvent e bit).engine e).events.getLsbD bit = true := by
  have hbit : (BitVec.ofNat 16 (2 ^ bit)).getLsbD bit = true := by
    rw [BitVec.getLsbD_ofNat, Nat.testBit_two_pow_self, decide_eq_true h, Bool.and_self]
  rw [State.engineEvent, State.setEngine_self, BitVec.getLsbD_or, hbit, Bool.or_true]

/-- Each engine of the member and the root engine take the event. -/
theorem State.eventAll_set (s : State) {bit e : Nat} (hbit : bit < 16) (he : e < s.pkg.member.posts ∨ e = 128) :
    ((s.eventAll bit).engine e).events.getLsbD bit = true := by
  have hlisted : e ∈ rangeFrom 0 s.pkg.member.posts ++ [128] := by
    simpa [mem_rangeFrom] using he
  obtain ⟨l₁, l₂, hl⟩ := List.append_of_mem hlisted
  rw [State.eventAll, hl, List.foldl_append, List.foldl_cons]
  exact (EventsStand.foldl (fun t k => .engineEvent t k bit) l₂ _).stands e bit (State.engineEvent_set _ e hbit)

/-! ### What a power warning leaves of the topology -/

@[simp ↓] theorem State.eventAll_topo (s : State) (bit : Nat) : (s.eventAll bit).topo = s.topo := by simp [State.eventAll]

@[simp ↓] theorem State.wcbLoss_topo (s : State) (slot : Nat) (j : Job) (q reason lines : Nat) :
    (s.wcbLoss slot j q reason lines).topo = s.topo := by
  simp [State.wcbLoss]

@[simp ↓] theorem State.drainPost_topo (s : State) (q reason lines : Nat) : (s.drainPost q reason lines).topo = s.topo := by
  unfold State.drainPost
  split <;> simp

@[simp ↓] theorem State.drainAll_topo (s : State) (reason : Nat) (us : List Undrained) : (s.drainAll reason us).topo = s.topo := by
  simp [State.drainAll]

@[simp ↓] theorem State.keepDrained_topo (s : State) (slot : Nat) (us : List Undrained) : (s.keepDrained slot us).topo = s.topo := by
  unfold State.keepDrained
  split <;> simp

/-! ### The running folio through the drains (R186 to R188) -/

/-- The package is warned. -/
def State.warned (s : State) : State := { s with pkg := { s.pkg with pwrWarn := true } }

/-- The warning is reported for the package, and every engine is told. -/
def State.warnTold (s : State) : State :=
  (s.warned.reportHub s.compassDie Class.powerThermal 2 (leBytes 3 s.compassDie) 0).eventAll 9

/-- Every folio keeps what drained. -/
def State.keepAll (s : State) (us : List Undrained) : State := (Tbl.keysSome s.folios.jobs).foldl (fun t j => t.keepDrained j us) s

/-- Every folio that has not ended is written INCOMPLETE. -/
def State.cutAll (s : State) : State := (Tbl.keysSome s.folios.jobs).foldl (fun t j => t.cutJob j false) s

theorem execPwrWarn_warns {s : State} (h : s.pkg.pwrWarn = false) (us : List Undrained) :
    exec (.pwrWarn us) s = .next ((s.warnTold.drainAll 5 us).keepAll us).cutAll.reap := by
  have hnot : ¬s.pkg.pwrWarn = true := by simp [h]
  exact if_neg hnot

/-- The keys of a canonical table rise. -/
theorem Tbl.lt_of_mem {α : Type} [DecidableEq α] {d : α} {t : Tbl α} {l : Nat} (w : Tbl.wfFrom d (some l) t = true) {k : Nat} {v : α}
    (h : (k, v) ∈ t) : l < k := by
  induction t generalizing l with
  | nil => cases h
  | cons e r ih =>
    obtain ⟨i, x⟩ := e
    simp only [Tbl.wfFrom, Bool.and_eq_true, decide_eq_true_eq] at w
    obtain ⟨⟨hi, -⟩, hr⟩ := w
    rcases List.mem_cons.mp h with heq | hmem
    · cases heq
      exact hi
    · exact hi.trans (ih hr hmem)

/-- In a canonical table a listed value is the one that is read. -/
theorem Tbl.get_of_mem {α : Type} [DecidableEq α] {d : α} {t : Tbl α} {lo : Option Nat} (w : Tbl.wfFrom d lo t = true) {k : Nat} {v : α}
    (h : (k, v) ∈ t) : Tbl.get d t k = v := by
  induction t generalizing lo with
  | nil => cases h
  | cons e r ih =>
    obtain ⟨i, x⟩ := e
    simp only [Tbl.wfFrom, Bool.and_eq_true] at w
    obtain ⟨-, hr⟩ := w
    rcases List.mem_cons.mp h with heq | hmem
    · cases heq
      exact if_pos rfl
    · rw [Tbl.get, if_neg (Tbl.lt_of_mem hr hmem).ne, ih hr hmem]

theorem State.listed_of_job {s : State} {slot : Nat} {j : Job} (h : s.job slot = some j) : slot ∈ Tbl.keysSome s.folios.jobs := by
  have hmem : (slot, some j) ∈ s.folios.jobs :=
    h ▸ (Tbl.get_default_or_mem none s.folios.jobs slot).resolve_left fun hnone => nomatch h.symm.trans hnone
  exact List.mem_map.mpr ⟨_, List.mem_filter.mpr ⟨hmem, rfl⟩, rfl⟩

/-- Without counted objects, a running job in a slot. -/
structure State.Runs (s : State) (slot : Nat) : Prop where
  refs : s.host.refs = []
  job  : ∃ j, s.job slot = some j ∧ j.running = true

theorem State.Runs.of_docket {s t : State} {slot : Nat} (h : s.Runs slot) (e : t.docket = s.docket) : t.Runs slot := by
  obtain ⟨hrefs, j, hj, hrunning⟩ := h
  exact ⟨(State.refs_of_docket e).trans hrefs, j, (State.job_of_docket e slot).trans hj, hrunning⟩

/-- A job written over one that runs no less. -/
theorem State.Runs.setJob {s : State} {slot i : Nat} (h : s.Runs slot) {a b : Job} (ha : s.job i = some a)
    (hb : b.running = a.running) : (s.setJob i (some b)).Runs slot := by
  obtain ⟨hrefs, j, hj, hrunning⟩ := h
  refine ⟨hrefs, ?_⟩
  by_cases hi : slot = i
  · subst hi
    cases hj.symm.trans ha
    exact ⟨b, State.setJob_self .., hb.trans hrunning⟩
  · exact ⟨j, (State.setJob_ne _ _ _ _ hi).trans hj, hrunning⟩

theorem State.reportHub_docket (s : State) (u : Uno) (cls code : Nat) (d : List Byte) (c : Ctx) :
    (s.reportHub u cls code d c).docket = s.docket := by
  rw [State.reportHub_eq]
  rfl

theorem State.eventAll_docket (s : State) (bit : Nat) : (s.eventAll bit).docket = s.docket :=
  State.foldl_leaves State.docket (fun t e => t.engineEvent_docket e bit) _ s

/-- The loss of a drain marks the job and enters the map. -/
theorem State.wcbLoss_jobs (s : State) (slot : Nat) (j : Job) (q reason lines : Nat) :
    (s.wcbLoss slot j q reason lines).folios.jobs = (s.setJob slot (some { j with lossFlag := true })).folios.jobs ∧
      (s.wcbLoss slot j q reason lines).host.refs = s.host.refs := by
  unfold State.wcbLoss
  rw [State.folios_of_docket (State.folioReport_docket ..), State.refs_of_docket (State.folioReport_docket ..)]
  split <;> exact ⟨rfl, rfl⟩

/-- A drain of one post leaves the table of jobs canonical, and a running job running. -/
theorem State.Runs.drainPost {s : State} {slot : Nat} (h : s.Runs slot) (w : Tbl.wf none s.folios.jobs = true) (q reason lines : Nat) :
    (s.drainPost q reason lines).Runs slot ∧ Tbl.wf none (s.drainPost q reason lines).folios.jobs = true := by
  unfold State.drainPost
  dsimp only
  split
  · exact ⟨h, w⟩
  · split
    · next i j hfound =>
      have hi : s.job i = some j := Tbl.get_of_mem w (List.mem_of_find?_eq_some hfound)
      obtain ⟨hjobs, hrefs⟩ := s.wcbLoss_jobs i j q reason (min lines (s.wcbOccupancy q))
      obtain ⟨hnone, y, hy, hrunning⟩ := h.setJob (b := { j with lossFlag := true }) hi rfl
      refine ⟨⟨hrefs.trans hnone, y, ?_, hrunning⟩, ?_⟩
      · rw [State.job, hjobs]
        exact hy
      · rw [hjobs]
        exact Tbl.wf_set none s.folios.jobs i (some { j with lossFlag := true }) w
    · exact ⟨h, w⟩

theorem State.warnTold_docket (s : State) : s.warnTold.docket = s.docket :=
  (State.eventAll_docket ..).trans (State.reportHub_docket ..)

theorem State.Runs.drainAll {s : State} {slot : Nat} (h : s.Runs slot) (w : Tbl.wf none s.folios.jobs = true) (reason : Nat)
    (us : List Undrained) : (s.drainAll reason us).Runs slot :=
  (List.foldlRecOn (motive := fun t : State => t.Runs slot ∧ Tbl.wf none t.folios.jobs = true) us _ ⟨h, w⟩
    fun _ ht u _ => ht.1.drainPost ht.2 u.post reason u.lines).1

theorem Job.drained_running (j : Job) (q lines : Nat) : (j.drained q lines).running = j.running := by
  unfold Job.drained
  split <;> rfl

theorem Job.rescan_running (j : Job) (q : Nat) : (j.rescan q).running = j.running := by
  unfold Job.rescan
  split <;> rfl

theorem State.Runs.keepDrained {s : State} {slot : Nat} (h : s.Runs slot) (i : Nat) (us : List Undrained) :
    (s.keepDrained i us).Runs slot := by
  unfold State.keepDrained
  split
  · exact h
  · next j hj =>
    split
    · exact h
    · refine h.setJob hj (List.foldlRecOn (motive := fun a : Job => a.running = j.running) j.parts _ rfl fun a ha x _ => ?_)
      dsimp only
      split
      · exact (Job.drained_running ..).trans ha
      · exact (Job.rescan_running ..).trans ((Job.drained_running ..).trans ha)

theorem State.Runs.keepAll {s : State} {slot : Nat} (h : s.Runs slot) (us : List Undrained) : (s.keepAll us).Runs slot :=
  List.foldlRecOn (motive := fun t : State => t.Runs slot) _ _ h fun _ ht i _ => ht.keepDrained i us

/-! ### The running folio is cut short (R185) -/

theorem Job.running_of_ending {j : Job} (h : j.state = .ending) : j.running = true := by simp [Job.running, h]

/-- Without counted objects, an INCOMPLETE job in a slot that ended before its capture had. -/
structure State.CutShort (s : State) (slot : Nat) : Prop where
  refs : s.host.refs = []
  job  : ∃ j, s.job slot = some j ∧ j.state = .incomplete ∧ j.cutShort = true

/-- The end of a part leaves the job's state and how it ends. -/
theorem Job.endParts_keep (l : List Nat) (st : Nat) (j : Job) :
    (l.foldl (fun a k => a.endPart k st) j).state = j.state ∧ (l.foldl (fun a k => a.endPart k st) j).cutShort = j.cutShort :=
  List.foldlRecOn (motive := fun a : Job => a.state = j.state ∧ a.cutShort = j.cutShort) l _ ⟨rfl, rfl⟩ fun _ ha _ _ => ha

/-- A hub reference taken and then dropped, where no object is counted. -/
theorem State.hubUnref_hubRef_noRefs {s t : State} {kind slot : Nat} (h : t.host.refs = (s.hubRef kind slot).host.refs)
    (hrefs : s.host.refs = []) : (t.hubUnref kind slot).host.refs = [] := by
  simp only [State.hubUnref, State.setRefs, State.refs, h, State.hubRef, hrefs]
  simp [Tbl.set, Tbl.put, Tbl.drop, Tbl.get]

theorem State.cutJob_over {s : State} {slot : Nat} (h : ∀ j, s.job slot = some j → j.ended = true) (b : Bool) : s.cutJob slot b = s := by
  unfold State.cutJob
  split
  · rfl
  · next j hj => exact if_pos (h j hj)

/-- The key of a folio that has not begun is written in its job. -/
theorem State.keyUnused_leaves (s : State) (slot : Nat) (j : Job) : (s.keyUnused slot j).host.refs = s.host.refs ∧
    ∀ k, k ≠ slot → (s.keyUnused slot j).job k = s.job k := by
  unfold State.keyUnused
  split
  · exact ⟨rfl, fun _ _ => rfl⟩
  · exact ⟨rfl, fun k hk => State.setJob_ne _ _ _ _ hk⟩

/-- A job that has not ended is cut short: it is finished as a job whose parts end, with a reference for a capture that had not begun. -/
theorem State.cutJob_live {s : State} {slot : Nat} {j : Job} (hjob : s.job slot = some j) (hlive : j.ended = false) :
    ∃ (u : State) (j2 : Job), s.cutJob slot false = (u.setJob slot (some j2)).finishJob slot ∧ j2.state = .ending ∧ j2.cutShort = true ∧
      u.host.refs = (if j.state = .created then s.hubRef ObjKind.job slot else s).host.refs ∧ ∀ k, k ≠ slot → u.job k = s.job k := by
  unfold State.cutJob
  simp only [hjob, hlive, Bool.false_eq_true, if_false, Bool.false_and]
  refine ⟨_, _, rfl, (Job.endParts_keep ..).1, (Job.endParts_keep ..).2, ?_, fun k hk => ?_⟩
  · split
    · exact (State.keyUnused_leaves ..).1
    · rfl
  · split
    · exact ((State.keyUnused_leaves ..).2 k hk).trans (State.setJob_ne _ _ _ _ hk)
    · exact State.setJob_ne _ _ _ _ hk

theorem State.cutJob_job_ne (s : State) {slot k : Nat} (hk : k ≠ slot) : (s.cutJob slot false).job k = s.job k := by
  by_cases hover : ∀ j, s.job slot = some j → j.ended = true
  · rw [State.cutJob_over hover]
  · push Not at hover
    obtain ⟨j, hjob, hlive⟩ := hover
    obtain ⟨u, j2, hcut, hending, -, -, hothers⟩ := State.cutJob_live hjob (Bool.eq_false_iff.mpr hlive)
    rw [hcut, State.finishJob_job (State.setJob_self ..) (Job.live_of_running (Job.running_of_ending hending)),
      State.setJob_ne _ _ _ _ hk, State.setJob_ne _ _ _ _ hk, hothers k hk]

theorem State.cutJob_noRefs {s : State} (h : s.host.refs = []) (slot : Nat) : (s.cutJob slot false).host.refs = [] := by
  by_cases hover : ∀ j, s.job slot = some j → j.ended = true
  · rw [State.cutJob_over hover, h]
  · push Not at hover
    obtain ⟨j, hjob, hlive⟩ := hover
    obtain ⟨u, j2, hcut, hending, -, hrefs, -⟩ := State.cutJob_live hjob (Bool.eq_false_iff.mpr hlive)
    have hrunning := Job.running_of_ending hending
    obtain ⟨t, ht, hfinish⟩ := State.finishJob_eq (State.setJob_self u slot (some j2)) (Job.live_of_running hrunning)
    have htu : t.host.refs = u.host.refs := by
      rw [State.refs_of_docket ht]
      rfl
    rw [hcut, hfinish, if_pos hrunning]
    by_cases hcreated : j.state = .created
    · rw [if_pos hcreated] at hrefs
      exact State.hubUnref_hubRef_noRefs (htu.trans hrefs) h
    · rw [if_neg hcreated] at hrefs
      exact State.hubUnref_noRefs (htu.trans (hrefs.trans h)) ..

theorem State.Runs.cutJob_ne {s : State} {slot i : Nat} (h : s.Runs slot) (hi : slot ≠ i) : (s.cutJob i false).Runs slot :=
  ⟨State.cutJob_noRefs h.refs i, by rw [State.cutJob_job_ne s hi]; exact h.job⟩

/-- A running job is cut short. -/
theorem State.Runs.cutJob {s : State} {slot : Nat} (h : s.Runs slot) : (s.cutJob slot false).CutShort slot := by
  obtain ⟨hrefs, j, hjob, hrunning⟩ := h
  obtain ⟨u, j2, hcut, hending, hshort, -, -⟩ := State.cutJob_live hjob (Job.live_of_running hrunning)
  refine ⟨State.cutJob_noRefs hrefs slot, j2.finished u.pkg.meridian, ?_, ?_, hshort⟩
  · rw [hcut, State.finishJob_job (State.setJob_self ..) (Job.live_of_running (Job.running_of_ending hending)), State.setJob_self]
    rfl
  · simp [Job.finished, Job.whole, hshort]

theorem State.CutShort.cutJob {s : State} {slot : Nat} (h : s.CutShort slot) (i : Nat) : (s.cutJob i false).CutShort slot := by
  obtain ⟨hrefs, j, hjob, hstate, hshort⟩ := h
  refine ⟨State.cutJob_noRefs hrefs i, j, ?_, hstate, hshort⟩
  by_cases hi : slot = i
  · subst hi
    rw [State.cutJob_over fun y hy => by cases hjob.symm.trans hy; simp [Job.ended, hstate]]
    exact hjob
  · rw [State.cutJob_job_ne s hi, hjob]

/-- Of the folios that are cut, the one in the slot is cut when its turn comes, and stays so. -/
theorem State.Runs.cutAll {s : State} {slot : Nat} (h : s.Runs slot) : s.cutAll.CutShort slot := by
  obtain ⟨j, hjob, -⟩ := h.job
  have turns (l : List Nat) (t : State) (hl : slot ∈ l) (ht : t.Runs slot) :
      (l.foldl (fun t i => t.cutJob i false) t).CutShort slot := by
    induction l generalizing t with
    | nil => cases hl
    | cons i l ih =>
      rw [List.foldl_cons]
      by_cases hi : slot = i
      · subst hi
        exact List.foldlRecOn (motive := fun t : State => t.CutShort slot) l _ ht.cutJob fun _ hr k _ => hr.cutJob k
      · exact ih _ ((List.mem_cons.mp hl).resolve_left hi) (ht.cutJob_ne hi)
  exact turns _ s (State.listed_of_job hjob) h

/-! ### PWR_WARN -/

theorem State.keepAll_topo (s : State) (us : List Undrained) : (s.keepAll us).topo = s.topo := by simp [State.keepAll]

theorem State.cutAll_topo (s : State) : s.cutAll.topo = s.topo := by simp [State.cutAll]

theorem State.warnTold_pkg (s : State) : s.warnTold.pkg = { s.pkg with pwrWarn := true } :=
  State.pkg_of_topo (s := s.warned) ((State.eventAll_topo ..).trans (State.reportHub_topo ..))

theorem EventsStand.keepAll (s : State) (us : List Undrained) : EventsStand s (s.keepAll us) :=
  .foldl (fun t i => .same (t.keepDrained_engines i us)) _ s

theorem EventsStand.cutAll (s : State) : EventsStand s s.cutAll := .foldl (fun t i => .cutJob t i false) _ s

/-- Settles O36: the event that `eventAll_set` sets stands through what follows (`EventsStand`), which leaves the package state
(`State.topo`); a running job runs through the drains (`State.Runs`) and is then cut short (`State.CutShort`). -/
theorem powerWarning : Obligations.PowerWarning := by
  intro s us
  refine ⟨fun hquiet => ⟨_, execPwrWarn_warns hquiet us, ?_, fun e he => ?_, fun hrefs w slot j hjob hrunning => ?_⟩, rfl⟩
  · refine (State.pkg_of_topo (s := s.warnTold) ?_).trans s.warnTold_pkg
    rw [State.reap_topo, State.cutAll_topo, State.keepAll_topo, State.drainAll_topo]
  · have told : (s.warnTold.engine e).events.getLsbD 9 = true := by
      refine State.eventAll_set _ (by decide) ?_
      rw [State.pkg_of_topo (State.reportHub_topo ..)]
      exact he
    have stands := (EventsStand.drainAll s.warnTold 5 us).trans ((EventsStand.keepAll _ us).trans ((EventsStand.cutAll _).trans (.reap _)))
    exact stands.stands e 9 told
  · have runs : s.Runs slot := ⟨hrefs, j, hjob, hrunning⟩
    have drained := (runs.of_docket s.warnTold_docket).drainAll (by rw [State.folios_of_docket s.warnTold_docket]; exact w) 5 us
    obtain ⟨hnone, j', hj', hstate, hshort⟩ := (drained.keepAll us).cutAll
    exact ⟨j', by rw [State.reap_noRefs hnone, hj'], hstate, hshort⟩

end Sys2Proof.Machine

/-! SUPPORT. Reports at their hashing points (R197 to R201, R208): where a core's report goes, and what the point that takes it holds. -/

namespace Sys2Proof.Machine

/-! ### A point that takes a record (R201) -/

section
variable {s : State} {k : Nat} {r : Rec}

/-- Other points hold what they held. -/
theorem State.pointTake_point_ne {j : Nat} (hj : j ≠ k) : (s.pointTake k r).point j = s.point j := by
  simp only [State.pointTake]
  split
  · exact State.setPoint_ne _ _ _ _ hj
  · split
    · exact State.setPoint_ne _ _ _ _ hj
    · exact State.setPoint_ne _ _ _ _ hj

/-- A record of a signature that waits is merged into it. -/
theorem State.pointTake_merges (h : (s.point k).held.any (sameSignature r) = true) : ((s.pointTake k r).point k).held =
    (s.point k).held.map (fun e => if sameSignature e r then mergeRec e r else e) := by
  rw [State.pointTake, if_pos h, State.setPoint_self]

/-- A record that finds every place held by others folds into the STORM accumulator of code SOURCE (R201, R208). -/
theorem State.pointTake_folds (h : (s.point k).held.any (sameSignature r) = false) (n : 4 ≤ (s.point k).held.length) :
    s.pointTake k r = (s.setPoint k { s.point k with acc := some (foldRec 1 (s.point k).acc r) }).markLost r.ctx := by
  rw [State.pointTake, if_neg (by simp [h]), if_neg (by omega)]

theorem foldRec_none_cls (code : Nat) : (foldRec code none r).cls = Class.storm := rfl

theorem State.markLost_lost (c : Ctx) : Tbl.get false (s.markLost c).cart.lost c = true :=
  Tbl.get_set_self false s.cart.lost c true

theorem State.markLost_point (c : Ctx) (j : Nat) : (s.markLost c).point j = s.point j := rfl

/-! ### A core's report (R197) -/

theorem State.cartEngine_point (u : Uno) (j : Nat) : (s.cartEngine u).point j = s.point j := by
  rw [State.cartEngine_eq]
  rfl

variable {u : Uno}

/-- A core's report goes to its cluster. -/
theorem State.report_core (hcore : kindOf s.pkg.member u = .core) (hcluster : kindOf s.pkg.member (parentOf s.pkg.member u) = .cluster)
    (cls code : Nat) (detail : List Byte) (c : Ctx) : s.report u cls code detail c =
      (s.cartEngine u).pointTake (parentOf s.pkg.member u) (s.formRec u (parentOf s.pkg.member u) cls code detail c) := by
  have hpoint : s.hashPoint u cls code = some (parentOf s.pkg.member u) := by simp only [State.hashPoint, hcore]
  simp only [State.report, hpoint, hcluster]

/-- An exception of a core that is present, with codes 1 to 6 and 8 bytes of detail, is reported under the core's own context
(Tables CA-2, CA-3). -/
theorem execCartoucheReport_exception {code : Nat} {detail : List Byte} (hcore : kindOf s.pkg.member u = .core)
    (hpresent : s.present u = true) (hlow : 1 ≤ code) (hhigh : code ≤ 6) (hdetail : detail.length = 8) (ctx : Ctx) :
    execCartoucheReport u Class.coreExc code detail ctx s = .next (s.report u Class.coreExc code detail (s.ctxOf u)) := by
  have hexternal : externalReport Class.coreExc code = true := by simp [externalReport, hlow, hhigh]
  have hreporter : reporterOk s.pkg.member Class.coreExc u = true := by simp [reporterOk, hcore]
  rw [execCartoucheReport, if_pos (by simp [hexternal, hreporter, hpresent, hdetail, detailBytes])]
  rfl

end

/-- Settles O37: the report goes to the cluster (`report_core`), whose point takes it in one of the three ways of `pointTake`. -/
theorem cartoucheReports : Obligations.CartoucheReports := by
  unfold Obligations.CartoucheReports
  rintro s u cl code detail ctx e hcore rfl hcluster hpresent hlow hhigh hdetail r
  refine ⟨⟨rfl, rfl, rfl, rfl, rfl, rfl, rfl, rfl⟩, _, execCartoucheReport_exception hcore hpresent hlow hhigh hdetail ctx, ?_⟩
  rw [State.report_core hcore hcluster]
  change (s.cartEngine u).pointTake _ r = _ ∧ _
  have hheld := s.cartEngine_point u (parentOf s.pkg.member u)
  refine ⟨?_, fun k hk => ?_, fun hnew hroom => ?_, fun hone hre her => ?_, fun hnew hfull hacc => ?_⟩
  · rw [State.pointTake_eq, State.cartEngine_eq]
  · exact (State.pointTake_point_ne hk).trans (State.cartEngine_point u k)
  · rw [← hheld] at hnew hroom ⊢
    rw [State.pointTake_new hnew hroom, State.setPoint_self]
  · rw [← hheld] at hone
    have hany : ((s.cartEngine u).point (parentOf s.pkg.member u)).held.any (sameSignature r) = true := by simp [hone, hre]
    refine ⟨mergeRec e r, ?_, rfl, rfl, rfl⟩
    rw [State.pointTake_merges hany, hone]
    simp [her]
  · rw [← hheld] at hnew hfull hacc ⊢
    rw [State.pointTake_folds hnew hfull, hacc, State.markLost_point, State.setPoint_self]
    exact ⟨_, rfl, foldRec_none_cls 1, rfl, State.markLost_lost r.ctx⟩

end Sys2Proof.Machine

/-! SUPPORT. The way of a record from a router's merge table to the collector's ring (R27, R202 to R207). -/

namespace Sys2Proof.Machine

/-! ### Merge tables (R203) -/

@[simp] theorem State.setMergeTable_self (s : State) (router : Uno) (v : List Merge) : (s.setMergeTable router v).mergeTable router = v :=
  Tbl.get_set_self _ _ _ _

/-- A record that has left the staging queue. -/
def State.unstaged (s : State) (e : Uno × Rec) : State := { s with cart := { s.cart with wire := s.cart.wire.erase e } }

section
variable {s : State} {router : Uno} {r : Rec}

/-- The first record of a staging queue on the router's own die crosses no link. -/
theorem State.takeRec_staged {src : Uno}
    (hfirst : s.cart.wire.find? (fun x => x.2 == r && s.cart.atHead x && s.onWay x.1 router) = some (src, r))
    (hdie : dieOf s.pkg.member src = dieOf s.pkg.member router) : s.takeRec router r = some (s.unstaged (src, r)) := by
  have hcross : s.crossRec src router = some s := by simp [State.crossRec, hdie]
  simp only [State.takeRec, hfirst, hcross]
  rfl

theorem State.routeRec_merges (h : (s.mergeTable router).any (fun e => sameSignature e.r r) = true) : s.routeRec router r =
    some (s.setMergeTable router ((s.mergeTable router).map (fun e => if sameSignature e.r r then { e with r := mergeRec e.r r } else e))) :=
  if_pos h

/-- A record of a new signature, within its time and with a place free, is held in the table. -/
theorem State.routeRec_enters (hnew : (s.mergeTable router).any (fun e => sameSignature e.r r) = false)
    (htime : s.now ≤ fullTime s.now r.firstT + 4 * s.mergeWindow) (hroom : (s.mergeTable router).length < 16) :
    ∃ m : Merge, m.r = r ∧ s.routeRec router r = some (s.setMergeTable router (s.mergeTable router ++ [m])) := by
  refine ⟨{ r := r, close := word (min (s.now + s.mergeWindow) (fullTime s.now r.firstT + 4 * s.mergeWindow)) }, rfl, ?_⟩
  rw [State.routeRec, if_neg (by simp [hnew]), if_neg (by omega), if_pos hroom]

theorem execCartoucheArrival_routes {t u : State} (hrouter : kindOf s.pkg.member router = .cnet) (htake : s.takeRec router r = some t)
    (hroute : t.routeRec router r = some u) : execCartoucheArrival router r s = .next u := by
  simp [execCartoucheArrival, hrouter, htake, hroute]

/-! ### CLOSE_TIME (R27, R202) -/

theorem State.sendRec_credit {k : Nat} (h : 12 ≤ (s.meter k).urg) :
    s.sendRec k = some (s.setMeter k { s.meter k with urg := (s.meter k).urg - 4 }) := by
  rw [State.sendRec, if_pos h, State.sendUrg, if_pos (by omega), State.sendUrg]

theorem State.sendRec_waits {k : Nat} (h : (s.meter k).urg < 12) : s.sendRec k = none := if_neg (by omega)

/-- Without credit for a whole record nothing leaves, toward the collector or into a lone log. -/
theorem State.forwardRec_noCredit (h : (s.meter router).urg < 12) : s.forwardRec router r = none := by
  simp only [State.forwardRec, State.sendRec_waits h]
  split
  · rfl
  · exact ite_self _

theorem State.forwardRec_full (hroute : s.loneRoute router = none) (hfull : s.stagingFree router = false) : s.forwardRec router r = none := by
  simp [State.forwardRec, hroute, hfull]

/-- A record leaves for the staging queue at the far end with 4 credits of the router's link. -/
theorem State.forwardRec_sends (hroute : s.loneRoute router = none) (hfree : s.stagingFree router = true) (hcredit : 12 ≤ (s.meter router).urg) :
    s.forwardRec router r = some { s.setMeter router { s.meter router with urg := (s.meter router).urg - 4 } with
      cart := { s.cart with wire := s.cart.wire ++ [(router, r)] } } := by
  simp only [State.forwardRec, hroute, hfree, State.sendRec_credit hcredit]
  rfl

section
variable {i : Nat} {e : Merge} (hentry : (s.mergeTable router)[i]? = some e) (hdue : e.close.toNat ≤ s.now)
include hentry hdue

theorem execCloseTime_leaves {t : State} (h : s.forwardRec router e.r = some t) :
    execCloseTime router i s = .next (t.setMergeTable router ((s.mergeTable router).eraseIdx i)) := by
  simp [execCloseTime, hentry, hdue, h]

theorem execCloseTime_stays (h : s.forwardRec router e.r = none) : execCloseTime router i s = .next s := by
  simp [execCloseTime, hentry, hdue, h]

end

end

/-! ### The intake queue (R205) -/

section
variable {s : State} {r : Rec}

theorem State.intakeTake_room (h : s.cart.intake.length < 64) :
    s.intakeTake r = { s with cart := { s.cart with intake := s.cart.intake ++ [r] } } := if_pos h

/-- The collector takes the first record of a staging queue on its own die. -/
theorem execIntakeArrival_staged {src : Uno} (hlive : s.pkg.bothDead = false)
    (hfirst : s.cart.wire.find? (fun x => x.2 == r && s.cart.atHead x && dieOf s.pkg.member x.1 == some s.homeDie) = some (src, r)) :
    execIntakeArrival r s = .next (((s.unstaged (src, r)).intakeTake r).engineEvent 128 4) := by
  simp only [execIntakeArrival, hlive, hfirst]
  rfl

theorem execIntakeArrival_dead (h : s.pkg.bothDead = true) : execIntakeArrival r s = .next s := if_pos h

/-! ### The ring (R206, R207, R209) -/

/-- The record written last stands at the ring's end, and HEAD counts up. -/
theorem Cart.push_eq (c : Cart) (r : Rec) (isOpen : Bool) : ∃ ring, c.push r isOpen = { c with ring := ring, head := c.head + 1 } ∧
    ring.getLast? = some { seq := c.head, r := r, isOpen := isOpen } := by
  refine ⟨_, rfl, ?_⟩
  rw [List.getLast?_drop, if_neg (by rw [List.length_append, List.length_singleton]; omega), List.getLast?_concat]

theorem State.faultnSet_cart (s : State) (cls : Nat) :
    (s.faultnSet cls).cart = { s.cart with faultn := s.cart.faultn || s.faultnClass cls } := by
  unfold State.faultnSet
  split
  · next h => simp [h]
  · next h => simp [h]

/-- The collector's state once it has written a record into a ring with room. -/
def Cart.wrote (c : Cart) (ring : List RingRec) (storms : Nat) (selected : Bool) : Cart :=
  { c with ring := ring, head := c.head + 1, intakeStorms := storms, faultn := c.faultn || selected }

theorem State.ringTake_room (h : s.cart.unread < 4095) : ∃ ring storms,
    (s.ringTake r).cart = s.cart.wrote ring storms (s.faultnClass r.cls) ∧
      ring.getLast? = some { seq := s.cart.head, r := r, isOpen := false } := by
  obtain ⟨ring, hpush, hlast⟩ := s.cart.push_eq r false
  refine ⟨ring, if r.cls = Class.storm ∧ r.code = 2 then sat16 s.cart.intakeStorms else s.cart.intakeStorms, ?_, hlast⟩
  simp only [State.ringTake, if_pos h, State.faultnSet_cart, hpush]
  rfl

theorem State.cartEventNow_cart (s : State) : s.cartEventNow.cart = s.cart := by rw [State.cartEventNow_eq]

theorem State.intakeRelease_idle (h : s.cart.intakeAcc = none) : s.intakeRelease = s := by
  simp only [State.intakeRelease, h]

theorem execCollectorWrite_dead (h : s.pkg.bothDead = true) : execCollectorWrite s = .next s := if_pos h

theorem execCollectorWrite_empty (h : s.cart.intake = []) : execCollectorWrite s = .next s := by
  simp [execCollectorWrite, h]

/-- The head of the intake queue goes into a ring with room. -/
theorem execCollectorWrite_writes {rest : List Rec} (hlive : s.pkg.bothDead = false) (hintake : s.cart.intake = r :: rest)
    (hroom : s.cart.unread < 4095) (hacc : s.cart.intakeAcc = none) : ∃ t ring storms, execCollectorWrite s = .next t ∧
      t.cart = { s.cart with intake := rest }.wrote ring storms (s.faultnClass r.cls) ∧
      ring.getLast? = some { seq := s.cart.head, r := r, isOpen := false } := by
  let s1 : State := { s with cart := { s.cart with intake := rest } }
  obtain ⟨ring, storms, hcart, hlast⟩ := State.ringTake_room (s := s1) (r := r) hroom
  have hnow : (s1.ringTake r).cartEventNow.cart = _ := (State.cartEventNow_cart _).trans hcart
  refine ⟨(s1.ringTake r).cartEventNow, ring, storms, ?_, hnow, hlast⟩
  have hidle : (s1.ringTake r).cartEventNow.intakeRelease = (s1.ringTake r).cartEventNow :=
    State.intakeRelease_idle (by rw [hnow]; exact hacc)
  simp only [execCollectorWrite, hlive, hintake]
  exact congrArg Host.Outcome.next hidle

end

/-- Settles O38: at a router `takeRec` and then `routeRec`, at its close time `forwardRec`, and at the collector the intake queue and the
ring. -/
theorem cartouchePath : Obligations.CartouchePath := by
  unfold Obligations.CartouchePath
  intro s router src i r e rest tb lk
  refine ⟨fun hrouter hfirst hdie => ⟨fun hnew htime hroom => ?_, fun hone hsame => ?_⟩, fun hentry hdue => ⟨fun hroute hfree hcredit => ?_,
    fun hcredit => ?_, fun hroute hfull => ?_⟩, fun hlive hroom hfirst => ?_, fun hdead => ⟨execIntakeArrival_dead hdead,
    execCollectorWrite_dead hdead⟩, fun hlive hintake hunread hacc => ?_, execCollectorWrite_empty⟩
  · obtain ⟨m, hm, hroutes⟩ := State.routeRec_enters (s := s.unstaged (src, r)) hnew htime hroom
    exact ⟨_, m, execCartoucheArrival_routes hrouter (State.takeRec_staged hfirst hdie) hroutes, rfl, State.setMergeTable_self .., hm, rfl⟩
  · have hany : ((s.unstaged (src, r)).mergeTable router).any (fun e => sameSignature e.r r) = true := by
      change tb.any _ = true
      simp [hone, hsame]
    refine ⟨_, execCartoucheArrival_routes hrouter (State.takeRec_staged hfirst hdie) (State.routeRec_merges hany), rfl, ?_⟩
    rw [State.setMergeTable_self]
    change tb.map _ = _
    simp [hone, hsame]
  · exact ⟨_, execCloseTime_leaves hentry hdue (State.forwardRec_sends hroute hfree hcredit), State.setMergeTable_self .., rfl,
      State.setMeter_self ..⟩
  · exact execCloseTime_stays hentry hdue (State.forwardRec_noCredit hcredit)
  · exact execCloseTime_stays hentry hdue (State.forwardRec_full hroute hfull)
  · have hcart : (((s.unstaged (src, r)).intakeTake r).engineEvent 128 4).cart =
        { (s.unstaged (src, r)).cart with intake := s.cart.intake ++ [r] } :=
      congrArg State.cart (State.intakeTake_room (s := s.unstaged (src, r)) hroom)
    exact ⟨_, execIntakeArrival_staged hlive hfirst, congrArg Cart.intake hcart, congrArg Cart.wire hcart,
      State.engineEvent_set _ 128 (by decide)⟩
  · obtain ⟨t, ring, storms, hexec, hcart, hlast⟩ := execCollectorWrite_writes hlive hintake hunread hacc
    refine ⟨t, hexec, ?_⟩
    rw [hcart]
    exact ⟨rfl, rfl, rfl, hlast, fun h => by simp [Cart.wrote, h]⟩

end Sys2Proof.Machine

/-! SUPPORT. The collector as host software reads it out (R206, R210 to R212). -/

namespace Sys2Proof.Machine

/-- A write by a path that is not gone has its effect. -/
theorem State.onBar_open {s : State} {p : Path} (h : s.barGone p = false) (t : State) : s.onBar p t = t := by
  simp [State.onBar, h]

/-- A table that keeps some of its keys. -/
theorem Tbl.get_filter_key {α : Type} (d : α) (keep : Nat → Bool) (t : Tbl α) (k : Nat) :
    Tbl.get d (t.filter fun e => keep e.1) k = if keep k then Tbl.get d t k else d := by
  induction t with
  | nil => simp
  | cons e r ih =>
    obtain ⟨j, v⟩ := e
    by_cases hj : j = k
    · subst hj
      by_cases hkeep : keep j = true
      · simp [hkeep, Tbl.get]
      · simp [hkeep, ih]
    · by_cases hkeep : keep j = true
      · simp [hkeep, Tbl.get, hj, ih]
      · simp [hkeep, Tbl.get, hj, ih]

/-! ### CMP_CA_POP (R210) -/

section
variable {s : State} {who : Option Nat} {v : BitVec 32}

theorem State.caPop_pops (hright : s.hasPlatform who = true) (htail : v = s.cart.tail) (hunread : 0 < s.cart.unread) :
    ∃ ring, s.caPop who v = { s with cart := { s.cart with tail := s.cart.tail + 1, ring := ring } } := by
  simp only [State.caPop, hright, htail, hunread, beq_self_eq_true, decide_true, Bool.and_self, if_true]
  split
  · exact ⟨_, rfl⟩
  · exact ⟨s.cart.ring, rfl⟩

theorem State.caPop_keeps (h : v ≠ s.cart.tail ∨ s.cart.unread = 0) : s.caPop who v = s := by
  refine if_neg ?_
  obtain htail | hunread := h
  · simp [htail]
  · simp [hunread]

theorem State.caPop_denied (hright : s.hasPlatform who = false) : s.caPop who v = s := by
  simp [State.caPop, hright]

/-! ### FAULTN and CTX_LOST (R211, R212) -/

theorem State.faultnClear_allowed (hright : s.hasPlatform who = true) :
    s.faultnClear who = { s with cart := { s.cart with faultn := false }, host := { s.host with faultnSig := 0 } } :=
  if_pos hright

theorem State.faultnClear_denied (hright : s.hasPlatform who = false) : s.faultnClear who = s := by
  simp [State.faultnClear, hright]

theorem State.ctxLostClear_lost (s : State) (who : Option Nat) (c : Ctx) :
    Tbl.get false (s.ctxLostClear who).cart.lost c = if s.seesLost who c then false else Tbl.get false s.cart.lost c := by
  refine (Tbl.get_filter_key false (fun k => !s.seesLost who k) s.cart.lost c).trans ?_
  cases s.seesLost who c <;> rfl

end

/-- Settles O39: each of the three writes is its operation on the collector, for BAR0 is not gone. -/
theorem collectorReadOut : Obligations.CollectorReadOut := by
  unfold Obligations.CollectorReadOut
  intro s p v hbar who
  have hpop : exec (.cmpCaPop p v) s = .next (s.caPop who v) := congrArg Host.Outcome.next (State.onBar_open hbar _)
  have hfault : exec (.faultnRelease p) s = .next (s.faultnClear who) := congrArg Host.Outcome.next (State.onBar_open hbar _)
  have hlost : exec (.ctxLostClear p) s = .next (s.ctxLostClear who) := congrArg Host.Outcome.next (State.onBar_open hbar _)
  rw [hpop, hfault, hlost]
  refine ⟨fun hright => ⟨fun htail hunread => ?_, fun h => ?_, ?_⟩, fun hright => ⟨?_, ?_⟩, _, rfl, rfl,
    fun _ => s.ctxLostClear_lost who⟩
  · obtain ⟨ring, h⟩ := State.caPop_pops hright htail hunread
    exact ⟨_, rfl, by rw [h], by rw [h], by rw [h], by rw [h]⟩
  · rw [State.caPop_keeps h]
  · rw [State.faultnClear_allowed hright]
  · rw [State.caPop_denied hright]
  · rw [State.faultnClear_denied hright]

end Sys2Proof.Machine

/-! SUPPORT. A takeover (R73, R214) fails its statement: the port session closes after the standby's engine has become the root engine, and
takes back every engine of its own. R73 keeps the standby's engine EMPTY until then, but the statement ranges over every state. -/

namespace Sys2Proof.Machine

/-- The standby has sent its probe, and its engine stands as taken by the port session. -/
def standbyEngineTaken : State := { State.reset with
  pkg := { State.reset.pkg with standbyOk := true }
  pair := { probeB := true }
  auth := { State.reset.auth with sessions := [(portSlot, some { isPort := true, ring := 0, nonce := 0, scheck := 0, openT := 0 })] }
  engines := [(standbyEngine, { owner := some portSlot })] }

/-- At the takeover the root engine belongs to the port session, whose close sends it into RESTORING (R72). -/
theorem standbyEngineTaken_takeover : (standbyEngineTaken.takeover.engine 128).state = .restoring := by
  decide

/-- Refutes O22: its takeover clause takes any state of the standby's engine, and from `standbyEngineTaken` the root engine is left
RESTORING. -/
theorem not_compassPair : ¬ Obligations.CompassPair := by
  unfold Obligations.CompassPair
  intro h
  obtain ⟨hpaired, -⟩ := h standbyEngineTaken false 0
  obtain ⟨-, -, -, -, hprobed⟩ := hpaired rfl
  obtain ⟨-, htakes, -⟩ := hprobed (.inr rfl)
  obtain ⟨t, hexec, -, -, -, -, -, hroot, -⟩ := htakes rfl
  obtain rfl : standbyEngineTaken.takeover = t := Host.Outcome.next.inj hexec
  exact absurd (standbyEngineTaken_takeover.symm.trans hroot) (by decide)

end Sys2Proof.Machine

/-! SUPPORT. What the shared operations leave of the posts (R216 to R220): all of a post but its lone log, which alone takes reports. One
equation for each operation says so (`State.duties`), and simp carries it through a chain of operations. -/

namespace Sys2Proof.Machine

/-- A post but for its lone log. -/
def Post.duties (q : Post) : Post := { q with loneLog := [] }

/-- Every post of a table, but for the lone logs. -/
def dutiesOf (t : Tbl Post) (p : Nat) : Post := (Tbl.get {} t p).duties

/-- Every post, but for the lone logs. -/
def State.duties (s : State) : Nat → Post := dutiesOf s.posts

theorem State.post_of_duties {s t : State} (h : t.duties = s.duties) (p : Nat) : (t.post p).duties = (s.post p).duties := congrFun h p

/-- What does not look at the lone log is the same for two posts that differ in it alone. -/
theorem Post.same_of_duties {β : Type} (f : Post → β) (hf : ∀ q : Post, f q.duties = f q) {a b : Post} (h : a.duties = b.duties) : f a = f b := by
  rw [← hf a, h, hf b]

theorem State.same_of_duties {β : Type} (f : Post → β) (hf : ∀ q : Post, f q.duties = f q) {s t : State} (h : t.duties = s.duties) (p : Nat) :
    f (t.post p) = f (s.post p) := Post.same_of_duties f hf (State.post_of_duties h p)

/-- An operation that may have to wait leaves the posts, where it does not wait. -/
def LeavesDuties (d : Nat → Post) (o : Option State) : Prop := ∀ t ∈ o, t.duties = d

@[simp ↓] theorem State.duties_mk
    {pkg dies copies links posts held unobs groups clamps reports legend regs engines hops hopNext hopSeq cores insts rports
     bounds rings cmps cnts chains sets places halves xtrig folios cart pair watch trace port auth life host upd drawn pending} :
    State.duties (.mk pkg dies copies links posts held unobs groups clamps reports legend regs engines hops hopNext hopSeq cores insts rports
      bounds rings cmps cnts chains sets places halves xtrig folios cart pair watch trace port auth life host upd drawn pending) =
      dutiesOf posts := by
  rw [State.duties]

@[simp ↓] theorem State.duties_fold (s : State) : dutiesOf s.posts = s.duties := by
  rw [State.duties]

@[simp ↓] theorem State.duties_ite {c : Prop} [Decidable c] {a b : State} :
    (if c then a else b).duties = if c then a.duties else b.duties := apply_ite _ _ _ _

@[simp ↓] theorem State.duties_foldl {α : Type} {f : State → α → State} {l : List α} {s : State}
    (h : ∀ s a, (f s a).duties = s.duties) : (l.foldl f s).duties = s.duties := State.foldl_leaves State.duties h l s

/-! ### Units, engines and reports -/

@[simp ↓] theorem State.setEngine_duties (s : State) (e : Nat) (v : Engine) : (s.setEngine e v).duties = s.duties := by simp [State.setEngine]
@[simp ↓] theorem State.engineEvent_duties (s : State) (e bit : Nat) : (s.engineEvent e bit).duties = s.duties := by simp [State.engineEvent]
@[simp ↓] theorem State.setRegWord_duties (s : State) (r : RegRow) (key v : Nat) : (s.setRegWord r key v).duties = s.duties := by
  simp [State.setRegWord]
@[simp ↓] theorem State.hubRef_duties (s : State) (kind slot : Nat) : (s.hubRef kind slot).duties = s.duties := by simp [State.hubRef, State.setRefs]
@[simp ↓] theorem State.hubUnref_duties (s : State) (kind slot : Nat) : (s.hubUnref kind slot).duties = s.duties := by
  simp [State.hubUnref, State.setRefs]

/-- A post written with a new lone log. -/
theorem State.setPost_duties (s : State) {p : Nat} {v : Post} (h : v.duties = (s.post p).duties) : (s.setPost p v).duties = s.duties := by
  funext j
  by_cases hj : j = p
  · subst hj
    exact (congrArg Post.duties (State.setPost_self ..)).trans h
  · exact congrArg Post.duties (State.setPost_ne _ _ _ _ hj)

theorem State.loneWrite_duties (s : State) (p : Nat) (r : Rec) : (s.loneWrite p r).duties = s.duties := by
  simp only [State.loneWrite]
  split
  · exact State.setPost_duties s rfl
  · split
    · exact State.setPost_duties s rfl
    · exact State.setPost_duties s rfl

@[simp ↓] theorem State.report_duties (s : State) (u : Uno) (cls code : Nat) (d : List Byte) (c : Ctx) :
    (s.report u cls code d c).duties = s.duties := by
  have hcart : (s.cartEngine u).duties = s.duties := by rw [State.cartEngine_eq]; rfl
  have htake (k : Nat) (r : Rec) : ((s.cartEngine u).pointTake k r).duties = s.duties := by rw [State.pointTake_eq]; exact hcart
  simp only [State.report]
  split
  · rfl
  · split
    · split
      · exact (State.loneWrite_duties ..).trans hcart
      · exact htake ..
    · exact htake ..

@[simp ↓] theorem State.failover_duties (s : State) (reporter : Uno) (code : Nat) (lost : Uno) :
    (s.failover reporter code lost).duties = s.duties := State.report_duties ..

@[simp ↓] theorem State.folioReport_duties (s : State) (post code : Nat) (serial : BitVec 32) (ctx : Ctx) :
    (s.folioReport post code serial ctx).duties = s.duties := State.report_duties ..

@[simp ↓] theorem State.emit_duties (s : State) (k : Nat) (e : Event) : (s.emit k e).duties = s.duties := by
  rw [State.emit_eq]
  rfl

@[simp ↓] theorem State.rewriteLone_duties (s : State) (p : Nat) : (s.rewriteLone p).duties = s.duties := by
  unfold State.rewriteLone
  refine State.duties_foldl fun t cl => ?_
  split <;> simp [State.setLonePolicy]

/-! ### HOPs -/

@[simp ↓] theorem State.setHop_duties (s : State) (n : Nat) (h : Hop) : (s.setHop n h).duties = s.duties := by simp [State.setHop]

@[simp ↓] theorem State.acceptHop_duties (s : State) (issuer : Option Nat) (q : HopReq) (mode : HopMode) (origin : HopOrigin) :
    (s.acceptHop issuer q mode origin).1.duties = s.duties := by
  simp [State.acceptHop]

@[simp ↓] theorem State.writeRecord_duties (s : State) (p n : Nat) : (s.writeRecord p n).duties = s.duties := by
  unfold State.writeRecord
  dsimp only
  (repeat' split) <;> rfl

@[simp ↓] theorem State.inheritHops_duties (s : State) (p : Nat) (old : HopRing) : (s.inheritHops p old).duties = s.duties := by
  unfold State.inheritHops
  refine State.duties_foldl fun t r => ?_
  split
  · split <;> simp
  · rfl

@[simp ↓] theorem State.loneHalt_duties (s : State) (p h : Nat) (c : Ctx) : (s.loneHalt p h c).duties = s.duties := by
  unfold State.loneHalt
  dsimp only
  split <;> simp

@[simp ↓] theorem State.lonePolicies_duties (s : State) (p : Nat) : (s.lonePolicies p).duties = s.duties := by simp [State.lonePolicies]

@[simp ↓] theorem State.unloadCombiners_duties (s : State) (p reason : Nat) : (s.unloadCombiners p reason).duties = s.duties := by
  unfold State.unloadCombiners
  refine State.duties_foldl fun t i => ?_
  unfold State.unloadSet
  (repeat' split) <;> rfl

/-! ### The trace path -/

@[simp ↓] theorem State.setTpart_duties (s : State) (p slot : Nat) (v : TPart) : (s.setTpart p slot v).duties = s.duties := by simp [State.setTpart]

@[simp ↓] theorem State.place_duties (s : State) (p slot : Nat) (x : Stream) (isTime pad : Bool) (ws : List Word) :
    (s.place p slot x isTime pad ws).duties = s.duties := by
  simp [State.place, State.serialCopy]

theorem State.nextPage_duties (s : State) (p slot : Nat) (x : Stream) (base : Time) : LeavesDuties s.duties (s.nextPage p slot x base) := by
  intro t ht
  simp only [State.nextPage, Option.mem_def, Option.ite_none_right_eq_some, Option.some.injEq] at ht
  obtain ⟨-, rfl⟩ := ht
  simp

theorem State.room_duties {s t : State} {p slot n : Nat} {x : Stream} {base : Time} {fresh : Bool}
    (h : s.room p slot x n base = some (t, fresh)) : t.duties = s.duties := by
  simp only [State.room] at h
  split at h
  · cases h
    rfl
  · obtain ⟨u, hu, huv⟩ := Option.map_eq_some_iff.mp h
    cases huv
    exact (State.nextPage_duties _ p slot x base _ hu).trans (by simp)

theorem State.near_duties (s : State) (p slot : Nat) (x : Stream) (at_ : Time) : LeavesDuties s.duties (s.near p slot x at_) := by
  intro t ht
  simp only [State.near, State.rebase, Option.mem_def] at ht
  split at ht
  · split at ht
    · cases ht
    · next hroom =>
      cases ht
      exact State.room_duties hroom
    · next hroom =>
      cases ht
      simpa using State.room_duties hroom
  · cases ht
    rfl

theorem State.lossPacket_duties (s : State) (p slot : Nat) (x : Stream) : LeavesDuties s.duties (s.lossPacket p slot x) := by
  intro t ht
  simp only [State.lossPacket, Option.mem_def] at ht
  split at ht
  · cases ht
    rfl
  · split at ht
    · cases ht
    · next s1 h1 =>
      obtain ⟨r, hr, hn⟩ := Option.bind_eq_some_iff.mp h1
      have e1 : s1.duties = s.duties := (State.near_duties _ p slot x _ _ hn).trans (State.room_duties hr)
      split at ht
      · cases ht
      · next h2 =>
        cases ht
        simpa using (State.room_duties h2).trans e1

theorem State.rescanPart_duties (s : State) (p slot : Nat) : (s.rescanPart p slot).duties = s.duties := by
  unfold State.rescanPart
  split
  · rfl
  dsimp only
  split
  · rfl
  split
  · simp
  · next s2 h =>
    have h2 : s2.duties = s.duties := (State.nextPage_duties _ p slot _ _ _ h).trans (by simp)
    cases hl : s2.lossPacket p slot _ with
    | none => exact h2
    | some t => exact (State.lossPacket_duties _ p slot _ _ hl).trans h2

@[simp ↓] theorem State.rescanParts_duties (s : State) (p : Nat) : (s.rescanParts p).duties = s.duties :=
  State.duties_foldl fun t i => t.rescanPart_duties p i

@[simp ↓] theorem State.startWaiting_duties (s : State) (p : Nat) : (s.startWaiting p).duties = s.duties := by
  unfold State.startWaiting
  refine State.duties_foldl fun t i => ?_
  (repeat' split) <;> simp [State.partStart]

/-! ### Folios -/

@[simp ↓] theorem State.setJob_duties (s : State) (j : Nat) (v : Option Job) : (s.setJob j v).duties = s.duties := by simp [State.setJob]

@[simp ↓] theorem State.startQueued_duties (s : State) (q : Nat) : (s.startQueued q).duties = s.duties := by
  unfold State.startQueued
  dsimp only
  (repeat' split) <;> rfl

theorem State.finishJob_duties (s : State) (slot : Nat) : (s.finishJob slot).duties = s.duties := by
  unfold State.finishJob
  dsimp only
  (repeat' split) <;> simp [State.fendResult]

theorem State.cutJob_duties (s : State) (slot : Nat) (finishBegun : Bool) : (s.cutJob slot finishBegun).duties = s.duties := by
  unfold State.cutJob
  split <;> simp [State.finishJob_duties, State.keyUnused, State.draw]

@[simp ↓] theorem State.rescanJobs_duties (s : State) (p : Nat) (adopted : Bool) : (s.rescanJobs p adopted).duties = s.duties := by
  unfold State.rescanJobs
  refine State.duties_foldl fun t i => ?_
  split <;> simp

@[simp ↓] theorem State.dropEngineJobs_duties (s : State) (e : Nat) (forget : Bool) : (s.dropEngineJobs e forget).duties = s.duties := by
  unfold State.dropEngineJobs
  refine State.duties_foldl fun t j => ?_
  dsimp only
  (repeat' split) <;> simp [State.cutJob_duties]

@[simp ↓] theorem State.drainPost_duties (s : State) (q reason lines : Nat) : (s.drainPost q reason lines).duties = s.duties := by
  unfold State.drainPost
  dsimp only
  (repeat' split) <;> simp [State.wcbLoss]

@[simp ↓] theorem State.returnEngine_duties (s : State) (e why : Nat) : (s.returnEngine e why).duties = s.duties := by
  simp [State.returnEngine]

/-! ### Deadlines -/

theorem State.policyAct_duties (s : State) (c : Ctx) (r action issuer : Nat) : (s.policyAct c r action issuer).duties = s.duties := by
  have hissue (t : State) (h : PolHalt) : (t.issuePolicy h).duties = t.duties := by
    unfold State.issuePolicy
    split
    · rfl
    · exact State.acceptHop_duties ..
  simp [State.policyAct, State.setPolicy, State.setWatch, hissue]

theorem State.applyMiss_duties (s : State) (p q i : Nat) : (s.applyMiss p q i).duties = s.duties := by
  simp [State.applyMiss, State.setDeadline, State.setWatch, State.policyAct_duties]

@[simp ↓] theorem State.applyOwed_duties (s : State) (p : Nat) : (s.applyOwed p).duties = s.duties := by
  unfold State.applyOwed
  split
  · rfl
  · exact State.duties_foldl fun t i => by split <;> simp [State.applyMiss_duties]

/-! ### A post's HUB domain -/

@[simp ↓] theorem State.clearPost_duties (s : State) (p why : Nat) : (s.clearPost p why).duties = s.duties := by simp [State.clearPost]

/-! ### A post that runs, and one that is lost (R43, R216, R219) -/

/-- A post that starts keeps all but its health, its clocks and its faults. -/
theorem State.postStarts_self (s : State) (p : Nat) :
    ((s.postStarts p).post p).health = Health.ok ∧ ((s.postStarts p).post p).rehomed = (s.post p).rehomed := by
  unfold State.postStarts
  extract_lets s1 q s2
  have hself : s2.post p = _ := State.setPost_self ..
  have hset : q = { s.post p with health := Health.ok } := State.setHealth_self ..
  have hstarts : ((((s2.rewriteLone p).startWaiting p).applyOwed p).startQueued p).duties = s2.duties := by simp
  have hhealth := State.same_of_duties Post.health (fun _ => rfl) hstarts p
  have hhome := State.same_of_duties Post.rehomed (fun _ => rfl) hstarts p
  rw [hself, hset] at hhealth hhome
  exact ⟨hhealth, hhome⟩

theorem State.postStarts_other (s : State) {p k : Nat} (hk : k ≠ p) : ((s.postStarts p).post k).duties = (s.post k).duties := by
  unfold State.postStarts
  extract_lets s1 q s2
  have hstarts : ((((s2.rewriteLone p).startWaiting p).applyOwed p).startQueued p).duties = s2.duties := by simp
  have hother : s2.post k = s.post k := (State.setPost_ne _ _ _ _ hk).trans (State.setHealth_ne s _ hk)
  rw [State.post_of_duties hstarts k, hother]

/-- A post that has re-homed runs (R219). -/
theorem State.postResumes_self (s : State) (p : Nat) :
    ((s.postResumes p).post p).health = Health.ok ∧ ((s.postResumes p).post p).rehomed = (s.post p).rehomed := by
  unfold State.postResumes
  extract_lets q s1
  have hscan : ((s1.rescanJobs p false).rescanParts p).duties = s1.duties := by simp
  have hself : s1.post p = _ := State.setPost_self ..
  have hhome := State.same_of_duties Post.rehomed (fun _ => rfl) hscan p
  rw [hself] at hhome
  exact ⟨(State.postStarts_self _ p).1, (State.postStarts_self _ p).2.trans hhome⟩

theorem State.postResumes_other (s : State) {p k : Nat} (hk : k ≠ p) : ((s.postResumes p).post k).duties = (s.post k).duties := by
  unfold State.postResumes
  extract_lets q s1
  have hscan : ((s1.rescanJobs p false).rescanParts p).duties = s1.duties := by simp
  have hother : s1.post k = s.post k := State.setPost_ne _ _ _ _ hk
  rw [State.postStarts_other _ hk, State.post_of_duties hscan k, hother]

end Sys2Proof.Machine

/-! SUPPORT. Posts that fail (R216 to R220): heartbeats, loss, adoption, hand-back and lone survey. -/

namespace Sys2Proof.Machine

/-! ### Heartbeats (R216) -/

section
variable {s : State} {p : Nat}

theorem execPostHeartbeat_runs (h : s.postRuns p = true) :
    execPostHeartbeat p s = .next (s.setPost p { s.post p with hbOut := true }) := if_pos h

theorem execPostHeartbeatArrival_taken {t : State} (hout : (s.post p).hbOut = true) (hlive : s.pkg.bothDead = false)
    (hsend : s.sendUrg 1 (crossing s.pkg.member (p / 2) s.homeDie) = some t) : execPostHeartbeatArrival p s =
      .next (t.setPost p { s.post p with hbOut := false, hbT := s.pkg.meridian, ackDue := true }) := by
  simp [execPostHeartbeatArrival, hout, hlive, hsend]

theorem execHeartbeatAck_taken {t : State} (hdue : (s.post p).ackDue = true)
    (hsend : s.sendUrg 1 (crossing s.pkg.member s.homeDie (p / 2)) = some t) : execHeartbeatAck p s =
      .next (t.setPost p { s.post p with ackDue := false, ackT := s.pkg.meridian, lastAck := some s.pkg.meridian }) := by
  simp [execHeartbeatAck, hdue, hsend]

/-! ### A post that is lost (R216) -/

theorem State.startWake_host (s : State) (p : Nat) : (s.startWake p).host = s.host := by
  unfold State.startWake
  split <;> rfl

theorem State.failover_host (s : State) (reporter : Uno) (code : Nat) (lost : Uno) : (s.failover reporter code lost).host = s.host := by
  rw [State.failover, State.report_eq]

/-- A post that is declared lost tells the host nothing, and the errors in its memories stay known. -/
theorem State.postDies_keeps (s : State) (p : Nat) (atStart : Bool) :
    (s.postDies p atStart).host = s.host ∧ ((s.postDies p atStart).post p).memError = (s.post p).memError := by
  unfold State.postDies
  extract_lets sib s1 q1 s2 pkg s3 q3 s4
  have hq1 : q1 = { s.post p with health := Health.lost } := State.setHealth_self ..
  have hself : s2.post p = _ := State.setPost_self ..
  have h3 : (s3.post p).memError = (s.post p).memError := by
    change (s2.post p).memError = _
    rw [hself]
    exact (congrArg Post.memError hq1 :)
  have h4 : s4.host = s.host ∧ (s4.post p).memError = (s.post p).memError := by
    unfold s4
    split
    · refine ⟨rfl, ?_⟩
      rw [State.setHealth_ne _ _ (xor_one_ne p).symm, State.setPost_self]
      exact h3
    · exact ⟨rfl, h3⟩
  obtain ⟨hhost, herror⟩ := h4
  split
  · exact ⟨(State.failover_host ..).trans hhost,
      (State.same_of_duties Post.memError (fun _ => rfl) (State.failover_duties ..) p).trans herror⟩
  · exact ⟨(State.startWake_host ..).trans hhost, (congrArg Post.memError (State.startWake_sibling ..)).trans herror⟩

theorem execPostLost_silent (hruns : s.postRuns p = true) (hlive : s.pkg.bothDead = false)
    (hsilent : (s.post p).hbT.toNat + 30000 ≤ s.now) : execPostLost p s = .next (s.postDies p false) := by
  simp [execPostLost, hruns, hlive, hsilent]

theorem execPostMemoryError_runs (hruns : s.postRuns p = true) (hlive : s.pkg.bothDead = false) :
    execPostMemoryError p s = .next ((s.setPost p { s.post p with memError := true }).postDies p false) := by
  simp [execPostMemoryError, hruns, hlive]

/-! ### Lone survey (R220) -/

theorem State.returnEngine_topo (s : State) (e why : Nat) : (s.returnEngine e why).topo = s.topo := by simp [State.returnEngine]

theorem State.lonePolicies_topo (s : State) (p : Nat) : (s.lonePolicies p).topo = s.topo := by
  have hhalt (t : State) (h : Nat) (c : Ctx) : (t.loneHalt p h c).topo = t.topo := by
    unfold State.loneHalt
    dsimp only
    split <;> simp
  simp [State.lonePolicies, hhalt]

/-- The post that begins lone survey, with both Compasses counted as lost. -/
def State.loneBegun (s : State) (p : Nat) : State :=
  { s with pkg := { s.pkg with bothDead := true } }.setPost p { s.post p with lone := true }

theorem execLoneSurvey_begins (hruns : s.postRuns p = true) (hnew : (s.post p).lone = false) (hsilent : (s.post p).ackT.toNat + 40000 ≤ s.now) :
    execLoneSurvey p s = .next (((s.loneBegun p).returnEngine p 4).lonePolicies p) := by
  simp [execLoneSurvey, hruns, hnew, hsilent, State.loneBegun]

theorem State.loneBegun_lasts (s : State) (p : Nat) : ((((s.loneBegun p).returnEngine p 4).lonePolicies p).post p).lone = true ∧
    (((s.loneBegun p).returnEngine p 4).lonePolicies p).pkg.bothDead = true := by
  have hduties : (((s.loneBegun p).returnEngine p 4).lonePolicies p).duties = (s.loneBegun p).duties := by simp
  have htopo : (((s.loneBegun p).returnEngine p 4).lonePolicies p).topo = (s.loneBegun p).topo :=
    (State.lonePolicies_topo ..).trans (State.returnEngine_topo ..)
  refine ⟨(State.same_of_duties Post.lone (fun _ => rfl) hduties p).trans ?_, congrArg Pkg.bothDead (State.pkg_of_topo htopo)⟩
  exact congrArg Post.lone (State.setPost_self ..)

/-! ### Adoption (R217) -/

/-- A half whose post is ADOPTED is served by the running sibling that has adopted it. -/
theorem State.server_adopted (h : (s.post p).health = Health.adopted) (hruns : s.postRuns (p ^^^ 1) = true)
    (hadopts : (s.post (p ^^^ 1)).adopting = true) : s.server p = some (p ^^^ 1) := by
  have hstill : s.postRuns p = false := by simp [State.postRuns, h, Health.adopted]
  simp [State.server, hstill, hruns, hadopts, h, Health.adopted]

theorem State.server_runs (h : s.postRuns p = true) : s.server p = some p := if_pos h

/-- The half changes hands: its post is ADOPTED, and the sibling has adopted it. -/
def State.handOver (s : State) (p : Nat) : State :=
  let t := s.setPost p { s.post p with adoptWanted := false }
  (t.setPost (p ^^^ 1) { t.post (p ^^^ 1) with adopting := true }).setHealth p Health.adopted

theorem State.handOver_self (s : State) (p : Nat) : ((s.handOver p).post p).health = Health.adopted :=
  congrArg Post.health (State.setHealth_self ..)

theorem State.handOver_sibling (s : State) (p : Nat) : (s.handOver p).post (p ^^^ 1) = { s.post (p ^^^ 1) with adopting := true } := by
  unfold State.handOver
  extract_lets q t
  have hother : t.post (p ^^^ 1) = s.post (p ^^^ 1) := State.setPost_ne _ _ _ _ (xor_one_ne p)
  rw [State.setHealth_ne _ _ (xor_one_ne p), State.setPost_self]
  exact congrArg (fun x : Post => { x with adopting := true }) hother

/-- An adoption: what is done to the half before and after it changes hands leaves the posts, and the sibling's engine sees REHOME. -/
theorem execAdopt_takes (hlost : (s.post p).health = Health.lost) (hwant : (s.post p).adoptWanted = true)
    (hruns : s.postRuns (p ^^^ 1) = true) (n : Nat) : ∃ u t : State, execAdopt p n s = .next t ∧ u.duties = s.duties ∧
      t.duties = (u.handOver p).duties ∧ (t.engine (p ^^^ 1)).events.getLsbD 10 = true := by
  rw [execAdopt, if_neg (by simp [hlost, hwant, hruns])]
  refine ⟨(s.unloadCombiners p 4).clearPost p 6, _, rfl, by simp, ?_, ?_⟩
  · simp only [State.failover_duties, State.engineEvent_duties, State.applyOwed_duties, State.startWaiting_duties,
      State.rescanParts_duties, State.rescanJobs_duties, State.inheritHops_duties, State.drainPost_duties]
    rfl
  · exact (EventsStand.report ..).stands _ _ (State.engineEvent_set _ _ (by decide))

/-! ### The hand-back (R219) -/

/-- The sibling no longer serves a half whose post has re-homed. -/
def State.handBack (s : State) (p : Nat) : State :=
  let t := s.setPost p { s.post p with rehomed := false }
  t.setPost (p ^^^ 1) { t.post (p ^^^ 1) with adopting := false }

theorem State.handBack_self (s : State) (p : Nat) : ((s.handBack p).post p).rehomed = false :=
  congrArg Post.rehomed ((State.setPost_ne _ _ _ _ (xor_one_ne p).symm).trans (State.setPost_self ..))

theorem State.handBack_sibling (s : State) (p : Nat) : ((s.handBack p).post (p ^^^ 1)).adopting = false :=
  congrArg Post.adopting (State.setPost_self ..)

theorem execPostRestored_returns (hhome : (s.post p).rehomed = true) (hended : s.partsEnded p = true) :
    execPostRestored p s = .next (((s.handBack p).postResumes p).failover (halfUno (p ^^^ 1)) 8 (halfUno p)) := by
  simp [execPostRestored, hhome, hended, State.handBack]

end

/-- Settles O23: the posts stand through what an adoption, a hand-back and a lone survey do beside them (`State.duties`). -/
theorem postHeartbeatsAndAdoption : Obligations.PostHeartbeatsAndAdoption := by
  unfold Obligations.PostHeartbeatsAndAdoption
  intro s p q
  refine ⟨fun hruns => ⟨execPostHeartbeat_runs hruns, fun hlive hsilent => ?_, fun hlive => ?_, fun hnew hsilent => ?_⟩,
    fun hout hlive t hsend => execPostHeartbeatArrival_taken hout hlive hsend,
    fun hdue t hsend => execHeartbeatAck_taken (s := s) (p := p) hdue hsend,
    fun hlost hwant hruns n => ?_, fun hhome hended => ?_⟩
  · obtain ⟨hhealth, hwant, -⟩ := s.postDies_post p false
    exact ⟨_, execPostLost_silent hruns hlive hsilent, hhealth, hwant, (s.postDies_keeps p false).1⟩
  · let s1 := s.setPost p { s.post p with memError := true }
    obtain ⟨hhealth, -, -⟩ := s1.postDies_post p false
    exact ⟨_, execPostMemoryError_runs hruns hlive, hhealth,
      (s1.postDies_keeps p false).2.trans (congrArg Post.memError (State.setPost_self ..))⟩
  · exact ⟨_, execLoneSurvey_begins hruns hnew hsilent, s.loneBegun_lasts p⟩
  · obtain ⟨u, t, hexec, hbefore, hafter, hevent⟩ := execAdopt_takes hlost hwant hruns n
    have hhealth : (t.post p).health = Health.adopted :=
      (State.same_of_duties Post.health (fun _ => rfl) hafter p).trans (u.handOver_self p)
    have hadopts : (t.post (p ^^^ 1)).adopting = true :=
      (State.same_of_duties Post.adopting (fun _ => rfl) hafter (p ^^^ 1)).trans (congrArg Post.adopting (u.handOver_sibling p))
    have hserves : t.postRuns (p ^^^ 1) = true := by
      have hthen := State.same_of_duties (fun q => q.health == 1) (fun _ => rfl) hafter (p ^^^ 1)
      rw [u.handOver_sibling p] at hthen
      exact hthen.trans ((State.same_of_duties (fun q => q.health == 1) (fun _ => rfl) hbefore (p ^^^ 1)).trans hruns)
    exact ⟨t, hexec, hhealth, hadopts, State.server_adopted hhealth hserves hadopts, hevent⟩
  · let s2 := (s.handBack p).postResumes p
    have hposts : (s2.failover (halfUno (p ^^^ 1)) 8 (halfUno p)).duties = s2.duties := State.failover_duties ..
    obtain ⟨hok, hhomed⟩ := (s.handBack p).postResumes_self p
    have hhealth := (State.same_of_duties Post.health (fun _ => rfl) hposts p).trans hok
    refine ⟨_, execPostRestored_returns hhome hended, hhealth, ?_, ?_, State.server_runs (by rw [State.postRuns, hhealth]; rfl)⟩
    · exact (State.same_of_duties Post.rehomed (fun _ => rfl) hposts p).trans (hhomed.trans (s.handBack_self p))
    · exact (State.same_of_duties Post.adopting (fun _ => rfl) hposts (p ^^^ 1)).trans ((Post.same_of_duties Post.adopting (fun _ => rfl)
        ((s.handBack p).postResumes_other (xor_one_ne p))).trans (s.handBack_sibling p))

end Sys2Proof.Machine

/-! SUPPORT. The last clause of the registration statement (R226) fails where a producer that its object already holds registers again: its
tap takes the PRODUCER bit whether or not the object is full. The statement ranges over every state, also one where that bit is not set yet. -/

namespace Sys2Proof.Machine

/-- Object 0 of half 0 holds its 8 producers, thread groups 0 to 7 of core 0, and no tap has a PRODUCER bit. -/
def eightProducers : State := { State.reset with watch := { objs := [(0xC00000, { producers := rangeFrom 0x400000 8 })] } }

/-- A thread group that the object already holds takes its PRODUCER bit as it registers again. -/
theorem eightProducers_registersAgain : ∃ t, exec (.producerRegistration 0xC00000 0x400000 0) eightProducers = .next t ∧
    t.watch.waiters = [(0x400000, { producer := true })] :=
  ⟨_, rfl, by decide⟩

/-- Refutes O40: its last clause takes any thread group where the object is full, and in `eightProducers` one of the 8 that it holds registers
again, which writes that group's wait entry. -/
theorem not_waitsAndProducers : ¬ Obligations.WaitsAndProducers := by
  unfold Obligations.WaitsAndProducers
  intro h
  obtain ⟨-, -, -, hfull⟩ := h eightProducers 0x400000 0xC00000 0 (by decide) (by decide) (by decide) (by decide)
  obtain ⟨t, hexec, -, hwaiters⟩ := hfull (by decide) (by decide)
  obtain ⟨u, hexec', hset⟩ := eightProducers_registersAgain
  obtain rfl := Host.Outcome.next.inj (hexec.symm.trans hexec')
  exact absurd (hset.symm.trans hwaiters) (by decide)

end Sys2Proof.Machine

/-! SUPPORT. What the shared operations leave of the watch (chapter 08): an event or a report nothing of it, and the action of a policy row its
results (`State.results`), that is all but the rows and the HALTs that wait. -/

namespace Sys2Proof.Machine

theorem State.emit_watch (s : State) (k : Nat) (e : Event) : (s.emit k e).watch = s.watch := by rw [State.emit_eq]

theorem State.report_watch (s : State) (u : Uno) (cls code : Nat) (d : List Byte) (c : Ctx) : (s.report u cls code d c).watch = s.watch := by
  rw [State.report_eq]

theorem State.reportHub_watch (s : State) (u : Uno) (cls code : Nat) (d : List Byte) (c : Ctx) :
    (s.reportHub u cls code d c).watch = s.watch := by
  rw [State.reportHub_eq]

/-- The watch but for its policy rows and the policy HALTs that wait. -/
def State.results (s : State) : Watch := { s.watch with policies := [], halts := [] }

section
variable {s t : State} (h : t.results = s.results)
include h

theorem State.deadlock_of_results (c : Ctx) : t.deadlock c = s.deadlock c :=
  (congrArg (fun w : Watch => Tbl.get {} w.records c) h :)

theorem State.declared_of_results : t.watch.declared = s.watch.declared := (congrArg (fun w : Watch => w.declared) h :)

theorem State.deadline_of_results (p i : Nat) : t.deadline p i = s.deadline p i :=
  (congrArg (fun w : Watch => Tbl.get {} w.deadlines (p * 64 + i)) h :)

end

theorem State.issuePolicy_results (s : State) (h : PolHalt) : (s.issuePolicy h).results = s.results := by
  unfold State.issuePolicy
  split <;> rfl

/-- An action of a row issues a HALT, or leaves one to wait, and may mark the row's folio as started. -/
theorem State.policyAct_results (s : State) (c : Ctx) (r action issuer : Nat) : (s.policyAct c r action issuer).results = s.results := by
  unfold State.policyAct
  extract_lets folio row s1 h
  have hmarked : s1.results = s.results := by
    unfold s1
    split <;> rfl
  split
  · rfl
  · split
    · exact (State.issuePolicy_results ..).trans hmarked
    · exact hmarked

end Sys2Proof.Machine

/-! SUPPORT. Snapshots and their judgement (R227 to R238). -/

namespace Sys2Proof.Machine

/-! ### SNAPSHOT_TIME (R227 to R229) -/

/-- The state but for the watchers: what a half's sample is taken from. -/
def State.sampled (s : State) : State := s.setWatch { s.watch with watchers := [] }

theorem State.samplePost_sampled (s : State) (env : AccelSample) (p : Nat) : (s.samplePost env p).sampled = s.sampled := by
  unfold State.samplePost
  dsimp only
  split <;> rfl

theorem State.samplePost_watcher_ne (s : State) (env : AccelSample) {p q : Nat} (h : p ≠ q) : (s.samplePost env q).watcher p = s.watcher p := by
  unfold State.samplePost
  dsimp only
  split <;> exact State.setWatcher_ne _ _ _ _ h

/-- A served half's sample: the master's time, the entries of its bank and the waits of its core taps. -/
theorem State.samplePost_served {s : State} (env : AccelSample) {p : Nat} (h : (s.server p).isSome = true) :
    (s.samplePost env p).watcher p = { s.watcher p with sampling := some s.pkg.meridian, newEntries := s.sampleBank p env.queued,
                                                        newGroups := s.groupsOf p, bad := false } := by
  simp [State.samplePost, Option.isNone_eq_false_iff.mpr h]

/-- Each of several halves samples what stood before the first of them did. -/
theorem State.samplePosts_watcher {s : State} (env : AccelSample) {p : Nat} {ps : List Nat} (hp : p ∈ ps) (hn : ps.Nodup)
    (h : (s.server p).isSome = true) :
    ((ps.foldl (fun t q => t.samplePost env q) s).watcher p) =
      { s.watcher p with sampling := some s.pkg.meridian, newEntries := s.sampleBank p env.queued, newGroups := s.groupsOf p, bad := false } := by
  obtain ⟨u, hu, hfold⟩ := State.foldl_at (fun t => (t.sampled, t.watcher p)) hp hn
    (fun t q _ hq => by rw [t.samplePost_sampled, t.samplePost_watcher_ne env hq.symm]) s
  obtain ⟨hsampled, hwatcher⟩ := Prod.mk.inj hu
  obtain ⟨-, hlast⟩ := Prod.mk.inj hfold
  have hserved : u.server p = s.server p := (congrArg (fun t : State => t.server p) hsampled :)
  have hnow : u.pkg.meridian = s.pkg.meridian := (congrArg (fun t : State => t.pkg.meridian) hsampled :)
  have hbank : u.sampleBank p env.queued = s.sampleBank p env.queued := (congrArg (fun t : State => t.sampleBank p env.queued) hsampled :)
  have hgroups : u.groupsOf p = s.groupsOf p := (congrArg (fun t : State => t.groupsOf p) hsampled :)
  rw [hlast, State.samplePost_served env (by rw [hserved, h]), hwatcher, hnow, hbank, hgroups]

/-- The halves whose watchers are armed, lowest first. -/
def State.armedPosts (s : State) : List Nat := (rangeFrom 0 s.pkg.member.posts).filter s.watcherArmed

theorem State.mem_armedPosts {s : State} {p : Nat} : p ∈ s.armedPosts ↔ p < s.pkg.member.posts ∧ s.watcherArmed p = true := by
  simp [State.armedPosts, mem_rangeFrom]

/-- The state in which the halves sample: the snapshot is being joined, and every half's new sample is empty. -/
def State.snapshotBegun (s : State) (env : AccelSample) : State := s.setWatch { s.watch with
  joining := if s.pkg.bothDead then none else some s.pkg.meridian
  env := env
  barred := s.watched.filter s.barredNow
  watchers := s.watch.watchers.map (fun (e : Nat × Watcher) => (e.1, { e.2 with newEntries := [], newGroups := [], bad := false })) }

section
variable {s : State} {p : Nat} (htime : s.now % s.snapInterval = 0) (hp : p < s.pkg.member.posts) (harmed : s.watcherArmed p = true)
include htime hp harmed

theorem execSnapshotTime_samples (env : AccelSample) (hjoin : s.watch.joining = none) :
    execSnapshotTime env s = .next (s.armedPosts.foldl (fun t q => t.samplePost env q) (s.snapshotBegun env)) := by
  have hsome : s.armedPosts.isEmpty = false := 
    List.isEmpty_eq_false_iff.mpr (List.ne_nil_of_mem (State.mem_armedPosts.mpr ⟨hp, harmed⟩))
  rw [State.armedPosts] at hsome
  simp only [execSnapshotTime, htime, hsome, hjoin]
  rfl

theorem execSnapshotTime_skips (env : AccelSample) {t0 : Time} (hjoin : s.watch.joining = some t0) (hlater : t0 ≠ s.pkg.meridian) :
    execSnapshotTime env s = .next (s.setWatch { s.watch with skipped := min 65535 (s.watch.skipped + 1) }) := by
  have hsome : s.armedPosts.isEmpty = false := 
    List.isEmpty_eq_false_iff.mpr (List.ne_nil_of_mem (State.mem_armedPosts.mpr ⟨hp, harmed⟩))
  rw [State.armedPosts] at hsome
  simp [execSnapshotTime, htime, hsome, hjoin, hlater, sat16, satAdd]

end

/-! ### SNAP (R229) -/

/-- A half's scheduled sample becomes its last snapshot. -/
theorem execSnap_scheduled {s : State} {p q : Nat} {t0 : Time} (hserver : s.server p = some q) (hsampling : (s.watcher p).sampling = some t0) :
    ∃ w, execSnap p [] s = .next ((s.setWatcher p w).engineEvent q 5) ∧ w.sampling = none ∧ w.entries = (s.watcher p).newEntries ∧
      w.snapT = some t0 ∧ w.snaps = (s.watcher p).snaps + 1 := by
  simp only [execSnap, hserver, hsampling]
  exact ⟨_, rfl, rfl, rfl, rfl, rfl⟩

/-! ### A context judged (R232 to R238) -/

/-- A declaration writes the record and counts; what the rows' actions do leaves both. -/
theorem State.declare_results (s : State) (c : Ctx) (v : Uno) (quiet : Bool) (xs : List SnapEntry) (gs : List (Uno × BitVec 32)) (t : Time) :
    (s.declare c v quiet xs gs t).deadlock c = { state := 2, quiescent := quiet, part := v, objects := xs, groups := gs, t := t } ∧
      (s.declare c v quiet xs gs t).watch.declared = min 65535 (s.watch.declared + 1) := by
  unfold State.declare
  extract_lets low half s1 s2 w s3
  have hfold := State.foldl_leaves State.results
    (f := fun r row => if (r.policy c row).set then r.policyAct c row (r.policy c row).dl 128 else r)
    (fun r row => by split <;> simp [State.policyAct_results]) (rangeFrom 0 2) s3
  have hreport : s2.watch = s1.watch := State.reportHub_watch ..
  rw [State.deadlock_of_results hfold, State.declared_of_results hfold]
  refine ⟨?_, ?_⟩
  · change Tbl.get {} s2.watch.records c = _
    rw [hreport]
    exact State.setDeadlock_self ..
  · change sat16 s2.watch.declared = _
    rw [hreport]
    rfl

section
variable {s : State} {c : Ctx} {v : Uno} {gr : Group} {g : Graph} (t : Time) (hpart : s.partOfCtx c = some (v, gr))
  (hwhole : (s.ctxPosts c).any (fun k => (s.watcher k).bad) = false) (hjudged : c ∉ s.watch.barred)
  (hcycle : (s.policy c 0).cycleEn = true) (hquiet0 : (s.policy c 0).quiescEn = false) (hquiet1 : (s.policy c 1).quiescEn = false)
include hpart hwhole hjudged hcycle hquiet0 hquiet1

/-- A first closed set makes the context SUSPECT (R237). -/
theorem State.judgeCtx_suspects (hclosed : s.closedSet g c ≠ []) (hstate : (s.deadlock c).state = 0) :
    s.judgeCtx g t c = s.setDeadlock c { state := 1, sCycle := true, part := v } := by
  have hsome : (s.closedSet g c).isEmpty = false := List.isEmpty_eq_false_iff.mpr hclosed
  simp [State.judgeCtx, hpart, hwhole, hjudged, hcycle, hquiet0, hquiet1, hstate, hsome]

omit hquiet0 hquiet1 in
/-- A closed set that confirms the one of the snapshot before is declared (R235). -/
theorem State.judgeCtx_declares (hclosed : s.closedSet g c ≠ []) (hstate : (s.deadlock c).state = 1) (hbefore : (s.deadlock c).sCycle = true)
    (hconfirms : s.confirms (g.cycleGroups (s.closedSet g c)) (s.closedSet g c) = true) :
    s.judgeCtx g t c = s.declare c v false (s.closedSet g c) (g.cycleGroups (s.closedSet g c)) t := by
  simp [State.judgeCtx, hpart, hwhole, hjudged, hcycle, hstate, hclosed, hbefore, hconfirms]

/-- Without a finding, and without a declaration that stands, the record goes to NONE (R237). -/
theorem State.judgeCtx_clears (hclosed : s.closedSet g c = []) (hstate : (s.deadlock c).state ≠ 2) : s.judgeCtx g t c = s.setDeadlock c {} := by
  simp [State.judgeCtx, hpart, hwhole, hjudged, hcycle, hquiet0, hquiet1, hstate, hclosed]

end

/-! ### JOIN_COMPLETE -/

/-- Every watched context judged on the joined graph. -/
def State.judgedAll (s : State) (t : Time) : State := s.watched.foldl (fun r c => r.judgeCtx s.joined t c) s

theorem State.judgedAll_only {s : State} {c : Ctx} (h : s.watched = [c]) (t : Time) : s.judgedAll t = s.judgeCtx s.joined t c := by
  rw [State.judgedAll, h]
  rfl

/-- Once every half has its sample, the join ends with the judgement. -/
theorem execJoinComplete_judges {s : State} {t0 : Time} (hjoin : s.watch.joining = some t0) (hlive : s.pkg.bothDead = false)
    (hsampled : ∀ e ∈ s.watch.watchers, e.2.sampling = none) :
    ∃ w, execJoinComplete s = .next ((s.judgedAll t0).setWatch w) ∧ w.joining = none ∧ w.snapT = t0 ∧
      w.records = (s.judgedAll t0).watch.records ∧ w.declared = (s.judgedAll t0).watch.declared := by
  have hwaiting : s.watch.watchers.any (fun e => e.2.sampling == some t0 && (s.server e.1).isSome) = false := by
    rw [List.any_eq_false]
    intro e he
    simp [hsampled e he]
  have hstays : s.setWatch { s.watch with watchers := s.watch.watchers.map (fun e =>
      (e.1, if e.2.sampling.isSome then { e.2 with sampling := none, bad := true } else e.2)) } = s := by
    rw [List.map_congr_left (g := id) fun e he => by simp [hsampled e he], List.map_id]
    rfl
  unfold execJoinComplete
  rw [hjoin]
  simp only [hlive, hwaiting, hstays]
  exact ⟨_, rfl, rfl, rfl, rfl, rfl⟩

/-- Settles O41: the halves sample one state, as no sample changes what another is taken from (`samplePosts_watcher`), and a join judges the
one watched context by the three lemmas of `judgeCtx`. -/
theorem snapshotsAndJudgement : Obligations.SnapshotsAndJudgement := by
  unfold Obligations.SnapshotsAndJudgement
  intro s env p q t0 v gr c
  refine ⟨fun htime hp harmed hlive => ⟨fun hjoin hserved => ?_, fun hjoin hlater => ?_⟩, fun hserver hsampling => ?_,
    fun hjoin hlive hsampled => ?_⟩
  · have hbegun : (s.armedPosts.foldl (fun t q => t.samplePost env q) (s.snapshotBegun env)).sampled = (s.snapshotBegun env).sampled :=
      State.foldl_leaves State.sampled (fun t q => t.samplePost_sampled env q) _ _
    have hwatcher := State.samplePosts_watcher (s := s.snapshotBegun env) env (State.mem_armedPosts.mpr ⟨hp, harmed⟩)
      ((nodup_rangeFrom _ _).filter _) hserved
    refine ⟨_, execSnapshotTime_samples htime hp harmed env hjoin, (congrArg (fun t : State => t.watch.joining) hbegun :).trans ?_, ?_, ?_, ?_,
      (congrArg (fun t : State => t.cores) hbegun :)⟩
    · exact if_neg (by simp [hlive])
    all_goals rw [hwatcher]; rfl
  · exact execSnapshotTime_skips htime hp harmed env hjoin hlater
  · obtain ⟨w, hexec, hsampling', hentries, hsnapT, hsnaps⟩ := execSnap_scheduled hserver hsampling
    have hread : ((s.setWatcher p w).engineEvent q 5).watcher p = w := State.setWatcher_self s p w
    exact ⟨_, hexec, by rw [hread, hsampling'], by rw [hread, hentries], by rw [hread, hsnapT], by rw [hread, hsnaps],
      State.engineEvent_set _ q (by decide)⟩
  · obtain ⟨w, hexec, hjoining, hsnapT, hrecords, hdeclared⟩ := execJoinComplete_judges hjoin hlive hsampled
    refine ⟨_, hexec, hjoining, hsnapT, fun honly hpart hwhole hjudged hcycle hquiet0 hquiet1 => ?_⟩
    rw [State.judgedAll_only honly] at hrecords hdeclared ⊢
    have hrecord : ((s.judgeCtx s.joined t0 c).setWatch w).deadlock c = (s.judgeCtx s.joined t0 c).deadlock c :=
      (congrArg (fun r => Tbl.get ({} : Deadlock) r c) hrecords :)
    rw [hrecord]
    refine ⟨fun hclosed hstate => ?_, fun hclosed hstate hbefore hconfirms => ?_, fun hclosed hstate => ?_⟩
    · rw [State.judgeCtx_suspects t0 hpart hwhole (by simpa using hjudged) hcycle hquiet0 hquiet1 hclosed hstate, State.setDeadlock_self]
      exact ⟨rfl, rfl⟩
    · have hjudge := State.judgeCtx_declares t0 hpart hwhole (by simpa using hjudged) hcycle hclosed hstate hbefore hconfirms
      obtain ⟨hdeadlock, hcount⟩ := s.declare_results c v false (s.closedSet s.joined c) (s.joined.cycleGroups (s.closedSet s.joined c)) t0
      rw [hjudge] at hdeclared ⊢
      rw [hdeadlock]
      exact ⟨rfl, rfl, hdeclared.trans hcount⟩
    · rw [State.judgeCtx_clears t0 hpart hwhole (by simpa using hjudged) hcycle hquiet0 hquiet1 hclosed hstate, State.setDeadlock_self]

end Sys2Proof.Machine

/-! SUPPORT. Policy rows, policy HALTs and deadline comparators (R240 to R245). -/

namespace Sys2Proof.Machine

/-! ### POLICY (R244) -/

theorem State.pushReserved_refs (s : State) (r : Nat) (b : Bool) (e : Event) : (s.pushReserved r b e).host.refs = s.host.refs := by
  unfold State.pushReserved
  dsimp only
  split <;> rfl

theorem State.complete_refs (s : State) (c : CmdCtx) (st : Nat) (o : BitVec 32) (d : Word) :
    (s.complete c st o d).host.refs = s.host.refs := by
  unfold State.complete State.completeFor
  dsimp only
  split
  · rfl
  · split
    · exact State.pushReserved_refs ..
    · exact State.emit_refs ..

/-- A completion makes nothing die where nothing is counted. -/
theorem State.complete_reap {s : State} (h : s.host.refs = []) (c : CmdCtx) (st : Nat) (o : BitVec 32) (d : Word) :
    (s.complete c st o d).reap = s.complete c st o d :=
  State.reap_noRefs ((State.complete_refs ..).trans h)

/-- A row without a folio is replaced whole, and its session uses the context's posts. -/
theorem execPolicy_reports {s : State} {c : CmdCtx} {x : Ctx} {row : Nat} {ce qe : Bool} (heard : Claims.Heard s c) (hrefs : s.host.refs = [])
    (hok : firstFail (s.policyChecks c.who x row (ce || qe) 1 0 0xFF) = none)
    (hawake : (s.ctxPosts x).all (fun k => !s.postAsleep k) = true)
    (hok2 : firstFail (s.policyChecks2 x row (ce || qe) 1 0 0xFF) = none) (hjob : (s.policy x row).job = none) :
    Claims.Done (.policy c x row ce qe 1 0 0xFF) s c (objectWord ObjKind.context x) 0
      ((s.setPolicy x row { set := true, cycleEn := ce, quiescEn := qe, dl := 1, dm := 0 }).usePosts c.session (s.ctxPosts x)) := by
  obtain ⟨hsession, hlive, hfw⟩ := heard
  have hsleeping : (s.ctxPosts x).filter s.postAsleep = [] := by simpa [List.filter_eq_nil_iff] using hawake
  have hnone : ((s.setPolicy x row { set := true, cycleEn := ce, quiescEn := qe, dl := 1, dm := 0 }).usePosts c.session
      (s.ctxPosts x)).host.refs = [] := by
    rw [State.usePosts_frame]
    exact hrefs
  refine congrArg Host.Outcome.next ((State.judged_ok hlive hfw hsession hok).trans ?_)
  simp only [hsleeping, ite_self]
  refine (State.judged_ok hlive hfw hsession hok2).trans ?_
  simp only [hjob]
  exact State.complete_reap hnone ..

/-! ### POLICY_HALT_ISSUE (R242, R243) -/

/-- The HALT of a policy row stands under the next serial number, on the partition and with the row's hold class. -/
theorem State.issuePolicy_hop {s : State} {h : PolHalt} {v : Uno} {gr : Group} (hpart : s.partOfCtx h.ctx = some (v, gr)) :
    ∃ k, (s.issuePolicy h).hop s.hopNext = some k ∧ k.kind = .halt ∧ k.scope = v ∧ k.status = 1 ∧ k.platform = (h.row == 0) := by
  simp only [State.issuePolicy, hpart]
  exact ⟨_, (State.acceptHop_hop ..).trans (if_pos rfl), rfl, rfl, rfl, rfl⟩

theorem State.issuePolicy_halts (s : State) (h : PolHalt) : (s.issuePolicy h).watch.halts = s.watch.halts := by
  unfold State.issuePolicy
  split <;> rfl

theorem execPolicyHaltIssue_issues {s : State} {i : Nat} {h : PolHalt} (hwaits : s.watch.halts[i]? = some h)
    (hplace : s.hopsPending (issuerOf h.issuer) < 16) (hpair : (s.post h.issuer).lone = false) (hlive : s.pkg.bothDead = false) :
    execPolicyHaltIssue i s = .next ((s.setWatch { s.watch with halts := s.watch.halts.eraseIdx i }).issuePolicy h) := by
  simp [execPolicyHaltIssue, hwaits, hplace, hpair, hlive]

/-! ### Comparators -/

@[simp] theorem State.setDeadline_self (s : State) (p i : Nat) (v : Deadline) : (s.setDeadline p i v).deadline p i = v := Tbl.get_set_self ..

theorem State.setDeadline_ne (s : State) (p : Nat) {i j : Nat} (v : Deadline) (h : j ≠ i) : (s.setDeadline p i v).deadline p j = s.deadline p j :=
  Tbl.get_set_ne _ _ _ _ _ (by omega)

/-- A record that takes a result writes its event beside its own entry. -/
theorem State.endDeadline_watch (s : State) (p i state result : Nat) (doneT : Time) : (s.endDeadline p i state result doneT).watch =
    (s.setDeadline p i (if state = 0 then {} else { s.deadline p i with state := state, doneT := doneT })).watch :=
  State.emit_watch ..

theorem State.deadline_of_watch {s t : State} (h : t.watch = s.watch) (p i : Nat) : t.deadline p i = s.deadline p i := by
  rw [State.deadline, h, State.deadline]

theorem State.endDeadline_self (s : State) (p i state result : Nat) (doneT : Time) : (s.endDeadline p i state result doneT).deadline p i =
    if state = 0 then {} else { s.deadline p i with state := state, doneT := doneT } :=
  (State.deadline_of_watch (State.endDeadline_watch ..) p i).trans (State.setDeadline_self ..)

theorem State.endDeadline_ne (s : State) (p : Nat) {i j : Nat} (state result : Nat) (doneT : Time) (h : j ≠ i) :
    (s.endDeadline p i state result doneT).deadline p j = s.deadline p j :=
  (State.deadline_of_watch (State.endDeadline_watch ..) p j).trans (State.setDeadline_ne _ _ _ h)

theorem State.endDeadline_objs (s : State) (p i state result : Nat) (doneT : Time) :
    (s.endDeadline p i state result doneT).watch.objs = s.watch.objs := by
  rw [State.endDeadline_watch]
  rfl

/-! ### DEADLINE_SET and DEADLINE_CLEAR (R240, R241, R245) -/

theorem State.gatedFast_of_awake {s : State} {p : Nat} (h : s.bankAsleep p = false) : s.gatedFast p = false := by
  simp only [State.bankAsleep, Bool.or_eq_false_iff] at h
  rw [State.gatedFast, h.1, Bool.false_and]

/-- A comparator of the object's bank is armed, and the session uses the bank's post. -/
theorem execDeadlineSet_arms {s : State} {c : CmdCtx} {x : Ctx} {row i p : Nat} {jobId : BitVec 32} {o : Uno} {target : Word} {t0 : Time}
    (h : Claims.Platform s c) (hpresent : s.present o = true) (hobj : kindOf s.pkg.member o = .obj) (hctx : s.ctxOf o = x) (hrow : row ≤ 1)
    (hpart : (s.partOfCtx x).isSome = true) (hmay : s.mayDeadline c.who x row = true) (htime : s.now + 1000 < t0.toNat)
    (hnew : s.armedDeadline x row jobId = none) (hpost : postOf s.pkg.member o = some p) (hawake : s.bankAsleep p = false)
    (hfree : s.freeDeadline p = some i) :
    Claims.Done (.deadlineSet c jobId row o target t0) s c (objectWord ObjKind.context x) 0
      ((s.setDeadline p i { state := 1, jobId := jobId, row := row, ctx := x, obj := (o - 0xC00000) % 1024, target := target, t := t0,
                            session := c.session, platform := row == 0 }).usePosts c.session [p]) := by
  obtain ⟨-, hlock, -⟩ := id h
  change execDeadlineSet c jobId row o target t0 s = _
  simp only [execDeadlineSet, hpost, hctx, Option.getD_some]
  rw [State.judged_platform h (by
    simp [firstFail, hrow, hlock, hpresent, hobj, hpart, hmay, htime, hnew, State.gatedFast_of_awake hawake]), hawake]
  refine congrArg Host.Outcome.next ((State.judged_platform h (by simp [firstFail, hfree])).trans ?_)
  simp only [hfree, Option.getD_some]

theorem execDeadlineClear_frees {s : State} {c : CmdCtx} {x : Ctx} {row i p : Nat} {jobId : BitVec 32} (heard : Claims.Heard s c)
    (hlock : s.life.lockdown = false) (hx : x < 4096) (hrow : row ≤ 1) (hmay : s.mayDeadline c.who x row = true)
    (harmed : s.armedDeadline x row jobId = some (64 * p + i)) (hi : i < 64) :
    Claims.Done (.deadlineClear c x row jobId) s c (objectWord ObjKind.context x) 0 (s.endDeadline p i 0 2 0) := by
  obtain ⟨hsession, hlive, hfw⟩ := heard
  have hp : (64 * p + i) / 64 = p := by omega
  have hindex : (64 * p + i) % 64 = i := by omega
  change execDeadlineClear c x row jobId s = _
  unfold execDeadlineClear
  rw [State.judged_ok hlive hfw hsession (by simp [firstFail, hlock, hx, hrow, hmay, harmed])]
  simp only [harmed, Option.getD_some, hp, hindex]

/-! ### DEADLINE_MET (R240) -/

/-- What comparator `i` of half p's bank makes of a value that object `o` takes at the bank's time `n`. -/
def State.meetsBy (s : State) (p : Nat) (o : Uno) (v : Word) (n i : Nat) : State :=
  if (s.deadline p i).state = 1 ∧ objUno p (s.deadline p i).obj = o ∧ (s.deadline p i).target.toNat ≤ v.toNat ∧ n ≤ (s.deadline p i).t.toNat
  then s.endDeadline p i 2 0 (word n) else s

theorem State.meetsBy_ne (s : State) (p : Nat) (o : Uno) (v : Word) (n : Nat) {i j : Nat} (h : j ≠ i) :
    (s.meetsBy p o v n i).deadline p j = s.deadline p j := by
  unfold State.meetsBy
  split
  · exact State.endDeadline_ne _ _ _ _ _ h
  · rfl

theorem State.meetsBy_objs (s : State) (p : Nat) (o : Uno) (v : Word) (n i : Nat) : (s.meetsBy p o v n i).watch.objs = s.watch.objs := by
  unfold State.meetsBy
  split
  · exact State.endDeadline_objs ..
  · rfl

/-- With a valid copy, every comparator of the bank sees the value. -/
theorem State.objWrite_eq {s : State} {p n : Nat} {o : Uno} (hpost : postOf s.pkg.member o = some p) (hnow : s.copyNow (0x3300 + p) = some n)
    (v : Word) : s.objWrite o v =
      (rangeFrom 0 64).foldl (fun r i => r.meetsBy p o v n i) (s.setSyncObj o { s.syncObj o with value := v }) := by
  simp only [State.objWrite, hpost, hnow, Option.getD_some]
  rfl

theorem State.objWrite_value {s : State} {p n : Nat} {o : Uno} (hpost : postOf s.pkg.member o = some p) (hnow : s.copyNow (0x3300 + p) = some n)
    (v : Word) : ((s.objWrite o v).syncObj o).value = v := by
  have hfold := State.foldl_leaves (fun t : State => t.syncObj o)
    (fun r i => congrArg (fun t => Tbl.get ({} : SyncObj) t o) (r.meetsBy_objs p o v n i)) (rangeFrom 0 64)
    (s.setSyncObj o { s.syncObj o with value := v })
  rw [State.objWrite_eq hpost hnow, hfold, State.setSyncObj_self]

/-- A value that reaches a record's target by its deadline makes it MET: no other comparator touches the record. -/
theorem State.objWrite_meets {s : State} {p i n : Nat} {o : Uno} {v : Word} (hi : i < 64) (hpost : postOf s.pkg.member o = some p)
    (hnow : s.copyNow (0x3300 + p) = some n) (hmet : (s.deadline p i).state = 1 ∧ objUno p (s.deadline p i).obj = o ∧
      (s.deadline p i).target.toNat ≤ v.toNat ∧ n ≤ (s.deadline p i).t.toNat) :
    (s.objWrite o v).deadline p i = { s.deadline p i with state := 2, doneT := word n } := by
  obtain ⟨u, hu, hfold⟩ := State.foldl_at (fun t : State => t.deadline p i) (mem_rangeFrom.mpr ⟨Nat.zero_le i, by omega⟩) (nodup_rangeFrom 0 64)
    (fun r a _ ha => r.meetsBy_ne p o v n ha.symm) (s.setSyncObj o { s.syncObj o with value := v })
  have hrecord : u.deadline p i = s.deadline p i := hu
  rw [State.objWrite_eq hpost hnow, hfold, State.meetsBy, hrecord, if_pos hmet, State.endDeadline_self, hrecord]
  rfl

/-- An object that is present and not frozen takes the value. -/
theorem execDeadlineMet_writes {s : State} {p i : Nat} {v : Word} (hi : i < 64) (hstate : (s.deadline p i).state = 1)
    (htarget : (s.deadline p i).target.toNat ≤ v.toNat) (hpresent : s.present (objUno p (s.deadline p i).obj) = true)
    (h4 : (s.inst 4 (objUno p (s.deadline p i).obj)).any = false) (h6 : (s.inst 6 (objUno p (s.deadline p i).obj)).any = false) :
    execDeadlineMet p i v s = .next (s.objWrite (objUno p (s.deadline p i).obj) v) := by
  simp [execDeadlineMet, hi, hstate, htarget, hpresent, h4, h6]

/-! ### DEADLINE_MISSED (R240, R241) -/

/-- What the serving post does at a miss leaves the record but for what the tap owed (R241). -/
theorem State.applyMiss_deadline (s : State) (p q i : Nat) : (s.applyMiss p q i).deadline p i = { s.deadline p i with owed := false } := by
  unfold State.applyMiss
  extract_lets d lone code s1 s2 pkg late r pkg' s3 s4
  have hreported : s3.watch = s1.watch := State.report_watch ..
  have hacted : s4.results = s3.results := by
    unfold s4
    split
    · rfl
    · exact State.policyAct_results ..
  rw [State.deadline_of_watch (State.emit_watch ..), State.deadline_of_results hacted, State.deadline_of_watch hreported]
  exact State.setDeadline_self ..

/-- The bank's tap once a record is past its deadline: the result, one tick after it, is owed until a post applies the miss. -/
def State.missed (s : State) (p i : Nat) : State :=
  s.setDeadline p i { s.deadline p i with state := 3, doneT := (s.deadline p i).t + 1, owed := true }

theorem State.missed_deadline (s : State) (p i : Nat) :
    (s.missed p i).deadline p i = { s.deadline p i with state := 3, doneT := (s.deadline p i).t + 1, owed := true } :=
  State.setDeadline_self ..

theorem State.setDeadline_server (s : State) (p i : Nat) (v : Deadline) (q : Nat) : (s.setDeadline p i v).server q = s.server q := rfl

theorem execDeadlineMissed_late {s : State} {p i n : Nat} (hi : i < 64) (hstate : (s.deadline p i).state = 1)
    (hnow : s.copyNow (0x3300 + p) = some n) (hlate : (s.deadline p i).t.toNat < n) :
    execDeadlineMissed p i s = .next (((s.server p).map fun q => (s.missed p i).applyMiss p q i).getD (s.missed p i)) := by
  cases hserver : s.server p <;>
    simp [execDeadlineMissed, State.missed, State.setDeadline_server, hserver, hi, hstate, hnow, Nat.succ_le_of_lt hlate]

/-- Settles O42, command by command: a value and a miss reach their record through operations that leave it (`meetsBy_ne`,
`policyAct_results`). -/
theorem policiesAndDeadlines : Obligations.PoliciesAndDeadlines := by
  unfold Obligations.PoliciesAndDeadlines
  intro s c x row i p ce qe jobId o v gr target value t0 n h
  refine ⟨fun heard hrefs hok hawake hok2 hjob => execPolicy_reports heard hrefs hok hawake hok2 hjob,
    fun hwaits hplace hpair hlive hpart => ?_,
    fun hplatform hpresent hobj hctx hrow hpart hmay htime hnew hpost hawake hfree => ?_,
    fun heard hlock hx hrow hmay harmed hi => ?_, fun hstate hi hpresent hthawed hkept hpost htarget hnow hn => ?_,
    fun hstate hi hnow hlate => ?_⟩
  · obtain ⟨k, hhop, hkind⟩ := State.issuePolicy_hop (s := s.setWatch { s.watch with halts := s.watch.halts.eraseIdx i }) hpart
    exact ⟨_, k, execPolicyHaltIssue_issues hwaits hplace hpair hlive, State.issuePolicy_halts .., hhop, hkind⟩
  · refine ⟨_, execDeadlineSet_arms hplatform hpresent hobj hctx hrow hpart hmay htime hnew hpost hawake hfree, ?_⟩
    rw [State.usePosts_frame]
    have hread := State.setDeadline_self s p i { state := 1, jobId := jobId, row := row, ctx := x, obj := (o - 0xC00000) % 1024,
                                                 target := target, t := t0, session := c.session, platform := row == 0 }
    exact ⟨congrArg Deadline.state hread, congrArg Deadline.jobId hread, congrArg Deadline.target hread, congrArg Deadline.t hread,
      congrArg Deadline.ctx hread, rfl⟩
  · refine ⟨_, execDeadlineClear_frees heard hlock hx hrow hmay harmed hi, State.endDeadline_self .., ?_⟩
    rw [State.endDeadline, State.emit_eq]
    rfl
  · have hmet := State.objWrite_meets (v := value) hi hpost hnow ⟨hstate, rfl, htarget, hn⟩
    refine ⟨_, execDeadlineMet_writes hi hstate htarget hpresent hthawed hkept, ?_, ?_, State.objWrite_value hpost hnow value⟩ <;> rw [hmet]
  · have hmissed := s.missed_deadline p i
    refine ⟨_, execDeadlineMissed_late hi hstate hnow hlate, ?_⟩
    cases s.server p with
    | none => exact ⟨congrArg Deadline.state hmissed, congrArg Deadline.doneT hmissed, fun _ => congrArg Deadline.owed hmissed⟩
    | some q =>
      have hread := (s.missed p i).applyMiss_deadline p q i
      rw [hmissed] at hread
      exact ⟨congrArg Deadline.state hread, congrArg Deadline.doneT hread, nofun⟩

end Sys2Proof.Machine

/-! SUPPORT. The inkwell statement (R249) fails in the last cycle of a core that a PRECISE chain stops (R140): such a core still executes in the
sense of `State.executes`, and INKWELL_STORE asks whether it has been stopped. -/

namespace Sys2Proof.Machine

/-- A PRECISE chain has stopped core 0 with S = 1, and its copy of the meridian still reads 0. -/
def lastCycle : State := { State.reset with
  pkg := { coresHeld := false }
  copies := [(0x10000, some { valid := true })]
  cores := [(0x10000, { run := .stopped, s := 1, precise := some 0 })] }

/-- A store of 4 bytes into slot 0. -/
def lastStore : InkStore := { lane := 0, off := 0, width := 4, data := 9 }

/-- A thread group of that core stores at an instant that its core's copy gives, in a class that no one has frozen. -/
theorem lastCycle_executes : kindOf lastCycle.pkg.member 0x400000 = .tg ∧ parentOf lastCycle.pkg.member 0x400000 = 0x10000 ∧
    kindOf lastCycle.pkg.member 0x10000 = .core ∧ lastCycle.executes 0x10000 = true ∧ (lastCycle.inst 5 0x10000).any = false ∧
    lastCycle.copyNow 0x10000 = some 0 := by
  decide

theorem lastCycle_ignoresStore : exec (.inkwellStore 0x400000 [lastStore]) lastCycle = .next lastCycle := rfl

/-- Refutes O43: its first clause takes any core that executes, and in `lastCycle` the store of one leaves nothing in its tap's queue. -/
theorem not_inkwellStores : ¬ Obligations.InkwellStores := by
  unfold Obligations.InkwellStores
  intro h
  obtain ⟨hgroup, hparent, hcore, hexecutes, hthawed, hcopy⟩ := lastCycle_executes
  obtain ⟨hstores, -⟩ := h lastCycle 0x400000 [lastStore] lastStore 0
  rw [hparent] at hstores
  obtain ⟨hlane, -⟩ := hstores hgroup hcore hexecutes
  obtain ⟨hemits, -⟩ := hlane (by simp) (by decide) (by simp)
  obtain ⟨hqueues, -⟩ := (hemits rfl (by decide)).1 hthawed hcopy
  have hqueued := Host.Outcome.next.inj (lastCycle_ignoresStore.symm.trans (hqueues (by decide)))
  exact absurd (congrArg (fun t => (t.tapQ 0x10000).queue.length) hqueued) (by decide)

end Sys2Proof.Machine

/-! SUPPORT. Stream parts (R255 to R264): what a packet placed makes of its part and leaves of the rest, and a page with room for what comes. -/

namespace Sys2Proof.Machine

@[simp] theorem State.setTpart_self (s : State) (p slot : Nat) (v : TPart) : (s.setTpart p slot v).tpart p slot = v := Tbl.get_set_self ..

/-! ### A packet placed -/

/-- Placed words follow the ones in the page; a full line that they end goes to HBM. -/
theorem TPart.place_eq (t : TPart) (ws : List Word) :
    t.place ws = { t with words := t.words ++ ws, wrOff := (t.place ws).wrOff, image := (t.place ws).image } := by
  unfold TPart.place
  dsimp only
  split <;> rfl

/-- A part that takes a packet: its words placed, and the packet counted. -/
def TPart.took (t : TPart) (ws : List Word) : TPart := { t.place ws with packets := sat32 t.packets 1 }

theorem TPart.took_eq (t : TPart) (ws : List Word) : t.took ws =
    { t with words := t.words ++ ws, wrOff := (t.place ws).wrOff, image := (t.place ws).image, packets := sat32 t.packets 1 } := by
  rw [TPart.took, TPart.place_eq]

/-- The serial copy is written in the serial output alone. -/
theorem State.serialCopy_frame (s : State) (slot p : Nat) (x : Stream) (t : TPart) (isTime : Bool) (ws : List Word) :
    s.serialCopy slot p x t isTime ws =
      { s with trace := { s.trace with serial := (s.serialCopy slot p x t isTime ws).trace.serial } } := by
  unfold State.serialCopy
  split <;> rfl

/-- A packet is placed in its part, and beside that in the serial output. -/
theorem State.place_eq (s : State) (p slot : Nat) (x : Stream) (isTime : Bool) (ws : List Word) :
    s.place p slot x isTime false ws = { s.setTpart p slot ((s.tpart p slot).took ws) with
      trace := { (s.setTpart p slot ((s.tpart p slot).took ws)).trace with serial := (s.place p slot x isTime false ws).trace.serial } } := by
  have hcount : ((s.tpart p slot).place ws).packets = (s.tpart p slot).packets := by rw [TPart.place_eq]
  simp only [State.place, Bool.false_eq_true, if_false, hcount]
  exact State.serialCopy_frame ..

@[simp] theorem State.place_tpart (s : State) (p slot : Nat) (x : Stream) (isTime : Bool) (ws : List Word) :
    (s.place p slot x isTime false ws).tpart p slot = (s.tpart p slot).took ws := by
  rw [State.place_eq]
  exact State.setTpart_self ..

/-! ### A page with room, near its base -/

theorem State.room_fits {s : State} {p slot n : Nat} (h : (s.tpart p slot).words.length + n ≤ 512) (x : Stream) (base : Time) :
    s.room p slot x n base = some (s, false) := if_pos h

/-- The time `at_` lies within what a DELTA from the part's base encodes without a TIME packet (R255). -/
def TPart.reaches (t : TPart) (at_ : Time) : Prop := t.base.toNat ≤ at_.toNat ∧ at_.toNat - t.base.toNat ≤ 16383

theorem TPart.since_of_reaches {t : TPart} {at_ : Time} (h : t.reaches at_) : t.since at_ = (at_.toNat - t.base.toNat : Nat) :=
  (Int.ofNat_sub h.1).symm

theorem State.near_of_reaches {s : State} {p slot : Nat} {at_ : Time} (h : (s.tpart p slot).reaches at_) (x : Stream) :
    s.near p slot x at_ = some s := by
  obtain ⟨-, hfar⟩ := id h
  refine if_neg ?_
  rw [TPart.since_of_reaches h]
  omega

/-! ### LOSS packets (R257) -/

theorem State.lossPacket_none {s : State} {p slot : Nat} (hcount : (s.tpart p slot).lossCount = 0)
    (hunknown : (s.tpart p slot).unknown = false) (x : Stream) : s.lossPacket p slot x = some s :=
  if_pos ⟨hcount, by simp [hunknown]⟩

/-- A part whose loss counter has been told in a LOSS packet. -/
def TPart.told (t : TPart) : TPart :=
  { t with lossCount := 0, upper := false, unknown := false, reasons := 0, lossT := none, lost := sat32 t.lost t.lossCount }

theorem State.lossPacket_writes {s : State} {p slot : Nat} (hcount : (s.tpart p slot).lossCount ≠ 0)
    (hnear : (s.tpart p slot).reaches s.pkg.meridian) (hroom : (s.tpart p slot).words.length + 2 ≤ 512) (x : Stream) :
    s.lossPacket p slot x = some ((s.setTpart p slot (s.tpart p slot).told).place p slot x false false
      (lossWords p (if x.anyCtx then 0 else x.ctx) ((s.tpart p slot).since s.pkg.meridian) (s.tpart p slot).lossCount
        (s.tpart p slot).upper (s.tpart p slot).unknown (s.tpart p slot).reasons)) := by
  unfold State.lossPacket
  rw [if_neg (fun h => hcount h.1)]
  simp only [State.room_fits hroom, Option.bind_some, State.near_of_reaches hnear]
  rfl

/-! ### A packet meets a part (R256) -/

theorem TPart.live_of_feeds {t : TPart} (h : t.state = 2) : t.live = true := by simp [TPart.live, h]

/-- A part that feeds and has lost nothing takes a packet of its time, near its base, while its page has room. -/
theorem State.partPut_writes {s : State} {p slot : Nat} {k : Packet} (hstate : (s.tpart p slot).state = 2)
    (hcount : (s.tpart p slot).lossCount = 0) (hunknown : (s.tpart p slot).unknown = false)
    (hstart : (s.tpart p slot).startT.toNat ≤ k.t.toNat) (hnew : k.old = false) (hnear : (s.tpart p slot).reaches k.t)
    (hroom : (s.tpart p slot).words.length + 2 ≤ 512) (x : Stream) :
    s.partPut p slot x k = s.place p slot x false false (k.words ((s.tpart p slot).since k.t)) := by
  have hlate : ¬(s.tpart p slot).since k.t < -32768 := by
    rw [TPart.since_of_reaches hnear]
    omega
  have hfits : (s.tpart p slot).words.length + (if k.size = 0 then 1 else 2) ≤ 512 := by split <;> omega
  simp only [State.partPut, Nat.not_lt.mpr hstart, hnew, hstate, hlate, State.lossPacket_none hcount hunknown,
    State.near_of_reaches hnear, State.room_fits hfits]
  rfl

end Sys2Proof.Machine

/-! SUPPORT. The trace commands FUNNEL_PACKET, LOSS_PACKET, LINE_COMMIT and SERIAL_WORD (R255 to R267). -/

namespace Sys2Proof.Machine

/-! ### FUNNEL_PACKET -/

/-- With no packet at any station, none enters the funnel. -/
theorem State.gather_empty {s : State} (h : s.trace.stations = []) (q : Nat) : s.gather q = s := by
  have hstation (cl : Uno) : s.station cl = {} := by rw [State.station, h, Tbl.get_nil]
  have hcluster (p : Nat) (cl : Uno) : s.sendPackets cl p (s.station cl).queue.length = s := by rw [hstation]; rfl
  have hhalf (p : Nat) (cls : List Uno) : cls.foldl (fun r cl => r.sendPackets cl p (r.station cl).queue.length) s = s :=
    List.foldlRecOn (motive := (· = s)) cls _ rfl fun t ht cl _ => by rw [ht, hcluster]
  exact List.foldlRecOn (motive := (· = s)) _ _ rfl fun t ht p _ => by rw [ht, hhalf]

/-- The one stream of the package, which takes the packet, is written into. -/
theorem State.funnelWrite_only {s : State} {i p q : Nat} {x : Stream} {k : Packet} (hstreams : s.trace.streams = [(i, some x)])
    (hhalf : postOf s.pkg.member k.uno = some p) (htakes : s.takes x k = true) (hlive : (s.tpart p i).live = true) :
    s.funnelWrite q k = s.partPut p i x k := by
  have hstream : s.stream i = some x := by simp [State.stream, hstreams, Tbl.get]
  have htakers : s.takers p k = [i] := by simp [State.takers, hstreams, hlive, htakes]
  simp [State.funnelWrite, State.packetHalf, hhalf, htakers, hstream]

theorem execFunnelPacket_writes {s : State} {post : Nat} {k : Packet} {r : List Packet} (hruns : s.postRuns post = true)
    (hstations : s.trace.stations = []) (hfunnel : s.funnel post = k :: r) :
    execFunnelPacket post s = .next ((s.setFunnel post r).funnelWrite post k) := by
  simp [execFunnelPacket, hruns, State.gather_empty hstations, hfunnel]

/-! ### LOSS_PACKET and LINE_COMMIT -/

theorem execLossPacket_due {s t : State} {p i : Nat} {x : Stream} {t0 : Time} (hstream : s.stream i = some x)
    (hstate : (s.tpart p i).state = 2) (hserved : (s.server p).isSome = true) (hcount : (s.tpart p i).lossCount ≠ 0)
    (hfirst : (s.tpart p i).lossT = some t0) (hdue : t0.toNat + 1000 ≤ s.now) (hwrites : s.lossPacket p i x = some t) :
    execLossPacket p i s = .next t := by
  simp [execLossPacket, hstream, hstate, hserved, hcount, hfirst, hdue, hwrites]

theorem execLineCommit_commits {s : State} {p i : Nat} (hpart : (s.tpart p i).state ≠ 0) (hends : (s.tpart p i).state ≠ 5)
    (hserved : (s.server p).isSome = true) (hplaced : (s.tpart p i).wrOff < (s.tpart p i).words.length * 8) :
    execLineCommit p i s = .next (s.setTpart p i ((s.tpart p i).commit ((s.tpart p i).words.length * 8))) := by
  refine if_neg ?_
  simp [hpart, hends, Option.isSome_iff_ne_none.mp hserved, hplaced]

/-! ### SERIAL_WORD -/

/-- When the front word may leave: a TIME packet's after 80 idle bit periods (R267). -/
def Serial.due (q : Serial) (isTime : Bool) (period : Nat) : Nat := q.freeT.toNat + (if isTime then 80 * period else 0)

section
variable {q : Serial} {w : Bool × Word} {ws : List (Bool × Word)} {period : Nat} {now : Time} (hqueue : q.queue = w :: ws)
include hqueue

theorem Serial.send_early (h : now.toNat < q.due w.1 period) : q.send period now = q := by
  simp only [Serial.send, hqueue]
  exact if_pos h

theorem Serial.send_due (h : q.due w.1 period ≤ now.toNat) :
    (q.send period now).queue = ws ∧ (q.send period now).sent = some w.2 ∧ (q.send period now).startT = now ∧
      (q.send period now).freeT = word (now.toNat + 66 * period) ∧ (q.send period now).lost = q.lost := by
  have hfree : ¬now.toNat < q.freeT.toNat + (if w.1 then 80 * period else 0) := Nat.not_lt.mpr h
  simp [Serial.send, hqueue, hfree]

end

theorem execSerialWord_sends {s : State} (hfunc : s.port.func = 2) (hlive : s.pkg.bothDead = false) :
    execSerialWord s =
      .next { s with trace := { s.trace with serial := s.trace.serial.send s.bitPeriod s.pkg.meridian } } := by
  simp [execSerialWord, hfunc, hlive]

/-- Settles O44: a packet and a LOSS packet reach their part by `State.place_eq`, a line by `TPart.commit`, and a word the line by
`Serial.send_due`. -/
theorem traceParts : Obligations.TraceParts := by
  unfold Obligations.TraceParts
  intro s post p i k r x t0 w ws T
  refine ⟨fun hruns hstations hfunnel hstreams hhalf htakes hstate hcount hunknown hstart hnew hbase hnear hroom => ?_,
    fun hstream hstate hserved hcount hfirst hdue hbase hnear hroom => ?_, fun hpart hends hserved hplaced => ?_,
    fun hfunc hlive hqueue => ⟨fun hdue => ?_, fun hearly => ?_⟩⟩
  · have hreaches : T.reaches k.t := ⟨hbase, hnear⟩
    have hwrites : (s.setFunnel post r).funnelWrite post k =
        (s.setFunnel post r).place p i x false false (k.words (T.since k.t)) :=
      (State.funnelWrite_only (s := s.setFunnel post r) hstreams hhalf htakes (TPart.live_of_feeds hstate)).trans
        (State.partPut_writes (s := s.setFunnel post r) hstate hcount hunknown hstart hnew hreaches hroom x)
    refine ⟨_, (execFunnelPacket_writes hruns hstations hfunnel).trans (congrArg _ hwrites), ?_, ?_, ?_, ?_⟩
    · rw [State.place_eq]
      exact State.setFunnel_self ..
    · rw [State.place_tpart, TPart.took_eq, TPart.since_of_reaches hreaches]
      rfl
    · rw [State.place_tpart, TPart.took_eq]
      rfl
    · rw [State.place_eq]
      rfl
  · have hreaches : T.reaches s.pkg.meridian := ⟨hbase, hnear⟩
    refine ⟨_, execLossPacket_due hstream hstate hserved hcount hfirst hdue (State.lossPacket_writes hcount hreaches hroom x), ?_⟩
    rw [State.place_tpart, State.setTpart_self, TPart.took_eq, TPart.since_of_reaches hreaches]
    exact ⟨rfl, rfl, rfl, rfl⟩
  · refine ⟨_, execLineCommit_commits hpart hends hserved hplaced, ?_⟩
    rw [State.setTpart_self]
    exact ⟨rfl, rfl, rfl, rfl⟩
  · obtain ⟨hrest, hsent, hstart, hfree, hlost⟩ := Serial.send_due (period := s.bitPeriod) (now := s.pkg.meridian) hqueue hdue
    exact ⟨_, execSerialWord_sends hfunc hlive, hrest, hsent, hstart, hfree, hlost, rfl, rfl⟩
  · refine (execSerialWord_sends hfunc hlive).trans ?_
    rw [Serial.send_early hqueue hearly]

end Sys2Proof.Machine

/-! SUPPORT. The stream commands STREAM_CREATE, STREAM_EXPORT, SVP_IT_FREE and STREAM_ENDED (R260 to R266). -/

namespace Sys2Proof.Machine

theorem State.setTpart_ne (s : State) {p q slot : Nat} (v : TPart) (h : q ≠ p) : (s.setTpart p slot v).tpart q slot = s.tpart q slot :=
  Tbl.get_set_ne _ _ _ _ _ (by unfold partKey; omega)

/-! ### STREAM_CREATE (R260, R261, R263) -/

/-- A part just started: page 0 with its TIME packet at `now` (R263). -/
def TPart.started (p : Nat) (now : Time) : TPart :=
  TPart.took { state := 2, base := now, startT := now, unread := 1 } (timeWords p 0 now)

theorem TPart.started_eq (p : Nat) (now : Time) :
    (TPart.started p now).state = 2 ∧ (TPart.started p now).startT = now ∧ (TPart.started p now).words = timeWords p 0 now := by
  rw [TPart.started, TPart.took_eq]
  exact ⟨rfl, rfl, List.nil_append _⟩

/-- What a creation does at one post: the part starts where the post's half is served, and waits for its post elsewhere. -/
def State.openPart (slot : Nat) (x : Stream) (s : State) (p : Nat) : State :=
  if (s.server p).isSome then s.partStart p slot x else (s.setTpart p slot { state := 1 }).autoStart p

/-- The part that a creation makes for a post. -/
def State.openedPart (s : State) (p : Nat) : TPart :=
  if (s.server p).isSome then TPart.started p s.pkg.meridian else { state := 1 }

section
variable (s : State) (p slot : Nat) (x : Stream)

theorem State.partStart_frame : s.partStart p slot x = { s with trace := { s.trace with
    parts := (s.partStart p slot x).trace.parts, serial := (s.partStart p slot x).trace.serial } } := by
  rw [State.partStart, State.place_eq]
  rfl

theorem State.partStart_self : (s.partStart p slot x).tpart p slot = TPart.started p s.pkg.meridian := by
  rw [State.partStart, State.place_tpart, State.setTpart_self, TPart.started]

theorem State.partStart_ne {q : Nat} (h : q ≠ p) : (s.partStart p slot x).tpart q slot = s.tpart q slot := by
  rw [State.partStart, State.place_eq]
  exact (State.setTpart_ne _ _ h).trans (State.setTpart_ne _ _ h)

theorem State.autoStart_tpart (q : Nat) : (s.autoStart p).tpart q slot = s.tpart q slot := by
  rw [State.autoStart_frame]
  rfl

/-- Beside the parts and the serial output, a creation may start the wake of a post. -/
theorem State.openPart_frame : s.openPart slot x p = { s with
    posts := (s.openPart slot x p).posts, legend := (s.openPart slot x p).legend
    trace := { s.trace with parts := (s.openPart slot x p).trace.parts, serial := (s.openPart slot x p).trace.serial } } := by
  unfold State.openPart
  split
  · rw [State.partStart_frame]
  · rw [State.autoStart_frame]
    rfl

theorem State.openPart_server (q : Nat) : (s.openPart slot x p).server q = s.server q := by
  unfold State.openPart
  split
  · rw [State.partStart_frame]
    rfl
  · exact State.server_congr (s := s) (fun k => State.autoStart_service (s.setTpart p slot { state := 1 }) p k) q

theorem State.openPart_self : (s.openPart slot x p).tpart p slot = s.openedPart p := by
  unfold State.openPart State.openedPart
  split
  · exact State.partStart_self ..
  · rw [State.autoStart_tpart, State.setTpart_self]

theorem State.openPart_ne {q : Nat} (h : q ≠ p) : (s.openPart slot x p).tpart q slot = s.tpart q slot := by
  unfold State.openPart
  split
  · exact State.partStart_ne s p slot x h
  · rw [State.autoStart_tpart, State.setTpart_ne _ _ h]

theorem State.openPart_opened (q : Nat) : (s.openPart slot x p).openedPart q = s.openedPart q := by
  have hpkg : (s.openPart slot x p).pkg = s.pkg := by rw [State.openPart_frame]
  rw [State.openedPart, State.openPart_server, hpkg, State.openedPart]

/-- Every post of a list has its part, however often the list names it. -/
theorem State.openParts_tpart {ps : List Nat} {q : Nat} (h : q ∈ ps) :
    (ps.foldl (State.openPart slot x) s).tpart q slot = s.openedPart q := by
  induction ps generalizing s with
  | nil => cases h
  | cons p ps ih =>
    by_cases hq : q ∈ ps
    · exact (ih _ hq).trans (State.openPart_opened ..)
    · obtain rfl : q = p := (List.mem_cons.mp h).resolve_right hq
      have hstands := State.foldl_leaves_mem (fun t : State => t.tpart q slot) (f := State.openPart slot x) (l := ps)
        (fun t a ha => State.openPart_ne t a slot x fun e => hq (e ▸ ha)) (s.openPart slot x q)
      exact hstands.trans (State.openPart_self ..)

theorem State.openParts_leaves (ps : List Nat) :
    (ps.foldl (State.openPart slot x) s).trace.streams = s.trace.streams ∧ (ps.foldl (State.openPart slot x) s).host = s.host ∧
      (ps.foldl (State.openPart slot x) s).cores = s.cores := by
  have h := State.foldl_leaves (fun t : State => (t.trace.streams, t.host, t.cores)) (f := State.openPart slot x)
    (fun t p => by rw [State.openPart_frame]) ps s
  simpa only [Prod.mk.injEq] using h

end

/-- The stream in its slot, with its creator's reference. -/
def State.streamMade (s : State) (slot : Nat) (x : Stream) : State := (s.setStream slot (some x)).newRef x.owner ObjKind.stream slot

/-- The state in which the creation of a stream without SERIAL completes. -/
def State.streamCreated (s : State) (slot : Nat) (x : Stream) : State :=
  ((s.streamPosts x.scope).foldl (State.openPart slot x) (s.streamMade slot x)).usePosts x.owner (s.streamPosts x.scope)

section
variable (s : State) (slot : Nat) (x : Stream)

/-- The new object is counted, and its stream listed; what serves the halves and the parts stand. -/
theorem State.streamMade_frame : s.streamMade slot x = { s.setStream slot (some x) with
    host := (s.streamMade slot x).host, auth := (s.streamMade slot x).auth, legend := (s.streamMade slot x).legend } :=
  State.newRef_frame ..

theorem State.streamCreated_stream : (s.streamCreated slot x).stream slot = some x := by
  obtain ⟨hstreams, -⟩ := State.openParts_leaves (s.streamMade slot x) slot x (s.streamPosts x.scope)
  have hmade : (s.streamMade slot x).stream slot = some x := by
    rw [State.streamMade_frame]
    exact State.setStream_self ..
  rw [State.streamCreated, State.usePosts_frame]
  exact (congrArg (fun v => Tbl.get none v slot) hstreams).trans hmade

theorem State.streamCreated_live : ((s.streamCreated slot x).refs ObjKind.stream slot).live = true := by
  obtain ⟨-, hhost, -⟩ := State.openParts_leaves (s.streamMade slot x) slot x (s.streamPosts x.scope)
  rw [State.streamCreated, State.refs_of_desk (State.usePosts_desk ..), State.refs, hhost, ← State.refs, State.streamMade,
    State.refs_of_desk (State.newRef_desk ..), State.setRefs_self]

theorem State.streamCreated_cores : (s.streamCreated slot x).cores = s.cores := by
  obtain ⟨-, -, hcores⟩ := State.openParts_leaves (s.streamMade slot x) slot x (s.streamPosts x.scope)
  rw [State.streamCreated, State.usePosts_frame]
  refine hcores.trans ?_
  rw [State.streamMade_frame, State.setStream_cores]

theorem State.streamCreated_tpart {q : Nat} (h : q ∈ s.streamPosts x.scope) : (s.streamCreated slot x).tpart q slot = s.openedPart q := by
  have hmade : (s.streamMade slot x).openedPart q = s.openedPart q := by
    rw [State.streamMade_frame]
    rfl
  rw [State.streamCreated, State.usePosts_frame]
  exact (State.openParts_tpart _ slot x h).trans hmade

end

/-- Slot and package have room for a stream of platform rights without ANYCTX and SERIAL: no check of R261 from its scope on refuses it. -/
structure State.AdmitsStream (s : State) (slot : Nat) (y : Stream) : Prop where
  inTable : slot < 512
  free    : s.stream slot = none
  present : s.present y.scope = true
  ctx     : y.ctx = 0
  oneCtx  : y.anyCtx = false
  quiet   : y.serial = false
  awake   : s.noneGated (s.streamPosts y.scope) = true
  served  : s.noneUnserved (s.streamPosts y.scope) = true
  capable : s.capableRun y.scope 8 = true
  parts   : ((s.streamPosts y.scope).all fun q => decide (s.partsOf q < 32)) = true
  pages   : ((s.streamPosts y.scope).all fun q => decide (y.pages ≤ s.freePages q)) = true

theorem kindSlotOk_stream {slot : Nat} (h : slot < 512) : kindSlotOk ObjKind.stream slot = true := by
  simp [kindSlotOk, kindSlots, ObjKind.stream, ObjKind.session, ObjKind.job, ObjKind.set, h]

theorem execStreamCreate_creates {s : State} {c : CmdCtx} {slot : Nat} {arg : List Byte} (h : Claims.Platform s c)
    (hhold : s.holdRoom c.session ObjKind.stream slot = true) (hlegal : streamLegal arg = true)
    (hadmits : s.AdmitsStream slot (streamOf c.session arg)) :
    Claims.Done (.streamCreate c slot arg) s c (objectWord ObjKind.stream slot) 0 (s.streamCreated slot (streamOf c.session arg)) := by
  obtain ⟨-, hlock, hright⟩ := id h
  refine congrArg Host.Outcome.next ((State.judged_platform h ?_).trans ?_)
  · simp only [firstFail, kindSlotOk_stream hadmits.inTable, hhold, hadmits.free, hadmits.inTable, hlock, hlegal, hadmits.present,
      hadmits.ctx, hright, hadmits.oneCtx, hadmits.awake, hadmits.served, hadmits.capable, hadmits.parts, hadmits.pages, hadmits.quiet,
      List.cons_append, List.nil_append, Option.isNone_none, decide_true, Bool.and_self, Bool.not_false, Bool.true_or, if_true]
  · simp only [hadmits.quiet, Bool.false_eq_true, if_false]
    rfl

/-! ### STREAM_EXPORT (R265) -/

/-- What a STREAM_EXPORT of `n` pages begins. -/
def streamExport (c : CmdCtx) (slot post n : Nat) : Export :=
  { job := none, stream := slot, post := post, consume := false, render := false, toPort := c.queue.isNone, session := c.session,
    tag := c.tag, queue := c.queue, off := 0, len := n }

theorem State.startExport_trace (s : State) (x : Export) (kind slot : Nat) : (s.startExport x kind slot).trace = s.trace := by
  unfold State.startExport
  dsimp only
  split <;> rfl

theorem execStreamExport_begins {s : State} {c : CmdCtx} {slot post n : Nat} {x : Stream} (heard : Claims.Heard s c)
    (hstream : s.stream slot = some x) (hslot : slot < 512) (hpost : post < s.pkg.member.posts)
    (hroom : c.queue = none ∨ 4096 * n ≤ c.resLen) (hfree : s.taken 128 = false) (hpart : (s.tpart post slot).state ≠ 0)
    (hlive : x.ending = 0) (hmay : s.mayStream c.who x = true) (hpages : 0 < n) (hnone : s.folios.exports = [])
    (hunread : n ≤ (s.tpart post slot).unread) :
    Claims.Done (.streamExport c slot post false n) s c (objectWord ObjKind.stream slot) 0
      (s.startExport (streamExport c slot post n) ObjKind.stream slot) := by
  obtain ⟨hsession, hcompass, hfw⟩ := heard
  have hholds : c.holds (4096 * n) = true := by
    rcases hroom with h | h <;> simp [CmdCtx.holds, h]
  change execStreamExport c slot post false n s = _
  simp only [execStreamExport, hstream]
  refine congrArg Host.Outcome.next ((State.judged_ok hcompass hfw hsession ?_).trans ?_)
  · simp [firstFail, hslot, hpost, hholds, hfree, hpart, hlive, hmay]
  · rw [if_neg (by omega)]
    refine State.judged_ok hcompass hfw hsession ?_
    simp [firstFail, hnone, State.portExport, hunread]

/-! ### SVP_IT_FREE (R265) -/

/-- A part that holds a page is shown by its own post. -/
theorem State.partHalf_own {s : State} {p slot : Nat} (h : (s.tpart p slot).state ≠ 0) : s.partHalf p slot = p :=
  if_neg fun hempty => h hempty.1

theorem execSvpItFree_releases {s : State} {p : Path} {post slot n : Nat} {x : Stream} (hstream : s.stream slot = some x)
    (hbar : s.barGone p = false) (hruns : s.postRuns post = true) (hmay : s.mayStream (s.actor p) x = true)
    (hpart : (s.tpart post slot).state ≠ 0) (hsel : s.regBits RegMap.svpItSel (portKey p (postWindow post + 0x30108)) 0 9 = slot)
    (hn : n < 65536) : execSvpItFree p post n s = .next (s.setTpart post slot ((s.tpart post slot).release n)) := by
  subst hsel
  simp [execSvpItFree, State.onBar, State.itFree, hbar, hruns, hstream, hmay, State.partHalf_own hpart, Nat.mod_eq_of_lt hn]

/-! ### STREAM_ENDED (R266) -/

/-- A stream that is gone has left its slot and its parts; its event stands in a ring or at the port. -/
theorem State.streamGone_trace {s : State} {slot : Nat} {x : Stream} (h : s.stream slot = some x) : (s.streamGone slot).trace =
    (((rangeFrom 0 s.pkg.member.posts).foldl (fun t p => t.setTpart p slot {}) s).setStream slot none).trace := by
  simp only [State.streamGone, h]
  rw [State.emit_eq]
  rfl

theorem State.clearParts_tpart (s : State) (slot : Nat) {n q : Nat} (h : q < n) :
    ((rangeFrom 0 n).foldl (fun t p => t.setTpart p slot {}) s).tpart q slot = {} := by
  obtain ⟨u, -, hfold⟩ := State.foldl_at (fun t : State => t.tpart q slot) (f := fun t p => t.setTpart p slot {})
    (mem_rangeFrom.mpr ⟨Nat.zero_le q, by omega⟩) (nodup_rangeFrom 0 n) (fun t p _ hp => State.setTpart_ne t {} hp.symm) s
  exact hfold.trans (State.setTpart_self ..)

theorem State.clearParts_streams (s : State) (slot : Nat) (ps : List Nat) :
    (ps.foldl (fun t p => t.setTpart p slot {}) s).trace.streams = s.trace.streams :=
  State.foldl_leaves (fun t : State => t.trace.streams) (f := fun t p => t.setTpart p slot {}) (fun _ _ => rfl) ps s

theorem State.streamGone_stream {s : State} {slot : Nat} {x : Stream} (h : s.stream slot = some x) (k : Nat) :
    (s.streamGone slot).stream k = (s.setStream slot none).stream k := by
  rw [State.stream, State.streamGone_trace h]
  exact congrArg (fun v => Tbl.get none (Tbl.set none v slot none) k) (s.clearParts_streams slot _)

theorem State.streamGone_tpart {s : State} {slot : Nat} {x : Stream} (h : s.stream slot = some x) {q : Nat} (hq : q < s.pkg.member.posts) :
    (s.streamGone slot).tpart q slot = {} := by
  rw [State.tpart, State.streamGone_trace h]
  exact s.clearParts_tpart slot hq

theorem execStreamEnded_gone {s : State} {slot : Nat} {x : Stream} (h : s.stream slot = some x) (hending : x.ending ≠ 0) :
    execStreamEnded slot s = .next (s.streamGone slot) := by
  simp [execStreamEnded, h, hending]

/-- Settles O45: the parts of a new stream by `State.openParts_tpart`, pages read out by `startExport` and released by `TPart.release`, and an
ended stream by `State.streamGone_trace`. -/
theorem streams : Obligations.Streams := by
  unfold Obligations.Streams
  intro s c slot post n arg x p y ps
  refine ⟨fun h hhold hfree hslot hlegal hpresent hctx hany hserial hgated hserved hcapable hparts hpages => ?_, fun hstream =>
    ⟨fun heard hslot hpost hroom hfree hpart hlive hmay hpages hnone hunread => ?_,
      fun hbar hruns hmay hpart hsel hn => ?_, fun hending => ?_⟩⟩
  · refine ⟨s.streamCreated slot y,
      execStreamCreate_creates h hhold hlegal
        ⟨hslot, hfree, hpresent, hctx, hany, hserial, hgated, hserved, hcapable, hparts, hpages⟩,
      State.streamCreated_stream .., State.streamCreated_live .., State.streamCreated_cores .., fun q hq => ?_⟩
    rw [State.streamCreated_tpart s slot y hq, State.openedPart]
    exact ⟨fun hserves => (if_pos hserves).symm ▸ TPart.started_eq q s.pkg.meridian, fun hnone => by simp [hnone]⟩
  · obtain ⟨hfolios, -⟩ := s.startExport_leaves (streamExport c slot post n) ObjKind.stream slot
    refine ⟨_, streamExport c slot post n,
      execStreamExport_begins heard hstream hslot hpost hroom hfree hpart hlive hmay hpages hnone hunread, ?_, rfl, rfl, rfl, rfl, rfl,
      State.startExport_trace ..⟩
    rw [hfolios, hnone, List.nil_append]
  · refine ⟨_, execSvpItFree_releases hstream hbar hruns hmay hpart hsel hn, ?_⟩
    rw [State.setTpart_self]
    exact ⟨rfl, rfl, rfl⟩
  · refine ⟨_, execStreamEnded_gone hstream hending, ?_, fun q hq => State.streamGone_tpart hstream hq, fun k hk => ?_⟩
    · rw [State.streamGone_stream hstream, State.setStream_self]
    · rw [State.streamGone_stream hstream, State.setStream_ne _ _ _ _ hk]

end Sys2Proof.Machine

/-! SUPPORT. Registers of a Quill engine (R73), and the register operations of Tables QR-6 and QR-7: their values, and the forms that fault
(R272, R280, R281). -/

namespace Sys2Proof.Machine

/-! ### Registers (R73) -/

@[simp] theorem Engine.q_zero (g : Engine) : g.q 0 = 0 := rfl

@[simp] theorem Engine.setQ_zero (g : Engine) (v : Word) : g.setQ 0 v = g := rfl

theorem Engine.q_setQ_self (g : Engine) {i : Nat} (h : i ≠ 0) (v : Word) : (g.setQ i v).q i = v := by
  simp [Engine.q, Engine.setQ, h]

theorem Engine.q_setQ_ne (g : Engine) {i j : Nat} (h : j ≠ i) (v : Word) : (g.setQ i v).q j = g.q j := by
  unfold Engine.q Engine.setQ
  by_cases hi : i = 0
  · simp [hi]
  · simp [hi, Tbl.get_set_ne _ _ _ _ _ h]

/-- Settles O3, by what a table reads back of the register that was written. -/
theorem quillRegisterZero : Obligations.QuillRegisterZero := fun g _ _ v =>
  ⟨g.q_zero, g.setQ_zero v, fun h => g.q_setQ_self h v, fun h => g.q_setQ_ne h v⟩

/-! ### Values (Table QR-6) -/

theorem word_toNat (v : Word) : word v.toNat = v := by rw [word, BitVec.ofNat_toNat, BitVec.setWidth_eq]

theorem word_toNat_mul_two_pow (a : Word) (k : Nat) : word (a.toNat * 2 ^ k) = a <<< k := by
  apply BitVec.eq_of_toNat_eq
  simp [word, Nat.shiftLeft_eq]

theorem word_toNat_div_two_pow (a : Word) (k : Nat) : word (a.toNat / 2 ^ k) = a >>> k := by
  apply BitVec.eq_of_toNat_eq
  rw [word, BitVec.toNat_ofNat, BitVec.toNat_ushiftRight, Nat.shiftRight_eq_div_pow]
  exact Nat.mod_eq_of_lt ((Nat.div_le_self ..).trans_lt a.isLt)

theorem ofInt_toInt_div_two_pow (a : Word) (k : Nat) : BitVec.ofInt 64 (a.toInt / 2 ^ k) = a.sshiftRight k := by
  rw [BitVec.sshiftRight, Int.shiftRight_eq_div_pow]
  norm_cast

theorem word_bitNat (b : Bool) : word (bitNat b) = if b then 1 else 0 := by cases b <;> rfl

theorem word_bitNat_beq (a b : Word) : word (bitNat (a == b)) = if a = b then 1 else 0 := by simp [word_bitNat]

theorem word_bitNat_ult (a b : Word) : word (bitNat (a.ult b)) = if a.toNat < b.toNat then 1 else 0 := by simp [word_bitNat, BitVec.ult]

theorem word_bitNat_slt (a b : Word) : word (bitNat (a.slt b)) = if a.toInt < b.toInt then 1 else 0 := by simp [word_bitNat, BitVec.slt]

theorem word_min_toNat (a b : Word) : word (min a.toNat b.toNat) = if a.ult b then a else b := by
  simp only [BitVec.ult, decide_eq_true_eq]
  split
  · rw [Nat.min_eq_left (by omega), word_toNat]
  · rw [Nat.min_eq_right (by omega), word_toNat]

theorem word_max_toNat (a b : Word) : word (max a.toNat b.toNat) = if a.ult b then b else a := by
  simp only [BitVec.ult, decide_eq_true_eq]
  split
  · rw [Nat.max_eq_right (by omega), word_toNat]
  · rw [Nat.max_eq_left (by omega), word_toNat]

theorem bitsOf_toNat_one (v : Word) (i : Nat) : bitsOf v.toNat i 1 = bitNat (v.getLsbD i) := by
  rw [← BitVec.testBit_toNat, Nat.testBit_eq_decide_div_mod_eq, bitsOf, bitNat]
  have := Nat.mod_two_eq_zero_or_one (v.toNat / 2 ^ i)
  simp only [decide_eq_true_eq]
  split <;> omega

/-- The elements that a test picks, counted one by one. -/
theorem sum_map_bitNat {α : Type} (p : α → Bool) (l : List α) : (l.map (fun x => bitNat (p x))).sum = (l.filter p).length := by
  induction l with
  | nil => rfl
  | cons x l ih =>
    rw [List.map_cons, List.sum_cons, ih]
    cases hp : p x <;> simp [hp, bitNat, Nat.add_comm]

theorem sum_bitsOf_eq_popCount (v : Word) : ((rangeFrom 0 64).map (fun i => bitsOf v.toNat i 1)).sum = popCount v := by
  simp only [bitsOf_toNat_one]
  exact sum_map_bitNat _ _

/-! ### The register operations of Table QR-6 on two registers -/

/-- A register operation with its reserved bits clear. -/
theorem State.binary_legal {s : State} {e : Nat} {f : BitVec 24} (hlow : flow f = 0) (op : Word → Word → Word) :
    s.binary e f op = .seq (s.setQ e (fd f) (op ((s.engine e).q (fa f)) ((s.engine e).q (fb f)))) 1 := by
  simp [State.binary, hlow]

theorem State.binary_congr {op op' : Word → Word → Word} (h : ∀ a b, op a b = op' a b) (s : State) (e : Nat) (f : BitVec 24) :
    s.binary e f op = s.binary e f op' := by
  rw [show op = op' from funext₂ h]

/-- Each register operation executes with the value of the table's row. -/
theorem exec_registerOps_value : ∀ x ∈ Claims.binaryOps ++ Claims.compareOps, ∀ (e : Nat) (f : BitVec 24) (s : State),
    exec (x.1 e f) s = .next (s.executeQ e x.2.1 f (s.binary e f x.2.2)) := by
  simp only [Claims.binaryOps, Claims.compareOps, List.cons_append, List.nil_append, List.forall_mem_cons, List.not_mem_nil,
    false_implies, implies_true, and_true]
  refine ⟨fun _ _ _ => rfl, fun _ _ _ => rfl, fun _ _ _ => rfl, fun _ _ _ => rfl, fun _ _ _ => rfl, fun e f s => ?shl, fun e f s => ?shr,
    fun e f s => ?sar, fun e f s => ?eq, fun e f s => ?ltu, fun e f s => ?lt, fun e f s => ?min, fun e f s => ?max⟩
  case shl => rw [State.binary_congr fun a b => word_toNat_mul_two_pow a _]; rfl
  case shr => rw [State.binary_congr fun a b => word_toNat_div_two_pow a _]; rfl
  case sar => rw [State.binary_congr fun a b => ofInt_toInt_div_two_pow a _]; rfl
  case eq => rw [State.binary_congr fun a b => (word_bitNat_beq a b).symm]; rfl
  case ltu => rw [State.binary_congr fun a b => (word_bitNat_ult a b).symm]; rfl
  case lt => rw [State.binary_congr fun a b => (word_bitNat_slt a b).symm]; rfl
  case min => rw [State.binary_congr word_min_toNat]; rfl
  case max => rw [State.binary_congr word_max_toNat]; rfl

/-! ### Words that complete in one cycle, and words that fault -/

section
variable {s : State} {e op : Nat} {f : BitVec 24} {d : Did}

/-- A ready engine's word whose outcome is a write of q[d]. -/
theorem QuillReady.writesBy (h : QuillReady s e op f) {r : Nat} {v : Word} (hd : d = .seq (s.setQ e r v) 1) :
    OnlyEngine s (s.executeQ e op f d) e ((s.engine e).retired r v) := hd ▸ h.writes r v

/-- A ready engine's word whose outcome is a fault, in a package that runs no jobs. -/
theorem QuillReady.faultsBy (h : QuillReady s e op f) (hj : s.folios.jobs = []) {i : Instr} {c : Nat} (hd : d = .fault c)
    (hx : exec i s = .next (s.executeQ e op f d)) : Claims.Faulted s e i c := by
  obtain ⟨hrun, hfetch, hbudget, hlast⟩ := h
  refine faulted_of_faultAfter hj (hx.trans (congrArg _ ?_))
  rw [State.executeQ_run _ hrun hfetch, hd]
  exact State.perform_fault hrun hbudget fun _ => hlast

end

/-- A field that has to be zero and is not (R272). -/
theorem checked_nonzero {n : Nat} (h : n ≠ 0) (c : Nat) (r : List (Bool × Nat)) (d : Did) : checked ((n == 0, c) :: r) d = .fault c := by
  rw [beq_false_of_ne h, checked_bad]

/-! ### POPC, CRC and MOV -/

section
variable {s : State} {e : Nat} {f : BitVec 24}

theorem State.doPopc_legal (hb : fb f = 0) (hlow : flow f = 0) : s.doPopc e f = .seq (s.setQ e (fd f)
    (word ((rangeFrom 0 64).map (fun i => bitsOf ((s.engine e).q (fa f)).toNat i 1)).sum)) 1 := by
  simp [State.doPopc, hb, hlow, sum_bitsOf_eq_popCount]

theorem State.doPopc_reserved (h : fb f ≠ 0 ∨ flow f ≠ 0) : s.doPopc e f = .fault Cause.rsvd := by
  have hbits : (fb f == 0 && flow f == 0) = false := by simpa [Bool.and_eq_false_iff, ← not_and_or] using h
  rw [State.doPopc, hbits, checked_bad]

/-- The count of a CRC is tested against the four that Table QR-6 lists. -/
theorem crcCount_eq (n : Nat) : (n == 1 || n == 2 || n == 4 || n == 8) = decide (n ∈ [1, 2, 4, 8]) := by
  simp [Bool.or_assoc, beq_eq_decide, Bool.decide_or]

theorem State.doCrc_legal (h : fimm f ∈ [1, 2, 4, 8]) : s.doCrc e f = .seq (s.setQ e (fd f)
    ((crcUpdate (((s.engine e).q (fd f)).setWidth 32) (leBytes (fimm f) ((s.engine e).q (fa f)).toNat)).setWidth 64)) 1 := by
  simp only [State.doCrc, crcCount_eq, decide_eq_true h, checked_ok, checked_nil]

theorem State.doCrc_badCount (h : fimm f ∉ [1, 2, 4, 8]) : s.doCrc e f = .fault Cause.field := by
  simp only [State.doCrc, crcCount_eq, decide_eq_false h, checked_bad]

/-- The selectors of MOV that read no register ask for a zero field q[a] (Table QR-7). -/
theorem State.doMov_reserved (hsel : fimm f ∈ [1, 3, 4, 5, 6]) (ha : fa f ≠ 0) : s.doMov e f = .fault Cause.rsvd := by
  simp only [List.mem_cons, List.not_mem_nil, or_false] at hsel
  unfold State.doMov
  obtain h | h | h | h | h := hsel <;> simp only [h] <;> exact checked_nonzero ha ..

theorem State.doMov_reservedTarget (hsel : fimm f = 2) (hd : fd f ≠ 0) : s.doMov e f = .fault Cause.rsvd := by
  simp only [State.doMov, hsel]
  exact checked_nonzero hd ..

theorem State.doMov_badSelector (hsel : 6 < fimm f) : s.doMov e f = .fault Cause.field := by
  unfold State.doMov
  split
  case h_8 => rfl
  all_goals omega

end

/-- The root engine's number is 0x80 (Table QE-1). -/
theorem rootEngine_slot (e : Nat) : (if e = 128 then 0x80 else e) = e := by
  split
  · exact Eq.symm ‹_›
  · rfl

/-- The forms of Table QR-6 with an immediate, a count or a selector complete with the table's value. -/
theorem immediateOps (s : State) (e : Nat) (f : BitVec 24) : Claims.ImmediateOps s e f := by
  refine ⟨fun h => ⟨_, rfl, h.writes _ _⟩, fun h => ⟨_, rfl, h.writes _ _⟩, fun h => ⟨_, rfl, h.writes _ _⟩,
    fun h ha => ⟨_, rfl, h.writesBy ?_⟩, fun h hb hlow => ⟨_, rfl, h.writesBy (State.doPopc_legal hb hlow)⟩,
    fun h hn => ⟨_, rfl, h.writesBy (State.doCrc_legal hn)⟩, fun h => ?_⟩
  · simp [State.doLui, ha, Nat.mul_comm]
  refine ⟨fun hsel => ⟨_, rfl, h.writesBy ?_⟩, fun hsel ha => ⟨_, rfl, h.writesBy ?_⟩, fun hsel hd => ⟨_, rfl, ?_⟩,
    fun hsel ha n hn => ⟨_, rfl, h.writesBy ?_⟩, fun hsel ha hn => ⟨_, rfl, h.writesBy ?_⟩, fun hsel ha => ⟨_, rfl, h.writesBy ?_⟩,
    fun hsel ha => ⟨_, rfl, h.writesBy ?_⟩, fun hsel ha => ⟨_, rfl, h.writesBy ?_⟩⟩
  · simp [State.doMov, hsel]
  · simp [State.doMov, hsel, ha]
  · rw [show s.doMov e f = .seq (s.setEngine e { s.engine e with mbox := (s.engine e).q (fa f) }) 1 by simp [State.doMov, hsel, hd]]
    exact h.seqEnd (OnlyEngine.set s e _)
  · simp [State.doMov, hsel, ha, hn]
  · simp [State.doMov, hsel, ha, hn]
  · simp [State.doMov, hsel, ha]
  · simp only [State.doMov, hsel, ha, beq_self_eq_true, checked_ok, checked_nil, rootEngine_slot]
  · simp [State.doMov, hsel, ha, Engine.heldTags]

/-- Settles O1: the operations on two registers by the one form in which they execute (`exec_registerOps_value`), the others by
`immediateOps`. -/
theorem quillRegisterOperations : Obligations.QuillRegisterOperations :=
  ⟨fun x hx s e f h hlow => ⟨_, exec_registerOps_value x hx e f s, h.writesBy (State.binary_legal hlow _)⟩,
    fun s e f _ => immediateOps s e f⟩

/-- Settles O2: the check that fails in each form, and one lemma for what a fault leaves. -/
theorem quillImmediateOperations : Obligations.QuillImmediateOperations := by
  intro s e f hj
  exact ⟨fun h ha => h.faultsBy hj (d := s.doLui e f) (checked_nonzero ha ..) rfl,
    fun h hbits => h.faultsBy hj (State.doPopc_reserved hbits) rfl, fun h hn => h.faultsBy hj (State.doCrc_badCount hn) rfl,
    fun h => ⟨fun hsel ha => h.faultsBy hj (State.doMov_reserved hsel ha) rfl,
      fun hsel hd => h.faultsBy hj (State.doMov_reservedTarget hsel hd) rfl, fun hsel => h.faultsBy hj (State.doMov_badSelector hsel) rfl⟩⟩

end Sys2Proof.Machine

/-! SUPPORT. Transfers, events and the budget (R76, R84, R277, R279; Table QR-5). -/

namespace Sys2Proof.Machine

/-! ### Transfers of control (R277, R279) -/

section
variable {s : State} {e op : Nat} {f : BitVec 24}

/-- A taken transfer of a running engine whose budget carries both of its cycles, by its outcome. -/
theorem OnlyEngine.jumpBy (hruns : (s.engine e).state = .running ∧ (s.engine e).fetch = wordOf op f ∧ (s.engine e).broke 1 = false)
    (htwice : (s.engine e).broke 2 = false) (hseq : (s.engine e).inSequence op f = false) {d : Did} {s1 : State} {g : Engine} {w : Nat}
    (hd : d = .jump s1 w) (o : OnlyEngine s s1 e g) : OnlyEngine s (s.executeQ e op f d) e ((g.charge 2).goto w) := by
  obtain ⟨hrun, hfetch, hbudget⟩ := hruns
  exact hd ▸ OnlyEngine.jumpEnd hrun hfetch hbudget htwice hseq w o

/-- A ready engine's word whose outcome is its completion in sequence, without an effect. -/
theorem QuillReady.passesBy (h : QuillReady s e op f) {d : Did} (hd : d = .seq s 1) :
    OnlyEngine s (s.executeQ e op f d) e (((s.engine e).charge 1).advance (s.engine e)) :=
  hd ▸ h.seqEnd (OnlyEngine.same s e)

theorem OnlyEngine.ends (hruns : (s.engine e).state = .running ∧ (s.engine e).fetch = wordOf 0x01 f ∧ (s.engine e).broke 1 = false)
    (hf : f = 0) : OnlyEngine s (s.executeQ e 0x01 f (s.doEnd e f)) e { ((s.engine e).charge 1).land with state := .ended } := by
  obtain ⟨hrun, hfetch, hbudget⟩ := hruns
  subst hf
  rw [State.executeQ_run _ hrun hfetch]
  simp only [State.perform, hbudget, Engine.inSequence, Bool.false_and, Bool.false_eq_true, if_false]
  exact OnlyEngine.set s e _

/-- SYNCP goes on at the next word, fetched once earlier stores have landed. -/
theorem QuillReady.syncs (h : QuillReady s e 0x02 f) (htwice : (s.engine e).broke 2 = false) (hf : f = 0) :
    OnlyEngine s (s.executeQ e 0x02 f (s.doSyncp e f)) e (((s.engine e).charge 2).goto ((s.engine e).pc + 1)) := by
  obtain ⟨hrun, hfetch, hbudget, hlast⟩ := h
  subst hf
  rw [State.executeQ_run _ hrun hfetch]
  simp only [State.perform, hbudget, Nat.not_le.mpr hlast, decide_false, Bool.and_false, htwice, Bool.false_eq_true, if_false]
  exact OnlyEngine.set s e _

/-! ### The outcomes of the transfers -/

theorem State.branchIf_taken (hd : fd f = 0) (ht : (s.engine e).inCode ((s.engine e).pc + fbranch f) = true) :
    s.branchIf e f true = .jump s (((s.engine e).pc : Int) + fbranch f).toNat := by
  simp [State.branchIf, hd, ht]

theorem State.branchIf_notTaken (hd : fd f = 0) : s.branchIf e f false = .seq s 1 := by
  simp [State.branchIf, hd]

theorem State.doBr_inCode (ht : (s.engine e).inCode ((s.engine e).pc + f.toInt) = true) :
    s.doBr e f = .jump s (((s.engine e).pc : Int) + f.toInt).toNat := by
  simp [State.doBr, ht]

theorem State.doCall_room (ht : (s.engine e).inCode ((s.engine e).pc + f.toInt) = true)
    (hroom : (s.engine e).stack.length < (s.engine e).depth) :
    s.doCall e f = .jump (s.setEngine e { s.engine e with stack := (s.engine e).stack ++ [(s.engine e).pc + 1] })
      (((s.engine e).pc : Int) + f.toInt).toNat := by
  simp [State.doCall, ht, hroom]

theorem Engine.inCode_natCast {g : Engine} {r : Nat} (h : r < g.codeWords) : g.inCode r = true :=
  decide_eq_true ⟨Int.natCast_nonneg r, Int.ofNat_lt.mpr h⟩

theorem State.doRet_pushed {st : List Nat} {r : Nat} (hf : f = 0) (hstack : (s.engine e).stack = st ++ [r])
    (hr : r < (s.engine e).codeWords) : s.doRet e f = .jump (s.setEngine e { s.engine e with stack := st }) r := by
  simp [State.doRet, hf, hstack, Engine.inCode_natCast hr]

theorem State.doLoop_zero (hd : fd f = 0) (hv : (s.engine e).q (fa f) = 0) : s.doLoop e f = .seq s 1 := by
  simp only [State.doLoop, hd, hv]
  rfl

theorem State.doLoop_one (hd : fd f = 0) (hv : (s.engine e).q (fa f) = 1) : s.doLoop e f = .seq (s.setQ e (fa f) 0) 1 := by
  simp only [State.doLoop, hd, hv]
  rfl

theorem State.doLoop_many (hd : fd f = 0) (hv : (s.engine e).q (fa f) ≠ 0 ∧ (s.engine e).q (fa f) ≠ 1)
    (ht : (s.engine e).inCode ((s.engine e).pc + fbranch f) = true) :
    s.doLoop e f = .jump (s.setQ e (fa f) ((s.engine e).q (fa f) - 1)) (((s.engine e).pc : Int) + fbranch f).toNat := by
  obtain ⟨hzero, hone⟩ := hv
  have htaken : ((s.engine e).q (fa f) != 0 && (s.engine e).q (fa f) - 1 != 0) = true := by
    rw [bne_iff_ne.mpr hzero, bne_iff_ne.mpr (sub_ne_zero.mpr hone), Bool.and_self]
  simp only [State.doLoop, hd, beq_self_eq_true, checked_ok, checked_nil, htaken, ht, Bool.or_true, if_true, if_neg hzero]

end

theorem Word.ne_of_one_lt {v : Word} (h : 1 < v.toNat) : v ≠ 0 ∧ v ≠ 1 :=
  ⟨fun hv => absurd (hv ▸ h : 1 < (0 : Word).toNat) (by decide), fun hv => absurd (hv ▸ h : 1 < (1 : Word).toNat) (by decide)⟩

/-- Settles O4: each transfer by its outcome, and one lemma for what a taken one leaves of its engine. -/
theorem quillTransfers : Obligations.QuillTransfers := by
  intro s e f g runs twice becomes goes near far
  refine ⟨fun h hf => ⟨_, rfl, h.passesBy (d := s.doNop e f) (by simp [State.doNop, hf])⟩, fun h hf => ⟨_, rfl, OnlyEngine.ends h hf⟩,
    fun h hf h2 => ⟨_, rfl, h.syncs h2 hf⟩,
    fun h ht h2 => ⟨_, rfl, OnlyEngine.jumpBy h h2 rfl (State.doBr_inCode ht) (OnlyEngine.same s e)⟩,
    fun h hd hv ht h2 => ⟨_, rfl, ?_⟩, fun h hd hv => ⟨_, rfl, ?_⟩, fun h hd hv ht h2 => ⟨_, rfl, ?_⟩, fun h hd hv => ⟨_, rfl, ?_⟩,
    fun h ht hroom h2 => ⟨_, rfl, OnlyEngine.jumpBy h h2 rfl (State.doCall_room ht hroom) (OnlyEngine.set s e _)⟩,
    fun st r h hf hstack hr h2 => ⟨_, rfl, OnlyEngine.jumpBy h h2 rfl (State.doRet_pushed hf hstack hr) (OnlyEngine.set s e _)⟩,
    fun h hd hv => ⟨_, rfl, h.passesBy (State.doLoop_zero hd hv)⟩, fun h hd hv => ⟨_, rfl, h.writesBy (State.doLoop_one hd hv)⟩,
    fun h hd hv ht h2 => ⟨_, rfl, ?_⟩⟩
  · have htaken : ((s.engine e).q (fa f) == 0) = true := beq_iff_eq.mpr hv
    exact OnlyEngine.jumpBy h h2 (bne_eq_false_iff_eq.mpr hv) ((congrArg _ htaken).trans (State.branchIf_taken hd ht))
      (OnlyEngine.same s e)
  · exact h.passesBy ((congrArg _ (beq_false_of_ne hv)).trans (State.branchIf_notTaken hd))
  · have htaken : ((s.engine e).q (fa f) != 0) = true := bne_iff_ne.mpr hv
    exact OnlyEngine.jumpBy h h2 (beq_false_of_ne hv) ((congrArg _ htaken).trans (State.branchIf_taken hd ht))
      (OnlyEngine.same s e)
  · have htaken : ((s.engine e).q (fa f) != 0) = false := bne_eq_false_iff_eq.mpr hv
    exact h.passesBy ((congrArg _ htaken).trans (State.branchIf_notTaken hd))
  · have hmany := Word.ne_of_one_lt hv
    exact OnlyEngine.jumpBy h h2 (by simpa [Engine.inSequence] using hmany) (State.doLoop_many hd hmany ht) (OnlyEngine.setQ s e _ _)

/-! ### Events, SLEEP and BUDGET (R76, R84, R279) -/

section
variable {s : State} {e : Nat} {f : BitVec 24}

theorem State.doWaitev_none (ha : fa f = 0) (hm : fimm f < 4096) (hmask : fimm f ≠ 0) (hr : (s.engine e).awaited f = 0) :
    s.doWaitev e f = .wait s := by
  have hhigh : bitsOf (fimm f) 12 4 = 0 := by simp [bitsOf, Nat.div_eq_of_lt hm]
  unfold State.doWaitev
  rw [checked_all (by simp [ha, hhigh, hmask])]
  exact if_pos hr

theorem State.doYield_legal (ha : fa f = 0) (hb : fb f = 0) (hlow : flow f = 0) :
    s.doYield e f = .seq (s.takeEvents e (fd f) ((s.engine e).events &&& (s.engine e).evmask)) 1 := by
  simp [State.doYield, ha, hb, hlow]

theorem State.doSleep_zero (hd : fd f = 0) (hn : ((s.engine e).q (fa f)).toNat + fimm f = 0) : s.doSleep e f = .seq s 1 := by
  simp only [State.doSleep, hd, hn, beq_self_eq_true, Bool.true_or, checked_ok, checked_nil, if_true]

/-- A SLEEP that begins fixes its end by the engine's own copy. -/
theorem State.doSleep_begins (hd : fd f = 0) (hn : ((s.engine e).q (fa f)).toNat + fimm f ≠ 0) (hfirst : (s.engine e).sleepEnd = none)
    (hnow : s.engineNow e = some (s.engineCount e)) (hfits : s.engineCount e + (((s.engine e).q (fa f)).toNat + fimm f) < 2 ^ 64) :
    s.doSleep e f = .wait (s.setEngine e { s.engine e with
      sleepEnd := some (word (s.engineCount e + (((s.engine e).q (fa f)).toNat + fimm f))) }) := by
  have hdue : satAdd (2 ^ 64 - 1) (s.engineCount e) (((s.engine e).q (fa f)).toNat + fimm f) =
      s.engineCount e + (((s.engine e).q (fa f)).toNat + fimm f) := Nat.min_eq_right (by omega)
  have hlater : ¬ s.engineCount e + (((s.engine e).q (fa f)).toNat + fimm f) ≤ s.engineCount e := by omega
  simp only [State.doSleep, hd, hfirst, hnow, hdue, beq_self_eq_true, checked_ok, checked_nil, beq_false_of_ne hn,
    decide_eq_false hlater, Bool.or_self, Bool.false_eq_true, if_false]

theorem Engine.charge_sleepEnd (g : Engine) (n : Nat) (x : Option Time) :
    { g with sleepEnd := x }.charge n = { g.charge n with sleepEnd := x } := by
  have htimed : ({ g with sleepEnd := x } : Engine).timed = g.timed := rfl
  cases h : g.timed <;> simp [Engine.charge, htimed, h]

theorem Engine.land_sleepEnd (g : Engine) (x : Option Time) : { g with sleepEnd := x }.land = { g.land with sleepEnd := x } := by
  cases h : g.pst <;> simp [Engine.land, h]

/-- A wait that begins with the end of a SLEEP set. -/
theorem QuillReady.sleeps {op : Nat} (h : QuillReady s e op f) {x : Time} {d : Did}
    (hd : d = .wait (s.setEngine e { s.engine e with sleepEnd := some x })) :
    OnlyEngine s (s.executeQ e op f d) e { ((s.engine e).charge 1).land with
      state := .waiting, next := (s.engine e).word ((s.engine e).pc + 1), sleepEnd := some x } := by
  have hwait := h.waits (OnlyEngine.set s e { s.engine e with sleepEnd := some x })
  rw [Engine.charge_sleepEnd, Engine.land_sleepEnd] at hwait
  dsimp only at hwait
  exact hd ▸ hwait

/-- The engine as BUDGET reads REMAIN and, under a deadline, reloads it. -/
def Engine.reloaded (g : Engine) (f : BitVec 24) : Engine :=
  if g.timed then
    { g.retired (fd f) g.budget with budget := Machine.word (min ((g.q (fa f)).toNat + fimm f * 1024) (g.hdrBudget * 1024)) }
  else g.retired (fd f) g.budget

theorem Engine.budget_ite (g : Engine) (c : Bool) (v : Word) :
    { g with budget := if c then v else g.budget } = if c then { g with budget := v } else g := by cases c <;> rfl

theorem QuillReady.reloads (h : QuillReady s e 0x0B f) :
    OnlyEngine s (s.executeQ e 0x0B f (s.doBudget e f)) e ((s.engine e).reloaded f) := by
  obtain ⟨hrun, hfetch, hbudget, hlast⟩ := h
  rw [State.executeQ_run _ hrun hfetch]
  simp only [State.doBudget, State.perform, hbudget, Nat.not_le.mpr hlast, decide_false, Bool.and_false, Bool.false_eq_true, if_false,
    State.setQ, State.setEngine_self, Engine.budget_ite]
  exact (OnlyEngine.setQ s e _ _).again _

end

/-- Settles O5: each instruction by its outcome; what a SLEEP's wait begins in the engine is kept as it is charged. -/
theorem quillEventsAndBudget : Obligations.QuillEventsAndBudget := by
  intro s e f g taken becomes r n cap
  refine ⟨fun h ha hm hr => ⟨_, rfl, ?_⟩, fun h ha hm hmask hr => ⟨_, rfl, ?_⟩,
    fun h hd hn => ⟨_, rfl, h.passesBy (State.doSleep_zero hd hn)⟩,
    fun h hd hn hfirst hnow hfits => ⟨_, rfl, h.sleeps (State.doSleep_begins hd hn hfirst hnow hfits)⟩,
    fun h ht => ⟨_, rfl, ?_⟩, fun h ht => ⟨_, rfl, ?_⟩, fun h ha hb hlow => ⟨_, rfl, ?_⟩⟩
  · rw [State.doWaitev_come ha hm hr]
    exact h.seqEnd (OnlyEngine.takeEvents s e (fd f) r)
  · rw [State.doWaitev_none ha hm hmask hr]
    exact h.waits (OnlyEngine.same s e)
  · rw [← show (s.engine e).reloaded f = _ from if_pos ht]
    exact h.reloads
  · rw [← show (s.engine e).reloaded f = _ from if_neg (Bool.eq_false_iff.mp ht)]
    exact h.reloads
  · rw [State.doYield_legal ha hb hlow]
    exact h.seqEnd (OnlyEngine.takeEvents s e (fd f) _)

end Sys2Proof.Machine

/-! SUPPORT. HALT, STEP, RESUME, FREEZE and THAW (R95, R97, R274, R276, R285): a request that an engine makes, refused, accepted or made to
wait. -/

namespace Sys2Proof.Machine

/-! ### Words of several cycles (R276) -/

section
variable {s s1 : State} {e op n : Nat} {f : BitVec 24} {d : Did} {g : Engine}

/-- A ready engine's budget carries the word's first cycle. -/
theorem QuillReady.carries (h : QuillReady s e op f) : (s.engine e).broke 1 = false := by
  obtain ⟨-, -, hbudget, -⟩ := h
  exact hbudget

/-- A ready engine's word whose cycles the budget carries goes on in sequence. -/
theorem QuillReady.executes (h : QuillReady s e op f) (hd : d = .seq s1 n) (hn : (s.engine e).broke n = false) :
    s.executeQ e op f d = s1.setEngine e (((s1.engine e).charge n).advance (s.engine e)) := by
  obtain ⟨hrun, hfetch, hbudget, hlast⟩ := h
  rw [hd, State.executeQ_run _ hrun hfetch]
  simp [State.perform, hbudget, Nat.not_le.mpr hlast, hrun, hn]

theorem QuillReady.cyclesEnd (h : QuillReady s e op f) (hd : d = .seq s1 n) (hn : (s.engine e).broke n = false) (o : OnlyEngine s s1 e g) :
    OnlyEngine s (s.executeQ e op f d) e ((g.charge n).advance (s.engine e)) := by
  rw [h.executes hd hn, o.here]
  exact o.again _

/-- A word that waits and has begun nothing else. -/
theorem QuillReady.waitsBy (h : QuillReady s e op f) (hd : d = .wait s) :
    OnlyEngine s (s.executeQ e op f d) e
      { ((s.engine e).charge 1).land with state := .waiting, next := (s.engine e).word ((s.engine e).pc + 1) } :=
  hd ▸ h.waits (OnlyEngine.same s e)

end

/-! ### The posts that a session uses (R42) -/

/-- Of a post, only its users are written. -/
theorem State.usePosts_post (s : State) (k : Nat) (ps : List Nat) (p : Nat) :
    (s.usePosts k ps).post p = { s.post p with users := ((s.usePosts k ps).post p).users } :=
  List.foldlRecOn (motive := fun t : State => t.post p = { s.post p with users := (t.post p).users }) ps (fun t q => t.usePost k q) rfl
    fun t ht q _ => by
      unfold State.usePost
      split
      · exact ht
      · by_cases hq : p = q
        · subst hq
          rw [State.setPost_self, ht]
        · rw [State.setPost_ne _ _ _ _ hq, ht]

/-! ### A request of an engine (R285) -/

/-- The issuer of an engine's request: its post, or none, which stands for the Compass, for the root engine (R92). -/
def engineIssuer (e : Nat) : Option Nat := if e = 128 then none else some e

/-- The request that an engine's registers make. -/
def Engine.request (g : Engine) (f : BitVec 24) (kind : HopKind) (imm : Bool) : HopReq :=
  { kind := kind, imm := imm, scope := (g.q (fa f)).toNat, param := (g.q (fb f)).toNat, who := g.owner, hold := none }

/-- How an engine's request travels. -/
def State.engineMode (s : State) (e : Nat) (q : HopReq) : HopMode := if s.hopImm (engineIssuer e) q then .urgent else .contour

/-- The HOP that an engine's request becomes. -/
def State.engineHop (s : State) (e : Nat) (q : HopReq) : Hop := s.newHop (engineIssuer e) q (s.engineMode e q) (.engine e)

/-- The state with that HOP, its issuer's owner using the posts of its scope. -/
def State.engineIssued (s : State) (e : Nat) (q : HopReq) : State :=
  let t := (s.acceptHop (engineIssuer e) q (s.engineMode e q) (.engine e)).1
  match q.who with
  | some n => t.usePosts n (s.postsIn q.scope)
  | none => t

section
variable (s : State) (e : Nat) (q : HopReq)

theorem State.engineIssued_frame : s.engineIssued e q = { s with
    hops := (s.engineIssued e q).hops, hopNext := (s.engineIssued e q).hopNext, hopSeq := (s.engineIssued e q).hopSeq
    posts := (s.engineIssued e q).posts } := by
  unfold State.engineIssued
  split
  · rw [State.usePosts_frame]
    rfl
  · rfl

theorem State.engineIssued_engine (k : Nat) : (s.engineIssued e q).engine k = s.engine k := by
  rw [State.engineIssued_frame]
  rfl

theorem State.engineIssued_hopNext : (s.engineIssued e q).hopNext = s.hopNext + 1 := by
  unfold State.engineIssued
  split
  · rw [State.usePosts_frame]
    rfl
  · rfl

theorem State.engineIssued_hop (n : Nat) : (s.engineIssued e q).hop n = if n = s.hopNext then some (s.engineHop e q) else s.hop n := by
  unfold State.engineIssued
  split
  · rw [State.hop, (State.usePosts_leaves ..).1]
    exact State.acceptHop_hop ..
  · exact State.acceptHop_hop ..

theorem State.engineIssued_post (p : Nat) :
    (s.engineIssued e q).post p = { s.post p with users := ((s.engineIssued e q).post p).users } := by
  unfold State.engineIssued
  split
  · exact State.usePosts_post ..
  · rfl

end

@[simp] theorem State.setEngine_hop (s : State) (e : Nat) (g : Engine) (n : Nat) : (s.setEngine e g).hop n = s.hop n := rfl
@[simp] theorem State.setEngine_post (s : State) (e : Nat) (g : Engine) (p : Nat) : (s.setEngine e g).post p = s.post p := rfl
@[simp] theorem State.setQ_hop (s : State) (e i : Nat) (v : Word) (n : Nat) : (s.setQ e i v).hop n = s.hop n := rfl
@[simp] theorem State.setQ_post (s : State) (e i : Nat) (v : Word) (p : Nat) : (s.setQ e i v).post p = s.post p := rfl

/-! ### The outcomes of a halt instruction -/

/-- The reserved bits of a halt instruction are clear: HALT alone takes an immediate bit. -/
def hopFields (f : BitVec 24) (kind : HopKind) : Bool :=
  fsp f == 0 && (if kind == .halt then bitsOf (ft f) 1 3 == 0 else ft f == 0)

section
variable {s : State} {e : Nat} {f : BitVec 24} {kind : HopKind} {imm : Bool} (hfields : hopFields f kind = true)
  (hscope : ((s.engine e).q (fa f)).toNat < 2 ^ 24)
include hfields hscope

theorem State.doHop_refused {st : Nat} (hcheck : s.hopCheck (engineIssuer e) ((s.engine e).request f kind imm) = some st) :
    s.doHop e f kind imm = .seq (s.setQ e (fd f) (word (st * 65536))) 2 := by
  unfold engineIssuer Engine.request at hcheck
  unfold State.doHop
  rw [checked_all (List.forall_mem_cons.mpr ⟨hfields, List.forall_mem_singleton.mpr (decide_eq_true hscope)⟩)]
  simp [State.issueHop_refused hcheck, Except.isOk, Except.toBool]

theorem State.doHop_waits (hcheck : s.hopCheck (engineIssuer e) ((s.engine e).request f kind imm) = none)
    (hwait : s.hopWaits (engineIssuer e) kind = true) : s.doHop e f kind imm = .wait s := by
  unfold engineIssuer Engine.request at hcheck
  unfold engineIssuer at hwait
  unfold State.doHop
  rw [checked_all (List.forall_mem_cons.mpr ⟨hfields, List.forall_mem_singleton.mpr (decide_eq_true hscope)⟩)]
  simp [State.issueHop_accepted hcheck, Except.isOk, Except.toBool, hwait]

theorem State.doHop_accepted (hcheck : s.hopCheck (engineIssuer e) ((s.engine e).request f kind imm) = none)
    (hgo : s.hopWaits (engineIssuer e) kind = false) :
    s.doHop e f kind imm = .seq ((s.engineIssued e ((s.engine e).request f kind imm)).setQ e (fd f)
      (word (s.engineHop e ((s.engine e).request f kind imm)).id.toNat)) 2 := by
  unfold engineIssuer Engine.request at hcheck
  unfold engineIssuer at hgo
  unfold State.doHop
  rw [checked_all (List.forall_mem_cons.mpr ⟨hfields, List.forall_mem_singleton.mpr (decide_eq_true hscope)⟩)]
  simp only [State.issueHop_accepted hcheck, State.acceptHop_hop, hgo, Bool.false_and, Bool.false_eq_true, if_false, if_true,
    Option.map_some, Option.getD_some]
  unfold State.engineIssued
  cases howner : (s.engine e).owner <;> simp [Engine.request, howner] <;> rfl

end

/-- Settles O9: the five instructions are one form of `State.doHop`, whose three outcomes a lemma each gives. -/
theorem quillHaltControl : Obligations.QuillHaltControl := by
  intro s e f st g issuer q both hscope hsp
  have hboth {i : Instr} {op : Nat} {k : HopKind} {imm : Bool} (hx : exec i s = .next (s.executeQ e op f (s.doHop e f k imm)))
      (hfields : hopFields f k = true) : both i op k imm := by
    intro h h2
    refine ⟨fun hcheck => ⟨_, hx, h.cyclesEnd (State.doHop_refused hfields hscope hcheck) h2 (OnlyEngine.setQ ..)⟩,
      fun hcheck hwait => ⟨_, hx, h.waitsBy (State.doHop_waits hfields hscope hcheck hwait)⟩, fun hcheck hgo => ?_⟩
    have ht := h.executes (State.doHop_accepted hfields hscope hcheck hgo) h2
    refine ⟨_, s.engineHop e (g.request f k imm), hx, ?_⟩
    rw [ht]
    refine ⟨?_, rfl, rfl, rfl, rfl, State.engineIssued_hopNext .., ?_, ?_, fun p => ?_, ?_, fun n hn => ?_⟩
    · rw [State.setEngine_hop, State.setQ_hop, State.engineIssued_hop, if_pos rfl]
    · exact congrArg (fun n => BitVec.ofNat 16 (n + _)) (Nat.mul_comm ..)
    · rw [State.engineIssued_frame]
      rfl
    · rw [State.setEngine_post, State.setQ_post]
      exact State.engineIssued_post ..
    · rw [State.setEngine_self, State.setQ, State.setEngine_self, State.engineIssued_engine]
    · rw [State.setEngine_hop, State.setQ_hop, State.engineIssued_hop, if_neg hn]
  have hother {k : HopKind} (hk : k ≠ .halt) (ht : ft f = 0) : hopFields f k = true := by simp [hopFields, hsp, ht, hk]
  exact ⟨fun ht => hboth rfl (by simp [hopFields, hsp, ht]), fun ht => hboth rfl (hother nofun ht), fun ht => hboth rfl (hother nofun ht),
    fun ht => hboth rfl (hother nofun ht), fun ht => hboth rfl (hother nofun ht)⟩

end Sys2Proof.Machine

/-! SUPPORT. CUTQ and FEND (R287 to R289): a record of a HOP in the engine's own ring, and the end of a folio. -/

namespace Sys2Proof.Machine

/-! ### CUTQ (R287) -/

section
variable {s : State} {e : Nat} {f : BitVec 24} (he : e < 128) (hsp : fsp f = 0) (ht : bitsOf (ft f) 1 3 = 0)
  (hid : ((s.engine e).q (fa f)).toNat < 65536) (hi : ((s.engine e).q (fb f)).toNat ≤ 17)
include he hsp ht hid hi

theorem State.doCutq_absent (hrec : s.ringRecord e ((s.engine e).q (fa f)).toNat = none) :
    s.doCutq e f = .seq (s.setQ e (fd f) 0) 1 := by
  simp [State.doCutq, hsp, ht, hid, hi, he.ne, hrec, word]

/-- A record that the owner may read: with WAIT the engine waits while it is PENDING, else the word asked for is read. -/
theorem State.doCutq_seen {h : Hop} (hrec : s.ringRecord e ((s.engine e).q (fa f)).toNat = some h)
    (hmay : s.hasPlatform (s.engine e).owner = true ∨ 1 ≤ s.levelOn (s.engine e).owner h.ctx) :
    s.doCutq e f = if bitAt (ft f) 0 && (h.halfStatus e).1 == 1 then .wait s
      else .seq (s.setQ e (fd f) (word (s.halfWord h e ((s.engine e).q (fb f)).toNat))) 1 := by
  have hseen : (s.hasPlatform (s.engine e).owner || decide (1 ≤ s.levelOn (s.engine e).owner h.ctx)) = true := by simpa using hmay
  simp [State.doCutq, hsp, ht, hid, hi, he.ne, hrec, Option.filter_some, hseen]

end

/-! ### FEND (R288, R289) -/

@[simp] theorem Engine.setQ_events (g : Engine) (i : Nat) (v : Word) : (g.setQ i v).events = g.events := by
  unfold Engine.setQ
  split <;> rfl

/-- The engine as FEND completes with a status, event FOLIO set. -/
def Engine.folioEnded (g : Engine) (f : BitVec 24) (st : Nat) : Engine :=
  { g.setQ (fd f) (Machine.word st) with events := g.events ||| 4 }

section
variable {s : State} {e : Nat} {f : BitVec 24}

theorem QuillReady.fendCompletes {op : Nat} (h : QuillReady s e op f) {d : Did} {st : Nat} (hd : d = s.fendDid e (fd f) st) :
    OnlyEngine s (s.executeQ e op f d) e ((((s.engine e).folioEnded f st).charge 1).advance (s.engine e)) := by
  have hfolio : ((s.engine e).setQ (fd f) (word st)).pend 4 = (s.engine e).folioEnded f st := by
    rw [Engine.pend, Engine.setQ_events, Engine.folioEnded]
  exact h.cyclesEnd hd h.carries (hfolio ▸ (OnlyEngine.setQ s e (fd f) (word st)).event 2)

variable (hb : fb f = 0) (ht : ft f = 0) (hsp : fsp f = 0) (hslot : ((s.engine e).q (fa f)).toNat < 64)
  (hdone : (s.engine e).fendDone = none)
include hb ht hsp hslot hdone

theorem State.doFend_noJob (hj : s.engineJob e ((s.engine e).q (fa f)).toNat = none) :
    s.doFend e f = s.fendDid e (fd f) Status.jobState := by
  simp [State.doFend, hb, ht, hsp, Engine.slotFits, hslot, hdone, hj]

theorem State.doFend_ended {j : Job} (hj : s.engineJob e ((s.engine e).q (fa f)).toNat = some j) (hended : j.ended = true) :
    s.doFend e f = s.fendDid e (fd f) (if j.state = .complete then Status.ok else Status.incomplete) := by
  simp [State.doFend, hb, ht, hsp, Engine.slotFits, hslot, hdone, hj, hended]

end

/-- Settles O10: CUTQ by whether its ring holds the record, FEND by what became of the job. -/
theorem quillCutqAndFend : Obligations.QuillCutqAndFend := by
  intro s e f g id i slot done folio
  refine ⟨fun h he hsp ht hid hi => ⟨fun hrec => ⟨_, rfl, h.writesBy (State.doCutq_absent he hsp ht hid hi hrec)⟩,
    fun r hrec hmay => ⟨fun hread => ⟨_, rfl, h.writesBy ?_⟩, fun hpending hwait => ⟨_, rfl, h.waitsBy ?_⟩⟩⟩,
    fun h hb ht hsp hslot hdone => ⟨fun hj => ⟨_, rfl, h.fendCompletes (State.doFend_noJob hb ht hsp hslot hdone hj)⟩,
      fun j hj hstate => ⟨_, rfl, h.fendCompletes ?_⟩, fun j hj hstate => ⟨_, rfl, h.fendCompletes ?_⟩⟩⟩
  · rw [State.doCutq_seen he hsp ht hid hi hrec hmay]
    exact if_neg (by rcases hread with hended | hnowait <;> simp [*])
  · rw [State.doCutq_seen he hsp ht hid hi hrec hmay]
    exact if_pos (by simp [hpending, hwait])
  · exact (State.doFend_ended hb ht hsp hslot hdone hj (by simp [Job.ended, hstate])).trans (by rw [if_pos hstate])
  · exact (State.doFend_ended hb ht hsp hslot hdone hj (by simp [Job.ended, hstate])).trans (by rw [hstate]; rfl)

end Sys2Proof.Machine

/-! SUPPORT. FMARK, INK, RAISE, WSNAP and WSCAN (R161, R230, R250, R289, R291, R292): what each writes beside its own engine. -/

namespace Sys2Proof.Machine

section
variable {s s1 : State} {e op r : Nat} {f : BitVec 24} {v : Word} {d : Did}

/-- A word of one cycle that changes a part of the state which holds no engine. -/
theorem QuillReady.passesAfter (h : QuillReady s e op f) (hd : d = .seq s1 1) (hsame : s1.engine e = s.engine e) :
    OnlyEngine s1 (s.executeQ e op f d) e (((s.engine e).charge 1).advance (s.engine e)) := by
  rw [h.executes hd h.carries, hsame]
  exact OnlyEngine.set s1 e _

/-- A word of one cycle that changes such a part and writes a register. -/
theorem QuillReady.writesAfter (h : QuillReady s e op f) (hd : d = .seq (s1.setQ e r v) 1) (hsame : s1.engine e = s.engine e) :
    OnlyEngine s1 (s.executeQ e op f d) e ((s.engine e).retired r v) := by
  rw [h.executes hd h.carries, State.setQ, State.setEngine_self, hsame]
  exact (OnlyEngine.set s1 e _).again _

end

/-- A register written after another change of the same engine. -/
theorem OnlyEngine.thenSetQ {s t : State} {e : Nat} {g : Engine} (o : OnlyEngine s t e g) (r : Nat) (v : Word) :
    OnlyEngine s (t.setQ e r v) e (g.setQ r v) := o.here ▸ o.again _

/-! ### FMARK (R161, R289) -/

/-- The job with one more mark of its engine. -/
def Job.marked (j : Job) (t : Time) (v : Word) : Job := { j with marks := j.marks ++ [(t, v)], marksUsed := j.marksUsed + 1 }

section
variable {s : State} {e n : Nat} {f : BitVec 24} {j : Job} (ht : ft f = 0) (hsp : fsp f = 0)
  (hslot : ((s.engine e).q (fa f)).toNat < 64) (hj : s.engineJob e ((s.engine e).q (fa f)).toNat = some j) (hopen : j.ended = false)
include ht hsp hslot hj hopen

theorem State.doFmark_room (hnow : s.engineNow e = some n) (hroom : j.marksUsed < j.marksMax) :
    s.doFmark e f = .seq ((s.setJob ((s.engine e).q (fa f)).toNat (some (j.marked (word n) ((s.engine e).q (fb f))))).setQ e (fd f)
      (word Status.ok)) 1 := by
  simp [State.doFmark, ht, hsp, Engine.slotFits, hslot, hj, hopen, hnow, hroom, Job.marked]

theorem State.doFmark_full (hfull : j.marksMax ≤ j.marksUsed) :
    s.doFmark e f = .seq (s.setQ e (fd f) (word Status.marksExceeded)) 1 := by
  simp [State.doFmark, ht, hsp, Engine.slotFits, hslot, hj, hopen, Nat.not_lt.mpr hfull]

end

/-! ### INK (R250, R291) -/

/-- A packet of an engine or a chain is written in the trace alone. -/
theorem State.ownPacket_frame (s : State) (p : Nat) (stamp : Uno) (k : Packet) :
    s.ownPacket p stamp k = { s with trace := (s.ownPacket p stamp k).trace } := by
  have hlose (why : BitVec 8) (ks : List Nat) : ks.foldl (fun t i => t.partLose p i why) s =
      { s with trace := (ks.foldl (fun t i => t.partLose p i why) s).trace } :=
    List.foldlRecOn (motive := fun t : State => t = { s with trace := t.trace }) ks _ rfl fun t ht i _ => by rw [ht]; rfl
  unfold State.ownPacket
  split
  · unfold State.funnelPush
    split
    · rfl
    · dsimp only
      split
      · rfl
      · exact hlose ..
  · exact hlose ..

/-- A packet stamped by a valid copy enters the funnel of the post that serves its half, where there is room. -/
theorem State.ownPacket_room {s : State} {p q n : Nat} {stamp : Uno} {k : Packet} (hserver : s.server p = some q)
    (hnow : s.copyNow stamp = some n) (hroom : (s.funnel q).length < 256) :
    s.ownPacket p stamp k = s.setFunnel q (s.funnel q ++ [{ k with t := word n }]) := by
  simp [State.ownPacket, State.funnelPush, hserver, hnow, hroom]

/-- The ENGINE packet of an INK, not yet stamped. -/
def State.inkPacket (s : State) (e : Nat) (f : BitVec 24) : Packet :=
  let size := bitsOf (fimm f) 8 3
  { type := .engine, t := 0, ctx := (s.engine e).ctxid, uno := s.engineUnit e, chan := bitsOf (fimm f) 0 5, size := size
    data := word (((s.engine e).q (fd f)).toNat % 2 ^ (8 * (if size = 0 then 0 else 2 ^ (size - 1)))) }

/-- The state in which an INK leaves the trace. -/
def State.inked (s : State) (e : Nat) (f : BitVec 24) : State :=
  s.ownPacket (if e = 128 then 2 * (s.compassDie - 0x100) else e) (if e = 128 then 0 else halfUno e) (s.inkPacket e f)

theorem State.inked_frame (s : State) (e : Nat) (f : BitVec 24) : s.inked e f = { s with trace := (s.inked e f).trace } :=
  State.ownPacket_frame ..

theorem State.inked_engine (s : State) (e : Nat) (f : BitVec 24) (k : Nat) : (s.inked e f).engine k = s.engine k := by
  rw [State.inked_frame]
  rfl

theorem State.doInk_legal (s : State) (e : Nat) {f : BitVec 24} (ha : fa f = 0) (hmid : bitsOf (fimm f) 5 3 = 0)
    (hhigh : bitsOf (fimm f) 11 5 = 0) (hsize : bitsOf (fimm f) 8 3 ≤ 4) : s.doInk e f = .seq (s.inked e f) 1 := by
  unfold State.doInk
  rw [checked_all (by simp [ha, hmid, hhigh, hsize])]
  rfl

/-- A post engine's packet stands at the end of its funnel. -/
theorem State.inked_room {s : State} {e q n : Nat} {f : BitVec 24} (he : e < 128) (hserver : s.server e = some q)
    (hnow : s.copyNow (halfUno e) = some n) (hroom : (s.funnel q).length < 256) :
    (s.inked e f).funnel q = s.funnel q ++ [{ s.inkPacket e f with t := word n }] := by
  unfold State.inked
  rw [if_neg he.ne, if_neg he.ne, State.ownPacket_room hserver hnow hroom, State.setFunnel_self]

/-! ### WSNAP and WSCAN (R230, R292) -/

section
variable {s : State} {e : Nat} {f : BitVec 24}

section
variable (he : e < 128) (ha : fa f = 0) (hb : fb f = 0) (hlow : flow f = 0)
include he ha hb hlow

theorem State.doWsnap_sampling {x : Time} (hx : (s.watcher e).sampling = some x) : s.doWsnap e f = .seq (s.setQ e (fd f) x) 1 := by
  simp [State.doWsnap, ha, hb, hlow, bne_iff_ne.mpr he.ne, hx]

/-- The state in which a half's snapshot is asked for at a time. -/
def State.snapAsked (s : State) (e : Nat) (t : Time) : State := s.setWatcher e { s.watcher e with unsched := some t }

theorem State.doWsnap_idle (hx : (s.watcher e).sampling = none) (hu : (s.watcher e).unsched = none) (hown : (s.post e).adopting = false) :
    s.doWsnap e f = .seq ((s.snapAsked e (word (s.engineCount e + 160))).setQ e (fd f) (word (s.engineCount e + 160))) 1 := by
  simp [State.doWsnap, ha, hb, hlow, bne_iff_ne.mpr he.ne, hx, hu, State.watchHalves, hown, State.snapAsked]

end

theorem OnlyEngine.dmemWrite_nil (s : State) (e x : Nat) : OnlyEngine s (s.dmemWrite e x []) e (s.engine e) := OnlyEngine.set s e _

/-- A scan of no entries copies nothing. -/
theorem State.doWscan_none (he : e < 128) (ht : ft f = 0) (hsp : fsp f = 0) (hn : (s.engine e).q (fd f) = 0)
    (hx : ((s.engine e).q (fb f)).toNat % 8 = 0) (hdata : ((s.engine e).q (fb f)).toNat ≤ (s.engine e).dataBytes)
    (hfirst : ((s.engine e).q (fa f)).toNat ≤ 1024) :
    s.doWscan e f = .seq ((s.dmemWrite e ((s.engine e).q (fb f)).toNat []).setQ e (fd f) (word (s.watcher e).snapWord)) 1 := by
  have hhalves : 1 ≤ (s.watchHalves e).length := by unfold State.watchHalves; split <;> simp
  have htop : ((s.engine e).q (fa f)).toNat ≤ 1024 * (s.watchHalves e).length := by omega
  unfold State.doWscan
  rw [checked_all (all_append (State.recordChecks_all ⟨ht, hsp, hx, by simpa [hn] using hdata⟩) (by simp [he.ne, hn, htop]))]
  simp [hn, he.ne, htop, rangeFrom]

end

/-- Settles O11: each instruction by its outcome, and what it writes beside the engine holds no engine. -/
theorem quillReportsAndWatch : Obligations.QuillReportsAndWatch := by
  intro s e f g slot owner obj ok ev
  have hraise (b : Bool) (hb : ok = b) : s.doRaise e f =
      .seq ((if b then s.emit owner ev else s).setQ e (fd f) (word (if b then Status.ok else Status.raiseFull))) 1 := hb ▸ rfl
  refine ⟨fun h ht hsp hslot j n hj hopen hnow => ⟨fun hroom => ?_,
      fun hfull => ⟨_, rfl, h.writesBy (State.doFmark_full ht hsp hslot hj hopen hfull)⟩⟩,
    fun h ha hmid hhigh hsize => ?_, fun h => ⟨fun hok => ⟨_, rfl, h.writesAfter ?_ ?_⟩, fun hok => ⟨_, rfl, h.writesBy ?_⟩⟩,
    fun h he ha hb hlow => ⟨fun x hx => ⟨_, rfl, h.writesBy (State.doWsnap_sampling he ha hb hlow hx)⟩, fun hx hu hown => ?_⟩,
    fun h he ht hsp hn hx hdata hfirst => ⟨_, rfl, ?_⟩⟩
  · have o := h.writesAfter (State.doFmark_room ht hsp hslot hj hopen hnow hroom) rfl
    refine ⟨_, j.marked (word n) (g.q (fb f)), rfl, ?_, rfl, rfl, ?_, o.here⟩
    · rw [o.rest]
      exact State.setJob_self ..
    · rw [o.rest]
      rfl
  · have o := h.passesAfter (State.doInk_legal s e ha hmid hhigh hsize) (State.inked_engine s e f e)
    refine ⟨_, rfl, ?_, o.here, fun q n he hserver hnow hroom => ⟨{ s.inkPacket e f with t := word n }, ?_, rfl, rfl, ?_, rfl, rfl⟩⟩
    · rw [o.rest, State.inked_frame]
    · rw [o.rest]
      exact State.inked_room he hserver hnow hroom
    · exact if_neg he.ne
  · exact hraise true hok
  · rw [State.emit_eq]
    rfl
  · exact hraise false hok
  · have o := h.writesAfter (State.doWsnap_idle he ha hb hlow hx hu hown) rfl
    refine ⟨_, rfl, ?_, ?_, o.here⟩
    · rw [o.rest]
      rfl
    · rw [o.rest]
      exact congrArg Watcher.unsched (State.setWatcher_self ..)
  · exact h.cyclesEnd (State.doWscan_none he ht hsp hn hx hdata hfirst) h.carries ((OnlyEngine.dmemWrite_nil ..).thenSetQ ..)

end Sys2Proof.Machine

/-! SUPPORT. What the shared operations leave of the package state, the open sessions, the lifecycle record, the command queues and the
pending vectors (R350 to R366, R374 to R394): one lemma per operation, used by session ends, resets and function resets. -/

namespace Sys2Proof.Machine

/-- The lifecycle flash and its controller without the wear of the sectors, which every flash write changes. -/
def Lifecycle.record (l : Lifecycle) : Lifecycle := { l with sectors := [] }

/-- Which slots of a table hold an open session. -/
def opensOf (t : Tbl (Option Session)) (j : Nat) : Bool := (Tbl.get none t j).isSome

/-- The package state, the open slots, the lifecycle record, the command queues, the pending vectors, and whether the port's response has
been taken. -/
structure Ground where
  pkg : Pkg
  opens : Nat → Bool
  record : Lifecycle
  queues : Tbl CQ
  vectors : BitVec 32
  taken : Bool

/-- The ground but for the port's response, which a completion offers. -/
def Ground.busy (g : Ground) : Ground := { g with taken := false }

/-- The ground with one slot free. -/
def Ground.shut (g : Ground) (slot : Nat) : Ground := { g with opens := Function.update g.opens slot false }

def State.ground (s : State) : Ground := ⟨s.pkg, opensOf s.auth.sessions, s.life.record, s.host.queues, s.host.msixPending, s.port.taken⟩

@[simp] theorem Ground.shut_busy (g : Ground) (slot : Nat) : (g.shut slot).busy = g.busy.shut slot := rfl

theorem Ground.shut_of_free {g : Ground} {slot : Nat} (h : g.opens slot = false) : g.shut slot = g := by
  rw [Ground.shut, ← h, Function.update_eq_self]

/-- Slots freed one after the other. -/
theorem Ground.foldl_shut (l : List Nat) (g : Ground) :
    l.foldl Ground.shut g = { g with opens := fun j => if j ∈ l then false else g.opens j } := by
  induction l generalizing g with
  | nil => rfl
  | cons k l ih =>
    rw [List.foldl_cons, ih]
    congr 1
    funext j
    by_cases hj : j = k <;> simp [Ground.shut, hj]

/-- A slot that is not among the open ones holds no session. -/
theorem State.not_open_of_not_mem {s : State} {j : Nat} (h : j ∉ s.openSlots) : s.ground.opens j = false := by
  refine Bool.eq_false_iff.mpr fun ho => h ?_
  obtain ⟨x, hx⟩ := Option.isSome_iff_exists.mp ho
  have hmem : (j, some x) ∈ s.auth.sessions :=
    hx ▸ (Tbl.get_default_or_mem none s.auth.sessions j).resolve_left fun hnone => nomatch hx.symm.trans hnone
  exact List.mem_map.mpr ⟨_, List.mem_filter.mpr ⟨hmem, rfl⟩, rfl⟩

section
variable {s t : State} (h : t.ground.busy = s.ground.busy)
include h

theorem State.pkg_of_ground : t.pkg = s.pkg := congrArg Ground.pkg h
theorem State.record_of_ground : t.life.record = s.life.record := congrArg Ground.record h

end

/-- An update of a state leaves what it does not write in those places. -/
@[simp ↓] theorem State.ground_mk
    {pkg dies copies links posts held unobs groups clamps reports legend regs engines hops hopNext hopSeq cores insts rports
     bounds rings cmps cnts chains sets places halves xtrig folios cart pair watch trace port auth life host upd drawn pending} :
    State.ground (.mk pkg dies copies links posts held unobs groups clamps reports legend regs engines hops hopNext hopSeq cores insts rports
      bounds rings cmps cnts chains sets places halves xtrig folios cart pair watch trace port auth life host upd drawn pending) =
      ⟨pkg, opensOf auth.sessions, life.record, host.queues, host.msixPending, port.taken⟩ := by
  rw [State.ground]

@[simp ↓] theorem State.ground_fold (s : State) :
    (⟨s.pkg, opensOf s.auth.sessions, s.life.record, s.host.queues, s.host.msixPending, s.port.taken⟩ : Ground) = s.ground := by
  rw [State.ground]

@[simp ↓] theorem State.ground_ite {c : Prop} [Decidable c] {a b : State} :
    (if c then a else b).ground = if c then a.ground else b.ground := apply_ite _ _ _ _

@[simp ↓] theorem State.ground_foldl {α : Type} {f : State → α → State} {l : List α} {s : State}
    (h : ∀ s a, (f s a).ground = s.ground) : (l.foldl f s).ground = s.ground := State.foldl_leaves State.ground h l s

@[simp ↓] theorem State.draw_ground (s : State) : s.draw.ground = s.ground := by simp [State.draw]

@[simp ↓] theorem State.setPost_ground (s : State) (p : Nat) (v : Post) : (s.setPost p v).ground = s.ground := by simp [State.setPost]

@[simp ↓] theorem State.setCore_ground (s : State) (u : Uno) (v : Core) : (s.setCore u v).ground = s.ground := by simp [State.setCore]

@[simp ↓] theorem State.setInst_ground (s : State) (cls : Nat) (u : Uno) (v : Hold) : (s.setInst cls u v).ground = s.ground := by
  simp [State.setInst]

@[simp ↓] theorem State.setEngine_ground (s : State) (e : Nat) (v : Engine) : (s.setEngine e v).ground = s.ground := by simp [State.setEngine]

/-- A session that is open and stays open. -/
@[simp ↓] theorem State.setSession_ground (s : State) (slot : Nat) (x y : Session) (h : s.session slot = some x) :
    (s.setSession slot (some y)).ground = s.ground := by
  have ho : opensOf (Tbl.set none s.auth.sessions slot (some y)) = opensOf s.auth.sessions := by
    funext j
    by_cases hj : j = slot
    · have hs : (Tbl.get none s.auth.sessions slot).isSome = true := congrArg Option.isSome h
      rw [hj, opensOf, opensOf, Tbl.get_set_self, hs]
      rfl
    · rw [opensOf, Tbl.get_set_ne _ _ _ _ _ hj]
      rfl
  simp [State.setSession, ho]

/-- A slot that becomes free. -/
@[simp ↓] theorem State.setSession_none_ground (s : State) (slot : Nat) : (s.setSession slot none).ground = s.ground.shut slot := by
  have ho : opensOf (Tbl.set none s.auth.sessions slot none) = Function.update (opensOf s.auth.sessions) slot false := by
    funext j
    by_cases hj : j = slot
    · rw [hj, opensOf, Tbl.get_set_self, Function.update_self]
      rfl
    · rw [opensOf, Tbl.get_set_ne _ _ _ _ _ hj, Function.update_of_ne hj]
      rfl
  exact congrArg (fun o => { s.ground with opens := o }) ho

@[simp ↓] theorem State.markLost_ground (s : State) (c : Ctx) : (s.markLost c).ground = s.ground := by
  simp [State.markLost]

@[simp ↓] theorem State.loneWrite_ground (s : State) (p : Nat) (r : Rec) : (s.loneWrite p r).ground = s.ground := by
  rw [State.loneWrite_eq]
  rfl

@[simp ↓] theorem State.setPoint_ground (s : State) (k : Nat) (v : HashPoint) : (s.setPoint k v).ground = s.ground := by simp [State.setPoint]

@[simp ↓] theorem State.pointTake_ground (s : State) (k : Nat) (r : Rec) : (s.pointTake k r).ground = s.ground := by
  rw [State.pointTake_eq]
  rfl

@[simp ↓] theorem State.engineEvent_ground (s : State) (e bit : Nat) : (s.engineEvent e bit).ground = s.ground := by
  rw [State.engineEvent_eq]
  rfl

@[simp ↓] theorem State.cartEngine_ground (s : State) (u : Uno) : (s.cartEngine u).ground = s.ground := by
  rw [State.cartEngine_eq]
  rfl

@[simp ↓] theorem State.report_ground (s : State) (u : Uno) (cls code : Nat) (d : List Byte) (c : Ctx) :
    (s.report u cls code d c).ground = s.ground := by
  rw [State.report_eq]
  rfl

@[simp ↓] theorem State.reportHub_ground (s : State) (u : Uno) (cls code : Nat) (d : List Byte) (c : Ctx) :
    (s.reportHub u cls code d c).ground = s.ground := by
  rw [State.reportHub_eq]
  rfl

@[simp ↓] theorem State.haltLate_ground (s : State) (reporter : Uno) (code : Nat) (hopId : BitVec 16) (ctx : Ctx) :
    (s.haltLate reporter code hopId ctx).ground = s.ground := by
  simp [State.haltLate]

@[simp ↓] theorem State.folioReport_ground (s : State) (post code : Nat) (serial : BitVec 32) (ctx : Ctx) :
    (s.folioReport post code serial ctx).ground = s.ground := by
  simp [State.folioReport]

@[simp ↓] theorem State.netReport_ground (s : State) (reporter : Uno) (code : Nat) : (s.netReport reporter code).ground = s.ground := by
  simp [State.netReport]

@[simp ↓] theorem State.lifeReport_ground (s : State) (code index : Nat) : (s.lifeReport code index).ground = s.ground := by
  simp [State.lifeReport]

@[simp ↓] theorem State.setRing_ground (s : State) (r : Nat) (v : Ring) : (s.setRing r v).ground = s.ground := by simp [State.setRing]

@[simp ↓] theorem State.pushEvent_ground (s : State) (r : Nat) (e : Event) : (s.pushEvent r e).ground = s.ground := by
  simp [State.pushEvent]

@[simp ↓] theorem State.dropEvent_ground (s : State) (r : Nat) : (s.dropEvent r).ground = s.ground := by simp [State.dropEvent]

@[simp ↓] theorem State.emit_ground (s : State) (k : Nat) (e : Event) : (s.emit k e).ground = s.ground := by
  unfold State.emit
  (repeat' split) <;> simp

@[simp ↓] theorem State.pushReserved_ground (s : State) (r : Nat) (b : Bool) (e : Event) : (s.pushReserved r b e).ground = s.ground := by
  simp [State.pushReserved]

@[simp ↓] theorem State.completeFor_ground (s : State) (c : CmdCtx) (k st : Nat) (o : BitVec 32) (d : Word) :
    (s.completeFor c k st o d).ground.busy = s.ground.busy := by
  unfold State.completeFor
  dsimp only
  split
  · rfl
  · split <;> simp

/-- A completion offers the port's response, or leaves it. -/
theorem State.completeFor_taken {s : State} (h : s.ground.taken = false) (c : CmdCtx) (k st : Nat) (o : BitVec 32) (d : Word) :
    (s.completeFor c k st o d).ground.taken = false := by
  unfold State.completeFor
  dsimp only
  split
  · simp
  · split <;> simp [h]

@[simp ↓] theorem State.complete_ground (s : State) (c : CmdCtx) (st : Nat) (o : BitVec 32) (d : Word) :
    (s.complete c st o d).ground.busy = s.ground.busy := State.completeFor_ground ..

@[simp ↓] theorem State.refuse_ground (s : State) (c : CmdCtx) (st : Nat) : (s.refuse c st).ground.busy = s.ground.busy :=
  State.completeFor_ground ..

@[simp ↓] theorem State.setRefs_ground (s : State) (kind slot : Nat) (v : Refs) : (s.setRefs kind slot v).ground = s.ground := by
  simp [State.setRefs]

@[simp ↓] theorem State.hubRef_ground (s : State) (kind slot : Nat) : (s.hubRef kind slot).ground = s.ground := by simp [State.hubRef]

@[simp ↓] theorem State.hubUnref_ground (s : State) (kind slot : Nat) : (s.hubUnref kind slot).ground = s.ground := by simp [State.hubUnref]

@[simp ↓] theorem State.bumpGen_ground (s : State) : s.bumpGen.ground = s.ground := by simp [State.bumpGen]

@[simp ↓] theorem State.flaggedFrom_ground (s t : State) : (s.flaggedFrom t).ground = t.ground := by
  simp [State.flaggedFrom]

@[simp ↓] theorem State.setHealth_ground (s : State) (p h : Nat) : (s.setHealth p h).ground = s.ground := by simp [State.setHealth]

@[simp ↓] theorem State.setHop_ground (s : State) (n : Nat) (h : Hop) : (s.setHop n h).ground = s.ground := by simp [State.setHop]

@[simp ↓] theorem State.acceptHop_ground (s : State) (issuer : Option Nat) (q : HopReq) (mode : HopMode) (origin : HopOrigin) :
    (s.acceptHop issuer q mode origin).1.ground = s.ground := by
  simp [State.acceptHop]

@[simp ↓] theorem State.postLate_ground (s : State) (n : Nat) (u : Uno) (code : Nat) : (s.postLate n u code).ground = s.ground := by
  unfold State.postLate
  split <;> simp

@[simp ↓] theorem State.setBound_ground (s : State) (k : Nat) (v : Boundary) : (s.setBound k v).ground = s.ground := by simp [State.setBound]

@[simp ↓] theorem State.setStream_ground (s : State) (slot : Nat) (v : Option Stream) : (s.setStream slot v).ground = s.ground := by
  simp [State.setStream]

@[simp ↓] theorem State.setTpart_ground (s : State) (p slot : Nat) (v : TPart) : (s.setTpart p slot v).ground = s.ground := by
  simp [State.setTpart]

@[simp ↓] theorem State.serialCopy_ground (s : State) (slot p : Nat) (x : Stream) (t : TPart) (isTime : Bool) (ws : List Word) :
    (s.serialCopy slot p x t isTime ws).ground = s.ground := by
  simp [State.serialCopy]

@[simp ↓] theorem State.place_ground (s : State) (p slot : Nat) (x : Stream) (isTime pad : Bool) (ws : List Word) :
    (s.place p slot x isTime pad ws).ground = s.ground := by
  simp [State.place]

@[simp ↓] theorem State.endStream_ground (s : State) (slot reason : Nat) : (s.endStream slot reason).ground = s.ground := by
  unfold State.endStream
  split <;> simp

@[simp ↓] theorem State.cutStream_ground (s : State) (slot : Nat) : (s.cutStream slot).ground = s.ground := by
  unfold State.cutStream
  split <;> simp

@[simp ↓] theorem State.startWake_ground (s : State) (p : Nat) : (s.startWake p).ground = s.ground := by simp [State.startWake]

@[simp ↓] theorem State.autoStart_ground (s : State) (p : Nat) : (s.autoStart p).ground = s.ground := by simp [State.autoStart]

@[simp ↓] theorem State.setTrigSet_ground (s : State) (slot : Nat) (v : Option TrigSet) : (s.setTrigSet slot v).ground = s.ground := by
  simp [State.setTrigSet]

@[simp ↓] theorem State.setPlace_ground (s : State) (k : Nat) (v : Option Place) : (s.setPlace k v).ground = s.ground := by simp [State.setPlace]

@[simp ↓] theorem State.issuePlaced_ground (s : State) (key p : Nat) (x : TrigSet) (action ascope : Nat) (scope : Uno) :
    (s.issuePlaced key p x action ascope scope).ground = s.ground := by
  unfold State.issuePlaced
  dsimp only
  (repeat' split) <;> simp

@[simp ↓] theorem State.placeFrees_ground (s : State) (key action ascope : Nat) : (s.placeFrees key action ascope).ground = s.ground := by
  unfold State.placeFrees
  dsimp only
  (repeat' split) <;> simp

@[simp ↓] theorem State.rearmChains_ground (s : State) : s.rearmChains.ground = s.ground := by simp [State.rearmChains]

@[simp ↓] theorem State.releaseSpent_ground (s : State) (slot elem : Nat) : (s.releaseSpent slot elem).ground = s.ground := by
  simp [State.releaseSpent]

@[simp ↓] theorem State.maskLane_ground (s : State) (x : TrigSet) (on : Bool) : (s.maskLane x on).ground = s.ground := by
  unfold State.maskLane
  split <;> simp

@[simp ↓] theorem State.removeSet_ground (s : State) (slot : Nat) (x : TrigSet) : (s.removeSet slot x).ground = s.ground := by
  simp [State.removeSet]

@[simp ↓] theorem State.unloadSet_ground (s : State) (slot reason : Nat) : (s.unloadSet slot reason).ground = s.ground := by
  unfold State.unloadSet
  split <;> simp

@[simp ↓] theorem State.setJob_ground (s : State) (j : Nat) (v : Option Job) : (s.setJob j v).ground = s.ground := by simp [State.setJob]

@[simp ↓] theorem State.startJob_ground (s : State) (slot : Nat) (j : Job) (skipHalt fend : Bool) :
    (s.startJob slot j skipHalt fend).ground = s.ground := by
  simp [State.startJob]

@[simp ↓] theorem State.fendResult_ground (s : State) (e slot status : Nat) : (s.fendResult e slot status).ground = s.ground := by
  simp [State.fendResult]

@[simp ↓] theorem State.finishJob_ground (s : State) (slot : Nat) : (s.finishJob slot).ground = s.ground := by
  unfold State.finishJob
  dsimp only
  (repeat' split) <;> simp

@[simp ↓] theorem State.keyUnused_ground (s : State) (slot : Nat) (j : Job) : (s.keyUnused slot j).ground = s.ground := by simp [State.keyUnused]

@[simp ↓] theorem State.cutJob_ground (s : State) (slot : Nat) (finishBegun : Bool) : (s.cutJob slot finishBegun).ground = s.ground := by
  unfold State.cutJob
  split <;> simp

@[simp ↓] theorem State.wcbLoss_ground (s : State) (slot : Nat) (j : Job) (q reason lines : Nat) :
    (s.wcbLoss slot j q reason lines).ground = s.ground := by
  simp [State.wcbLoss]

@[simp ↓] theorem State.drainPost_ground (s : State) (q reason lines : Nat) : (s.drainPost q reason lines).ground = s.ground := by
  unfold State.drainPost
  split <;> simp

@[simp ↓] theorem State.drainAll_ground (s : State) (reason : Nat) (us : List Undrained) : (s.drainAll reason us).ground = s.ground := by
  simp [State.drainAll]

@[simp ↓] theorem State.setWatch_ground (s : State) (w : Watch) : (s.setWatch w).ground = s.ground := by simp [State.setWatch]

@[simp ↓] theorem State.setPolicy_ground (s : State) (c : Ctx) (r : Nat) (v : Policy) : (s.setPolicy c r v).ground = s.ground := by
  simp [State.setPolicy]

@[simp ↓] theorem State.setDeadlock_ground (s : State) (c : Ctx) (v : Deadlock) : (s.setDeadlock c v).ground = s.ground := by
  simp [State.setDeadlock]

@[simp ↓] theorem State.setDeadline_ground (s : State) (p i : Nat) (v : Deadline) : (s.setDeadline p i v).ground = s.ground := by
  simp [State.setDeadline]

@[simp ↓] theorem State.endDeadline_ground (s : State) (p i state result : Nat) (doneT : Time) :
    (s.endDeadline p i state result doneT).ground = s.ground := by
  simp [State.endDeadline]

@[simp ↓] theorem State.freeDeadlines_ground (s : State) (f : Deadline → Bool) (result : Nat) : (s.freeDeadlines f result).ground = s.ground := by
  simp [State.freeDeadlines]

@[simp ↓] theorem State.clearDeadlock_ground (s : State) (c : Ctx) : (s.clearDeadlock c).ground = s.ground := by simp [State.clearDeadlock]

@[simp ↓] theorem State.clearPolicies_ground (s : State) (c : Ctx) : (s.clearPolicies c).ground = s.ground := by
  unfold State.clearPolicies
  refine State.ground_foldl fun t e => ?_
  dsimp only
  (repeat' split) <;> simp

@[simp ↓] theorem State.dropEngineJobs_ground (s : State) (e : Nat) (forget : Bool) : (s.dropEngineJobs e forget).ground = s.ground := by
  unfold State.dropEngineJobs
  refine State.ground_foldl fun t e => ?_
  dsimp only
  (repeat' split) <;> simp

@[simp ↓] theorem State.returnEngine_ground (s : State) (e why : Nat) : (s.returnEngine e why).ground = s.ground := by simp [State.returnEngine]

/-- Sessions changed one by one, each open one staying open. -/
theorem opensOf_map (t : Tbl (Option Session)) (f : Session → Session) : opensOf (t.map fun e => (e.1, e.2.map f)) = opensOf t := by
  funext j
  rw [opensOf, Tbl.get_map_some, Option.isSome_map]
  rfl

@[simp ↓] theorem State.purgeHolds_ground (s : State) (kind slot : Nat) : (s.purgeHolds kind slot).ground = s.ground := by
  simp [State.purgeHolds, opensOf_map]

@[simp ↓] theorem State.freeRefs_ground (s : State) (kind slot : Nat) : (s.freeRefs kind slot).ground = s.ground := by simp [State.freeRefs]

@[simp ↓] theorem State.discardBoundary_ground (s : State) (v : Uno) : (s.discardBoundary v).ground = s.ground := by simp [State.discardBoundary]

@[simp ↓] theorem State.resetPartition_ground (s : State) (v : Uno) (c : Ctx) : (s.resetPartition v c).ground = s.ground := by
  simp [State.resetPartition]

@[simp ↓] theorem State.clearPartition_ground (s : State) (slot : Uno) (g : Group) : (s.clearPartition slot g).ground = s.ground := by
  unfold State.clearPartition
  extract_lets c cart auth s1 s2 s3 s4 s5
  have h2 : s2.ground = s.ground := by
    refine (State.ground_foldl fun t i => ?_).trans (by simp [s1, opensOf_map])
    (repeat' split) <;> simp
  have h3 : s3.ground = s2.ground := by
    refine State.ground_foldl fun t i => ?_
    (repeat' split) <;> simp
  simp [s5, s4, h3, h2]

@[simp ↓] theorem State.diedEvent_ground (s : State) (kind slot : Nat) : (s.diedEvent kind slot).ground = s.ground := by simp [State.diedEvent]

@[simp ↓] theorem State.dropJob_ground (s : State) (slot : Nat) : (s.dropJob slot).ground = s.ground := by
  unfold State.dropJob
  dsimp only
  (repeat' split) <;> simp

@[simp ↓] theorem State.dropGroup_ground (s : State) (slot : Uno) : (s.dropGroup slot).ground = s.ground := by
  unfold State.dropGroup
  split <;> simp

@[simp ↓] theorem State.disarmNow_ground (s : State) (slot : Nat) : (s.disarmNow slot).ground = s.ground := by
  unfold State.disarmNow
  dsimp only
  (repeat' split) <;> simp

@[simp ↓] theorem State.streamGone_ground (s : State) (slot : Nat) : (s.streamGone slot).ground = s.ground := by
  unfold State.streamGone
  split <;> simp

@[simp ↓] theorem State.perish_ground (s : State) (kind slot : Nat) : (s.perish kind slot).ground = s.ground := by simp [State.perish]

@[simp ↓] theorem State.reapN_ground (n : Nat) (s : State) : (State.reapN n s).ground = s.ground := by
  induction n generalizing s with
  | zero => rfl
  | succ n ih =>
    unfold State.reapN
    split <;> simp [ih]

@[simp ↓] theorem State.reap_ground (s : State) : s.reap.ground = s.ground := by simp [State.reap]

@[simp ↓] theorem State.loneFolio_ground (s : State) (p h : Nat) (c : Ctx) : (s.loneFolio p h c).ground = s.ground := by
  unfold State.loneFolio
  split <;> simp

@[simp ↓] theorem State.loneFolios_ground (s : State) (p : Nat) : (s.loneFolios p).ground = s.ground := by simp [State.loneFolios]

@[simp ↓] theorem State.setSector_ground (s : State) (die p : Nat) (v : Sector) : (s.setSector die p v).ground = s.ground := rfl

@[simp ↓] theorem State.writeOn_ground (s : State) (l : Nat) (programmed : Bool) (die : Nat) :
    (s.writeOn l programmed die).ground = s.ground := by
  unfold State.writeOn
  split <;> simp

@[simp ↓] theorem State.writeSector_ground (s : State) (l : Nat) (programmed : Bool) : (s.writeSector l programmed).ground = s.ground := by
  simp [State.writeSector]

@[simp ↓] theorem State.wornReport_ground (s : State) (ws : List (Nat × Nat)) : (s.wornReport ws).ground = s.ground := by
  unfold State.wornReport
  split <;> simp

@[simp ↓] theorem State.eraseSector_ground (s : State) (l : Nat) : (s.eraseSector l).ground = s.ground := by simp [State.eraseSector]

@[simp ↓] theorem State.setUpd_ground (s : State) (u : Update) : (s.setUpd u).ground = s.ground := by
  simp [State.setUpd]

@[simp ↓] theorem State.writeUpd_ground (s : State) (f : Update → Update) : (s.writeUpd f).ground = s.ground := by
  simp [State.writeUpd]

@[simp ↓] theorem State.slotState_ground (s : State) (i st : Nat) : (s.slotState i st).ground = s.ground := by simp [State.slotState]

@[simp ↓] theorem State.updReport_ground (s : State) (code i : Nat) : (s.updReport code i).ground = s.ground := by simp [State.updReport]

@[simp ↓] theorem State.abandon_ground (s : State) : s.abandon.ground = s.ground := by simp [State.abandon]

@[simp ↓] theorem State.dropWaiting_ground (s : State) (slot : Nat) : (s.dropWaiting slot).ground.busy = s.ground.busy := by
  exact (State.foldl_leaves (fun t : State => t.ground.busy) (fun t c => t.refuse_ground c _) _ _).trans (by simp)

theorem State.dropWaiting_taken {s : State} (h : s.ground.taken = false) (slot : Nat) : (s.dropWaiting slot).ground.taken = false :=
  List.foldlRecOn (motive := fun t : State => t.ground.taken = false) _ _ h (fun _ ht _ _ => State.completeFor_taken ht ..)

@[simp ↓] theorem State.cutFallen_ground (s : State) (slot : Nat) : (s.cutFallen slot).ground = s.ground := by
  unfold State.cutFallen
  refine (State.ground_foldl fun t e => ?_).trans (by simp)
  (repeat' split) <;> simp

@[simp ↓] theorem State.guardOut_ground (s : State) : s.guardOut.ground = s.ground := by simp [State.guardOut]

@[simp ↓] theorem State.guardPins_ground (s : State) : s.guardPins.ground = s.ground := by simp [State.guardPins]

@[simp ↓] theorem State.dropPortKeys_ground (s : State) : s.dropPortKeys.ground = s.ground := by simp [State.dropPortKeys]

@[simp ↓] theorem State.forget_ground (s : State) (slot : Nat) : (s.forget slot).ground = s.ground := by simp [State.forget]

@[simp ↓] theorem State.dropHolds_ground (s : State) (slot : Nat) (keep : Bool) : (s.dropHolds slot keep).ground = s.ground := by
  unfold State.dropHolds
  split
  · rfl
  · next x h => simp [State.setSession_ground _ _ _ _ h]

@[simp ↓] theorem State.closedEvent_ground (s : State) (slot reason : Nat) : (s.closedEvent slot reason).ground = s.ground := by
  simp [State.closedEvent]

/-- A session that closes frees its slot (R394). -/
@[simp ↓] theorem State.closeSession_ground (s : State) (slot reason : Nat) :
    (s.closeSession slot reason).ground.busy = s.ground.busy.shut slot := by
  unfold State.closeSession
  extract_lets keep s1 s2 s3 s4 s5 port q keyed pinned
  have h3 : s3.ground.busy = s.ground.busy := by
    have h1 : s1.ground.busy = s.ground.busy := by simp [s1]
    have h2 : s2.ground = s1.ground := by simp [s2]
    simp [s3, h2, h1]
  have h5 : s5.ground.busy = s.ground.busy.shut slot := by simp [s5, s4, h3]
  split
  · next hs =>
    rw [Ground.shut_of_free]
    exact Option.isSome_eq_false_iff.mpr hs
  have hpinned : pinned.ground.busy = s.ground.busy.shut slot := (congrArg Ground.busy s5.dropPortKeys_ground).trans h5
  split
  · simp [hpinned]
  · exact h5

/-- A session's end offers the port's response, or leaves it. -/
theorem State.closeSession_taken {s : State} (h : s.ground.taken = false) (slot reason : Nat) :
    (s.closeSession slot reason).ground.taken = false := by
  unfold State.closeSession
  extract_lets keep s1 s2 s3 s4 s5 port q keyed pinned
  have h5 : s5.ground.taken = false := by
    have h1 : s1.ground.taken = false := by simp [s1, State.dropWaiting_taken h]
    have h2 : s2.ground = s1.ground := by simp [s2]
    simp [s5, s4, s3, h2, h1, Ground.shut]
  have hpinned : pinned.ground.taken = false := h5
  split
  · exact h
  split
  · simp [hpinned]
  · exact h5

/-- The slots of a list freed one after the other. -/
theorem State.closeSessions_ground (reason : Nat) (l : List Nat) (s : State) :
    (l.foldl (fun t k => t.closeSession k reason) s).ground.busy = l.foldl Ground.shut s.ground.busy := by
  induction l generalizing s with
  | nil => rfl
  | cons k l ih => rw [List.foldl_cons, List.foldl_cons, ih, State.closeSession_ground]

/-- Once every session has closed, no slot is open. -/
@[simp ↓] theorem State.closeAll_ground (s : State) (reason : Nat) :
    (s.closeAll reason).ground.busy = { s.ground.busy with opens := fun _ => false } := by
  rw [State.closeAll, State.closeSessions_ground, Ground.foldl_shut]
  congr 1
  funext j
  by_cases hj : j ∈ s.openSlots
  · simp [hj]
  · simpa [hj, Ground.busy] using State.not_open_of_not_mem hj

@[simp ↓] theorem State.completeAll_ground (s : State) (status : Nat) : (s.completeAll status).ground.busy = s.ground.busy :=
  (State.foldl_leaves (fun t : State => t.ground.busy) (fun t c => t.refuse_ground c _) _ _).trans (by simp)

@[simp ↓] theorem State.startCapture_ground (s : State) (n slot : Nat) : (s.startCapture n slot).ground = s.ground := by
  unfold State.startCapture
  split
  · rfl
  · split <;> simp

@[simp ↓] theorem State.chainDone_ground (s : State) (n p place : Nat) : (s.chainDone n p place).ground = s.ground := by
  unfold State.chainDone
  dsimp only
  (repeat' split) <;> simp

@[simp ↓] theorem State.hopFlags_ground (s : State) (h : Hop) : (s.hopFlags h).ground = s.ground := by
  unfold State.hopFlags
  split <;> simp

@[simp ↓] theorem State.completeHop_ground (s : State) (n status : Nat) : (s.completeHop n status).ground = s.ground := by
  unfold State.completeHop
  dsimp only
  (repeat' split) <;> simp

@[simp ↓] theorem State.resetHop_ground (s : State) (n : Nat) : (s.resetHop n).ground = s.ground := by
  unfold State.resetHop
  split <;> simp

@[simp ↓] theorem State.cutJobs_ground (s : State) : s.cutJobs.ground = s.ground := by
  unfold State.cutJobs
  refine (State.ground_foldl fun t e => ?_).trans (by simp)
  (repeat' split) <;> simp

@[simp ↓] theorem State.restartTapChains_ground (s : State) : s.restartTapChains.ground = s.ground := by simp [State.restartTapChains]

@[simp ↓] theorem State.packageWarm_ground (s : State) : s.packageWarm.ground = s.ground := by simp [State.packageWarm]

@[simp ↓] theorem State.unloadAll_ground (s : State) (reason : Nat) : (s.unloadAll reason).ground = s.ground := by simp [State.unloadAll]

@[simp ↓] theorem State.endStreams_ground (s : State) (reason : Nat) : (s.endStreams reason).ground = s.ground := by simp [State.endStreams]

@[simp ↓] theorem State.dropExports_ground (s : State) : s.dropExports.ground = s.ground := by
  unfold State.dropExports
  refine (State.ground_foldl fun t e => ?_).trans (by simp)
  (repeat' split) <;> simp

@[simp ↓] theorem State.hubEnds_ground (s : State) (lossReason closeReason : Nat) (undrained : List Undrained) :
    (s.hubEnds lossReason closeReason undrained).ground.busy = { s.ground.busy with opens := fun _ => false } := by
  simp [State.hubEnds]

@[simp ↓] theorem State.emptyDirectories_ground (s : State) : s.emptyDirectories.ground = s.ground := by simp [State.emptyDirectories]

@[simp ↓] theorem State.destroyPartitions_ground (s : State) : s.destroyPartitions.ground = s.ground := by
  unfold State.destroyPartitions
  refine (State.ground_foldl fun t e => ?_).trans (by simp)
  (repeat' split) <;> simp

end Sys2Proof.Machine

/-! SUPPORT. The port link (R297 to R303, R312 to R315): its words, the judgement of a request, and the time-outs. -/

namespace Sys2Proof.Machine

/-! ### What the link's words change -/

/-- The state but for the port and the cartouche path, which alone take the link's words and their failures. -/
def State.offLink (s : State) : State := { s with port := {}, cart := {} }

theorem State.eq_of_offLink {s t : State} (h : t.offLink = s.offLink) : t = { s with port := t.port, cart := t.cart } :=
  congrArg (fun u : State => { u with port := t.port, cart := t.cart }) h

theorem State.portReport_eq (s : State) (code : Nat) : s.portReport code = { s with cart := (s.portReport code).cart } :=
  State.reportHub_eq ..

theorem State.portReport_offLink (s : State) (code : Nat) : (s.portReport code).offLink = s.offLink := by
  rw [State.portReport_eq]
  rfl

theorem State.framingError_offLink (s : State) : s.framingError.offLink = s.offLink := State.portReport_offLink ..

theorem State.framingError_port (s : State) :
    s.framingError.port = { s.port.dropPartial with framing := sat16 s.port.framing, hunting := true } := by
  rw [State.framingError, State.portReport_eq]

/-- A word of the link changes nothing but the port and what its failures report. -/
theorem State.inWord_offLink (n : Nat) (w : Word) (s : State) : (State.inWord n w s).offLink = s.offLink := by
  induction n generalizing w s with
  | zero => rfl
  | succ n ih =>
    unfold State.inWord
    extract_lets p part q all r u
    split
    · split
      · rfl
      · exact s.framingError_offLink
    split
    · exact s.framingError_offLink
    split
    · rfl
    split
    · rfl
    split
    · rfl
    split
    · exact State.foldl_leaves State.offLink (fun t x => ih x t) _ _
    · exact State.portReport_offLink ..

theorem State.lineIn_offLink (s : State) (f : LineFrame) : (s.lineIn f).offLink = s.offLink := by
  unfold State.lineIn
  extract_lets port s0 s1
  have h1 : s1.offLink = s.offLink := State.foldl_leaves State.offLink (fun t w => t.inWord_offLink 516 w) _ s0
  split
  · rfl
  split
  · exact s1.framingError_offLink.trans h1
  · exact h1

theorem State.lineIn_eq (s : State) (f : LineFrame) : s.lineIn f = { s with port := (s.lineIn f).port, cart := (s.lineIn f).cart } :=
  State.eq_of_offLink (s.lineIn_offLink f)

/-! ### A request is judged (R299, R312) -/

theorem Port.takePacket_eq (p : Port) : p.takePacket = { p with inWords := p.takePacket.inWords } := by
  unfold Port.takePacket
  split
  · rfl
  · split <;> rfl

section
open Sys2Proof.Claims

/-- The port once a request has left the queue and is accepted. -/
def Port.accepting (p : Port) (r : Request) (t : Time) : Port :=
  { p.takePacket with sessionFresh := false, seq := r.seq, lastCrc := r.crc, lastReqT := t }

variable {s : State} {r : Request} {x : Session}

theorem opened_open (r : Request) (h : s.session portSlot = some x) :
    opened s r = { s with port := s.port.accepting r s.pkg.meridian } := by
  unfold opened
  rw [h]
  rfl

theorem opened_new (r : Request) (h : s.session portSlot = none) :
    opened s r = (({ s with port := s.port.accepting r s.pkg.meridian } : State).setSession portSlot (some (portSession s))).bumpGen := by
  unfold opened
  rw [h]
  rfl

theorem opened_session (s : State) (r : Request) : ∃ x, (opened s r).session portSlot = some x := by
  cases h : s.session portSlot with
  | some x => exact ⟨x, by rw [opened_open r h]; exact h⟩
  | none => exact ⟨portSession s, by rw [opened_new r h]; exact State.setSession_self ..⟩

theorem State.openPort_open (h : s.session portSlot = some x) : s.openPort = s := if_pos (congrArg Option.isSome h)

theorem State.openPort_new (h : s.session portSlot = none) :
    s.openPort = (s.setSession portSlot (some (portSession s))).bumpGen := if_neg (by rw [h]; exact Bool.false_ne_true)

/-- A request that is accepted, before the session opens. -/
def State.accepting (s : State) (r : Request) : State :=
  { s with port := { s.port.takePacket with seq := r.seq, lastCrc := r.crc, lastReqT := s.pkg.meridian } }

theorem State.accepting_opened (s : State) (r : Request) :
    ({ (s.accepting r).openPort with port := { (s.accepting r).openPort.port with sessionFresh := false } } : State) = opened s r := by
  cases hs : s.session portSlot with
  | some x =>
    rw [opened_open r hs, State.openPort_open (s := s.accepting r) hs]
    rfl
  | none =>
    rw [opened_new r hs, State.openPort_new (s := s.accepting r) hs]
    rfl

/-- An accepted request executes in the state that it opens; one out of Table PT-4 is answered there with BAD_REQUEST. -/
theorem State.judgeRequest_accepted (h : Accepted s r) (reply : Nat) (fields served : Bool) (act : State → State) :
    s.judgeRequest r reply fields served act =
      if !(r.plain && fields) then (opened s r).respond reply Pt.badRequest []
      else if !s.portOpen served then (opened s r).respond reply Pt.lockdown []
      else act (opened s r) := by
  obtain ⟨-, -, -, hlive, hseq⟩ := h
  have hnext : (s.port.sessionFresh || (s.session portSlot).isNone || r.seq == s.port.seq + 1) = true := by simpa [or_assoc] using hseq
  have hdead : ¬ s.pkg.bothDead = true := Bool.eq_false_iff.mp hlive
  unfold State.judgeRequest
  rw [if_pos hnext, if_neg hdead]
  have hserved : s.portOpen served = (opened s r).portOpen served := rfl
  rw [hserved, ← State.accepting_opened]
  rfl

/-! ### Requests of an undefined TYPE (Table PT-4) -/

/-- While a response waits, nothing at the head of the queue is answered. -/
theorem State.answerUndefined_busy (h : s.port.taken = false) : s.answerUndefined = s := by
  unfold State.answerUndefined State.portReady
  rw [h]
  split <;> rfl

/-- While a command of the port runs, nothing at the head of the queue is answered. -/
theorem State.answerUndefined_commanding (h : s.host.inflight.any (fun i => i.c.queue.isNone) = true) : s.answerUndefined = s := by
  unfold State.answerUndefined State.portReady
  rw [h, Bool.not_true, Bool.and_false]
  split <;> rfl

/-- A request of Table PT-4 is left to its own row. -/
theorem State.answerUndefined_defined (h : s.port.request = some r) (h1 : 1 ≤ r.type) (h7 : r.type ≤ 7) : s.answerUndefined = s := by
  unfold State.answerUndefined
  rw [h]
  exact if_neg (by simp [h1, h7])

theorem State.answerUndefined_none (h : s.port.request = none) : s.answerUndefined = s := by
  unfold State.answerUndefined
  rw [h]

theorem State.answerUndefined_undefined (h : Accepted s r) (ht : r.type = 0 ∨ 7 < r.type) :
    s.answerUndefined = (opened s r).respond undefinedReply Pt.badRequest [] := by
  obtain ⟨-, hreq, hready, -, -⟩ := id h
  have htype : ¬(1 ≤ r.type ∧ r.type ≤ 7) := by omega
  unfold State.answerUndefined
  rw [hreq]
  simp [hready, htype, State.judgeRequest_accepted h]

@[simp] theorem State.respond_answered (s : State) (t st : Nat) (ws : List Word) :
    (s.respond t st ws).answerUndefined = s.respond t st ws := State.answerUndefined_busy rfl

/-! ### Request rows (R297 to R300, Table PT-4) -/

section
variable {s : State} {f : LineFrame} {r : Request} {type : Nat} {fields : Request → Bool} {served : Bool}
  {act : Request → State → State}

/-- A row leaves the request of another TYPE in the queue. -/
theorem State.portRequest_other (ha : s.pkg.aonUp = true) (h : (s.lineIn f).port.request = some r) (ht : r.type ≠ type) :
    s.portRequest f type fields served act = (s.lineIn f).answerUndefined := by
  unfold State.portRequest
  simp [ha, h, ht]

/-- A row judges the request of its TYPE once the previous response has been taken. -/
theorem State.portRequest_judges (ha : s.pkg.aonUp = true) (h : (s.lineIn f).port.request = some r) (ht : r.type = type)
    (hready : (s.lineIn f).portReady = true) : s.portRequest f type fields served act =
      ((s.lineIn f).judgeRequest r (type + 0x80) (fields r) served (act r)).answerUndefined := by
  unfold State.portRequest
  simp [ha, h, ht, hready]

theorem State.aonUp_lineIn (s : State) (f : LineFrame) : (s.lineIn f).pkg = s.pkg := by rw [State.lineIn_eq]

theorem State.portRequest_acts (h : Accepted (s.lineIn f) r) (ht : r.type = type) (hp : r.plain = true) (hf : fields r = true)
    (hl : (s.lineIn f).life.lockdown = false) :
    s.portRequest f type fields served act = (act r (opened (s.lineIn f) r)).answerUndefined := by
  obtain ⟨ha, hreq, hready, -, -⟩ := id h
  rw [State.aonUp_lineIn] at ha
  rw [State.portRequest_judges ha hreq ht hready, State.judgeRequest_accepted h]
  simp [hp, hf, State.portOpen, hl]

end

/-- Each request row of a port is the form of its TYPE. -/
theorem exec_request {f : LineFrame} {ok : Bool} {x : Instr × Nat} (hx : x ∈ requests f ok) (s : State) :
    (1 ≤ x.2 ∧ x.2 ≤ 7) ∧ ∃ fields served act, exec x.1 s = .next (s.portRequest f x.2 fields served act) := by
  simp only [requests, List.mem_cons, List.not_mem_nil, or_false] at hx
  rcases hx with rfl | rfl | rfl | rfl | rfl | rfl <;> exact ⟨by simp, _, _, _, rfl⟩

/-! ### A request out of order (R299) -/

section
variable (hfresh : s.port.sessionFresh = false) (hopen : (s.session portSlot).isSome = true) (hseq : r.seq ≠ s.port.seq + 1)
  (reply : Nat) (fields served : Bool) (act : State → State)
include hfresh hopen hseq

theorem State.notNext : ¬(s.port.sessionFresh || (s.session portSlot).isNone || r.seq == s.port.seq + 1) = true := by
  have hother : (r.seq == s.port.seq + 1) = false := beq_eq_false_iff_ne.mpr hseq
  rw [hfresh, hother, Bool.false_or, Bool.or_false, Option.isNone_iff_eq_none]
  exact Option.isSome_iff_ne_none.mp hopen

theorem State.judgeRequest_retry (hr : r.seq = s.port.seq) (hc : r.crc = s.port.lastCrc) :
    s.judgeRequest r reply fields served act = { s with port := { s.port.takePacket with order := none, taken := false } } :=
  (if_neg (State.notNext hfresh hopen hseq)).trans (if_pos (by simp [hr, hc]))

theorem State.judgeRequest_misordered (hr : ¬(r.seq = s.port.seq ∧ r.crc = s.port.lastCrc)) :
    s.judgeRequest r reply fields served act = ({ s with port := s.port.takePacket } : State).offer
      { type := reply, seq := r.seq, status := Pt.seqOrder, payload := [word (s.port.seq + 1).toNat] } :=
  (if_neg (State.notNext hfresh hopen hseq)).trans (if_neg (by simpa using hr))

end

end

/-! ### The words of a frame (R300 to R302) -/

/-- An incomplete packet is held whole. -/
theorem partialOf_incomplete {h : Word} {qs : List Word} (n : Nat) (hlen : (h :: qs).length < packetLen h) :
    partialOf n (h :: qs) = h :: qs := by
  cases n with
  | zero => rfl
  | succ n => exact if_neg (Nat.not_le.mpr hlen)

/-- The link with these words waiting, the last of which comes now. -/
def State.holding (s : State) (ws : List Word) : State := { s with port := { s.port with inWords := ws, partialT := s.pkg.meridian } }

theorem State.inWord_header {s : State} {w : Word} (n : Nat) (hq : s.port.inWords = []) (hh : headerOk s.port.hunting w = true) :
    State.inWord (n + 1) w s = s.holding [w] := by
  have hpart : s.port.partialHeld = [] := by rw [Port.partialHeld, hq]; rfl
  unfold State.inWord
  simp [hpart, hh, hq, State.holding]

section
variable {s : State} {h : Word} {qs : List Word} (hroom : (h :: qs).length < 1030)
include hroom

/-- A word that does not end the packet in progress. -/
theorem State.inWord_body (n : Nat) (w : Word) (hlen : (h :: qs).length + 1 < packetLen h) :
    State.inWord (n + 1) w (s.holding (h :: qs)) = s.holding (h :: qs ++ [w]) := by
  have hpart : (s.holding (h :: qs)).port.partialHeld = h :: qs := partialOf_incomplete _ (Nat.lt_of_succ_lt hlen)
  have hfull : ¬ 1030 ≤ (s.holding (h :: qs)).port.inWords.length := Nat.not_le.mpr hroom
  have hshort : (h :: qs ++ [w]).length < packetLen ((h :: qs ++ [w]).headD 0) := by simpa using hlen
  simp only [State.inWord, hpart, List.isEmpty_cons, Bool.false_and, Bool.false_eq_true, if_false, if_neg hfull]
  exact if_pos hshort

variable {w : Word} (n : Nat) (hlen : (h :: qs).length + 1 = packetLen h)
include hlen

theorem State.inWord_trailer (hw : trailer (h :: qs) = w) : State.inWord (n + 1) w (s.holding (h :: qs)) =
    { s.holding (h :: qs ++ [w]) with port := { (s.holding (h :: qs ++ [w])).port with hunting := false } } := by
  have hpart : (s.holding (h :: qs)).port.partialHeld = h :: qs := partialOf_incomplete _ (hlen ▸ Nat.lt_succ_self _)
  have hfull : ¬ 1030 ≤ (s.holding (h :: qs)).port.inWords.length := Nat.not_le.mpr hroom
  have hwhole : ¬(h :: qs ++ [w]).length < packetLen ((h :: qs ++ [w]).headD 0) := by simp [← hlen]
  have hsum : (trailer (h :: qs ++ [w]).dropLast == w) = true := by rw [List.dropLast_concat, hw, beq_self_eq_true]
  simp only [State.inWord, hpart, List.isEmpty_cons, Bool.false_and, Bool.false_eq_true, if_false, if_neg hfull]
  exact (if_neg hwhole).trans (if_pos hsum)

theorem State.inWord_badTrailer (hw : trailer (h :: qs) ≠ w) (hhunt : s.port.hunting = false) :
    State.inWord (n + 1) w (s.holding (h :: qs)) = ({ s.holding [] with port := { (s.holding []).port with
      crcErr := sat16 s.port.crcErr, hunting := true } } : State).portReport 3 := by
  have hpart : (s.holding (h :: qs)).port.partialHeld = h :: qs := partialOf_incomplete _ (hlen ▸ Nat.lt_succ_self _)
  have hfull : ¬ 1030 ≤ (s.holding (h :: qs)).port.inWords.length := Nat.not_le.mpr hroom
  have hwhole : ¬(h :: qs ++ [w]).length < packetLen ((h :: qs ++ [w]).headD 0) := by simp [← hlen]
  have hsum : ¬(trailer (h :: qs ++ [w]).dropLast == w) = true := by
    rw [List.dropLast_concat]
    simpa using hw
  simp only [State.inWord, hpart, List.isEmpty_cons, Bool.false_and, Bool.false_eq_true, if_false, if_neg hfull]
  refine (if_neg hwhole).trans ((if_neg hsum).trans ((if_neg (Bool.eq_false_iff.mp hhunt)).trans ?_))
  have hnone : (s.holding (h :: qs)).port.inWords.take ((s.holding (h :: qs)).port.inWords.length - (h :: qs).length) = [] := by
    change (h :: qs).take ((h :: qs).length - (h :: qs).length) = []
    rw [Nat.sub_self, List.take_zero]
  rw [hnone]
  rfl

end

/-- Payload words that come one after the other. -/
theorem State.foldl_body {s : State} {h : Word} {qs : List Word} (ps : List Word) (hroom : (h :: qs).length + ps.length < 1030)
    (hlen : (h :: qs).length + ps.length < packetLen h) :
    ps.foldl (fun t w => State.inWord 516 w t) (s.holding (h :: qs)) = s.holding (h :: qs ++ ps) := by
  induction ps generalizing qs with
  | nil => rw [List.append_nil]; rfl
  | cons w ps ih =>
    simp only [List.length_cons] at hroom hlen
    rw [List.foldl_cons, State.inWord_body (by simp only [List.length_cons]; omega) 515 w (by simp only [List.length_cons]; omega),
      List.cons_append, ih (by simp; omega) (by simp; omega)]
    simp

section
variable {s : State} {f : LineFrame} {h c : Word} {ps : List Word} (hline : s.scanPort = false) (hq : s.port.inWords = [])
  (hh : headerOk s.port.hunting h = true) (hps : ps.length = bitsOf h.toNat 16 10) (hf : f.words = h :: ps ++ [c])
  (hb : f.broken = false)
include hline hq hh hps hf hb

/-- The line's sampler with the half-bit that the preamble of a frame set. -/
def State.halfbitSet (s : State) (n : Nat) : State := { s with port := { s.port with halfbit := n } }

omit hq hh hps hf in
theorem State.lineIn_whole : s.lineIn f = f.words.foldl (fun t w => State.inWord 516 w t) (s.halfbitSet f.halfbit) := by
  unfold State.lineIn
  rw [if_neg (Bool.eq_false_iff.mp hline), hb]
  rfl

/-- The words of a whole frame but its trailer wait, and the trailer comes. -/
theorem State.lineIn_frame : (h :: ps).length < 1030 ∧ (h :: ps).length + 1 = packetLen h ∧ s.lineIn f =
    State.inWord 516 c ((s.halfbitSet f.halfbit).holding (h :: ps)) := by
  have hshort : bitsOf h.toNat 16 10 ≤ 513 := by
    simp only [headerOk, Bool.and_eq_true, decide_eq_true_eq] at hh
    exact hh.1.2
  have hlen : (h :: ps).length + 1 = packetLen h := by simp [packetLen, hps]
  have hroom : ([h] : List Word).length + ps.length < 1030 := by simp only [List.length_cons, List.length_nil]; omega
  have hbody : (h :: ps).foldl (fun t w => State.inWord 516 w t) (s.halfbitSet f.halfbit) = (s.halfbitSet f.halfbit).holding (h :: ps) := by
    rw [List.foldl_cons, State.inWord_header (s := s.halfbitSet f.halfbit) 515 hq hh,
      State.foldl_body ps hroom (by rw [← hlen]; simp [Nat.add_comm])]
    rfl
  refine ⟨by simpa [Nat.add_comm] using hroom, hlen, ?_⟩
  rw [State.lineIn_whole hline hb, hf, List.foldl_append, hbody]
  rfl

theorem State.lineIn_good (hc : c = trailer (h :: ps)) : s.lineIn f = { s with port := { s.port with
    halfbit := f.halfbit, inWords := f.words, partialT := s.pkg.meridian, hunting := false } } := by
  obtain ⟨hroom, hlen, hin⟩ := State.lineIn_frame hline hq hh hps hf hb
  rw [hin, State.inWord_trailer hroom 515 hlen hc.symm, hf]
  rfl

theorem State.lineIn_bad (hc : c ≠ trailer (h :: ps)) (hhunt : s.port.hunting = false) : s.lineIn f =
    ({ s with port := { s.port with halfbit := f.halfbit, inWords := [], partialT := s.pkg.meridian,
                                    crcErr := sat16 s.port.crcErr, hunting := true } } : State).portReport 3 := by
  obtain ⟨hroom, hlen, hin⟩ := State.lineIn_frame hline hq hh hps hf hb
  rw [hin, State.inWord_badTrailer (s := s.halfbitSet f.halfbit) hroom 515 hlen hc.symm hhunt]
  rfl

end

/-- The one packet of a queue, whole (Table PT-3). -/
theorem requestAt_whole {h c : Word} {ps : List Word} (hps : ps.length = bitsOf h.toNat 16 10) : requestAt (h :: ps ++ [c]) =
    some { type := bitsOf h.toNat 40 8, seq := BitVec.ofNat 8 (bitsOf h.toNat 32 8), payload := ps, crc := c.setWidth 32,
           plain := bitsOf h.toNat 0 16 == 0 && bitsOf h.toNat 26 6 == 0 } := by
  simp [requestAt, packetLen, ← hps]

/-! ### Link failures and time-outs (R301, R312 to R315) -/

theorem execPartialPacketStall_late {s : State} (ha : s.pkg.aonUp = true) (hp : s.port.partialHeld ≠ [])
    (ht : s.port.partialT.toNat + 1000000000 ≤ s.now) : exec .partialPacketStall s =
      .next (({ s with port := { s.port.dropPartial with stalls := sat16 s.port.stalls, hunting := true } } : State).portReport 1) :=
  if_neg (by simp [ha, hp, Nat.not_lt.mpr ht])

/-- A session that closes leaves its slot free (R394). -/
theorem State.closeSession_gone (s : State) (slot reason : Nat) : (s.closeSession slot reason).session slot = none :=
  Option.isSome_eq_false_iff.mp ((congrFun (congrArg Ground.opens (State.closeSession_ground s slot reason)) slot).trans
    (Function.update_self ..)) |> Option.isNone_iff_eq_none.mp

/-- A session that closes, but for what the port session has of its own (R394). -/
def State.vacated (s : State) (slot reason : Nat) : State :=
  let keep := reason == Reason.fwActivate || reason == Reason.fwTrial || reason == Reason.hubWarmReset
  let s1 := (s.dropWaiting slot).dropHolds slot keep
  let s2 := ((s1.engines.filter (fun e => e.2.owner == some slot)).map (·.1)).foldl (fun t e => t.returnEngine e 3) s1
  let s3 := if s2.upd.owner = some slot then s2.abandon else s2
  let s4 := ((s3.closedEvent slot reason).setSession slot none).bumpGen
  (s4.cutFallen slot).forget slot

/-- What goes with the port session beside what goes with every session (R312). -/
def State.portLeft (s : State) : State :=
  let q := { s.port with sessionFresh := true, chall := none, aperture := [], staging := [] }
  let s1 := s.dropPortKeys
  let s2 := { s1 with port := { q with bscan := q.bscan && s1.openState } }
  if q.bscan && !s1.openState then s2.guardPins else s2

theorem State.closeSession_port {s : State} (h : (s.session portSlot).isSome = true) (reason : Nat) :
    s.closeSession portSlot reason = (s.vacated portSlot reason).portLeft :=
  if_neg (by simpa using Option.isSome_iff_ne_none.mp h)

theorem State.closeSession_host {s : State} {slot : Nat} (h : (s.session slot).isSome = true) (hslot : slot ≠ portSlot) (reason : Nat) :
    s.closeSession slot reason = s.vacated slot reason :=
  (if_neg (by simpa using Option.isSome_iff_ne_none.mp h)).trans (if_neg hslot)

/-- The link's part of the port session is gone; the response stands. -/
theorem State.portLeft_port (s : State) : s.portLeft.port.sessionFresh = true ∧ s.portLeft.port.chall = none ∧
    s.portLeft.port.aperture = [] ∧ s.portLeft.port.staging = [] ∧ s.portLeft.port.response = s.port.response := by
  unfold State.portLeft
  dsimp only
  split <;> exact ⟨rfl, rfl, rfl, rfl, rfl⟩

theorem execIdleClose_late {s : State} (ho : (s.session portSlot).isSome = true) (hl : s.pkg.bothDead = false)
    (ht : s.port.lastReqT.toNat + s.regBits RegMap.cmpPtCfg 0x11200 48 16 * 1000000000 ≤ s.now) :
    exec .idleClose s = .next ((s.portReport 6).closeSession portSlot Reason.idle) :=
  if_pos ⟨ho, by rw [hl]; rfl, ht⟩

section
open Sys2Proof.Claims
variable {s : State} {f : LineFrame} {r : Request} {ok : Bool} {x : Instr × Nat} (hx : x ∈ requests f ok) (ha : s.pkg.aonUp = true)

section
variable (hreq : (s.lineIn f).port.request = some r) (ht : r.type = x.2) (hready : (s.lineIn f).portReady = true)
  (hfresh : (s.lineIn f).port.sessionFresh = false) (hopen : ((s.lineIn f).session portSlot).isSome = true)
  (hseq : r.seq ≠ (s.lineIn f).port.seq + 1)
include hx ha hreq ht hready hfresh hopen hseq

/-- A retry offers the stored response once more (R299). -/
theorem exec_request_retry (hr : r.seq = (s.lineIn f).port.seq) (hc : r.crc = (s.lineIn f).port.lastCrc) :
    exec x.1 s = .next { s.lineIn f with port := { (s.lineIn f).port.takePacket with order := none, taken := false } } := by
  obtain ⟨-, fields, served, act, he⟩ := exec_request hx s
  rw [he, State.portRequest_judges ha hreq ht hready, State.judgeRequest_retry hfresh hopen hseq _ _ _ _ hr hc,
    State.answerUndefined_busy rfl]

/-- A request of another SEQ is answered with SEQ_ORDER (R299). -/
theorem exec_request_misordered (hr : ¬(r.seq = (s.lineIn f).port.seq ∧ r.crc = (s.lineIn f).port.lastCrc)) :
    exec x.1 s = .next (({ s.lineIn f with port := (s.lineIn f).port.takePacket } : State).offer
      { type := x.2 + 0x80, seq := r.seq, status := Pt.seqOrder, payload := [word ((s.lineIn f).port.seq + 1).toNat] }) := by
  obtain ⟨-, fields, served, act, he⟩ := exec_request hx s
  rw [he, State.portRequest_judges ha hreq ht hready, State.judgeRequest_misordered hfresh hopen hseq _ _ _ _ hr,
    State.answerUndefined_busy rfl]

end

include hx ha in
/-- A request with reserved header bits is answered with BAD_REQUEST in the state that it opens (Tables PT-3, PT-5). -/
theorem exec_request_reserved (h : Accepted (s.lineIn f) r) (ht : r.type = x.2) (hp : r.plain = false) :
    exec x.1 s = .next ((opened (s.lineIn f) r).respond (x.2 + 0x80) Pt.badRequest []) := by
  obtain ⟨-, hreq, hready, -, -⟩ := id h
  obtain ⟨-, fields, served, act, he⟩ := exec_request hx s
  rw [he, State.portRequest_judges ha hreq ht hready, State.judgeRequest_accepted h, hp, Bool.false_and, Bool.not_false, if_pos rfl,
    State.respond_answered]

include hx ha in
/-- No row executes a request of an undefined TYPE, and each answers it (Table PT-4). -/
theorem exec_request_undefined (h : Accepted (s.lineIn f) r) (ht : r.type = 0 ∨ 7 < r.type) :
    exec x.1 s = .next ((opened (s.lineIn f) r).respond undefinedReply Pt.badRequest []) := by
  obtain ⟨-, hreq, -, -, -⟩ := id h
  obtain ⟨⟨hlow, hhigh⟩, fields, served, act, he⟩ := exec_request hx s
  rw [he, State.portRequest_other ha hreq (by omega), State.answerUndefined_undefined h ht]

end

/-- Settles O47: what a frame's words leave in the queue, how a request out of order or out of Table PT-4 is judged, and the four
time-outs. -/
theorem portSequenceAndTimeouts : Obligations.PortSequenceAndTimeouts := by
  intro s f r ok h ps c ha v
  refine ⟨fun hline hq hh hps hf hb => ⟨fun hc => ?_, fun hc hhunt => ?_⟩, fun x hx => ⟨fun hreq ht hready hfresh hopen hseq =>
      ⟨fun hr hcrc => ⟨_, exec_request_retry hx ha hreq ht hready hfresh hopen hseq hr hcrc, rfl, rfl, ?_⟩, fun hr =>
        ⟨_, exec_request_misordered hx ha hreq ht hready hfresh hopen hseq hr, rfl, rfl, ?_⟩⟩,
      fun hacc => ⟨exec_request_reserved hx ha hacc, exec_request_undefined hx ha hacc⟩⟩,
    fun hp ht => ⟨_, execPartialPacketStall_late ha hp ht, ?_⟩, fun c hc ht => ?_, fun e he ht => ?_,
    fun ho hl ht => ⟨_, execIdleClose_late ho hl ht, State.closeSession_gone .., ?_⟩⟩
  · have hv : v = _ := State.lineIn_good hline hq hh hps hf hb hc
    refine ⟨hv, ?_⟩
    rw [hv, Port.request, hf]
    exact requestAt_whole hps
  · have hv : v = _ := State.lineIn_bad hline hq hh hps hf hb hc hhunt
    rw [hv, State.portReport_eq]
    exact ⟨rfl, rfl, rfl, rfl, rfl, rfl, rfl, rfl⟩
  · rw [Port.takePacket_eq]
    exact ⟨rfl, rfl, rfl⟩
  · rw [Port.takePacket_eq]
    exact ⟨rfl, rfl, rfl⟩
  · rw [State.portReport_eq]
    exact ⟨rfl, rfl, rfl, rfl⟩
  · change execNonceExpiry s = _
    unfold execNonceExpiry
    rw [hc]
    exact congrArg _ (if_pos ht)
  · change execLockoutExpiry s = _
    unfold execLockoutExpiry
    rw [he]
    exact congrArg _ (if_pos ht)
  · have ho6 : ((s.portReport 6).session portSlot).isSome = true := by rw [State.portReport_eq]; exact ho
    rw [State.closeSession_port ho6]
    exact (State.portLeft_port _).1

end Sys2Proof.Machine

/-! SUPPORT. Accepted port requests (R297, R298, R312 to R315, R377): READ, WRITE, CHALLENGE, RESPOND, COMMAND and CLOSE. -/

namespace Sys2Proof.Machine

section
open Sys2Proof.Claims
variable {s : State} {f : LineFrame} {r : Request}

/-! ### READ and WRITE (R297, R298) -/

theorem State.readMany_length (off : Nat) (w8 : Bool) (n i : Nat) (s : State) : (State.readMany off w8 n i s).2.length = n := by
  induction n generalizing i s with
  | zero => rfl
  | succ n ih => exact congrArg (· + 1) (ih (i + 1) (s.barRead .port (off + i * widthOf w8) w8))

theorem State.readMany_one (off : Nat) (w8 : Bool) (s : State) :
    State.readMany off w8 1 0 s = (s.barRead .port off w8, [(s.barRead .port off w8).host.readData]) := by
  simp [State.readMany]

theorem State.writeMany_one (off : Nat) (w8 : Bool) (v : Word) (s : State) :
    State.writeMany off w8 0 [v] s = s.barWrite .port off w8 v := by
  simp [State.writeMany]

/-- What the accepted request of a row does is what the row does, unless another request is then answered at once. -/
theorem exec_accepted {i : Instr} {type : Nat} {fields : Request → Bool} {served : Bool} {act : Request → State → State}
    (hi : exec i s = .next (s.portRequest f type fields served act)) (h : Accepted (s.lineIn f) r) (ht : r.type = type)
    (hp : r.plain = true) (hf : fields r = true) (hl : (s.lineIn f).life.lockdown = false)
    (hend : (act r (opened (s.lineIn f) r)).answerUndefined = act r (opened (s.lineIn f) r)) :
    exec i s = .next (act r (opened (s.lineIn f) r)) := by
  rw [hi, State.portRequest_acts h ht hp hf hl, hend]

/-! ### CHALLENGE and RESPOND (R313 to R315) -/

theorem State.portKeyOk_opened (s : State) (r : Request) (key : Nat) (ctx : Ctx) :
    (opened s r).portKeyOk key ctx = s.portKeyOk key ctx := by
  cases hs : s.session portSlot with
  | some x => rw [opened_open r hs]; rfl
  | none => rw [opened_new r hs]; rfl

/-- The challenge that a CHALLENGE draws. -/
def State.newChallenge (s : State) (key level : Nat) (ctx : Ctx) : Challenge :=
  { nonce := Config.drbg256 s.drawn, key := key, level := level, ctx := ctx, endT := word (s.now + 10000000000) }

/-- Without a lockout, a CHALLENGE for an accepted key draws a nonce that lives 10 s. -/
theorem State.challenge_granted {key level : Nat} {ctx : Ctx} (hlock : s.portLocked = false) (hkey : s.portKeyOk key ctx = true) :
    s.challenge key level ctx =
      ({ s with drawn := s.drawn + 1, port := { s.port with chall := some (s.newChallenge key level ctx) } } : State).respond 0x84 Pt.ok
        ((rangeFrom 0 4).map (fun i => (s.newChallenge key level ctx).nonce.extractLsb' (64 * i) 64)) := by
  unfold State.challenge
  rw [hlock, hkey]
  rfl

theorem State.challenge_locked {key level : Nat} {ctx : Ctx} (hlock : s.portLocked = true) :
    s.challenge key level ctx = ({ s with port := { s.port with chall := none } } : State).respond 0x84 Pt.lockedOut [] :=
  if_pos hlock

/-- The state once the live challenge is spent. -/
def State.unchallenged (s : State) : State := { s with port := { s.port with chall := none } }

section
variable {ch : Challenge} {x : Session} (hch : s.port.chall = some ch) (hx : s.session portSlot = some x)
  (hlive : s.now < ch.endT.toNat) (hkey : s.portKeyOk ch.key ch.ctx = true)
include hch hx hlive hkey

/-- The operator's signature adds platform rights until the session closes. -/
theorem State.respondTo_operator (h1 : ch.key = 1) : s.respondTo true =
    (s.unchallenged.portPass.setSession portSlot (some { x with operator := { x.operator with viaPort := true } })).respond 0x85 Pt.ok
      [word ((s.unchallenged.portPass.setSession portSlot (some { x with operator := { x.operator with viaPort := true } })).levelCode portSlot +
        256 * x.held s.now)] := by
  have hgrant : x.challengeGrant s.now ch = { x with operator := { x.operator with viaPort := true } } := by
    unfold Session.challengeGrant
    rw [h1]
    rfl
  unfold State.respondTo
  rw [hch, hx]
  dsimp only
  rw [if_neg (Nat.not_le.mpr hlive), hkey, hgrant, h1]
  simp [State.unchallenged, State.setSession_self]
  rfl

/-- A signature that fails is answered with AUTH_FAILED. -/
theorem State.respondTo_failed : s.respondTo false = s.unchallenged.portFail.respond 0x85 Pt.authFailed [] := by
  unfold State.respondTo
  rw [hch, hx]
  dsimp only
  rw [if_neg (Nat.not_le.mpr hlive), hkey]
  rfl

end

theorem State.portReport_port (s : State) (code : Nat) : (s.portReport code).port = s.port := by rw [State.portReport_eq]
theorem State.portReport_auth (s : State) (code : Nat) : (s.portReport code).auth = s.auth := by rw [State.portReport_eq]
theorem State.portReport_pkg (s : State) (code : Nat) : (s.portReport code).pkg = s.pkg := by rw [State.portReport_eq]

/-- FAILS counts a signature that fails (R315). -/
theorem State.portFail_port_few (h : s.port.fails < 3) :
    s.portFail.port = { s.port with fails := min 255 (s.port.fails + 1), auth := sat16 s.port.auth } := by
  have hfew : ¬ 4 ≤ min 255 (s.port.fails + 1) := by omega
  simp only [State.portFail, if_neg hfew, State.portReport_port]

/-- From the fourth on a lockout starts, each twice as long as the last (R315). -/
theorem State.portFail_port_many (h : 3 ≤ s.port.fails) : s.portFail.port = { s.port with
    fails := min 255 (s.port.fails + 1), auth := sat16 s.port.auth
    lockEnd := some (word (s.now + s.port.nextLock * 1000000000)), nextLock := min 64 (2 * s.port.nextLock) } := by
  have hmany : 4 ≤ min 255 (s.port.fails + 1) := by omega
  simp only [State.portFail, if_pos hmany, State.portReport_port, State.lockUntil, State.now, State.portReport_pkg]

theorem State.portFail_auth (s : State) : s.portFail.auth = s.auth := by
  simp only [State.portFail, apply_ite State.auth, State.portReport_auth, ite_self]

/-- What a signature that fails leaves (R315). -/
theorem State.respond_failed (s : State) : ∃ t, t = s.unchallenged.portFail.respond 0x85 Pt.authFailed [] ∧ t.port.chall = none ∧
    t.port.fails = min 255 (s.port.fails + 1) ∧
    t.port.response = some { type := 0x85, seq := s.port.seq, status := 3, payload := [] } ∧ t.auth = s.auth ∧
    (3 ≤ s.port.fails → t.port.lockEnd = some (word (s.now + s.port.nextLock * 1000000000)) ∧
      t.port.nextLock = min 64 (2 * s.port.nextLock)) ∧
    (s.port.fails < 3 → t.port.lockEnd = s.port.lockEnd ∧ t.port.nextLock = s.port.nextLock) := by
  refine ⟨_, rfl, ?_⟩
  simp only [State.respond, State.portFail_auth]
  rcases Nat.lt_or_ge s.port.fails 3 with h | h
  · have hport := State.portFail_port_few (s := s.unchallenged) h
    rw [hport]
    exact ⟨rfl, rfl, rfl, rfl, fun h' => absurd h (Nat.not_lt.mpr h'), fun _ => ⟨rfl, rfl⟩⟩
  · have hport := State.portFail_port_many (s := s.unchallenged) h
    rw [hport]
    exact ⟨rfl, rfl, rfl, rfl, fun _ => ⟨rfl, rfl⟩, fun h' => absurd h' (Nat.not_lt.mpr h)⟩

/-! ### COMMAND (R377, R378) -/

section
variable {e : List Byte} {bs : List Byte}

/-- An entry of the port as it enters the in-flight table. -/
def portEntry (e bs : List Byte) : InFlight :=
  { c := entryCtx none e, ring := 0, opcode := entryOp e, inline := entryInline e, arg := bs,
    object := entryObject (entryOp e) (entryInline e) }

def State.delivered (s : State) (e bs : List Byte) : State :=
  { s with host := { s.host with inflight := s.host.inflight ++ [portEntry e bs] } }

theorem State.takeEntry_port_passes (h : firstFail (s.entryChecks none e (.ok bs)) = none) :
    s.takeEntry none e (.ok bs) = s.delivered e bs := by
  unfold State.takeEntry
  rw [h]
  rfl

theorem State.takeEntry_port_refused {st : Nat} (h : firstFail (s.entryChecks none e (.ok bs)) = some st) :
    s.takeEntry none e (.ok bs) = (s.delivered e bs).refuse (entryCtx none e) st := by
  unfold State.takeEntry
  rw [h]
  rfl

/-- A refused command of the port is answered at once. -/
theorem State.refuse_port_taken {c : CmdCtx} (h : c.queue = none) (s : State) (st : Nat) : (s.refuse c st).port.taken = false := by
  unfold State.refuse State.complete State.completeFor
  rw [h]

end

/-! ### CLOSE and what a session leaves behind (R312, R394) -/

/-- Nothing but its session refers to a slot. -/
structure State.Alone (s : State) (slot : Nat) : Prop where
  waiting : s.host.waiting = []
  verify : s.auth.verify = []
  refs : s.host.refs = []
  engines : s.engines = []
  streams : s.trace.streams = []
  owner : s.upd.owner ≠ some slot

theorem State.dropWaiting_none {slot : Nat} (hw : s.host.waiting = []) (hv : s.auth.verify = []) : s.dropWaiting slot = s := by
  have hwait (p : Instr → Bool) : s.host.waiting.filter p = s.host.waiting := by rw [hw]; rfl
  have hver (p : Verify → Bool) : s.auth.verify.filter p = s.auth.verify := by rw [hv]; rfl
  have hgone (p : CmdCtx → Bool) : (s.host.waiting.filterMap heldCtx ++ s.auth.verify.map (·.c)).filter p = [] := by rw [hw, hv]; rfl
  unfold State.dropWaiting
  rw [hwait, hver, hgone]
  rfl

theorem State.dropHolds_alone {slot : Nat} {x : Session} (hx : s.session slot = some x) (hr : s.host.refs = []) :
    s.dropHolds slot false = s.setSession slot (some { x with holds := [] }) := by
  unfold State.dropHolds
  rw [hx]
  dsimp only
  simp only [Bool.false_and, Bool.false_eq_true, if_false, List.foldl_fixed]
  exact State.reap_noRefs hr

theorem State.cutFallen_none {slot : Nat} (h : s.trace.streams = []) : s.cutFallen slot = s := by
  unfold State.cutFallen
  rw [h]
  rfl

theorem State.closedEvent_eq (s : State) (slot reason : Nat) :
    s.closedEvent slot reason = { s with host := (s.closedEvent slot reason).host, port := (s.closedEvent slot reason).port } := by
  unfold State.closedEvent
  split
  · rfl
  · exact State.emit_eq ..

/-- The end of a session that nothing refers to is its event and its slot. -/
theorem State.vacated_alone {slot : Nat} {x : Session} (h : s.Alone slot) (hx : s.session slot = some x) {reason : Nat}
    (hkeep : (reason == Reason.fwActivate || reason == Reason.fwTrial || reason == Reason.hubWarmReset) = false) :
    s.vacated slot reason =
      ((((s.setSession slot (some { x with holds := [] })).closedEvent slot reason).setSession slot none).bumpGen).forget slot := by
  obtain ⟨hw, hv, hr, he, ht, ho⟩ := h
  have hnone : ((s.setSession slot (some { x with holds := [] })).closedEvent slot reason).trace.streams = [] := by
    rw [State.closedEvent_eq]
    exact ht
  simp only [State.vacated, hkeep, State.dropWaiting_none hw hv, State.dropHolds_alone hx hr, State.setSession_engines, he,
    List.filter_nil, List.map_nil, List.foldl_nil, State.setSession_upd, if_neg ho]
  exact congrArg (State.forget · slot) (State.cutFallen_none hnone)

theorem State.Alone.respond {slot : Nat} (h : s.Alone slot) (type st : Nat) (ws : List Word) : (s.respond type st ws).Alone slot :=
  ⟨h.waiting, h.verify, h.refs, h.engines, h.streams, h.owner⟩

theorem State.pushEvent_port (s : State) (q : Nat) (e : Event) : (s.pushEvent q e).port = s.port := by rw [State.pushEvent_eq]

/-- An event leaves the port's response. -/
theorem State.emit_response (s : State) (slot : Nat) (e : Event) : (s.emit slot e).port.response = s.port.response := by
  unfold State.emit
  split
  · rfl
  split
  · split
    · rfl
    · rw [State.pushEvent_port]
  · split
    · rw [State.pushEvent_port]
    · rfl

theorem State.vacated_response {slot : Nat} {x : Session} (h : s.Alone slot) (hx : s.session slot = some x) :
    (s.vacated slot Reason.close).port.response = s.port.response := by
  rw [State.vacated_alone h hx rfl]
  exact State.emit_response ..

end

section
open Sys2Proof.Claims

/-- What an accepted request leaves but for the session that it may open. -/
theorem opened_eq (s : State) (r : Request) : opened s r = { s with
    port := { s.port with inWords := s.port.takePacket.inWords, sessionFresh := false, seq := r.seq, lastCrc := r.crc,
                          lastReqT := s.pkg.meridian }
    auth := (opened s r).auth, legend := (opened s r).legend } := by
  have hport : s.port.accepting r s.pkg.meridian = { s.port with
      inWords := s.port.takePacket.inWords, sessionFresh := false, seq := r.seq, lastCrc := r.crc, lastReqT := s.pkg.meridian } := by
    rw [Port.accepting, Port.takePacket_eq]
  rw [← hport]
  unfold opened
  split <;> rfl

theorem opened_waits (s : State) (r : Request) : (opened s r).auth.verify = s.auth.verify := by
  unfold opened
  split <;> rfl

theorem opened_port (s : State) (r : Request) : (opened s r).port.seq = r.seq ∧ (opened s r).port.chall = s.port.chall ∧
    (opened s r).port.fails = s.port.fails ∧ (opened s r).port.lockEnd = s.port.lockEnd ∧
    (opened s r).port.nextLock = s.port.nextLock := by
  rw [opened_eq]
  exact ⟨rfl, rfl, rfl, rfl, rfl⟩

theorem opened_now (s : State) (r : Request) : (opened s r).now = s.now := by
  rw [opened_eq]
  rfl

theorem opened_portLocked (s : State) (r : Request) : (opened s r).portLocked = s.portLocked := by
  rw [opened_eq]
  rfl

theorem State.Alone.opened {slot : Nat} (h : s.Alone slot) (r : Request) : (opened s r).Alone slot := by
  obtain ⟨hw, hv, hr, he, hs, ho⟩ := h
  rw [opened_eq]
  exact ⟨hw, (opened_waits s r).trans hv, hr, he, hs, ho⟩

theorem opened_auth (r : Request) {x : Session} (h : s.session portSlot = some x) : (opened s r).auth = s.auth := by rw [opened_open r h]

/-- The port session and what it has of its own are gone; the response stands where nothing else waits for the slot (R312). -/
theorem State.closed_port {s : State} {x : Session} (hx : s.session portSlot = some x) : ∃ t, t = s.closeSession portSlot Reason.close ∧
    t.session portSlot = none ∧ t.port.sessionFresh = true ∧ t.port.chall = none ∧ t.port.aperture = [] ∧ t.port.staging = [] ∧
    (s.Alone portSlot → t.port.response = s.port.response) := by
  obtain ⟨hfresh, hchall, hap, hst, hresp⟩ := State.portLeft_port (s.vacated portSlot Reason.close)
  rw [← State.closeSession_port (congrArg Option.isSome hx)] at hfresh hchall hap hst hresp
  exact ⟨_, rfl, State.closeSession_gone .., hfresh, hchall, hap, hst, fun h => hresp.trans (State.vacated_response h hx)⟩

theorem State.respond_closed_taken (s : State) (type st slot reason : Nat) (ws : List Word) :
    ((s.respond type st ws).closeSession slot reason).port.taken = false :=
  State.closeSession_taken (s := s.respond type st ws) rfl slot reason

section
variable {s0 : State} (h : Accepted (s0.lineIn f) r) (hp : r.plain = true) (hl : (s0.lineIn f).life.lockdown = false)
include h hp hl

theorem exec_portRead_accepted {w : Word} (ht : r.type = 1) (hw : r.payload = [w]) (hlegal : accessLegal w = true) :
    exec (.portRead f) s0 = .next
      ((State.readMany (accessOff w) (accessWide w) (accessCount w) 0 (opened (s0.lineIn f) r)).1.respond 0x81 Pt.ok
        (State.readMany (accessOff w) (accessWide w) (accessCount w) 0 (opened (s0.lineIn f) r)).2) := by
  have hf : readFields r = true := by
    unfold readFields
    rw [hw]
    exact hlegal
  rw [exec_accepted (i := .portRead f) rfl h ht hp hf hl (State.respond_answered ..), hw]
  rfl

theorem exec_portWrite_accepted {w : Word} {vs : List Word} (ht : r.type = 2) (hw : r.payload = w :: vs) (hf : writeFields r = true) :
    exec (.portWrite f) s0 = .next
      ((State.writeMany (accessOff w) (accessWide w) 0 vs (opened (s0.lineIn f) r)).respond 0x82 Pt.ok []) := by
  rw [exec_accepted (i := .portWrite f) rfl h ht hp hf hl (State.respond_answered ..), hw]
  rfl

/-- CHALLENGE with an argument that ends in a response. -/
theorem exec_challenge_accepted {key level : Nat} {ctx : Ctx} {v : State} {st : Nat} {ws : List Word} (ht : r.type = 4)
    (hargs : challengeArgs r = some (key, level, ctx)) (hf : challengeFields key level ctx = true)
    (hv : (opened (s0.lineIn f) r).challenge key level ctx = v.respond 0x84 st ws) : exec (.challenge f) s0 = .next (v.respond 0x84 st ws) := by
  have hact : (match challengeArgs r with
      | some (key, level, ctx) => (opened (s0.lineIn f) r).challenge key level ctx
      | none => opened (s0.lineIn f) r) = v.respond 0x84 st ws := by
    rw [hargs]
    exact hv
  have hfields : (match challengeArgs r with
      | some (key, level, ctx) => challengeFields key level ctx
      | none => false) = true := by
    rw [hargs]
    exact hf
  have hrun := exec_accepted (i := .challenge f) rfl h ht hp hfields hl
    ((congrArg State.answerUndefined hact).trans ((State.respond_answered ..).trans hact.symm))
  exact hrun.trans (congrArg _ hact)

theorem exec_respond_accepted {ok : Bool} {v : State} {st : Nat} {ws : List Word} (ht : r.type = 5) (hlen : r.payload.length = 8)
    (hv : (opened (s0.lineIn f) r).respondTo ok = v.respond 0x85 st ws) : exec (.respond f ok) s0 = .next (v.respond 0x85 st ws) := by
  rw [exec_accepted (i := .respond f ok) rfl h ht hp (beq_iff_eq.mpr hlen) hl (by rw [hv, State.respond_answered]), hv]

theorem exec_portCommand_accepted {v : State} (ht : r.type = 6) (hlen : r.payload.length = 8)
    (hv : (opened (s0.lineIn f) r).takeEntry none (r.payload.flatMap (fun w => leBytes 8 w.toNat))
      (.ok ((opened (s0.lineIn f) r).entryArg (r.payload.flatMap (fun w => leBytes 8 w.toNat)))) = v)
    (hend : v.answerUndefined = v) : exec (.portCommand f) s0 = .next v := by
  subst hv
  exact exec_accepted (i := .portCommand f) rfl h ht hp (beq_iff_eq.mpr hlen) hl hend

/-- CLOSE offers its response, so nothing that follows it is answered before that is taken. -/
theorem exec_portClose_accepted (ht : r.type = 7) (hnil : r.payload = []) :
    exec (.portClose f) s0 = .next (((opened (s0.lineIn f) r).respond 0x87 Pt.ok []).closeSession portSlot Reason.close) := by
  have hi : exec (.portClose f) s0 = .next (s0.portRequest f 7 (fun r => r.payload.isEmpty) true
    (fun _ s => (s.respond 0x87 Pt.ok []).closeSession portSlot Reason.close)) := rfl
  have hend := State.answerUndefined_busy (State.respond_closed_taken (opened (s0.lineIn f) r) 0x87 Pt.ok portSlot Reason.close [])
  have hrun := exec_accepted hi h ht hp (List.isEmpty_iff.mpr hnil) hl hend
  exact hrun

end

section
variable {s0 : State} (h : Accepted (s0.lineIn f) r) (hp : r.plain = true) (hl : (s0.lineIn f).life.lockdown = false)
  {ch : Challenge} {x : Session} (ht : r.type = 5) (hlen : r.payload.length = 8) (hch : (s0.lineIn f).port.chall = some ch)
  (hx : (s0.lineIn f).session portSlot = some x) (hlive : (s0.lineIn f).now < ch.endT.toNat)
  (hkey : (s0.lineIn f).portKeyOk ch.key ch.ctx = true)
include h hp hl ht hlen hch hx hlive hkey

theorem exec_respond_operator (h1 : ch.key = 1) : exec (.respond f true) s0 = .next
    (let v := ((opened (s0.lineIn f) r).unchallenged.portPass).setSession portSlot
       (some { x with operator := { x.operator with viaPort := true } })
     v.respond 0x85 Pt.ok [word (v.levelCode portSlot + 256 * x.held (s0.lineIn f).now)]) := by
  obtain ⟨-, hchall, -, -, -⟩ := opened_port (s0.lineIn f) r
  have hxu : (opened (s0.lineIn f) r).session portSlot = some x := by rw [opened_open r hx]; exact hx
  rw [← opened_now (s0.lineIn f) r] at hlive ⊢
  exact exec_respond_accepted h hp hl ht hlen
    (State.respondTo_operator (hchall.trans hch) hxu hlive ((State.portKeyOk_opened ..).trans hkey) h1)

theorem exec_respond_failed : exec (.respond f false) s0 =
    .next ((opened (s0.lineIn f) r).unchallenged.portFail.respond 0x85 Pt.authFailed []) := by
  obtain ⟨-, hchall, -, -, -⟩ := opened_port (s0.lineIn f) r
  have hxu : (opened (s0.lineIn f) r).session portSlot = some x := by rw [opened_open r hx]; exact hx
  rw [← opened_now (s0.lineIn f) r] at hlive
  exact exec_respond_accepted h hp hl ht hlen
    (State.respondTo_failed (hchall.trans hch) hxu hlive ((State.portKeyOk_opened ..).trans hkey))

end

/-- Settles O46: each row by the request that it executes. -/
theorem portRequests : Obligations.PortRequests := by
  intro s0 f r s h hp hl u bare
  refine ⟨fun x hx h1 h7 hne => ?_, fun w ht hw hlegal => ?_, fun w v vs ht hw hf => ?_,
    fun key level ctx ht hargs hf => ⟨fun hlock => ?_, fun hlock hkey => ?_⟩,
    fun ch x ht hlen hch hx hlive hkey => ⟨fun h1 => exec_respond_operator h hp hl ht hlen hch hx hlive hkey h1, ?_⟩,
    fun ht hlen => ⟨fun hok => ?_, fun st hst => ?_⟩, fun ht hnil => ?_⟩
  · have ha : s0.pkg.aonUp = true := State.aonUp_lineIn s0 f ▸ h.1
    obtain ⟨-, fields, served, act, he⟩ := exec_request hx s0
    rw [he, State.portRequest_other ha h.2.1 hne, State.answerUndefined_defined h.2.1 h1 h7]
  · have hrun := exec_portRead_accepted h hp hl ht hw hlegal
    refine ⟨⟨_, _, hrun, rfl, rfl, rfl, State.readMany_length .., rfl⟩, fun hone => ?_⟩
    rw [hrun, hone, State.readMany_one]
    rfl
  · have hrun := exec_portWrite_accepted h hp hl ht hw hf
    refine ⟨⟨_, _, hrun, rfl, rfl, rfl, rfl, rfl⟩, fun hone => ?_⟩
    rw [hrun, hone, State.writeMany_one]
    rfl
  · exact exec_challenge_accepted h hp hl ht hargs hf (State.challenge_locked ((opened_portLocked ..).trans hlock))
  · have hnow : u.now = s.now := opened_now ..
    refine ⟨u.newChallenge key level ctx, rfl, rfl, rfl, hnow ▸ rfl, exec_challenge_accepted h hp hl ht hargs hf
      (State.challenge_granted ((opened_portLocked ..).trans hlock) ((State.portKeyOk_opened ..).trans hkey))⟩
  · obtain ⟨t, rfl, hchall, hfails, hresp, hauth, hmany, hfew⟩ := u.respond_failed
    obtain ⟨hseq, -, hf, hend, hnext⟩ := opened_port s r
    rw [hf, hend, hnext] at hfew
    rw [hf, hnext, opened_now] at hmany
    rw [hf] at hfails
    rw [hseq] at hresp
    exact ⟨_, exec_respond_failed h hp hl ht hlen hch hx hlive hkey, hchall, hfails, hresp, hauth.trans (opened_auth r hx), hmany, hfew⟩
  · exact exec_portCommand_accepted h hp hl ht hlen (State.takeEntry_port_passes hok)
      (State.answerUndefined_commanding (by simp [entryCtx]))
  · exact exec_portCommand_accepted h hp hl ht hlen (State.takeEntry_port_refused hst)
      (State.answerUndefined_busy (State.refuse_port_taken rfl ..))
  · obtain ⟨x, hx⟩ := opened_session s r
    obtain ⟨t, rfl, hgone, hfresh, hchall, hap, hst, hresp⟩ := State.closed_port (s := u.respond 0x87 Pt.ok []) hx
    refine ⟨_, exec_portClose_accepted h hp hl ht hnil, hgone, hfresh, hchall, hap, hst, fun hw hv hr he hs ho => ?_⟩
    have halone : s.Alone portSlot := ⟨hw, hv, hr, he, hs, ho⟩
    obtain ⟨hseq, -⟩ := opened_port s r
    exact (hresp ((halone.opened r).respond ..)).trans (congrArg (fun q => some (Resp.mk 0x87 q 0 [])) hseq)

end

end Sys2Proof.Machine

/-! SUPPORT. The scan port (R305 to R308): its instructions, the LEDGER register and its resets. -/

namespace Sys2Proof.Machine

section
variable {s : State} (hscan : s.scanPort = true) (ha : s.pkg.aonUp = true)

/-! ### The instruction register (R305, R307) -/

/-- Whether an instruction of this code puts the pins under the boundary register. -/
def State.scanActs (s : State) (ir : Nat) : Bool := (ir == 0 || ir == 3 || ir == 4) && s.scanFree

/-- What Capture-IR shifts out. -/
def State.captured (s : State) : Nat := 1 + 4 * bitNat (!s.port.outbound.1.isEmpty)

/-- Each scan instruction loads the instruction register. -/
theorem exec_scan {x : Instr × Nat} (hx : x ∈ [(Instr.extest, 0), (.samplePreload, 1), (.idcode, 2), (.clamp, 3), (.highz, 4),
    (.ledger, 0x20), (.bypass, 0xFF)]) (s : State) : exec x.1 s = .next (s.setIr x.2) := by
  simp only [List.mem_cons, List.not_mem_nil, or_false] at hx
  rcases hx with rfl | rfl | rfl | rfl | rfl | rfl | rfl <;> rfl

section
variable {ir : Nat}
include hscan ha

theorem State.setIr_same (h : s.scanActs ir = s.port.bscan) :
    s.setIr ir = { s with port := { s.port with ir := ir, irOut := some s.captured } } := by
  have hport : ({ s.port with irOut := some s.captured, ir := ir, bscan := s.scanActs ir } : Port) =
      { s.port with ir := ir, irOut := some s.captured } := by rw [h]
  refine (if_neg (by simp [hscan, ha])).trans ((if_pos h).trans ?_)
  exact congrArg (fun p : Port => { s with port := p }) hport

theorem State.setIr_other (h : s.scanActs ir ≠ s.port.bscan) : s.setIr ir =
    ({ s with port := { s.port with irOut := some s.captured, ir := ir, bscan := s.scanActs ir } } : State).guardPins :=
  (if_neg (by simp [hscan, ha])).trans (if_neg h)

/-- An instruction's place in the port; nothing of the link or of the session changes. -/
theorem State.setIr_port : (s.setIr ir).port.ir = ir ∧ (s.setIr ir).port.bscan = s.scanActs ir ∧
    (s.setIr ir).port.inWords = s.port.inWords ∧ (s.setIr ir).port.seq = s.port.seq ∧ (s.setIr ir).auth = s.auth := by
  by_cases h : s.scanActs ir = s.port.bscan
  · rw [State.setIr_same hscan ha h]
    exact ⟨rfl, h.symm, rfl, rfl, rfl⟩
  · rw [State.setIr_other hscan ha h]
    exact ⟨rfl, rfl, rfl, rfl, rfl⟩

end

/-! ### The LEDGER register (R306) -/

section
variable {n : Nat} {w : Word} (hir : s.port.ir = 0x20)
include hscan ha hir

/-- A scan of any number of shifts but 64 delivers nothing. -/
theorem execLedgerWord_short (hn : n ≠ 64) : exec (.ledgerWord n w) s =
    .next ({ s with port := { s.port with drOut := some s.ledgerOut } } : State).framingError :=
  (if_neg (by simp [hscan, ha, hir])).trans (if_pos hn)

theorem execLedgerWord_whole : exec (.ledgerWord 64 w) s = .next (State.inWord 516 w
    { s with port := ({ s.port with drOut := some s.ledgerOut } : Port).consume }).answerUndefined :=
  (if_neg (by simp [hscan, ha, hir])).trans (if_neg (by simp))

end

/-- A word moved outbound leaves the inbound queue. -/
theorem Port.consume_inbound (p : Port) : p.consume.inWords = p.inWords ∧ p.consume.hunting = p.hunting := by
  unfold Port.consume
  split
  · exact ⟨rfl, rfl⟩
  · dsimp only
    (repeat' split) <;> exact ⟨rfl, rfl⟩

/-- One word alone is no packet. -/
theorem requestAt_single (w : Word) : requestAt [w] = none := by
  simp [requestAt, packetLen]

/-! ### Resets of the TAP (R303, R308) -/

section
include hscan ha

/-- Test-Logic-Reset takes what waits outbound and discards a packet in progress; the session stays. -/
theorem State.tapReset_port : s.tapReset.port.ir = 2 ∧ s.tapReset.port.bscan = false ∧ s.tapReset.port.seq = s.port.seq ∧
    s.tapReset.auth = s.auth ∧
    s.tapReset.port.inWords = s.port.inWords.take (s.port.inWords.length - s.port.partialHeld.length) := by
  obtain ⟨hir, hb, hin, hseq, hauth⟩ := State.setIr_port (ir := 2) hscan ha
  refine ⟨hir, hb, hseq, hauth, ?_⟩
  have hpart : (s.setIr 2).port.partialHeld = s.port.partialHeld := by rw [Port.partialHeld, hin]; rfl
  change (s.setIr 2).port.inWords.take ((s.setIr 2).port.inWords.length - (s.setIr 2).port.partialHeld.length) = _
  rw [hpart, hin]

theorem execTestLogicReset_next : exec .testLogicReset s = .next { s.tapReset with port := { s.tapReset.port with hunting := true } } :=
  if_pos ⟨hscan, ha⟩

theorem execTrstN_next : exec .trstN s = .next { s.tapReset.closeSession portSlot Reason.trst with
    port := { (s.tapReset.closeSession portSlot Reason.trst).port with
      seq := 0, lastCrc := 0, sessionFresh := true, response := none, inWords := [], hunting := false, events := [] } } :=
  if_pos ⟨hscan, ha⟩

end

/-- POLL at the head of the queue of a scan port answers at once (R298). -/
theorem execPoll_scan (hscan : s.scanPort = true) (ha : s.pkg.aonUp = true) {f : LineFrame} {r : Request} (hr : s.port.request = some r)
    (ht : r.type = 3) (hready : s.portReady = true) : exec (.poll f) s = .next (({ s with port := s.port.takePacket } : State).offer
      { type := 0x83, seq := 0, status := if pollFields r then Pt.ok else Pt.badRequest, payload := [] }) := by
  change execPoll f s = _
  unfold execPoll
  rw [if_neg (by simp [ha]), if_neg (by simp [hscan]), hr]
  exact if_pos ⟨ht, hready⟩

end

/-- Settles O48: the instruction register by its pins, LEDGER by its shifts, and the two resets. -/
theorem scanPort : Obligations.ScanPort := by
  intro s hscan ha
  refine ⟨fun x hx => ⟨fun hsame => ?_, fun hother => ?_⟩, fun n w hir => ⟨fun hn => ?_, fun hq hh => ?_⟩, ?_, ?_,
    fun f r hr ht hready => ?_⟩
  · rw [exec_scan hx, State.setIr_same hscan ha hsame]
    rfl
  · refine ⟨_, exec_scan hx s, ?_⟩
    rw [State.setIr_other hscan ha hother]
    exact ⟨rfl, rfl, rfl, rfl, rfl, rfl, rfl, rfl, rfl, rfl⟩
  · refine ⟨_, execLedgerWord_short hscan ha hir hn, ?_⟩
    rw [State.framingError_port]
    exact ⟨rfl, rfl, rfl, rfl, rfl, rfl⟩
  · obtain ⟨hin, hhunt⟩ := Port.consume_inbound { s.port with drOut := some s.ledgerOut }
    rw [execLedgerWord_whole hscan ha hir, State.inWord_header 515 (hin.trans hq) (by rw [hhunt]; exact hh)]
    exact congrArg _ (State.answerUndefined_none (requestAt_single w))
  · obtain ⟨hir, hb, hseq, hauth, hin⟩ := State.tapReset_port hscan ha
    exact ⟨_, execTestLogicReset_next hscan ha, hir, rfl, rfl, hb, rfl, hin, hauth, hseq⟩
  · exact ⟨_, execTrstN_next hscan ha, State.closeSession_gone .., rfl, rfl, rfl, rfl, rfl⟩
  · refine ⟨_, execPoll_scan hscan ha hr ht hready, rfl, ?_, ?_, rfl⟩
    · rw [Port.takePacket_eq]
      rfl
    · rw [Port.takePacket_eq]
      rfl

end Sys2Proof.Machine

/-! SUPPORT. The one-wire line, the trigger pins and the port registers (R309 to R321). -/

namespace Sys2Proof.Machine

/-! ### The response slot of the one-wire line (R309, R310) -/

section
variable {s : State}

/-- The scan port is a property of the member, which no line word changes. -/
theorem State.scanPort_lineIn (s : State) (f : LineFrame) : (s.lineIn f).scanPort = s.scanPort := by
  rw [State.lineIn_eq]
  rfl

/-- A POLL alone in the queue opens a slot and leaves it. -/
theorem execPoll_line {f : LineFrame} {h c : Word} (hline : s.scanPort = false) (ha : s.pkg.aonUp = true)
    (hq : (s.lineIn f).port.inWords = [h, c]) (hlen : bitsOf h.toNat 16 10 = 0) (ht : bitsOf h.toNat 40 8 = 3) :
    exec (.poll f) s =
      .next { s.lineIn f with port := { (s.lineIn f).port with inWords := [], pollOpen := true } } := by
  have hpoll : withoutPoll (s.lineIn f).port.inWords.length (s.lineIn f).port.inWords = some [] := by
    rw [hq]
    simp [withoutPoll, requestAt, packetLen, hlen, ht]
  change execPoll f s = _
  unfold execPoll
  rw [if_neg (by simp [ha]), if_pos (by simp [hline])]
  simp only [hpoll]
  exact congrArg _ (State.answerUndefined_none rfl)

/-- What the hub drives in a slot. -/
def State.slotPort (s : State) : Port :=
  let q := { s.port with pollOpen := false, driving := true }
  if !s.port.taken then
    { q with outWords := (((s.port.order <|> s.port.response).map Resp.words).getD []), outEvent := false, taken := true }
  else match s.port.events with
    | e :: es => { q with outWords := eventWords_ e, outEvent := true, events := es }
    | [] => { q with outWords := Resp.words { type := 0x83, seq := 0, status := Pt.ok, payload := [] }, outEvent := false }

theorem execResponseSlot_open (hline : s.scanPort = false) (ho : s.port.pollOpen = true) :
    exec .responseSlot s = .next { s with port := s.slotPort } :=
  if_neg (by simp [hline, ho])

theorem State.slotPort_driven (s : State) : s.slotPort.pollOpen = false ∧ s.slotPort.driving = true := by
  unfold State.slotPort
  dsimp only
  (repeat' split) <;> exact ⟨rfl, rfl⟩

theorem State.slotPort_response {r : Resp} (ht : s.port.taken = false) (ho : s.port.order = none) (hr : s.port.response = some r) :
    s.slotPort.outWords = r.words ∧ s.slotPort.taken = true ∧ s.slotPort.outEvent = false := by
  simp [State.slotPort, ht, ho, hr]

theorem State.slotPort_event {e : List Word} {es : List (List Word)} (ht : s.port.taken = true) (he : s.port.events = e :: es) :
    s.slotPort.outWords = eventWords_ e ∧ s.slotPort.outEvent = true ∧ s.slotPort.events = es := by
  simp [State.slotPort, ht, he]

theorem State.slotPort_empty (ht : s.port.taken = true) (he : s.port.events = []) :
    s.slotPort.outWords = Resp.words { type := 0x83, seq := 0, status := 0, payload := [] } ∧ s.slotPort.outEvent = false := by
  simp [State.slotPort, ht, he, Pt.ok]

end

/-! ### Writes of the port's registers (R321) -/

/-- A register's fields are written beside the port. -/
theorem State.writeFields_port (s : State) (w : Writer) (r : RegRow) (k lo n v : Nat) : (s.writeFields w r k lo n v).port = s.port := by
  obtain ⟨t, h⟩ := State.writeFields_eq s w r k lo n v
  rw [h]

theorem State.writeRows_port (s : State) (w : Writer) (p : Path) (rows : List (RegRow × Nat)) (b lo n v : Nat) :
    (s.writeRows w p rows b lo n v).port = s.port := by
  unfold State.writeRows
  refine State.foldl_leaves State.port (fun t x => ?_) _ _
  split
  · exact State.writeFields_port ..
  · rfl

section
variable {s : State} {p : Path} (hbar : s.barGone p = false) (hplatform : s.hasPlatform (s.actor p) = true)

/-- The rows that a write of CMP_PT_CLR reaches, before its effect. -/
def State.clrRows (s : State) (p : Path) (v : Nat) : State :=
  s.writeRows { who := s.actor p, ctx := 0, log := none, off := 0x11220 } p (rowsIn RegMap.globalRows 0 0x11220 ++ arrayRows 0x11220)
    0x11220 0 32 v

include hbar hplatform in
theorem State.writeAccess_ptClr {v : Nat} (hv : v < 2 ^ 32) :
    s.writeAccess p 0x11220 false v = (s.clrRows p v).cmpEffect p (s.actor p) 0x11220 v := by
  have hmay : s.writeDenied p (s.actor p) 0x11220 = false := by simp [State.writeDenied, platformWords, hplatform]
  have hcell : cellHolds (s.globalCell p (s.actor p) 0x11220) 0 32 = true := rfl
  have hpart : wordPart 0 32 v 0 = v := by simpa [wordPart, meet] using hv
  have hval : v % 4294967296 = v := Nat.mod_eq_of_lt hv
  simp [State.writeAccess, hbar, widthOf, windowPost, hmay, State.globalPut, hcell, covers, hpart, hval, State.clrRows]

theorem State.cmpEffect_clrLine (s : State) (p : Path) (who : Option Nat) : s.cmpEffect p who 0x11220 2 = s.clearLine := by
  simp [State.cmpEffect, bitAt, bitsOf]

theorem State.cmpEffect_clrErr (s : State) (p : Path) (who : Option Nat) : s.cmpEffect p who 0x11220 1 = s.clearErr := by
  simp [State.cmpEffect, bitAt, bitsOf]

theorem State.clrRows_port (s : State) (p : Path) (v : Nat) : (s.clrRows p v).port = s.port := State.writeRows_port ..

/-- The rows that a write of CMP_PT_APR_ACK reaches, before its effect. -/
def State.ackRows (s : State) (v : Nat) : State :=
  s.writeRows { who := s.actor .port, ctx := 0, log := none, off := 0x11230 } .port
    (rowsIn RegMap.globalRows 0 0x11230 ++ arrayRows 0x11230) 0x11230 0 32 v

theorem State.ackRows_port (s : State) (v : Nat) : (s.ackRows v).port = s.port := State.writeRows_port ..

theorem State.writeAccess_aprAck {v : Nat} (hv : v < 32) : s.writeAccess .port 0x11230 false v = (s.ackRows v).aprAck v := by
  have hmay : s.writeDenied .port (s.actor .port) 0x11230 = false := rfl
  have hbar : s.barGone .port = false := rfl
  have hcell : cellHolds (s.globalCell .port (s.actor .port) 0x11230) 0 32 = true := rfl
  have hval : v % 4294967296 = v := by omega
  have hslot : v % 32 = v := Nat.mod_eq_of_lt hv
  have hpart : wordPart 0 32 v 0 = v := by simp [wordPart, meet, hval]
  simp [State.writeAccess, hbar, widthOf, windowPost, hmay, State.globalPut, hcell, covers, hpart, hval, hslot, State.ackRows,
    State.cmpEffect]

/-! ### TI_EN of CMP_PT_CFG (Table PT-14) -/

theorem bitAt_eq_testBit (v i : Nat) : bitAt v i = v.testBit i := by
  rw [bitAt, bitsOf, Nat.testBit_eq_decide_div_mod_eq]
  rfl

/-- A bit of a stored word is the bit of the word that was stored. -/
theorem State.bitAt_regWord_set (s : State) (r : RegRow) (k v : Nat) {i : Nat} (hi : i < 64) :
    bitAt ((s.setRegWord r k v).regWord r k) i = bitAt v i := by
  have hword : (s.setRegWord r k v).regWord r k = ((v ^^^ r.resetWord) % 2 ^ 64) ^^^ r.resetWord := by
    change (Tbl.get 0 (Tbl.set 0 s.regs k (word (v ^^^ r.resetWord))) k).toNat ^^^ r.resetWord = _
    rw [Tbl.get_set_self, word, BitVec.toNat_ofNat]
  rw [hword, bitAt_eq_testBit, bitAt_eq_testBit, Nat.testBit_xor, Nat.testBit_mod_two_pow, Nat.testBit_xor, decide_eq_true hi,
    Bool.true_and, Bool.xor_assoc, Bool.xor_self, Bool.xor_false]

/-- The word that a register holds once the bits of an access have been written to its fields. -/
def RegRow.put (r : RegRow) (old lo n v : Nat) : Nat :=
  (r.fields.filter (fun f => f.covered lo n)).foldl
    (fun a f => if f.keeps then putBits a f.lsb f.width (f.stored (f.written old lo n v)) else a) old

theorem State.writeFields_regs (s : State) (w : Writer) (r : RegRow) (k lo n v : Nat) :
    (s.writeFields w r k lo n v).regs = (s.setRegWord r k (r.put (s.regWord r k) lo n v)).regs := by
  refine State.foldl_leaves State.regs (fun t f => ?_) _ _
  dsimp only
  split
  · rw [State.clampOne_eq]
  · rfl

theorem State.regWord_of_regs {s t : State} (h : t.regs = s.regs) (r : RegRow) (k : Nat) : t.regWord r k = s.regWord r k := by
  rw [State.regWord, h, State.regWord]

/-- Bit 0 of a word whose 64 low bits are replaced. -/
theorem bitsOf_putBits_word (a v : Nat) : bitsOf (putBits a 0 64 v) 0 1 = v % 2 := by
  rw [bitsOf, putBits_parts]
  omega

/-- TI_EN is the last field of CMP_PT_CFG that is written. -/
theorem bitAt_put_tiEn (old v : Nat) : bitAt (RegMap.cmpPtCfg.put old 0 64 v) 0 = bitAt v 0 := by
  have hlast : ∃ a, RegMap.cmpPtCfg.put old 0 64 v = putBits a 0 1 (bitsOf (putBits old 0 64 v) 0 1) := ⟨_, rfl⟩
  obtain ⟨a, ha⟩ := hlast
  have hbit : bitsOf v 0 1 = v % 2 := by rw [bitsOf]; omega
  rw [ha, bitAt, bitsOf_putBits, bitsOf_putBits_word, bitAt, hbit, pow_one, Nat.mod_mod]

/-- A write of all of CMP_PT_CFG stores TI_EN as it is written. -/
theorem State.writeFields_tiEn (s : State) (w : Writer) (v : Nat) :
    bitAt ((s.writeFields w RegMap.cmpPtCfg 0x11200 0 64 v).regWord RegMap.cmpPtCfg 0x11200) 0 = bitAt v 0 := by
  rw [State.regWord_of_regs (State.writeFields_regs ..), State.bitAt_regWord_set _ _ _ _ (by decide), bitAt_put_tiEn]

/-- The write of CMP_PT_CFG before its effect. -/
def State.cfgWritten (s : State) (p : Path) (v : Nat) : State :=
  s.writeFields { who := s.actor p, ctx := 0, log := none, off := 0x11200 } RegMap.cmpPtCfg 0x11200 0 64 v

include hbar hplatform in
theorem State.writeAccess_ptCfg {v : Nat} (hv : v < 2 ^ 64) :
    s.writeAccess p 0x11200 true v = (s.cfgWritten p v).ptCfgEffect (s.regWord RegMap.cmpPtCfg 0x11200) := by
  have hlow : s.writeDenied p (s.actor p) 0x11200 = false := by simp [State.writeDenied, platformWords, hplatform]
  have hhigh : s.writeDenied p (s.actor p) 0x11204 = false := by simp [State.writeDenied, platformWords, hplatform]
  have hcell : cellHolds (s.globalCell p (s.actor p) 0x11200) 0 64 = true := rfl
  have hval : v % 18446744073709551616 = v := Nat.mod_eq_of_lt hv
  have hrows : rowsIn RegMap.globalRows 0 0x11200 ++ arrayRows 0x11200 = [(RegMap.cmpPtCfg, 0x11200)] := by decide
  have hbytes : RegMap.cmpPtCfg.bytes = 8 := rfl
  have hmeet : meet 0 64 v 0 64 = some (0, 64, v) := by simpa [meet] using hv
  have hkey : regKey p 0x11200 = 0x11200 := by simp [regKey, ownSelectors]
  have hput : s.writeRows { who := s.actor p, ctx := 0, log := none, off := 0x11200 } p [(RegMap.cmpPtCfg, 0x11200)] 0x11200 0 64 v =
      s.cfgWritten p v := by
    simp [State.writeRows, hbytes, hmeet, hkey, State.cfgWritten]
  simp [State.writeAccess, hbar, widthOf, windowPost, hlow, hhigh, State.globalPut, hcell, covers, hval, hrows, hput, State.cmpEffect]

/-- A change of TI_EN puts TRIG_IN under its guard (R319); the register keeps what was written. -/
theorem State.ptCfgEffect_tiEn {old : Nat} (h : bitAt old 0 ≠ bitAt (s.regWord RegMap.cmpPtCfg 0x11200) 0) :
    (s.ptCfgEffect old).port.guardIn = true ∧ (s.ptCfgEffect old).regs = s.regs := by
  unfold State.ptCfgEffect
  extract_lets new s1 q tr sr s2
  have h1 : s1.regs = s.regs := by simp only [s1, apply_ite State.regs, State.guardOut, ite_self]
  have h2 : s2.regs = s.regs := by simp only [s2, apply_ite State.regs, h1, ite_self]
  rw [if_pos h]
  exact ⟨rfl, h2⟩

end

/-! ### The trigger pin (R317, R319) -/

section
variable {s : State}

/-- Without chains no source reaches a stage. -/
theorem State.sourceAll_unchained (h : s.chains = []) (p src : Nat) : s.sourceAll p src = s := by
  have hnone (k : Nat) : (s.chain k).owner = none := by rw [State.chain, h]; rfl
  simp only [State.sourceAll]
  refine List.foldlRecOn (motive := fun t => t = s) _ _ rfl fun t ht k _ => ?_
  subst ht
  rw [hnone]

/-- Without chains a trigger at a post is event TRIG of the engine that serves it. -/
theorem State.trigAt_unchained (h : s.chains = []) (p src : Nat) :
    s.trigAt p src = match s.server p with
      | some q => s.engineEvent q 8
      | none => s := by
  unfold State.trigAt
  cases s.server p with
  | none => rfl
  | some q => exact State.sourceAll_unchained (s := s.engineEvent q 8) h p src

/-- The trigger at every post of a list. -/
def State.trigPosts (s : State) (l : List Nat) : State := l.foldl (fun t p => t.trigAt p 21) s

/-- It changes nothing but the engines, whose other events stand, and sets event TRIG in each that serves. -/
theorem State.trigPosts_unchained (h : s.chains = []) (l : List Nat) :
    s.trigPosts l = { s with engines := (s.trigPosts l).engines } ∧ EventsStand s (s.trigPosts l) ∧
    ∀ p ∈ l, ∀ q, s.server p = some q → ((s.trigPosts l).engine q).events.getLsbD 8 = true := by
  induction l generalizing s with
  | nil => exact ⟨rfl, .refl s, fun p hp => absurd hp List.not_mem_nil⟩
  | cons k l ih =>
    have hstep : (s.trigAt k 21) = { s with engines := (s.trigAt k 21).engines } ∧ EventsStand s (s.trigAt k 21) ∧
        ∀ q, s.server k = some q → ((s.trigAt k 21).engine q).events.getLsbD 8 = true := by
      rw [State.trigAt_unchained h]
      cases hs : s.server k with
      | none => exact ⟨rfl, .refl s, fun q hq => nomatch hq⟩
      | some q => exact ⟨rfl, .engineEvent .., fun q' hq' => Option.some.inj hq' ▸ State.engineEvent_set _ _ (by decide)⟩
    obtain ⟨he, hstand, hset⟩ := hstep
    have hchains : (s.trigAt k 21).chains = [] := by rw [he]; exact h
    have hserver (p : Nat) : (s.trigAt k 21).server p = s.server p := by rw [he]; rfl
    obtain ⟨ihe, ihstand, ihset⟩ := ih hchains
    have hcons : s.trigPosts (k :: l) = (s.trigAt k 21).trigPosts l := rfl
    rw [hcons]
    refine ⟨?_, hstand.trans ihstand, fun p hp q hq => ?_⟩
    · rw [ihe, he]
    · rcases List.mem_cons.mp hp with rfl | hp
      · exact ihstand.stands q 8 (hset q hq)
      · exact ihset p hp q ((hserver p).trans hq)

/-- The pin's level as it is sampled, and its count. -/
def State.trigCounted (s : State) : State :=
  { s with port := { s.port with trigIn := !bitAt (s.regWord RegMap.cmpPtCfg 0x11200) 2, tiCount := s.port.tiCount + 1 } }

variable (ha : s.pkg.aonUp = true) (hen : bitAt (s.regWord RegMap.cmpPtCfg 0x11200) 0 = true)
include ha hen

theorem execTrigInAssertion_guarded (hg : s.port.guardIn = true) : exec .trigInAssertion s = .next { s with port := { s.port with
    trigIn := !bitAt (s.regWord RegMap.cmpPtCfg 0x11200) 2, guardDrops := sat16 s.port.guardDrops } } :=
  (if_neg (by simp [ha])).trans ((if_neg (by simp [hen])).trans (if_pos hg))

theorem execTrigInAssertion_free (hg : s.port.guardIn = false) : exec .trigInAssertion s =
    .next ((s.trigCounted.trigPosts (rangeFrom 0 s.pkg.member.posts)).engineEvent 128 8) :=
  (if_neg (by simp [ha])).trans ((if_neg (by simp [hen])).trans (if_neg (by simp [hg])))

end

/-- Settles O49: the line's slot, its lows, the trigger pin and its guards, and the port's registers. -/
theorem oneWireAndPins : Obligations.OneWireAndPins := by
  intro s ha
  refine ⟨fun hline => ⟨fun f h c hq hlen ht => execPoll_line hline ha hq hlen ht, fun ho => ?_, fun hd => ?_,
      congrArg _ (if_neg (by simp [hline])), fun hp => ?_, fun hw u hu => ?_, fun hw => ?_, fun hw hl => ?_⟩,
    fun hen => ⟨fun hg => ⟨_, execTrigInAssertion_guarded ha hen hg, rfl, rfl, rfl⟩, fun hg hc => ?_⟩,
    fun e he ht => ?_, ⟨_, rfl, rfl, rfl, rfl, fun ho => if_pos ho, fun ho => if_neg (by simp [ho]), rfl⟩,
    fun p hbar hplat => ⟨?_, ?_, fun v hv h0 => ?_⟩, fun _ n hn => ?_⟩
  · obtain ⟨hclosed, hdrives⟩ := s.slotPort_driven
    exact ⟨_, execResponseSlot_open hline ho, hclosed, hdrives, rfl, fun r => State.slotPort_response,
      fun e es => State.slotPort_event, State.slotPort_empty⟩
  · refine ⟨_, if_neg (by simp [hline, hd]), ?_⟩
    dsimp only
    split
    · next he => exact ⟨rfl, rfl, rfl, fun h => absurd h (by simp [he])⟩
    · split
      · next h83 => exact ⟨rfl, rfl, rfl, fun _ h => absurd h83 h⟩
      · exact ⟨rfl, rfl, rfl, fun _ _ => rfl⟩
  · exact (if_neg (by simp [hline])).trans ((if_neg (by simp [ha])).trans (by simp [hp]))
  · obtain rfl : s.packageWarm = u := Host.Outcome.next.inj ((if_pos ha).symm.trans hu)
    exact (if_neg (by simp [hline])).trans ((if_neg (by simp [ha])).trans (if_neg (by simp [hw])))
  · exact ⟨_, (if_neg (by simp [hline])).trans ((if_neg (by simp [ha])).trans (if_pos hw)), rfl, rfl, rfl⟩
  · exact (if_neg (by simp [hline])).trans ((if_neg (by simp [ha])).trans ((if_neg (by simp [hw])).trans (if_pos hl)))
  · obtain ⟨he, -, hset⟩ := State.trigPosts_unchained (s := s.trigCounted) hc (rangeFrom 0 s.pkg.member.posts)
    refine ⟨_, execTrigInAssertion_free ha hen hg, ?_, fun p q hp hq => ?_, State.engineEvent_set _ _ (by decide), ?_⟩
    · rw [State.engineEvent_eq, he]
      rfl
    · exact State.engineEvent_stays (hset p (mem_rangeFrom.mpr (by omega)) q hq) ..
    · rw [State.engineEvent_eq, he]
      rfl
  · change execCrossPulseEnd s = _
    unfold execCrossPulseEnd
    rw [he]
    exact congrArg _ (if_pos ht)
  · have hwrite := (State.writeAccess_ptClr hbar hplat (by decide)).trans (State.cmpEffect_clrLine ..)
    have hrun : exec (.ptClrLine p) s = .next (s.writeAccess p 0x11220 false 2) := rfl
    refine ⟨_, hrun.trans (congrArg _ hwrite), rfl, rfl, rfl, rfl, ?_⟩
    have hkept : (s.clrRows p 2).port.crcErr = s.port.crcErr := by rw [State.clrRows_port]
    exact hkept
  · have hwrite := (State.writeAccess_ptClr hbar hplat (by decide)).trans (State.cmpEffect_clrErr ..)
    have hrun : exec (.ptClrErr p) s = .next (s.writeAccess p 0x11220 false 1) := rfl
    refine ⟨_, hrun.trans (congrArg _ hwrite), rfl, rfl, rfl, rfl, ?_⟩
    have hkept : (s.clrRows p 1).port.glitches = s.port.glitches := by rw [State.clrRows_port]
    exact hkept
  · have hnew : bitAt ((s.cfgWritten p v.toNat).regWord RegMap.cmpPtCfg 0x11200) 0 = true := by
      rw [State.cfgWritten, State.writeFields_tiEn, bitAt_eq_testBit]
      have hbit : v.getLsbD 0 = true := by simpa using congrArg (fun x : Word => x.getLsbD 0) hv
      exact hbit
    obtain ⟨hguard, hregs⟩ := State.ptCfgEffect_tiEn (s := s.cfgWritten p v.toNat) (old := s.regWord RegMap.cmpPtCfg 0x11200)
      (by rw [h0, hnew]; decide)
    refine ⟨_, congrArg Host.Outcome.next (State.writeAccess_ptCfg hbar hplat v.isLt), ?_, hguard⟩
    rw [State.regWord_of_regs hregs]
    exact hnew
  · refine ⟨_, congrArg Host.Outcome.next (State.writeAccess_aprAck hn), ?_⟩
    rw [State.aprAck, State.ackRows_port]
    exact ⟨rfl, rfl⟩

end Sys2Proof.Machine

/-! SUPPORT. Sessions, tokens, attestation and operator keys (R329 to R342, R353, R380, R394). -/

namespace Sys2Proof.Machine

/-! ### The lowest free slot -/

theorem firstBelow_eq_some {p : Nat → Bool} {n k : Nat} (hk : k < n) (hp : p k = true) (hlow : ∀ i, i < k → p i = false) :
    firstBelow p n = some k := by
  rw [firstBelow, rangeFrom_eq_range', List.find?_range'_eq_some]
  exact ⟨hp, List.mem_range'_1.mpr (by omega), fun j _ hj => by rw [hlow j hj]; rfl⟩

theorem firstBelow_eq_none {p : Nat → Bool} {n : Nat} (h : ∀ i, i < n → p i = false) : firstBelow p n = none := by
  rw [firstBelow, List.find?_eq_none]
  intro i hi
  rw [h i (by have := mem_rangeFrom.mp hi; omega)]
  exact Bool.false_ne_true

section
variable {s : State} {c : CmdCtx} {slot q : Nat} (hlive : s.pkg.bothDead = false) (hq : c.queue = some q) (hres : 32 ≤ c.resLen)

/-! ### OPEN (R329, R394) -/

/-- The session that OPEN makes. -/
def State.newSession (s : State) (q : Nat) : Session :=
  { isPort := false, ring := q, nonce := Config.drbg128 s.drawn, scheck := (Config.drbg128 (s.drawn + 1)).setWidth 32,
    openT := s.pkg.meridian }

/-- The record that OPEN returns. -/
def State.openRecord (s : State) (q : Nat) : List Byte :=
  leBytes 16 (s.newSession q).nonce.toNat ++ leBytes 8 s.now ++ leBytes 4 (s.newSession q).scheck.toNat ++ leBytes 4 0

/-- The state that OPEN leaves before its completion. -/
def State.sessionOpened (s : State) (q slot : Nat) : State :=
  { (s.draw.draw.setSession slot (some (s.newSession q))).bumpGen with host := { s.host with result := s.openRecord q } }

theorem State.sessionOpened_engines (s : State) (q slot : Nat) : (s.sessionOpened q slot).engines = s.engines := by
  simp only [State.sessionOpened, State.bumpGen, State.setSession_engines, State.draw]

theorem State.sessionOpened_sessions (s : State) (q slot : Nat) : (s.sessionOpened q slot).session slot = some (s.newSession q) ∧
    ∀ j, j ≠ slot → (s.sessionOpened q slot).session j = s.session j :=
  ⟨State.setSession_self s.draw.draw slot (some (s.newSession q)),
    fun j hj => State.setSession_ne s.draw.draw slot (some (s.newSession q)) j hj⟩

include hlive hq hres

theorem execOpenSession_locked (h : s.life.lockdown = true) : exec (.openSession c) s = .next (s.refuse c Status.lockdown) := by
  change execOpenSession c s = _
  simp [execOpenSession, hlive, hq, hres, h, firstFail]

theorem execOpenSession_full (h : s.life.lockdown = false) (hfull : ∀ i, i < 255 → (s.session i).isSome = true) :
    exec (.openSession c) s = .next (s.refuse c Status.sessionFull) := by
  have hnone : firstBelow (fun i => (s.session i).isNone) 255 = none :=
    firstBelow_eq_none fun i hi => by rw [← Option.not_isSome, hfull i hi]; rfl
  change execOpenSession c s = _
  simp [execOpenSession, hlive, hq, hres, h, firstFail, hnone]

theorem execOpenSession_free (h : s.life.lockdown = false) (hslot : slot < 255) (hfree : s.session slot = none)
    (hlow : ∀ i, i < slot → (s.session i).isSome = true) : exec (.openSession c) s =
      .next ((s.sessionOpened q slot).completeFor c slot Status.ok (objectWord ObjKind.session slot) 0) := by
  have hfirst : firstBelow (fun i => (s.session i).isNone) 255 = some slot :=
    firstBelow_eq_some hslot (by rw [hfree]; rfl) fun i hi => by rw [← Option.not_isSome, hlow i hi]; rfl
  have hchecks : firstFail [(c.queue.isSome && decide (32 ≤ c.resLen), Status.cmdFormat), (!s.life.lockdown, Status.lockdown)] = none := by
    simp [hq, hres, h]
  change execOpenSession c s = _
  unfold execOpenSession
  rw [if_neg (by simp [hlive]), hchecks]
  dsimp only
  rw [hfirst]
  dsimp only
  rw [State.give, hq]
  rfl

end

/-! ### What a completion leaves of the host's side -/

theorem State.pushEvent_waiting (s : State) (r : Nat) (e : Event) : (s.pushEvent r e).host.waiting = s.host.waiting := by
  unfold State.pushEvent
  dsimp only
  (repeat' split) <;> rfl

theorem State.emit_waiting (s : State) (k : Nat) (e : Event) : (s.emit k e).host.waiting = s.host.waiting := by
  unfold State.emit
  split
  · rfl
  · split <;> split
    · rfl
    · exact State.pushEvent_waiting ..
    · exact State.pushEvent_waiting ..
    · rfl

theorem State.pushReserved_waiting (s : State) (r : Nat) (b : Bool) (e : Event) :
    (s.pushReserved r b e).host.waiting = s.host.waiting := by
  unfold State.pushReserved
  dsimp only
  split <;> rfl

theorem State.complete_waiting (s : State) (c : CmdCtx) (st : Nat) (o : BitVec 32) (d : Word) :
    (s.complete c st o d).host.waiting = s.host.waiting := by
  unfold State.complete State.completeFor
  dsimp only
  split
  · rfl
  · split
    · exact State.pushReserved_waiting ..
    · exact State.emit_waiting ..

theorem State.Alone.complete {s : State} {slot : Nat} (h : s.Alone slot) (c : CmdCtx) (st : Nat) (o : BitVec 32) (d : Word) :
    (s.complete c st o d).Alone slot := by
  obtain ⟨hw, hv, hr, he, hs, ho⟩ := h
  refine ⟨(State.complete_waiting ..).trans hw, ?_, (State.complete_refs ..).trans hr, ?_, ?_, ?_⟩
  all_goals rw [State.complete_eq]
  · exact hv
  · exact he
  · exact hs
  · exact ho

/-! ### CLOSE (R394) -/

/-- An event enters its ring whatever the sessions are. -/
theorem State.pushEvent_setSession_rings (s : State) (slot r : Nat) (y : Option Session) (e : Event) :
    ((s.setSession slot y).pushEvent r e).host.rings = (s.pushEvent r e).host.rings := by
  simp only [State.pushEvent, apply_ite (fun t : State => t.host.rings)]
  rfl

/-- A host session that nothing refers to ends with its event in its home ring. -/
theorem State.closeSession_rings {s : State} {slot : Nat} {x : Session} (hlive : s.pkg.bothDead = false) (h : s.Alone slot)
    (hx : s.session slot = some x) (hhost : x.isPort = false) (hslot : slot ≠ portSlot) :
    (s.closeSession slot Reason.close).host.rings = (s.pushEvent x.ring (s.event EventType.sessionClosed Reason.close slot 0xFF
      (objectWord ObjKind.session slot) 0 0)).host.rings := by
  rw [State.closeSession_host (congrArg Option.isSome hx) hslot, State.vacated_alone h hx rfl, ← State.pushEvent_setSession_rings s slot _
    (some { x with holds := [] })]
  have hevent : (s.setSession slot (some { x with holds := [] })).closedEvent slot Reason.close =
      (s.setSession slot (some { x with holds := [] })).pushEvent x.ring (s.event EventType.sessionClosed Reason.close slot 0xFF
        (objectWord ObjKind.session slot) 0 0) := by
    unfold State.closedEvent State.emit
    rw [if_neg (by decide), State.setSession_pkg, if_neg (by simp [hlive]), State.setSession_self]
    exact if_neg (by simp [hhost])
  rw [hevent]
  rfl

theorem execCloseSession_open {s : State} {c : CmdCtx} {x : Session} (hlive : s.pkg.bothDead = false)
    (hx : s.session c.session = some x) :
    exec (.closeSession c) s = .next ((s.complete c Status.ok noObject 0).closeSession c.session Reason.close) := by
  change execCloseSession c s = _
  rw [execCloseSession, State.judgedAny_ok hlive (congrArg Option.isSome hx) firstFail_nil]

/-- CLOSE of a host session that nothing refers to leaves its event behind the completion. -/
theorem State.complete_closeSession_rings {s : State} {c : CmdCtx} {x : Session} (hlive : s.pkg.bothDead = false)
    (hx : s.session c.session = some x) (h : s.Alone c.session) (hhost : x.isPort = false) (hslot : c.session ≠ portSlot) :
    ((s.complete c Status.ok noObject 0).closeSession c.session Reason.close).host.rings =
      ((s.complete c Status.ok noObject 0).pushEvent x.ring ((s.complete c Status.ok noObject 0).event EventType.sessionClosed Reason.close
        c.session 0xFF (objectWord ObjKind.session c.session) 0 0)).host.rings := by
  have hxc : (s.complete c Status.ok noObject 0).session c.session = some x := by rw [State.complete_eq]; exact hx
  have hlc : (s.complete c Status.ok noObject 0).pkg.bothDead = false := by rw [State.complete_eq]; exact hlive
  exact State.closeSession_rings hlc (h.complete ..) hxc hhost hslot

/-! ### GRANT (R331 to R334) -/

section
variable {s : State} {c : CmdCtx} {x : Session} {arg : List Byte} (hlive : s.pkg.bothDead = false) (hx : s.session c.session = some x)
include hlive hx

theorem execGrant_refused {st : Nat} (h : firstFail (s.tokenChecks x c.session arg) = some st) :
    exec (.grant c arg) s = .next (s.refuse c st) := by
  change execGrant c arg s = _
  unfold execGrant
  rw [if_neg (by simp [hlive]), hx]
  dsimp only
  rw [h]

/-- A token that passes waits for a place of the verifier, or takes one. -/
theorem execGrant_passed (h : firstFail (s.tokenChecks x c.session arg) = none) : exec (.grant c arg) s =
    if 8 ≤ s.auth.verify.length then .next { s with host := { s.host with waiting := s.host.waiting ++ [.grant c arg] } }
    else .next { s with auth := { s.auth with verify := s.auth.verify ++
      [{ c := c, level := fieldAt arg 6 1, key := fieldAt arg 7 1, ctx := fieldAt arg 8 2,
         seq := BitVec.ofNat 32 (fieldAt arg 0x0C 4), expiry := word (fieldAt arg 0x10 8),
         regGen := ((s.reg (fieldAt arg 8 2)).map (·.regGen)).getD 0 }] } } := by
  change execGrant c arg s = _
  unfold execGrant
  rw [if_neg (by simp [hlive]), hx]
  dsimp only
  rw [h]
  rfl

end

section
variable {s : State} {v : Verify} {r : List Verify} {x : Session} (hlive : s.pkg.bothDead = false) (hv : s.auth.verify = v :: r)
  (hx : s.session v.c.session = some x)

/-- The state once the token at the head of the verifier has left it. -/
def State.verified (s : State) (r : List Verify) : State := { s with auth := { s.auth with verify := r } }

include hlive hv hx

/-- A registration that has gone refuses its token. -/
theorem execGrantVerifyDone_unbound (ok : Bool) (hkey : v.key = 2) (hreg : (s.reg v.ctx).map (·.regGen) ≠ some v.regGen) :
    exec (.grantVerifyDone ok) s = .next ((s.verified r).refuse v.c Status.ctxUnbound) := by
  have hbound : (v.key != 2 || ((s.reg v.ctx).map (·.regGen)) == some v.regGen) = false := by simp [hkey, hreg]
  change execGrantVerifyDone ok s = _
  unfold execGrantVerifyDone
  rw [if_neg (by simp [hlive]), hv]
  dsimp only
  have hx' : ({ s with auth := { s.auth with verify := r } } : State).session v.c.session = some x := hx
  have hreg' : ({ s with auth := { s.auth with verify := r } } : State).reg v.ctx = s.reg v.ctx := rfl
  rw [hx']
  dsimp only
  rw [hreg', hbound]
  rfl

variable (hbound : v.key = 2 → (s.reg v.ctx).map (·.regGen) = some v.regGen) (hseq : x.lastSeq v.key v.ctx < v.seq.toNat)
include hbound hseq

/-- A token that is bound and newer than the last is judged by its signature. -/
theorem execGrantVerifyDone_judged (ok : Bool) : exec (.grantVerifyDone ok) s =
    if !ok then .next (((s.verified r).tokenFail v.c.session).refuse v.c Status.grantSignature)
    else if v.key == 2 && v.level != 0 && !x.ctxRoom s.now v.ctx then .next ((s.verified r).refuse v.c Status.ctxLimit)
    else .next (((s.verified r).tokenPass v.c.session v).complete v.c Status.ok (objectWord ObjKind.context v.ctx) (word v.level)) := by
  have hpass : (v.key != 2 || ((s.reg v.ctx).map (·.regGen)) == some v.regGen) = true := by
    by_cases h2 : v.key = 2
    · simp [hbound h2]
    · simp [h2]
  change execGrantVerifyDone ok s = _
  unfold execGrantVerifyDone
  rw [if_neg (by simp [hlive]), hv]
  dsimp only
  have hx' : ({ s with auth := { s.auth with verify := r } } : State).session v.c.session = some x := hx
  have hreg' : ({ s with auth := { s.auth with verify := r } } : State).reg v.ctx = s.reg v.ctx := rfl
  rw [hx']
  dsimp only
  rw [hreg', hpass, decide_eq_true hseq]
  rfl

end

section
variable {s : State} {slot : Nat} {x : Session} {v : Verify}

/-- A host session's token whose signature fails is counted, and from the fourth on a lockout starts (R334). -/
theorem State.tokenFail_host (hx : s.session slot = some x) (hslot : slot ≠ portSlot) : ∃ y, (s.tokenFail slot).session slot = some y ∧
    y.fails = min 255 (x.fails + 1) ∧ y.operator = x.operator ∧ y.tenants = x.tenants ∧
    (s.tokenFail slot).auth.fails = sat16 s.auth.fails ∧
    (3 ≤ x.fails → y.lockEnd = some (word (s.now + x.nextLock * 1000000000)) ∧ y.nextLock = min 64 (2 * x.nextLock)) := by
  have hx' : ({ s with auth := { s.auth with fails := sat16 s.auth.fails } } : State).session slot = some x := hx
  have hfour : 4 ≤ min 255 (x.fails + 1) ↔ 3 ≤ x.fails := by omega
  unfold State.tokenFail
  dsimp only
  rw [if_neg hslot, hx']
  simp only [hfour]
  split
  · exact ⟨_, State.setSession_self .., rfl, rfl, rfl, rfl, fun _ => ⟨rfl, rfl⟩⟩
  · next h => exact ⟨_, State.setSession_self .., rfl, rfl, rfl, rfl, fun h' => absurd h' h⟩

variable (hx : s.session slot = some x) (hslot : slot ≠ portSlot) (hstreams : s.trace.streams = [])
include hx hslot hstreams

theorem State.tokenPass_operator (hkey : v.key = 1) : s.tokenPass slot v = s.setSession slot (some { x with
    fails := 0, nextLock := 1, operator := { x.operator with on := v.level != 0, seq := v.seq, expiry := v.expiry } }) := by
  unfold State.tokenPass
  rw [hx]
  dsimp only
  rw [if_neg hslot, hkey]
  exact State.cutFallen_none hstreams

theorem State.tokenPass_tenant (hkey : v.key = 2) (hnone : x.tenants = []) : s.tokenPass slot v = s.setSession slot (some { x with
    fails := 0, nextLock := 1, tenants := [{ ctx := v.ctx, level := v.level, seq := v.seq, expiry := v.expiry }] }) := by
  unfold State.tokenPass
  rw [hx]
  dsimp only
  rw [if_neg hslot, if_pos hkey, hnone]
  exact State.cutFallen_none hstreams

end

/-! ### Levels that lapse (R332) -/

/-- Grants that are all over give no level. -/
theorem Session.tenantLevel_lapsed {x : Session} {now : Nat} {c : Ctx}
    (h : ∀ g ∈ x.tenants, g.ctx = c → g.portLevel = 0 ∧ g.expiry.toNat ≤ now) : x.tenantLevel now c = 0 := by
  unfold Session.tenantLevel
  refine List.foldlRecOn (motive := fun a => a = 0) _ _ rfl fun a ha g hg => ?_
  obtain ⟨hmem, hctx⟩ := List.mem_filter.mp hg
  obtain ⟨hlevel, hend⟩ := h g hmem (beq_iff_eq.mp hctx)
  rw [ha, hlevel, if_neg (Nat.not_lt.mpr hend)]
  rfl

section
variable {s : State} {slot : Nat} {x : Session} (hx : s.session slot = some x) (hstate : s.life.state = .production)
  (hprov : x.provision.live s.now = false) (htest : x.makerTest.live s.now = false) (hanal : x.analysis.live s.now = false)
include hx hstate hprov htest hanal

theorem State.levelOn_lapsed {c : Ctx} (hc : c ≠ 0) (h : ∀ g ∈ x.tenants, g.ctx = c → g.portLevel = 0 ∧ g.expiry.toNat ≤ s.now) :
    s.levelOn (some slot) c = 0 := by
  have hmaker : s.isMaker (some slot) = false := by simp [State.isMaker, hx, hprov, htest, hanal]
  have hopen : s.openState = false := by simp [State.openState, hstate]
  have hzero : (c == 0) = false := beq_eq_false_iff_ne.mpr hc
  unfold State.levelOn
  rw [hmaker, hopen, hzero]
  simp [hx, Session.tenantLevel_lapsed h]

end

/-! ### Streams that a session may no longer read (R264) -/

theorem State.cutStream_eq (s : State) (i : Nat) : s.cutStream i = { s with trace := (s.cutStream i).trace } := by
  unfold State.cutStream
  split
  · rfl
  · split
    · rfl
    · refine List.foldlRecOn (motive := fun t : State => t = { s with trace := t.trace }) _ _ rfl fun t ht p _ => ?_
      split
      · exact ht
      · rw [ht]
        rfl

theorem State.cutFallen_auth (s : State) (slot : Nat) : (s.cutFallen slot).auth = s.auth := by
  refine State.foldl_leaves State.auth (fun t i => ?_) _ _
  split
  · split
    · rw [State.cutStream_eq]
    · rfl
  · rfl

/-- A stream that is cut stays in its slot. -/
theorem State.cutStream_cut {s : State} {i : Nat} {y : Stream} (hy : s.stream i = some y) (he : y.ending = 0) :
    ∃ z, (s.cutStream i).stream i = some z ∧ z.isCut = true := by
  unfold State.cutStream
  rw [hy]
  dsimp only
  by_cases hc : y.isCut = true
  · rw [if_pos (by simp [hc])]
    exact ⟨y, hy, hc⟩
  · rw [if_neg (by simp [hc, he])]
    have hkept : ((rangeFrom 0 s.pkg.member.posts).foldl (fun t p =>
        if (t.tpart p i).state = 0 then t else t.setTpart p i { t.tpart p i with state := 4 })
        (s.setStream i (some { y with isCut := true }))).trace.streams = (s.setStream i (some { y with isCut := true })).trace.streams :=
      State.foldl_leaves (fun t : State => t.trace.streams) (fun t p => by dsimp only; split <;> rfl) _ _
    refine ⟨{ y with isCut := true }, ?_, rfl⟩
    rw [State.stream, hkept]
    exact Tbl.get_set_self none s.trace.streams i (some { y with isCut := true })

theorem State.cutFallen_only {s : State} {slot i : Nat} {y : Stream} (hs : s.trace.streams = [(i, some y)]) (ho : y.owner = slot)
    (hmay : s.mayStream (some slot) y = false) : s.cutFallen slot = s.cutStream i := by
  have hy : s.stream i = some y := by rw [State.stream, hs]; simp [Tbl.get]
  have hkeys : Tbl.keysSome s.trace.streams = [i] := by rw [hs]; rfl
  unfold State.cutFallen
  rw [hkeys, List.foldl_cons, List.foldl_nil, hy]
  dsimp only
  rw [if_pos ⟨ho, by simp [hmay]⟩]

/-! ### ATTEST, CERT and OPKEY (R341, R342, R353) -/

/-- A result record for a queue goes to host memory. -/
theorem State.give_queue {c : CmdCtx} {q : Nat} (hq : c.queue = some q) (s : State) (bs : List Byte) :
    s.give c bs = { s with host := { s.host with result := bs } } := by
  rw [State.give, hq]

section
variable {s : State} {c : CmdCtx} (heard : Claims.Heard s c) {q : Nat} (hq : c.queue = some q)
include heard hq

theorem execAttest_done {ctx : Ctx} (ch : List Byte) (hctx : ctx < 4096) (hres : 216 ≤ c.resLen) :
    Claims.Done (.attest c ctx ch) s c (objectWord ObjKind.context ctx) 0
      { s with host := { s.host with result := s.attestBody ctx ch ++ slice (Config.attestSign (s.attestBody ctx ch)) 0 64 } } := by
  obtain ⟨hopen, hlive, hfw⟩ := heard
  refine congrArg Host.Outcome.next ((State.judged_ok hlive hfw hopen (by simp [hctx, hres])).trans ?_)
  dsimp only
  rw [State.give_queue hq]

theorem execCert_done (hres : s.life.certChain.length ≤ c.resLen) :
    Claims.Done (.cert c) s c noObject (word s.life.certChain.length)
      { s with host := { s.host with result := s.life.certChain } } := by
  obtain ⟨hopen, hlive, hfw⟩ := heard
  refine congrArg Host.Outcome.next ((State.judged_ok hlive hfw hopen (by simp [hres])).trans ?_)
  dsimp only
  rw [State.give_queue hq]

end

/-- A sector's write changes nothing of the session table and the keys. -/
theorem State.writeSector_auth (s : State) (l : Nat) (programmed : Bool) : (s.writeSector l programmed).auth = s.auth := by
  refine State.foldl_leaves State.auth (fun t d => ?_) _ _
  unfold State.writeOn
  dsimp only
  split
  · rfl
  · split
    · rfl
    · rw [State.lifeReport, State.reportHub_eq]
      rfl

section
variable {s : State} {r : List Byte}

/-- A new operator record: its generation, its sector and its keys. -/
theorem State.installOp_life (s : State) (r : List Byte) : (s.installOp r).auth = s.auth ∧ (s.installOp r).life.opGen = s.life.opGen + 1 ∧
    (s.installOp r).life.opSector = s.nextOpSector ∧ (s.installOp r).life.opRecPub = regPub r ∧ (s.installOp r).life.opValid = true ∧
    (s.installOp r).life.state = s.life.state ∧ (s.installOp r).life.pending = s.life.pending := by
  have hrecord : (s.writeSector s.nextOpSector true).life.record = s.life.record :=
    State.record_of_ground (congrArg Ground.busy (State.writeSector_ground ..))
  have hgen : (s.writeSector s.nextOpSector true).life.record.opGen = s.life.record.opGen := by rw [hrecord]
  have hstate : (s.writeSector s.nextOpSector true).life.record.state = s.life.record.state := by rw [hrecord]
  have hpend : (s.writeSector s.nextOpSector true).life.record.pending = s.life.record.pending := by rw [hrecord]
  exact ⟨State.writeSector_auth .., congrArg (· + 1) hgen, rfl, rfl, rfl, hstate, hpend⟩

/-- In PRODUCTION a valid record gives its keys (R353). -/
theorem State.loadOp_keys (hv : s.life.opValid = true) (hstate : s.life.state = .production) (hp : s.life.pending = false) :
    s.loadOp = { s with auth := { s.auth with opPub := s.life.opRecPub, opKid := s.life.opRecKid, opKeys := true } } :=
  if_pos (by simp [hv, hstate, hp])

end

section
variable {s : State} {c : CmdCtx} {arg : List Byte} (plat : Claims.Platform s c) (hlen : arg.length = 192) (hbusy : s.lcBusy = false)
  (hkeys : s.auth.opKeys = true) (hlegal : regLegal (arg.take 128) = true) (hctx : regCtx (arg.take 128) = 0)
  (hbare : regBare (arg.take 128) = false) (hroom : s.canWrite [(s.nextOpSector, 1)] = true)
include plat hlen hbusy hkeys hlegal hctx hbare hroom

theorem execOpkey_done : Claims.Done (.opkey c arg true true true) s c noObject 0 (s.installOp (arg.take 128)).loadOp := by
  obtain ⟨-, hlock, hright⟩ := id plat
  refine congrArg Host.Outcome.next ((State.judged_platform plat ?_).trans (if_pos hroom))
  simp [hlen, hlock, hright, hbusy, hkeys, hlegal, hctx, hbare]

end

/-- Settles O50: sessions, tokens by their verification, levels that lapse, and the records of keys. -/
theorem sessionsAndTokens : Obligations.SessionsAndTokens := by
  intro s c slot x hlive
  refine ⟨fun q hq hres => ⟨fun h => execOpenSession_locked hlive hq hres h, fun h hfull => execOpenSession_full hlive hq hres h hfull,
      fun h hslot hfree hlow => ?_⟩, fun hx => ⟨?_, fun arg => ⟨fun st h => execGrant_refused hlive hx h, fun h => ?_⟩⟩,
    fun v r hv hx hslot hstreams hseq => ⟨fun hkey => ?_, fun hkey hreg hnone => ?_,
      fun hkey hreg => execGrantVerifyDone_unbound hlive hv hx true hkey hreg, fun hkey => ?_⟩,
    fun hx hstate hprov htest hanal => ⟨fun cx hcx h => State.levelOn_lapsed hx hstate hprov htest hanal hcx h, ?_⟩,
    fun hx hslot e he ht => ?_, fun heard q hq => ⟨fun ctx ch hctx hres => ?_, fun hres => execCert_done heard hq hres⟩,
    fun arg plat hlen hbusy hkeys hlegal hctx hbare hroom hstate => ?_⟩
  · obtain ⟨hself, hothers⟩ := s.sessionOpened_sessions q slot
    have hengines := s.sessionOpened_engines q slot
    have hrun := execOpenSession_free hlive hq hres h hslot hfree hlow
    refine ⟨s.sessionOpened q slot, s.newSession q, hrun, hself, hothers, ?_⟩
    exact ⟨rfl, rfl, rfl, rfl, rfl, rfl, rfl, rfl, rfl, rfl, rfl, hengines⟩
  · have hgone := State.closeSession_gone (s.complete c Status.ok noObject 0) c.session Reason.close
    exact ⟨_, execCloseSession_open hlive hx, hgone, fun hhost hslot _ hw hv hr he hs ho =>
      State.complete_closeSession_rings hlive hx ⟨hw, hv, hr, he, hs, ho⟩ hhost hslot⟩
  · rw [execGrant_passed hlive hx h]
    exact ⟨fun hfull => if_pos hfull, fun hroom => if_neg (Nat.not_le.mpr hroom)⟩
  · have h2 : (v.key == 2) = false := by rw [hkey]; rfl
    rw [execGrantVerifyDone_judged hlive hv hx (fun h => absurd (hkey.symm.trans h) (by decide)) hseq true, h2,
      State.tokenPass_operator (s := s.verified r) hx hslot hstreams hkey]
    rfl
  · have hroom : x.ctxRoom s.now v.ctx = true := by simp [Session.ctxRoom, Session.held, hnone]
    rw [execGrantVerifyDone_judged hlive hv hx (fun _ => hreg) hseq true, hroom,
      State.tokenPass_tenant (s := s.verified r) hx hslot hstreams hkey hnone]
    simp
    rfl
  · obtain ⟨y, hy, hfails, hop, hten, hcount, hlock⟩ := State.tokenFail_host (s := s.verified r) hx hslot
    exact ⟨_, y, execGrantVerifyDone_judged hlive hv hx (fun h => absurd h hkey) hseq false, hy, hfails, hop, hten, hcount, hlock⟩
  · have hrun : exec (.grantLapse slot) s = .next (s.cutFallen slot) := congrArg Host.Outcome.next (if_neg (by simp [hlive]))
    refine ⟨_, hrun, State.cutFallen_auth .., fun i y hs ho he hmay => ?_⟩
    rw [State.cutFallen_only hs ho hmay]
    exact State.cutStream_cut (by rw [State.stream, hs]; simp [Tbl.get]) he
  · have hunlocked : s.tokenLocked slot = false := by simp [State.tokenLocked, hslot, hx, he, ht]
    change execTokenLockoutExpiry slot s = _
    unfold execTokenLockoutExpiry
    rw [hx]
    exact if_neg (by simp [hunlocked])
  · exact ⟨_, slice_length .., execAttest_done heard hq ch hctx hres⟩
  · obtain ⟨hauth, hgen, hsec, hpub, hvalid, hst, hpend⟩ := s.installOp_life (arg.take 128)
    have hp : s.life.pending = false := by
      rw [State.lcBusy, Bool.or_eq_false_iff] at hbusy
      exact hbusy.1
    refine ⟨_, execOpkey_done plat hlen hbusy hkeys hlegal hctx hbare hroom, ?_⟩
    rw [State.loadOp_keys hvalid (hst.trans hstate) (hpend.trans hp)]
    have hsessions : (s.installOp (arg.take 128)).auth.sessions = s.auth.sessions := by rw [hauth]
    exact ⟨hgen, hsec, hpub, hpub, hsessions⟩

end Sys2Proof.Machine

/-! SUPPORT. User sectors and lifecycle transitions (R350, R355, R360 to R366). -/

namespace Sys2Proof.Machine

/-! ### Step records (R360, R361) -/

theorem State.stepRec_setStepRec_self (s : State) (c i : Nat) (v : StepRec) : (s.setStepRec c i v).stepRec c i = v :=
  Tbl.get_set_self _ _ _ _

theorem State.stepRec_setStepRec_ne (s : State) {c j : Nat} (i : Nat) (v : StepRec) (h : j ≠ c) :
    (s.setStepRec c i v).stepRec j i = s.stepRec j i :=
  Tbl.get_set_ne _ _ _ _ _ (by omega)

/-- A step record changes nothing but the copies. -/
theorem State.writeStep_eq (s : State) (tag src dst slot step : Nat) :
    s.writeStep tag src dst slot step = { s with life := { s.life with copies := (s.writeStep tag src dst slot step).life.copies } } := by
  refine List.foldlRecOn (motive := fun t : State => t = { s with life := { s.life with copies := t.life.copies } }) _ _ rfl
    fun t ht c _ => ?_
  split
  · rw [ht]
    rfl
  · exact ht

/-- One copy takes a record where it is erased. -/
def State.recordIn (i : Nat) (v : StepRec) (s : State) (c : Nat) : State :=
  if s.stepRec c i = .erased then s.setStepRec c i v else s

theorem State.recordIn_erased {s : State} {i c : Nat} {v : StepRec} (h : s.stepRec c i = .erased) :
    (s.recordIn i v c).stepRec c i = v := by
  rw [State.recordIn, if_pos h, State.stepRec_setStepRec_self]

theorem State.recordIn_ne {s : State} {i c j : Nat} (v : StepRec) (h : j ≠ c) : (s.recordIn i v c).stepRec j i = s.stepRec j i := by
  unfold State.recordIn
  split
  · exact State.stepRec_setStepRec_ne s i v h
  · rfl

/-- A copy that holds the record keeps it. -/
theorem State.recordIn_written {s : State} {i j : Nat} {v : StepRec} (c : Nat) (h : s.stepRec j i = v) :
    (s.recordIn i v c).stepRec j i = v := by
  by_cases hj : j = c
  · subst hj
    unfold State.recordIn
    split
    · exact State.stepRec_setStepRec_self ..
    · exact h
  · rw [State.recordIn_ne v hj, h]

/-- Every copy of a list that is erased, or has the record, has it at the end. -/
theorem State.foldl_recordIn {i : Nat} {v : StepRec} (l : List Nat) (s : State)
    (hl : ∀ c ∈ l, s.stepRec c i = .erased ∨ s.stepRec c i = v) (j : Nat) (hj : j ∈ l ∨ s.stepRec j i = v) :
    (l.foldl (State.recordIn i v) s).stepRec j i = v := by
  induction l generalizing s with
  | nil => exact hj.resolve_left List.not_mem_nil
  | cons c l ih =>
    have hc : (s.recordIn i v c).stepRec c i = v := by
      rcases hl c List.mem_cons_self with h | h
      · exact State.recordIn_erased h
      · exact State.recordIn_written c h
    refine ih (s.recordIn i v c) (fun d hd => ?_) ?_
    · by_cases hdc : d = c
      · exact .inr (hdc ▸ hc)
      · rw [State.recordIn_ne v hdc]
        exact hl d (List.mem_cons_of_mem c hd)
    · rcases hj with hj | hj
      · rcases List.mem_cons.mp hj with rfl | hj
        · exact .inr hc
        · exact .inl hj
      · exact .inr (State.recordIn_written c hj)

/-- A step is written in every reachable copy that is erased there. -/
theorem State.writeStep_written {s : State} {tag src dst slot step c : Nat}
    (he : ∀ d ∈ s.copiesHere, s.stepRec d (4 * slot + step) = .erased) (hc : c ∈ s.copiesHere) :
    (s.writeStep tag src dst slot step).stepRec c (4 * slot + step) = .valid tag src dst slot s.pkg.meridian :=
  State.foldl_recordIn s.copiesHere s (fun d hd => .inl (he d hd)) c (.inl hc)

/-- A free record slot is erased in every reachable copy. -/
theorem State.stepRec_freeRecSlot {s : State} {n : Nat} (h : s.freeRecSlot = some n) :
    ∀ d ∈ s.copiesHere, s.stepRec d (4 * n + 0) = .erased := by
  intro d hd
  have hfree : s.recSlotFree n = true := List.find?_some h
  have hcopy := List.all_eq_true.mp hfree d hd
  exact beq_iff_eq.mp (List.all_eq_true.mp hcopy 0 (by simp))

/-! ### User sectors (R355) -/

section
variable {s : State} {c : CmdCtx} {k : Nat} (plat : Claims.Platform s c) (hbusy : s.lcBusy = false) (hk : k < 16)

/-- A user sector that is written (R355). -/
def State.userWritten (s : State) (k : Nat) (data : List Byte) : State :=
  let s1 := s.writeSector (40 + k) (data.any (fun b => b != 0xFF))
  { s1 with life := { s1.life with user := Tbl.set [] s1.life.user k (if data.any (fun b => b != 0xFF) then data else []) } }

theorem State.writeSector_upd (s : State) (l : Nat) (programmed : Bool) : (s.writeSector l programmed).upd = s.upd := by
  refine State.foldl_leaves State.upd (fun t d => ?_) _ _
  unfold State.writeOn
  dsimp only
  split
  · rfl
  · split
    · rfl
    · rw [State.lifeReport, State.reportHub_eq]
      rfl

theorem State.writeSector_record (s : State) (l : Nat) (programmed : Bool) : (s.writeSector l programmed).life.record = s.life.record :=
  State.record_of_ground (congrArg Ground.busy (State.writeSector_ground ..))

theorem State.userWritten_life (s : State) (k : Nat) (data : List Byte) :
    (s.userWritten k data).life.user = Tbl.set [] s.life.user k (if data.any (fun b => b != 0xFF) then data else []) ∧
    (s.userWritten k data).life.copies = s.life.copies ∧ (s.userWritten k data).life.state = s.life.state := by
  have hrecord := s.writeSector_record (40 + k) (data.any (fun b => b != 0xFF))
  have huser : (s.writeSector (40 + k) (data.any (fun b => b != 0xFF))).life.record.user = s.life.record.user := by rw [hrecord]
  have hcopies : (s.writeSector (40 + k) (data.any (fun b => b != 0xFF))).life.record.copies = s.life.record.copies := by rw [hrecord]
  have hstate : (s.writeSector (40 + k) (data.any (fun b => b != 0xFF))).life.record.state = s.life.record.state := by rw [hrecord]
  exact ⟨congrArg (Tbl.set [] · k _) huser, hcopies, hstate⟩

/-- The worn sector is reported and nothing is written. -/
theorem State.wornReport_life (s : State) (ws : List (Nat × Nat)) : (s.wornReport ws).life = s.life := by
  unfold State.wornReport
  split <;> rw [State.lifeReport, State.reportHub_eq]

include plat hbusy hk

theorem execUflashWrite_done {data : List Byte} (hlen : data.length = 65536) (hroom : s.canWrite [(40 + k, 1)] = true) :
    Claims.Done (.uflashWrite c k data) s c noObject 0 (s.userWritten k data) := by
  obtain ⟨-, hlock, hright⟩ := id plat
  exact congrArg Host.Outcome.next ((State.judged_platform plat (by simp [hlock, hright, hbusy, hk, hlen])).trans (if_pos hroom))

theorem execUflashWrite_worn {data : List Byte} (hlen : data.length = 65536) (hroom : s.canWrite [(40 + k, 1)] = false) :
    exec (.uflashWrite c k data) s = .next ((s.wornReport [(40 + k, 1)]).refuse c Status.flashWorn) := by
  obtain ⟨-, hlock, hright⟩ := id plat
  exact congrArg Host.Outcome.next ((State.judged_platform plat (by simp [hlock, hright, hbusy, hk, hlen])).trans
    (if_neg (by simp [hroom])))

theorem execUflashRead_done {q : Nat} (hq : c.queue = some q) (hres : 65536 ≤ c.resLen) :
    Claims.Done (.uflashRead c k) s c noObject 0 { s with host := { s.host with
      result := if (Tbl.get [] s.life.user k).isEmpty then List.replicate 65536 0xFF else Tbl.get [] s.life.user k } } := by
  obtain ⟨-, hlock, hright⟩ := id plat
  refine congrArg Host.Outcome.next ((State.judged_platform plat (by simp [hlock, hright, hbusy, hk, hres])).trans ?_)
  dsimp only
  rw [State.give_queue hq]

end

/-! ### LIFECYCLE (R360 to R364) -/

/-- Where no slot is open there is no session. -/
theorem State.session_of_closed {s : State} (h : s.ground.opens = fun _ => false) (j : Nat) : s.session j = none :=
  Option.isNone_iff_eq_none.mp (Option.isSome_eq_false_iff.mp (congrFun h j))

section
variable {s t : State} (h : t.ground.busy = { s.ground.busy with opens := fun _ => false })
include h

/-- What closes every session and leaves the rest of the ground leaves the lifecycle record. -/
theorem State.record_of_closed : t.life.record = s.life.record := congrArg Ground.record h

theorem State.user_of_closed : t.life.user = s.life.user := congrArg (fun g : Ground => g.record.user) h

theorem State.closed_of_closed : t.ground.opens = fun _ => false := congrArg Ground.opens h

end

/-- The state with its cores held. -/
def State.coresHeld (s : State) : State := { s with pkg := { s.pkg with coresHeld := true } }

/-- The operator record of a transition to PRODUCTION. -/
def State.operatorInstalled (s : State) (dst : Nat) (r : List Byte) : State := if dst = 2 then s.installOp r else s

theorem State.operatorInstalled_keeps (s : State) (dst : Nat) (r : List Byte) : (s.operatorInstalled dst r).pkg = s.pkg ∧
    (s.operatorInstalled dst r).life.copies = s.life.copies ∧ (s.operatorInstalled dst r).life.state = s.life.state := by
  unfold State.operatorInstalled
  split
  · have hpkg : (s.writeSector s.nextOpSector true).pkg = s.pkg := State.pkg_of_ground (congrArg Ground.busy (State.writeSector_ground ..))
    have hcopies : (s.writeSector s.nextOpSector true).life.record.copies = s.life.record.copies := by rw [State.writeSector_record]
    have hstate : (s.writeSector s.nextOpSector true).life.record.state = s.life.record.state := by rw [State.writeSector_record]
    exact ⟨hpkg, hcopies, hstate⟩
  · exact ⟨rfl, rfl, rfl⟩

/-- A transition with its INTENT written, before what it ends. -/
def State.intended (s : State) (n dst : Nat) (r : List Byte) : State :=
  let s2 := (s.operatorInstalled dst r).writeStep 0xA1 s.life.state.code dst n 0
  { s2 with life := { s2.life with slot := n, step := 1, running := true } }

theorem State.intended_life (s : State) (n dst : Nat) (r : List Byte) : (s.intended n dst r).life.slot = n ∧
    (s.intended n dst r).life.step = 1 ∧ (s.intended n dst r).life.running = true ∧
    (s.intended n dst r).life.state = s.life.state := by
  obtain ⟨-, -, hstate⟩ := s.operatorInstalled_keeps dst r
  refine ⟨rfl, rfl, rfl, ?_⟩
  unfold State.intended
  rw [State.writeStep_eq]
  exact hstate

theorem State.intended_written {s : State} {n : Nat} (hn : s.freeRecSlot = some n) (dst : Nat) (r : List Byte) {i : Nat}
    (hi : i ∈ s.copiesHere) : (s.intended n dst r).stepRec i (4 * n + 0) = .valid 0xA1 s.life.state.code dst n s.pkg.meridian := by
  obtain ⟨hpkg, hcopies, -⟩ := s.operatorInstalled_keeps dst r
  have hhere : (s.operatorInstalled dst r).copiesHere = s.copiesHere := by
    simp only [State.copiesHere, State.flashDies, hpkg]
  have hrec (d k : Nat) : (s.operatorInstalled dst r).stepRec d k = s.stepRec d k := by rw [State.stepRec, hcopies, State.stepRec]
  rw [← hpkg]
  refine State.writeStep_written (s := s.operatorInstalled dst r) (fun d hd => ?_) (hhere ▸ hi)
  rw [hrec]
  exact State.stepRec_freeRecSlot hn d (hhere ▸ hd)

/-- The transition once everything that it ends has ended. -/
def State.transitionEnded (s : State) (n dst : Nat) (r : List Byte) : State :=
  ((s.intended n dst r).dropExports.closeAll Reason.lifecycle).destroyPartitions.packageWarm

theorem State.transitionEnded_ground (s : State) (n dst : Nat) (r : List Byte) :
    (s.transitionEnded n dst r).ground.busy = { (s.intended n dst r).ground.busy with opens := fun _ => false } := by
  simp [State.transitionEnded]

theorem State.beginTransition_eq (s : State) (n dst : Nat) (r : List Byte) : s.beginTransition n dst r =
    (s.transitionEnded n dst r).coresHeld := by
  rw [State.beginTransition, State.coresHeld, State.transitionEnded, State.intended, State.operatorInstalled]

/-- What the transition ends leaves its record; no session is open, and the cores are held. -/
theorem State.beginTransition_ground (s : State) (n dst : Nat) (r : List Byte) :
    (s.beginTransition n dst r).life.record = (s.intended n dst r).life.record ∧
    (s.beginTransition n dst r).pkg.coresHeld = true ∧ (s.beginTransition n dst r).ground.opens = fun _ => false := by
  have h := s.transitionEnded_ground n dst r
  have hrecord := State.record_of_closed h
  have hopens := State.closed_of_closed h
  rw [State.beginTransition_eq]
  generalize s.transitionEnded n dst r = t at hrecord hopens
  exact ⟨hrecord, rfl, hopens⟩

/-- Equal records have equal fields. -/
theorem Lifecycle.fields_of_record {l m : Lifecycle} (h : l.record = m.record) :
    l.slot = m.slot ∧ l.step = m.step ∧ l.running = m.running ∧ l.state = m.state ∧ l.copies = m.copies := by
  have hf {α : Type} (f : Lifecycle → α) : f l.record = f m.record := congrArg f h
  exact ⟨hf (·.slot), hf (·.step), hf (·.running), hf (·.state), hf (·.copies)⟩

/-- A transition that has begun (R361). -/
theorem State.beginTransition_begun {s : State} {n : Nat} (hn : s.freeRecSlot = some n) (dst : Nat) (r : List Byte) :
    ∃ t, t = s.beginTransition n dst r ∧ t.life.slot = n ∧ t.life.step = 1 ∧ t.life.running = true ∧ t.life.state = s.life.state ∧
    t.pkg.coresHeld = true ∧ (∀ j, t.session j = none) ∧
    ∀ i ∈ s.copiesHere, t.stepRec i (4 * n) = .valid 0xA1 s.life.state.code dst n s.pkg.meridian := by
  obtain ⟨hrecord, hheld, hopens⟩ := s.beginTransition_ground n dst r
  obtain ⟨hslot, hstep, hrun, hstate⟩ := s.intended_life n dst r
  have hwritten {i : Nat} (hi : i ∈ s.copiesHere) := State.intended_written hn dst r hi
  refine ⟨_, rfl, ?_⟩
  generalize s.beginTransition n dst r = t at hrecord hheld hopens ⊢
  generalize s.intended n dst r = u at hrecord hslot hstep hrun hstate hwritten
  obtain ⟨hfs, hft, hfr, hfstate, hfc⟩ := Lifecycle.fields_of_record hrecord
  refine ⟨hfs.trans hslot, hft.trans hstep, hfr.trans hrun, hfstate.trans hstate, hheld, State.session_of_closed hopens, fun i hi => ?_⟩
  rw [State.stepRec, hfc]
  exact hwritten hi

section
variable {s : State} {c : CmdCtx} {arg : List Byte} {n : Nat} (heard : Claims.Heard s c)
  (hchecks : firstFail (s.transitionChecks c arg true true) = none)
include heard hchecks

theorem execLifecycle_worn (hn : s.freeRecSlot = none) :
    exec (.lifecycle c arg true true) s = .next ((s.wornReport []).refuse c Status.flashWorn) := by
  obtain ⟨hopen, hlive, hfw⟩ := heard
  change execLifecycle c arg true true s = _
  rw [execLifecycle, State.judged_ok hlive hfw hopen hchecks, hn]
  rfl

theorem execLifecycle_begins (hn : s.freeRecSlot = some n)
    (hroom : s.canWrite (s.transitionWrites s.life.state.code (fieldAt arg 4 1)) = true) :
    exec (.lifecycle c arg true true) s =
      .next ((s.complete c Status.ok noObject 0).beginTransition n (fieldAt arg 4 1) (slice arg 16 128)) := by
  obtain ⟨hopen, hlive, hfw⟩ := heard
  change execLifecycle c arg true true s = _
  rw [execLifecycle, State.judged_ok hlive hfw hopen hchecks, hn]
  exact congrArg _ (if_pos hroom)

end

/-! ### WIPE_COMPLETE (R362 to R366) -/

theorem State.writeStep_keeps (s : State) (tag src dst slot step : Nat) :
    (s.writeStep tag src dst slot step).life.user = s.life.user ∧ (s.writeStep tag src dst slot step).life.state = s.life.state ∧
    (s.writeStep tag src dst slot step).pkg = s.pkg := by
  rw [State.writeStep_eq]
  exact ⟨rfl, rfl, rfl⟩

theorem State.commit_keeps (s : State) : s.commit.life.user = s.life.user ∧ s.commit.life.state = s.life.state ∧ s.commit.pkg = s.pkg := by
  obtain ⟨huser, hstate, hpkg⟩ := s.writeStep_keeps 0xA2 s.lastNames.1 s.lastNames.2 s.life.slot 1
  obtain ⟨huser', hstate', hpkg'⟩ :=
    (s.writeStep 0xA2 s.lastNames.1 s.lastNames.2 s.life.slot 1).writeStep_keeps 0xA3 s.lastNames.1 s.lastNames.2 s.life.slot 2
  exact ⟨huser'.trans huser, hstate'.trans hstate, hpkg'.trans hpkg⟩

theorem State.announce_keeps (s : State) (code : Nat) : (s.announce code).life.user = s.life.user ∧
    (s.announce code).life.state = s.life.state ∧ (s.announce code).pkg = s.pkg ∧ (s.announce code).life.step = 4 := by
  have hreport : s.lifeReport code (4 * s.life.slot + 3) = { s with cart := (s.lifeReport code (4 * s.life.slot + 3)).cart } :=
    State.reportHub_eq ..
  obtain ⟨huser, hstate, hpkg⟩ :=
    (s.lifeReport code (4 * s.life.slot + 3)).writeStep_keeps 0xA4 s.lastNames.1 s.lastNames.2 s.life.slot 3
  rw [hreport] at huser hstate hpkg
  rw [State.announce, hreport]
  exact ⟨huser, hstate, hpkg, rfl⟩

theorem State.loadOp_keeps (s : State) : s.loadOp.life = s.life ∧ s.loadOp.pkg = s.pkg := by
  unfold State.loadOp
  split <;> exact ⟨rfl, rfl⟩

/-- A wipe empties the user sectors and leaves the state (R362). -/
theorem State.wipe_keeps (s : State) : s.wipe.life.user = [] ∧ s.wipe.life.state = s.life.state ∧ s.wipe.pkg = s.pkg := by
  have herased (ls : List Nat) : (ls.foldl (fun t l => t.eraseSector l) s.emptyDirectories).ground = s.ground := by simp
  have hrecord := State.record_of_ground (congrArg Ground.busy (herased (wipeSectors s.lastNames.1 s.lastNames.2)))
  have hstate : ((wipeSectors s.lastNames.1 s.lastNames.2).foldl (fun t l => t.eraseSector l) s.emptyDirectories).life.record.state =
      s.life.record.state := by rw [hrecord]
  have hpkg := State.pkg_of_ground (congrArg Ground.busy (herased (wipeSectors s.lastNames.1 s.lastNames.2)))
  unfold State.wipe
  dsimp only
  generalize (wipeSectors s.lastNames.1 s.lastNames.2).foldl (fun t l => t.eraseSector l) s.emptyDirectories = t at hstate hpkg ⊢
  exact ⟨rfl, hstate, hpkg⟩

theorem State.hubColdState_clears (s : State) : s.hubColdState.life.user = s.life.user ∧ s.hubColdState.life.running = false ∧
    s.hubColdState.pkg.bootStep = 1 ∧ (∀ j, s.hubColdState.session j = none) ∧ s.hubColdState.folios.exports = [] ∧
    s.hubColdState.regs = [] :=
  ⟨rfl, rfl, rfl, fun _ => rfl, rfl, rfl⟩

/-- A hub-cold reset clears all but what survives it. -/
theorem State.hubCold_clears (s : State) (reason : Nat) (us : List Undrained) : (s.hubCold reason us).life.user = s.life.user ∧
    (s.hubCold reason us).life.running = false ∧ (s.hubCold reason us).pkg.bootStep = 1 ∧
    (∀ j, (s.hubCold reason us).session j = none) ∧ (s.hubCold reason us).folios.exports = [] ∧ (s.hubCold reason us).regs = [] := by
  obtain ⟨huser, hrest⟩ := (s.hubEnds 2 reason us).hubColdState_clears
  exact ⟨huser.trans (State.user_of_closed (s.hubEnds_ground 2 reason us)), hrest⟩

/-- The end of a transition that start-up found pending. -/
def State.pendingEnded (s : State) : State :=
  ({ s.wipe.commit.announce 2 with life := { (s.wipe.commit.announce 2).life with pending := false } } : State).loadOp

theorem State.pendingEnded_keeps (s : State) : s.pendingEnded.life.user = [] ∧ s.pendingEnded.life.pending = false ∧
    s.pendingEnded.life.step = 4 ∧ s.pendingEnded.life.state = s.life.state ∧ s.pendingEnded.pkg = s.pkg := by
  obtain ⟨huser, hstate, hpkg⟩ := s.wipe_keeps
  obtain ⟨hcuser, hcstate, hcpkg⟩ := s.wipe.commit_keeps
  obtain ⟨hauser, hastate, hapkg, hstep⟩ := s.wipe.commit.announce_keeps 2
  rw [hcuser, huser] at hauser
  rw [hcstate, hstate] at hastate
  rw [hcpkg, hpkg] at hapkg
  unfold State.pendingEnded
  generalize s.wipe.commit.announce 2 = t at hauser hastate hapkg hstep
  obtain ⟨hl, hp⟩ := State.loadOp_keeps { t with life := { t.life with pending := false } }
  rw [hl, hp]
  exact ⟨hauser, rfl, hstep, hastate, hapkg⟩

section
variable {s : State} (hlive : s.pkg.bothDead = false)
include hlive

theorem execWipeComplete_running (hr : s.life.running = true) :
    exec .wipeComplete s = .next (s.wipe.commit.hubCold Reason.lifecycle []) := by
  change execWipeComplete s = _
  rw [execWipeComplete, if_neg (by simp [hlive]), if_pos hr]

theorem execWipeComplete_pending (hr : s.life.running = false) (hp : s.life.pending = true) :
    exec .wipeComplete s = .next s.pendingEnded := by
  change execWipeComplete s = _
  rw [execWipeComplete, if_neg (by simp [hlive]), if_neg (by simp [hr]), if_pos hp, State.pendingEnded]

end

/-- Settles O52: user sectors, an accepted transition by its records, and the end of its wipe. -/
theorem lifecycleFlash : Obligations.LifecycleFlash := by
  intro s c k
  refine ⟨fun plat hbusy hk => ⟨fun data hlen hroom => ?_, fun data hlen hroom => ?_,
      fun q hq hres => execUflashRead_done plat hbusy hk hq hres⟩,
    fun arg n heard hchecks => ⟨fun hn => ⟨_, execLifecycle_worn heard hchecks hn, State.wornReport_life ..⟩, fun hn hroom => ?_⟩,
    fun hlive => ⟨fun hr => ?_, fun hr hp => ⟨_, execWipeComplete_pending hlive hr hp, s.pendingEnded_keeps⟩⟩⟩
  · obtain ⟨huser, hcopies, hstate⟩ := s.userWritten_life k data
    refine ⟨s.userWritten k data, execUflashWrite_done plat hbusy hk hlen hroom, ?_, fun j hj => ?_, hcopies, hstate,
      State.writeSector_auth .., State.writeSector_upd ..⟩
    · have hany : data.any (fun b => b != 0xFF) = !data.all (fun b => b == 0xFF) := List.not_all_eq_any_not.symm
      rw [huser, Tbl.get_set_self, hany]
      cases data.all (fun b => b == 0xFF) <;> rfl
    · rw [huser, Tbl.get_set_ne _ _ _ _ _ hj]
  · exact ⟨_, execUflashWrite_worn plat hbusy hk hlen hroom, State.wornReport_life ..⟩
  · refine ⟨_, execLifecycle_begins heard hchecks hn hroom, ?_⟩
    have hcomplete := State.complete_eq s c Status.ok noObject 0
    generalize s.complete c Status.ok noObject 0 = u at hcomplete ⊢
    have hun : u.freeRecSlot = some n := by rw [hcomplete]; exact hn
    have hustate : u.life.state = s.life.state := by rw [hcomplete]
    have huhere : u.copiesHere = s.copiesHere := by rw [hcomplete]; rfl
    have hupkg : u.pkg = s.pkg := by rw [hcomplete]
    obtain ⟨t, rfl, hslot, hstep, hrun, hstate, hheld, hnone, hcopies⟩ := State.beginTransition_begun hun (fieldAt arg 4 1) (slice arg 16 128)
    rw [hustate, hupkg] at hcopies
    exact ⟨hslot, hstep, hrun, hheld, hnone, hstate.trans hustate, fun i hi => hcopies i (huhere ▸ hi)⟩
  · obtain ⟨huser, -, -⟩ := s.wipe_keeps
    obtain ⟨hcuser, -, -⟩ := s.wipe.commit_keeps
    obtain ⟨hu, hrest⟩ := s.wipe.commit.hubCold_clears Reason.lifecycle []
    exact ⟨_, execWipeComplete_running hlive hr, hu.trans (hcuser.trans huser), hrest⟩

end Sys2Proof.Machine

/-! SUPPORT. Command queues, event rings, the BAR0 binding, interrupts and function resets (R374 to R397). -/

namespace Sys2Proof.Machine

/-! ### Rings that drain (R383, R384) -/

/-- A ring that holds nothing back stays as it is. -/
theorem State.drainRing_idle {s : State} {r : Nat} (n : Nat) (hheld : (s.ring r).held = []) (hlost : (s.ring r).lostDue = false) :
    State.drainRing r n s = s := by
  cases n with
  | zero => rfl
  | succ n =>
    unfold State.drainRing
    dsimp only
    split
    · rw [hlost, hheld]
      rfl
    · rfl

section
variable {s : State} {r : Nat} {e : Event} (hheld : (s.ring r).held = [e]) (hlost : (s.ring r).lostDue = false)
  (hopen : s.ringOpen (s.ring r) = true) (hroom : (s.ring r).reserved < (s.ring r).free)
include hheld hlost hopen hroom

/-- The one event that a ring holds enters where a place is free. -/
theorem State.drainRing_one : State.drainRing r ((s.ring r).held.length + 1) s = s.setRing r ({ s.ring r with held := [] }.push e s.pkg.meridian) := by
  have hnext : State.drainRing r 1 (s.setRing r ({ s.ring r with held := [] }.push e s.pkg.meridian)) =
      s.setRing r ({ s.ring r with held := [] }.push e s.pkg.meridian) := by
    refine State.drainRing_idle 1 ?_ ?_
    · rw [State.setRing_self]
      rfl
    · rw [State.setRing_self]
      exact hlost
  have hlength : (s.ring r).held.length + 1 = 2 := by rw [hheld]; rfl
  rw [hlength, State.drainRing, if_pos (by simp [hopen, hroom]), if_neg (by simp [hlost]), hheld]
  exact hnext

end

/-- Rings that hold nothing back stay as they are. -/
theorem State.foldl_drainRing_idle {s : State} (l : List Nat) (h : ∀ k ∈ l, (s.ring k).held = [] ∧ (s.ring k).lostDue = false) :
    l.foldl (fun t r => State.drainRing r ((t.ring r).held.length + 1) t) s = s := by
  induction l with
  | nil => rfl
  | cons k l ih =>
    obtain ⟨hheld, hlost⟩ := h k List.mem_cons_self
    rw [List.foldl_cons, State.drainRing_idle _ hheld hlost, ih fun j hj => h j (List.mem_cons_of_mem k hj)]

/-- Where one ring alone holds an event back, only that ring drains. -/
theorem State.drainRings_one {s : State} {q : Nat} {e : Event} (hq : q < 16)
    (hrest : ∀ k, k ≠ q → (s.ring k).held = [] ∧ (s.ring k).lostDue = false) (hheld : (s.ring q).held = [e])
    (hlost : (s.ring q).lostDue = false) (hopen : s.ringOpen (s.ring q) = true) (hroom : (s.ring q).reserved < (s.ring q).free) :
    s.drainRings = s.setRing q ({ s.ring q with held := [] }.push e s.pkg.meridian) := by
  obtain ⟨l₁, l₂, hl⟩ := List.append_of_mem (mem_rangeFrom.mpr ⟨Nat.zero_le q, by omega⟩ : q ∈ rangeFrom 0 16)
  have hnodup := hl ▸ nodup_rangeFrom 0 16
  have h1 : ∀ k ∈ l₁, k ≠ q := fun k hk hkq => List.disjoint_of_nodup_append hnodup hk (hkq ▸ List.mem_cons_self)
  have h2 : ∀ k ∈ l₂, k ≠ q := fun k hk hkq => (List.nodup_cons.mp hnodup.of_append_right).1 (hkq ▸ hk)
  rw [State.drainRings, hl, List.foldl_append, State.foldl_drainRing_idle l₁ fun k hk => hrest k (h1 k hk), List.foldl_cons,
    State.drainRing_one hheld hlost hopen hroom]
  refine State.foldl_drainRing_idle l₂ fun k hk => ?_
  rw [State.setRing_ne _ _ _ _ (h2 k hk)]
  exact hrest k (h2 k hk)

/-! ### The doorbell and COMMAND_TAKE (R376, R378) -/

section
variable {s : State} (hlive : s.pkg.bothDead = false)
include hlive

/-- While a Compass lives the BAR takes its accesses. -/
theorem State.onBar_live (t : State) : s.onBar .bar t = t := if_neg (by simp [State.barGone, hlive])

variable {q : Nat} (hq : q < 16)
include hq

theorem execHqDb_live (n : Nat) : exec (.hqDb q n) s = .next (s.doorbell q n) := by
  change execHqDb q n s = _
  rw [execHqDb, State.onBar_live hlive, if_pos hq]

theorem execDbErrClear_live : exec (.dbErrClear q) s = .next (s.clearDbErr q) := by
  change execDbErrClear q s = _
  rw [execDbErrClear, State.onBar_live hlive, if_pos hq]

theorem execHqErHead_live (n : Nat) : exec (.hqErHead q n) s =
    .next (s.headPut { who := none, ctx := 0, log := none, off := 0 } q n) := by
  change execHqErHead q n s = _
  rw [execHqErHead, State.onBar_live hlive, if_pos hq]

end

section
variable {s : State} {q : Nat} {arg : ArgFetch}

/-- The entry at the head of a queue in the in-flight table, with its place reserved in its home ring (R378). -/
def State.entryTaken (s : State) (q : Nat) (arg : ArgFetch) : State :=
  let e := s.headEntry q
  let b := s.setCq q { s.cq q with head := ((s.cq q).head + 1) % 64 }
  let i : InFlight := { c := entryCtx (some q) e, ring := s.entryRing q e, opcode := entryOp e, inline := entryInline e,
                        arg := (match arg with | .ok bs => bs | .error => []), object := entryObject (entryOp e) (entryInline e) }
  let u : State := { b with host := { b.host with nextQ := (q + 1) % 16, inflight := b.host.inflight ++ [i] } }
  u.setRing (s.entryRing q e) { s.ring (s.entryRing q e) with reserved := (s.ring (s.entryRing q e)).reserved + 1 }

variable (htakes : s.takesEntries = true) (hturn : s.turn = some q)
include htakes hturn

theorem execCommandTake_turn : exec (.commandTake q arg) s =
    .next (match firstFail (s.entryChecks (some q) (s.headEntry q) arg) with
      | some st => (s.entryTaken q arg).refuse (entryCtx (some q) (s.headEntry q)) st
      | none => s.entryTaken q arg) := by
  change execCommandTake q arg s = _
  rw [execCommandTake, if_pos ⟨htakes, hturn⟩]
  rfl

end

/-! ### HQ_ER_HEAD and RING_ENABLE (R382, R383) -/

/-- The head of a ring moved, and the entries before it consumed. -/
def Ring.consumed (g : Ring) (n : Nat) : Ring :=
  { g with head := n, entries := g.entries.drop (g.entries.length - { g with head := n }.used) }

section
variable {s : State} {q n : Nat} (hlow : n < 65536) (hn : n < (s.ring q).size) (hcart : s.cartWaiting = false)
include hlow hn hcart

/-- A head within the ring is stored as it is written; nothing of the cartouche waited. -/
theorem State.headPut_legal (w : Writer) :
    s.headPut w q n = State.drainRing q ((s.ring q).held.length + 1) (s.setRing q ((s.ring q).consumed n)) := by
  have hx : n % 65536 = n := Nat.mod_eq_of_lt hlow
  have hmin : min n ((s.ring q).size - 1) = n := by omega
  have htop : ¬ (s.ring q).size - 1 < n := by omega
  have hhigh : n / 65536 = 0 := Nat.div_eq_of_lt hlow
  unfold State.headPut
  dsimp only
  rw [hx, hmin, if_neg htop, if_pos hhigh, State.ringHead, hcart]
  rfl

end

/-- An event held back enters a ring whose head has moved, where a place is free. -/
theorem State.drainRing_consumed {s : State} {q n : Nat} {e : Event} (hheld : (s.ring q).held = [e])
    (hlost : (s.ring q).lostDue = false) (hen : (s.ring q).enabled = true) (hbus : s.pkg.busMaster = true)
    (hroom : (s.ring q).reserved < ((s.ring q).consumed n).free) :
    ∃ t, t = State.drainRing q ((s.ring q).held.length + 1) (s.setRing q ((s.ring q).consumed n)) ∧
      t.ring q = { (s.ring q).consumed n with held := [] }.push e s.pkg.meridian ∧ ∀ k, k ≠ q → t.ring k = s.ring k := by
  have hself := s.setRing_self q ((s.ring q).consumed n)
  have hdrain : State.drainRing q (((s.ring q).consumed n).held.length + 1) (s.setRing q ((s.ring q).consumed n)) =
      (s.setRing q ((s.ring q).consumed n)).setRing q ({ (s.ring q).consumed n with held := [] }.push e s.pkg.meridian) := by
    have hopen : s.ringOpen ((s.ring q).consumed n) = true := by simp [State.ringOpen, Ring.consumed, hen, hbus]
    have hone := State.drainRing_one (s := s.setRing q ((s.ring q).consumed n)) (r := q) (e := e)
    rw [hself] at hone
    exact hone hheld hlost hopen hroom
  refine ⟨_, rfl, ?_, fun k hk => State.drainRing_ne _ _ _ _ hk |>.trans (State.setRing_ne _ _ _ _ hk)⟩
  exact (congrArg (fun t : State => t.ring q) hdrain).trans (State.setRing_self ..)

/-- A ring as RING_ENABLE starts it. -/
def State.ringStarted (s : State) (q : Nat) : Ring :=
  { s.ring q with enabled := true, base := word (s.regBits RegMap.hqErBase (0x22000 + 0x40 * q) 12 52 * 4096),
                  sizeLog2 := s.regBits RegMap.hqErCfg (0x22008 + 0x40 * q) 0 5, tail := 0, head := 0, phase := true,
                  entries := [], unsignalled := 0 }

theorem State.ringOn_idle {s : State} {q : Nat} (hheld : (s.ring q).held = []) (hlost : (s.ring q).lostDue = false) :
    s.ringOn q = s.setRing q (s.ringStarted q) := by
  refine State.drainRing_idle _ ?_ ?_
  · rw [State.setRing_self]
    exact hheld
  · rw [State.setRing_self]
    exact hlost

theorem execRingEnable_starts {s : State} {q : Nat} (hlive : s.pkg.bothDead = false) (hq : q < 16)
    (hoff : bitAt (s.regWord RegMap.hqErCfg (0x22008 + 0x40 * q)) 8 = false) : exec (.ringEnable q) s =
      .next ((s.setRegWord RegMap.hqErCfg (0x22008 + 0x40 * q)
        (putBits (s.regWord RegMap.hqErCfg (0x22008 + 0x40 * q)) 8 1 1)).ringOn q) := by
  change execRingEnable q s = _
  exact if_pos ⟨hq, by simp [hoff], by simp [hlive]⟩

/-! ### BAR_BIND and interrupts (R374, R386) -/

section
variable {s : State} {slot : Nat} {check : BitVec 32} {x : Session} (hlive : s.pkg.bothDead = false) (hx : s.session slot = some x)
include hlive hx

theorem execBarBind_matching (hhost : x.isPort = false) (hcheck : x.scheck = check) :
    exec (.barBind slot check) s = .next { s with host := { s.host with bound := some slot } } := by
  change execBarBind slot check s = _
  rw [execBarBind, State.onBar_live hlive, State.bind, hx]
  exact congrArg _ (if_pos (by simp [hhost, hcheck]))

theorem execBarBind_other (hcheck : x.scheck ≠ check) : exec (.barBind slot check) s = .next s := by
  change execBarBind slot check s = _
  rw [execBarBind, State.onBar_live hlive, State.bind, hx]
  exact congrArg _ (if_neg (by simp [hcheck]))

end

section
variable {s : State} {q : Nat}

/-- A vector that is signalled changes the pending bits alone. -/
theorem State.signal_eq (s : State) (v : Nat) : s.signal v = { s with host := { s.host with msixPending := (s.signal v).host.msixPending } } := by
  unfold State.signal
  split <;> rfl

/-- A vector whose signal is masked is pending; the rings stay. -/
theorem State.signal_vector (s : State) (v : Nat) : (s.signal v).ring v = s.ring v ∧
    (s.vectorMasked v = false → (s.signal v).host.msixPending = s.host.msixPending) ∧
    (s.vectorMasked v = true → (s.signal v).host.msixPending = s.host.msixPending ||| (1#32 <<< v)) := by
  refine ⟨?_, fun h => ?_, fun h => ?_⟩
  · rw [State.signal_eq]
    rfl
  · rw [State.signal, if_neg (by simp [h])]
  · rw [State.signal, if_pos h]

theorem execMsixSignal_ring (hlive : s.pkg.bothDead = false) (hq : q < 16) (hdue : s.signalDue q = true)
    (hbus : s.pkg.busMaster = true) : exec (.msixSignal q) s = .next ((s.setRing q { s.ring q with
      unsignalled := 0, notify := false, signalled := (s.ring q).signalled + 1 }).signal q) := by
  change execMsixSignal q s = _
  rw [execMsixSignal, if_neg (by simp [hlive]), if_neg (by omega), if_pos ⟨hq, hdue, hbus⟩]

theorem execMsixSignal_faultn (hlive : s.pkg.bothDead = false) (hfault : s.cart.faultn = true) (hsig : s.host.faultnSig = 0) :
    exec (.msixSignal 16) s = .next (({ s with host := { s.host with faultnSig := 1 } } : State).signal 16) := by
  change execMsixSignal 16 s = _
  rw [execMsixSignal, if_neg (by simp [hlive]), if_pos rfl, if_pos ⟨hfault, hsig⟩]

end

/-! ### Function resets (R394, R397) -/

/-- One ring disabled, its entries gone from the hub. -/
def State.ringDisabled (s : State) (r : Nat) : State :=
  let k := 0x22008 + 0x40 * r
  let t1 := s.setRegWord RegMap.hqErCfg k (putBits (s.regWord RegMap.hqErCfg k) 8 1 0)
  t1.setRing r { t1.ring r with enabled := false, reserved := 0, held := [], unsignalled := 0, notify := false }

theorem State.ringDisabled_self (s : State) (r : Nat) : ((s.ringDisabled r).ring r).enabled = false := by
  rw [State.ringDisabled, State.setRing_self]

/-- A ring that is off stays off as others go off. -/
theorem State.ringDisabled_stays {s : State} {k : Nat} (h : (s.ring k).enabled = false) (r : Nat) : ((s.ringDisabled r).ring k).enabled = false := by
  by_cases hk : k = r
  · rw [hk, State.ringDisabled_self]
  · rw [State.ringDisabled, State.setRing_ne _ _ _ _ hk]
    exact h

theorem State.foldl_ringDisabled (l : List Nat) (s : State) {k : Nat} (hk : k ∈ l ∨ (s.ring k).enabled = false) :
    ((l.foldl State.ringDisabled s).ring k).enabled = false := by
  induction l generalizing s with
  | nil => exact hk.resolve_left List.not_mem_nil
  | cons r l ih =>
    refine ih _ ?_
    rcases hk with hk | hk
    · rcases List.mem_cons.mp hk with rfl | hk
      · exact .inr (State.ringDisabled_self ..)
      · exact .inl hk
    · exact .inr (State.ringDisabled_stays hk r)

theorem State.ringsOff_fold (s : State) : s.ringsOff = (rangeFrom 0 16).foldl State.ringDisabled s := rfl

theorem State.ringsOff_disabled (s : State) {k : Nat} (hk : k < 16) : (s.ringsOff.ring k).enabled = false := by
  rw [State.ringsOff_fold]
  exact State.foldl_ringDisabled _ s (.inl (mem_rangeFrom.mpr ⟨Nat.zero_le k, by omega⟩))

theorem State.ringDisabled_eq (s : State) (r : Nat) : s.ringDisabled r = { s with
    regs := (s.ringDisabled r).regs, host := { s.host with rings := (s.ringDisabled r).host.rings } } := rfl

/-- Rings that go off change their registers and their entries alone. -/
theorem State.ringsOff_eq (s : State) : s.ringsOff = { s with
    regs := s.ringsOff.regs, host := { s.host with rings := s.ringsOff.host.rings } } := by
  rw [State.ringsOff_fold]
  refine List.foldlRecOn (motive := fun t : State => t = { s with regs := t.regs, host := { s.host with rings := t.host.rings } }) _ _ rfl
    fun t ht r _ => ?_
  have hstep := t.ringDisabled_eq r
  generalize t.ringDisabled r = u at hstep ⊢
  exact hstep.trans (congrArg (fun w : State => { w with regs := u.regs, host := { w.host with rings := u.host.rings } }) ht)

/-- The queues empty, and everything that the host waits for gone. -/
def State.queuesOff (s : State) : State :=
  let h := s.host
  { s with
    host := { h with
      queues := [], nextQ := 0, msixTable := [], msixPending := 0, inflight := h.inflight.filter (fun i => i.c.queue.isNone),
      waiting := h.waiting.filter (fun w => match heldCtx w with
        | some c => c.queue.isNone
        | none => false) }
    auth := { s.auth with verify := s.auth.verify.filter (fun v => v.c.queue.isNone) } }

theorem State.queuesOff_ring (s : State) (k : Nat) : s.queuesOff.ring k = s.ring k := rfl

theorem State.ring_of_rings {s t : State} (h : t.host.rings = s.host.rings) (k : Nat) : t.ring k = s.ring k := by
  rw [State.ring, h, State.ring]

/-- The slots of the host sessions. -/
def State.hostSlots (s : State) : List Nat := s.openSlots.filter (fun k => k != portSlot)

theorem execFunctionReset_next (s : State) : exec .functionReset s =
    .next (s.ringsOff.queuesOff.hostSlots.foldl (fun t k => t.closeSession k Reason.functionReset) s.ringsOff.queuesOff) := rfl

/-- Sessions that close one after the other leave the rest of the ground, and their slots free. -/
theorem State.closeSessions_closed (s : State) (l : List Nat) (reason : Nat) :
    (∀ j, j ∈ l → (l.foldl (fun t k => t.closeSession k reason) s).session j = none) ∧
    (∀ j, s.session j = none → (l.foldl (fun t k => t.closeSession k reason) s).session j = none) ∧
    (l.foldl (fun t k => t.closeSession k reason) s).host.queues = s.host.queues ∧
    (l.foldl (fun t k => t.closeSession k reason) s).host.msixPending = s.host.msixPending := by
  have hground := State.closeSessions_ground reason l s
  rw [Ground.foldl_shut] at hground
  generalize l.foldl (fun t k => t.closeSession k reason) s = t at hground
  have hopens (j : Nat) : t.ground.opens j = if j ∈ l then false else s.ground.opens j :=
    congrFun (congrArg Ground.opens hground) j
  have hnone {j : Nat} (h : t.ground.opens j = false) : t.session j = none :=
    Option.isNone_iff_eq_none.mp (Option.isSome_eq_false_iff.mp h)
  refine ⟨fun j hj => hnone (by rw [hopens, if_pos hj]), fun j hj => hnone ?_, congrArg Ground.queues hground,
    congrArg Ground.vectors hground⟩
  have hfree : s.ground.opens j = false := congrArg Option.isSome hj
  rw [hopens, hfree, ite_self]

/-- A host session that nothing refers to ends without an event at a function reset. -/
theorem State.closeSession_reset {s : State} {k : Nat} (h : ∀ j, s.Alone j) (hk : k ≠ portSlot) :
    (s.closeSession k Reason.functionReset).host.rings = s.host.rings ∧ ∀ j, (s.closeSession k Reason.functionReset).Alone j := by
  cases hx : s.session k with
  | none =>
    have hsame : s.closeSession k Reason.functionReset = s := if_pos (congrArg Option.isNone hx)
    rw [hsame]
    exact ⟨rfl, h⟩
  | some x =>
    have hevent (t : State) : t.closedEvent k Reason.functionReset = t := if_pos (.inl rfl)
    rw [State.closeSession_host (congrArg Option.isSome hx) hk, State.vacated_alone (h k) hx rfl, hevent]
    refine ⟨rfl, fun j => ?_⟩
    obtain ⟨hw, hv, hr, he, hs, ho⟩ := h j
    refine ⟨hw, hv, ?_, he, ?_, ho⟩
    · change Tbl.mapVals {} _ s.host.refs = []
      rw [hr]
      rfl
    · change s.trace.streams.map _ = []
      rw [hs]
      rfl

theorem State.closeSessions_reset (l : List Nat) {s : State} (h : ∀ j, s.Alone j) (hl : ∀ k ∈ l, k ≠ portSlot) :
    (l.foldl (fun t k => t.closeSession k Reason.functionReset) s).host.rings = s.host.rings := by
  induction l generalizing s with
  | nil => rfl
  | cons k l ih =>
    obtain ⟨hrings, halone⟩ := State.closeSession_reset h (hl k List.mem_cons_self)
    rw [List.foldl_cons, ih halone fun j hj => hl j (List.mem_cons_of_mem k hj), hrings]

/-- After a function reset no host session is open, and the queues and the pending vectors are empty. -/
theorem State.functionReset_closed (s : State) : ∃ t, exec .functionReset s = .next t ∧ (∀ j, j ≠ portSlot → t.session j = none) ∧
    t.host.queues = [] ∧ t.host.msixPending = 0 := by
  obtain ⟨hclosed, hfree, hqueues, hpending⟩ :=
    s.ringsOff.queuesOff.closeSessions_closed s.ringsOff.queuesOff.hostSlots Reason.functionReset
  refine ⟨_, execFunctionReset_next s, fun j hj => ?_, hqueues, hpending⟩
  by_cases hm : j ∈ s.ringsOff.queuesOff.hostSlots
  · exact hclosed j hm
  · have hopen : j ∉ s.ringsOff.queuesOff.openSlots := fun ho => hm (List.mem_filter.mpr ⟨ho, by simp [hj]⟩)
    exact hfree j (Option.isNone_iff_eq_none.mp (Option.isSome_eq_false_iff.mp (State.not_open_of_not_mem hopen)))

theorem State.Alone.ringsOff {s : State} {j : Nat} (h : s.Alone j) : s.ringsOff.Alone j := by
  obtain ⟨hw, hv, hr, he, hs, ho⟩ := h
  have heq := s.ringsOff_eq
  generalize s.ringsOff = t at heq ⊢
  rw [heq]
  exact ⟨hw, hv, hr, he, hs, ho⟩

theorem State.Alone.queuesOff {s : State} {j : Nat} (h : s.Alone j) : s.queuesOff.Alone j := by
  obtain ⟨hw, hv, hr, he, hs, ho⟩ := h
  refine ⟨?_, ?_, hr, he, hs, ho⟩
  · rw [State.queuesOff, hw]
    rfl
  · rw [State.queuesOff, hv]
    rfl

/-- Rings stay off where nothing refers to the sessions that close. -/
theorem State.functionReset_rings {s : State} (h : ∀ j, s.Alone j) {k : Nat} (hk : k < 16) :
    ((s.ringsOff.queuesOff.hostSlots.foldl (fun t k => t.closeSession k Reason.functionReset) s.ringsOff.queuesOff).ring k).enabled =
      false := by
  have halone (j : Nat) : s.ringsOff.queuesOff.Alone j := (h j).ringsOff.queuesOff
  have hrings := State.closeSessions_reset s.ringsOff.queuesOff.hostSlots halone fun j hj => by
    simpa using (List.mem_filter.mp hj).2
  rw [State.ring_of_rings hrings k, State.queuesOff_ring]
  exact s.ringsOff_disabled hk

/-- Settles O54: queues by their doorbell and their turn, rings by what they hold back, and what a function reset ends. -/
theorem hostQueues : Obligations.HostQueues := by
  intro s q n hq hlive c g
  refine ⟨fun h => ?_, fun h => ?_, fun h => ?_, fun h => ?_, fun arg htakes hturn => ⟨fun h => ?_, fun st h => ?_⟩,
    fun hlow hn hcart hlost => ⟨fun hheld => ?_, fun e hheld hen hbus hroom => ?_⟩, fun hoff hheld hlost => ?_,
    fun slot check x hx => ⟨fun hhost hcheck => execBarBind_matching hlive hx hhost hcheck, fun hcheck => execBarBind_other hlive hx hcheck⟩,
    ?_, fun hdue hbus => ?_, fun hfault hsig => ?_, ?_, rfl, fun e hrest hheld hlost hen hroom => ?_⟩
  · rw [execHqDb_live hlive hq]
    exact congrArg _ (if_pos h)
  · rw [execHqDb_live hlive hq]
    exact congrArg _ (if_neg (Nat.not_lt.mpr h))
  · rw [execDbErrClear_live hlive hq]
    exact congrArg _ (if_pos h)
  · rw [execDbErrClear_live hlive hq]
    exact congrArg _ (if_neg (by simp [c] at h; simp [h]))
  · rw [execCommandTake_turn htakes hturn, h]
    rfl
  · rw [execCommandTake_turn htakes hturn, h]
    rfl
  · rw [execHqErHead_live hlive hq, State.headPut_legal hlow hn hcart, State.drainRing_idle]
    · rfl
    · rw [State.setRing_self]
      exact hheld
    · rw [State.setRing_self]
      exact hlost
  · obtain ⟨t, rfl, hring, hrest⟩ := State.drainRing_consumed (n := n) hheld hlost hen hbus hroom
    refine ⟨_, (execHqErHead_live hlive hq n).trans (congrArg _ (State.headPut_legal hlow hn hcart _)), ?_, ?_, ?_, hrest⟩
    all_goals rw [hring]
    all_goals rfl
  · refine ⟨_, (execRingEnable_starts hlive hq hoff).trans (congrArg _ (State.ringOn_idle hheld hlost)), ?_⟩
    rw [State.setRing_self]
    exact ⟨rfl, rfl, rfl, rfl, rfl, rfl, rfl, fun k hk => State.setRing_ne _ _ _ _ hk⟩
  · change execUnbind s = _
    rw [execUnbind, State.onBar_live hlive]
    rfl
  · refine ⟨_, execMsixSignal_ring hlive hq hdue hbus, ?_⟩
    obtain ⟨hring, hopen, hmasked⟩ := State.signal_vector (s.setRing q { s.ring q with
      unsignalled := 0, notify := false, signalled := (s.ring q).signalled + 1 }) q
    rw [hring, State.setRing_self]
    exact ⟨rfl, rfl, hopen, hmasked⟩
  · refine ⟨_, execMsixSignal_faultn hlive hfault hsig, ?_⟩
    rw [State.signal_eq]
    exact ⟨rfl, rfl⟩
  · obtain ⟨t, hrun, hclosed, hqueues, hpending⟩ := s.functionReset_closed
    refine ⟨t, hrun, hclosed, hqueues, hpending, fun he hr hs ho _ hw hv k hk => ?_⟩
    obtain rfl := Host.Outcome.next.inj ((execFunctionReset_next s).symm.trans hrun)
    exact State.functionReset_rings (fun j => ⟨hw, hv, hr, he, hs, by simp [ho]⟩) hk
  · exact congrArg Host.Outcome.next (State.drainRings_one (s := { s with pkg := { s.pkg with busMaster := true } }) hq hrest hheld hlost
      (by rw [State.ringOpen, Bool.and_true]; exact hen) hroom)

end Sys2Proof.Machine

/-! SUPPORT. The hub firmware statement (R403 to R411) fails where the update sector has no unit left to write: a self-test that passes in a
trial boot then leaves the slot in TRIAL, for the confirmation of the slot is a write of that sector. -/

namespace Sys2Proof.Machine

theorem State.setUpd_upd (s : State) (u : Update) : (s.setUpd u).upd = u := by
  unfold State.setUpd
  split <;> rfl

section
variable {s : State} (hfull : s.canWrite [(3, 1)] = false)
include hfull

/-- An update sector that cannot be written keeps what it holds (R367). -/
theorem State.writeUpd_worn (f : Update → Update) : (s.writeUpd f).upd = s.upd := by
  rw [State.writeUpd, if_neg (by simp [hfull])]
  unfold State.wornReport
  split <;> rw [State.lifeReport, State.reportHub_eq]

/-- So a confirmation leaves both slots as they are. -/
theorem State.confirm_worn (i : Nat) : s.confirm.fwSlot i = s.fwSlot i := by
  unfold State.confirm
  split
  · rfl
  · rw [State.updReport, State.reportHub_eq]
    simp only [State.fwSlot, State.setUpd_upd, State.writeUpd_worn hfull]

end

/-- A trial boot at the end of its start-up, with slot A on trial. On die 0 the update sector has taken all its writes, and no spare is
left for it (R366, R367). -/
def wornTrial : State := { State.reset with
  pkg := { bootStep := 7 }
  upd := { slotA := { state := SlotState.trial }, trial := true }
  life := { sectors := (3, { count := sectorLimit }) :: (rangeFrom 56 8).map (fun p => (p, { inUse := true })) } }

theorem wornTrial_full : wornTrial.canWrite [(3, 1)] = false := by decide

/-- The self-test that passes tries to confirm the slot on trial. -/
theorem execBuiltInSelfTest_wornTrial : exec (.builtInSelfTest true) wornTrial = .next wornTrial.confirm := rfl

/-- Refutes O53: with MANUAL 0 a self-test that passes in a trial boot confirms the slot by a write of the update sector; worn out and
without a spare, that sector keeps the slot in TRIAL (`wornTrial`), where the statement has CONFIRMED. -/
theorem not_firmwareUpdate : ¬ Obligations.FirmwareUpdate := by
  intro h
  obtain ⟨-, -, htrial⟩ := h wornTrial (entryCtx none [])
  obtain ⟨hlate, -⟩ := htrial 0 rfl rfl rfl
  obtain ⟨hpass, -⟩ := hlate (by decide) rfl
  obtain ⟨-, hconfirm⟩ := hpass (by decide)
  obtain ⟨t, hrun, hconfirmed, -⟩ := hconfirm rfl
  obtain rfl := Host.Outcome.next.inj (execBuiltInSelfTest_wornTrial.symm.trans hrun)
  rw [State.confirm_worn wornTrial_full] at hconfirmed
  exact absurd hconfirmed (by decide)

end Sys2Proof.Machine
